-- ==== Sys2Proof/Word.lean ====
section
/-! DEFINITION. The words of the SPL-7200 model: the widths the manual gives (R6, R7, R26), and the
plainest arithmetic on them. A sparse table `Tab` holds the entries of a bank of like things (ports, setts,
queues, lines); a key it does not list stands for the entry's reset value, which its reader names. -/

namespace Sys2Proof

/-- One byte. -/
abbrev Byte := BitVec 8
/-- A register (R26) or a 32-bit field. -/
abbrev W32 := BitVec 32
/-- A 64-bit quantity. -/
abbrev W64 := BitVec 64
/-- A node identifier (R123). -/
abbrev Node := BitVec 21
/-- A 16-byte slot of a flow unit (R142, R169). -/
abbrev Slot := BitVec 128
/-- Bytes in address order (R7: byte 0 first). -/
abbrev Bytes := List Byte
/-- A sparse table: keys strictly rising; a key that is not listed holds the reset value its reader names. -/
abbrev Tab (α : Type) := List (Nat × α)

end Sys2Proof
end

