-- ==== Sys2Proof/Syntax.lean ====
section
/-! DEFINITION. The commands of the block: one constructor of `Instr` for each row of
spec/opcode_table.json, with the row's operands. A command is one whole and indivisible step of the device
(spec/95_what_each_step_holds.md). What arrives from outside (a message, a frame, a lane block, a
register write, an edge of a pin) is an operand; so is a disturbance of a memory cell that the step finds
(`Noise`, symbol and bit errors), because the manual's checks react to it and nothing in the device makes it. -/

namespace Sys2Proof

/-- The requester paths to the control space (R24, R32). -/
inductive Path where
  /-- Owl -/
  | owl
  /-- the host path of partition page `p` -/
  | host (p : Nat)
deriving DecidableEq, Repr, Inhabited

/-- A message on a Dreriorn link: the header slot's fields (R170) and the slots after it, raw (R173, R174).
The type is the row's. `rsv` is header bit 32. -/
structure Msg where
  len : BitVec 4
  src : Node
  dst : Node
  tag : BitVec 16
  srcGen : Byte
  info : BitVec 16
  poison : Bool
  resend : Bool
  mcast : Bool
  rsv : Bool
  crc : W32
  body : List Slot
deriving DecidableEq, Repr, Inhabited

/-- Disturbances of SRAM words that a request's accesses find (R439–R445): an 80-bit error pattern for the
directory word, for word `word` of the line-cache or scratch line, for the deduplication entry and for the
node-generation word. All zero: no disturbance. -/
structure Noise where
  dir : BitVec 80
  line : BitVec 80
  word : BitVec 3
  dedup : BitVec 80
  gen : BitVec 80
deriving DecidableEq, Repr, Inhabited

/-- The undisturbed access. -/
def Noise.none : Noise := ⟨0, 0, 0, 0, 0⟩

/-- A Dreriorn flow unit (R142): the link header, fifteen slots and the CRC-64; and the stream blocks that carried it and
did not check as good (R136): each one's lane, and whether its one wrong bit was corrected. -/
structure FlowUnit where
  hdr : W64
  slots : List Slot
  crc : W64
  blocks : List (Nat × Bool) := []
deriving DecidableEq, Repr, Inhabited

/-- What Owl reads from the SPD of channel `ch`'s DIMM (R403, R428): its type, its highest speed grade (both coded as in `Dimm`), and
whether it declares that its ranks take a segment mask in self-refresh. -/
structure Spd where
  ch : Nat
  kind : BitVec 2
  grade : BitVec 2
  segs : Bool
deriving DecidableEq, Repr, Inhabited

/-- What stands when owl_up rises: whether firmware bank B runs rather than A, and what Owl reads from the SPD of the DIMMs
installed (R95, R403); and, in a MANUFACTURING boot, what came over MGT (R93): the firmware's security_version and image, and the
device's identity certificate (R509). -/
structure OwlBoot where
  bankB : Bool
  spd : List Spd
  fw : Nat × Bytes := (0, [])
  cert : Bytes := []
deriving DecidableEq, Repr, Inhabited

/-- Strap levels at the lands (R92–R98). -/
structure Straps where
  boot : BitVec 2
  layout : BitVec 3
  dram : BitVec 2
  mgt : BitVec 2
  fabw : BitVec 2
  id : BitVec 6
deriving DecidableEq, Repr, Inhabited

/-- What a channel's SPD and training report (R103, R403): DIMM type (0 none, 1 RDIMM, 2 MRDIMM,
3 unsupported), ranks installed, ranks that failed training, rank capacity in GiB, highest speed grade
(0: 12,800; 1: 9,600; 2: 6,400 MT/s), whether it is built from x4 devices as R403 asks, the timing
registers' values, and whether its ranks take a segment mask in self-refresh (R428). -/
structure Dimm where
  kind : BitVec 2
  present : BitVec 4
  failed : BitVec 4
  rankGib : BitVec 10
  grade : BitVec 2
  x4 : Bool
  tim0 : W32
  tim1 : W32
  tim2 : W32
  tim3 : W32
  segs : Bool := true
deriving DecidableEq, Repr, Inhabited

/-- The RWT fields (R36). -/
inductive RwtField where
  /-- ownership of a partition's resources (its PARTITION record) -/
  | owner (p : Nat)
  | layoutGen
  | secState
  /-- entry `i` of the routing table -/
  | route (i : Nat)
  /-- a multicast group's masks (R193) -/
  | mcast (g : Nat)
  /-- fab_share and hst_share of partition `p` -/
  | share (p : Nat)
  /-- the owner of entry `i` of EXTENT (R69) -/
  | extent (i : Nat)
  /-- the owner of slot `i` of GATE (R70) -/
  | slot (i : Nat)
deriving DecidableEq, Repr, Inhabited

/-- A disturbance of one copy (0, 1 or 2) of an RWT field: the bits that differ. -/
structure Upset where
  field : RwtField
  copy : Nat
  mask : Nat
deriving DecidableEq, Repr, Inhabited

/-- The FIFO-style interfaces (R45). -/
inductive FifoId where
  | inq (e : Nat)
  | mbox
  | spdm (p : Nat)
deriving DecidableEq, Repr, Inhabited

/-- The caches and engines that take part in an invalidation (R288): 85 units. -/
inductive InvUnit where
  | sett (n : Nat)
  | engine (e : Nat)
  | walkers (g : Nat)
  | overflow
deriving DecidableEq, Repr, Inhabited

/-- An Ethernet or IP frame that is not RoCEv2, as far as R558 and R559 look at it. -/
structure Frame where
  srcMac : BitVec 48
  dstMac : BitVec 48
  vlan : Option (BitVec 12)
  fcsOk : Bool
  bytes : Nat
  srcIp : BitVec 128
  dstIp : BitVec 128
  v6 : Bool
  /-- an IP fragment, or an IPv4 packet with options -/
  fragment : Bool
  payload : Bytes
deriving DecidableEq, Repr, Inhabited

/-- A RoCEv2 packet (R560–R576): the frame fields the device checks, the BTH, and the RETH or AtomicETH. -/
structure Packet where
  frame : Frame
  icrcOk : Bool
  dscp : BitVec 6
  ce : Bool
  prio : BitVec 3
  opcode : Byte
  dqpn : BitVec 24
  psn : BitVec 24
  ackReq : Bool
  va : W64
  rkey : W32
  dmaLen : W32
  /-- AtomicETH: the swap value (or the addend) and the compare value -/
  swap : W64
  cmp : W64
  data : Bytes
deriving DecidableEq, Repr, Inhabited

/-- What arrives at the MGT port (R533): ARP, a neighbour solicitation, an echo request, a TCP segment, a DHCPv4 message, a router
advertisement, or another frame. -/
inductive MgtKind where
  | arp | ndp | echo | tcp | dhcp | ra | other
deriving DecidableEq, Repr, Inhabited

/-- What a TLS client offers (R534): versions, cipher suites, signature schemes and groups by their code points, and whether it asks for
a session by PSK or resumption alone. -/
structure TlsOffer where
  versions : List (BitVec 16)
  suites : List (BitVec 16)
  schemes : List (BitVec 16)
  groups : List (BitVec 16)
  pskOnly : Bool := false
deriving DecidableEq, Repr, Inhabited

/-- The head of a command message whose code is no command: its code, and the body length it names (R536). -/
structure CmdHead where
  code : BitVec 16
  length : Nat := 0
deriving DecidableEq, Repr, Inhabited

/-- What is shifted in on the test access port (R521, R526): BYPASS, IDCODE, a push of one word into the Owl
mailbox (with or without the end-of-packet mark), or another instruction register value. -/
inductive TapInstr where
  | bypass
  | idcode
  | push (w : W32) (eop : Bool)
  | other (ir : Nat)
deriving DecidableEq, Repr, Inhabited

/-- The commands: one per row of spec/opcode_table.json. Those without operands stand last: the runtime has object
tags for the first 244 constructors only, and a constructor without operands needs none. -/
inductive Instr where
  -- power-up and reset (04, 18, 22, 23)
  /-- R101: PWRGOOD rises, with the strap lands' levels and the level of WRST_N (R610). -/
  | pwrgoodRise (straps : Straps) (wrstN : Bool)
  /-- R580: the reference stops (`true`), or the PLL loses lock for more than 1 µs. -/
  | clockLoss (refStopped : Bool)
  /-- R101 steps 3 and 4: the firmware of a bank sets owl_up, and Owl reads SPD. -/
  | owlUp (boot : OwlBoot)
  /-- R544: a bank is refused or does not come up in 400 ms. -/
  | bankBootFail (bankB : Bool)
  /-- R103: training of channel `ch` ends with what its DIMM reports. -/
  | channelTrainingEnd (ch : Nat) (d : Dimm)
  /-- R610: WRST_N falls and stays low for `ns` nanoseconds. -/
  | wrstNFall (ns : Nat)
  /-- R106 step 7, R499: the Burrow zero-fill ended, well or with an uncorrectable write. `tests` gives the
  built-in test results of the units that were out of service: engines (bits 63:0), sett units (bits 95:64). -/
  | warmZeroFillDone (ok : Bool) (tests : BitVec 96)
  -- registers (02)
  /-- R31: a write of `v` at `off`. -/
  | registerWrite (path : Path) (off : Nat) (v : W32)
  /-- R32: a write of `v` to the *_UNLOCK register at `off`. -/
  | unlockWrite (path : Path) (off : Nat) (v : W32)
  /-- R34: the arming of the *_UNLOCK register at `off` reaches its 65,536 clocks. -/
  | unlockLapse (path : Path) (off : Nat)
  /-- R40: a write of `v` to the W1C register at `off`; `sets` are the bits hardware sets in the same clock. -/
  | w1cClear (path : Path) (off : Nat) (v : W32) (sets : W32)
  /-- R36: the scheduled re-vote, with the disturbances it finds. -/
  | rwtRevote (upsets : List Upset)
  /-- R37: Owl rewrites the three copies. -/
  | rwtRewrite (f : RwtField)
  /-- R41: *_CMD = 0b01. -/
  | fifoPop (path : Path) (f : FifoId)
  /-- R43: *_CMD = 0b10. -/
  | fifoDrop (path : Path) (f : FifoId)
  /-- R41: a write to *_PUSH. -/
  | fifoPush (path : Path) (f : FifoId) (w : W32)
  /-- R41: a write to *_PUSHEOP. -/
  | fifoPushEop (path : Path) (f : FifoId) (w : W32)
  /-- R354: engine `e` starts the head descriptor of its input queue. -/
  | inqDescriptorStart (e : Nat)
  -- partitions (05)
  /-- R116: a keyed write of op_hold. -/
  | partOpHold (path : Path) (p : Nat) (v : Bool)
  /-- R116: a keyed write of tenant_hold. -/
  | partTenantHold (path : Path) (p : Nat) (v : Bool)
  /-- R117 -/
  | partitionQuiesced (p : Nat)
  /-- R118 -/
  | partDraining10ms (p : Nat)
  /-- R489 -/
  | partDraining100ms (p : Nat)
  /-- R121: a keyed write of 1 to reset_req. -/
  | partReset (path : Path) (p : Nat)
  /-- R495 -/
  | partitionResetDone (p : Nat)
  -- the link layer (06)
  /-- R163: a keyed write of LNK_CTRL's enable. -/
  | lnkEnable (port : Nat) (v : Bool)
  /-- R163: a keyed write of 1 to auto_up. -/
  | lnkAutoUp (port : Nat)
  /-- R164 -/
  | takeDown (port : Nat)
  /-- R164 -/
  | lnkCmdRetrain (port : Nat)
  /-- R158 -/
  | planGo (port : Nat)
  /-- R160: a keyed write of a lane's power bit. -/
  | lanePower (port lane : Nat) (v : Bool)
  /-- R160 -/
  | laneClearFail (port lane : Nat)
  /-- R163 -/
  | downHoldoffEnd (port : Nat)
  /-- R140 phase 1: a lane block arrives on a lane. -/
  | tsId (port lane : Nat) (blk : BitVec 272)
  /-- R140 phase 2. -/
  | tsEq (port lane : Nat) (blk : BitVec 272)
  /-- R140 phase 3; `skew` is the lane's skew in blocks, `margin` its measured margin (LNK_LANE_MARGIN). -/
  | tsDone (port lane : Nat) (blk : BitVec 272) (skew : Nat) (margin : BitVec 16)
  /-- R140 phase 4. -/
  | tsGo (port lane : Nat) (blk : BitVec 272)
  /-- R141 -/
  | retrainLcb (port lane : Nat) (blk : BitVec 272)
  /-- R141 -/
  | downLcb (port lane : Nat) (blk : BitVec 272)
  /-- R141 -/
  | standbyLcb (port lane : Nat) (blk : BitVec 272)
  /-- R141 -/
  | laneTrainLcb (port lane : Nat) (blk : BitVec 272)
  /-- R163 -/
  | trainTimeout (port : Nat)
  /-- R163 -/
  | retrainTimeout (port : Nat)
  /-- R163, R165 -/
  | retrainComplete (port : Nat)
  /-- R164 -/
  | laneLockLoss (port lane : Nat)
  /-- R164 -/
  | planLockLoss (port : Nat)
  /-- R161: an uncorrectable block of the lane reaches lane_fail_limit. -/
  | laneFail (port lane : Nat)
  /-- R148 -/
  | dataUnit (port : Nat) (u : FlowUnit)
  /-- R148 -/
  | idleUnit (port : Nat) (u : FlowUnit)
  /-- R150 -/
  | replayUnit (port : Nat) (u : FlowUnit)
  /-- R158 -/
  | planUnitReq (port : Nat) (u : FlowUnit)
  /-- R158 -/
  | planUnitAcc (port : Nat) (u : FlowUnit)
  /-- R158 -/
  | planUnitRej (port : Nat) (u : FlowUnit)
  /-- R158 -/
  | planUnitGo (port : Nat) (u : FlowUnit)
  /-- R151 -/
  | replayTimer (port : Nat)
  /-- R164 -/
  | sameLimitReached (port : Nat)
  /-- R164 -/
  | winLimitReached (port : Nat)
  /-- R164 -/
  | retrainLimitReached (port : Nat)
  -- messages (07, 08, 09)
  /-- R214 -/
  | rdShared (port : Nat) (m : Msg) (n : Noise)
  /-- R214 -/
  | rdOwn (port : Nat) (m : Msg) (n : Noise)
  /-- R214 -/
  | upgrade (port : Nat) (m : Msg) (n : Noise)
  /-- R214 -/
  | rdOnce (port : Nat) (m : Msg) (n : Noise)
  /-- R214 -/
  | wrLine (port : Nat) (m : Msg) (n : Noise)
  /-- R214 -/
  | wrPart (port : Nat) (m : Msg) (n : Noise)
  /-- R222 -/
  | atomic (port : Nat) (m : Msg) (n : Noise)
  /-- R257 -/
  | accWr (port : Nat) (m : Msg) (n : Noise)
  /-- R249 -/
  | publish (port : Nat) (m : Msg) (n : Noise)
  /-- R214 -/
  | wbDirty (port : Nat) (m : Msg) (n : Noise)
  /-- R214 -/
  | wbClean (port : Nat) (m : Msg) (n : Noise)
  /-- R214 -/
  | snpAck (port : Nat) (m : Msg)
  /-- R214 -/
  | snpData (port : Nat) (m : Msg)
  /-- R199 -/
  | fmNodeDown (port : Nat) (m : Msg)
  /-- R199 -/
  | fmNodeUp (port : Nat) (m : Msg)
  /-- R199 -/
  | fmEcho (port : Nat) (m : Msg)
  /-- R199 -/
  | fmEchoRsp (port : Nat) (m : Msg)
  /-- R176: a message of any type the device does not receive. -/
  | unexpectedMessage (port : Nat) (ty : BitVec 6) (m : Msg)
  -- the home (08)
  /-- R218: the parked requests of a line compete again. -/
  | requestWake (sett : Nat) (line : Nat)
  /-- R219 -/
  | minHoldEnd (sett : Nat) (line : Nat)
  /-- R220: a parked request passes 4P. -/
  | requestStarved (sett : Nat) (id : Nat)
  /-- R220: a parked request passes 64P. -/
  | starveCount (sett : Nat) (id : Nat)
  /-- R221 -/
  | parkTimeout (sett : Nat) (id : Nat)
  /-- R225: the timer of the snoop with this tag. -/
  | snoopTimeout (tag : BitVec 16)
  /-- R227 -/
  | deathSweepEnd (sett : Nat)
  /-- R183 -/
  | dedupEntryExpiry (src : Node) (gen : Byte) (tag : BitVec 16)
  /-- R444 -/
  | dedupBlockEnd (src : Node) (gen : Byte) (tag : BitVec 16)
  /-- R445: the block of the four nodes of table word `w`. -/
  | nodeGenBlockEnd (w : Nat)
  -- DRAM (14, 15, 16)
  /-- R390: the line read of transaction `id` returns, with the symbol errors found (R433). -/
  | dramReadComplete (id : Nat) (errs : List (Nat × Byte))
  /-- R409 -/
  | dramAccessWithdrawn (id : Nat)
  /-- R391: entry `i` of the sett's victim buffer is placed in its write queue. -/
  | victimQueued (sett : Nat) (i : Nat)
  /-- R419: the batch of a line ends, with the symbol errors its read found. -/
  | rmwBatchDone (line : Nat) (errs : List (Nat × Byte))
  /-- R407 -/
  | requestAged (ch sub i : Nat)
  /-- R410 -/
  | bankIdlePrecharge (ch sub rank bank : Nat)
  /-- R411: tREFI of a rank, subchannel and bank index. -/
  | refreshDue (ch sub rank bank : Nat)
  /-- R411: four tREFI. -/
  | refreshForced (ch sub rank bank : Nat)
  /-- R412: mode register 4 of a rank reads a doubled rate, or not. -/
  | mr4Poll (ch rank : Nat) (doubled : Bool)
  /-- R415 -/
  | dramAlert (ch sub : Nat)
  /-- R416 -/
  | caRetrainStart (ch : Nat)
  /-- R416 -/
  | caRetrainEnd (ch : Nat) (ok : Bool)
  /-- R413: a keyed write of DRC_CTRL hold. -/
  | drcHold (ch : Nat) (v : Bool)
  /-- R431: a keyed write of DRC_TIM0–3. -/
  | drcTimingWrite (ch : Nat) (r : Nat) (v : W32)
  /-- R422 -/
  | spareCmdGo (ch : Nat) (rank : BitVec 2)
  /-- R422 -/
  | ceLimitReached (ch : Nat) (rank : Nat)
  /-- R437: a device reaches 8 device corrections, or Owl marks it. -/
  | deviceMark (ch rank sub dev : Nat) (byOwl : Bool)
  /-- R424: the next chunk is copied; `ue` lists lines (q div 64) of it that were uncorrectable; `writeFail`:
  a write of the spare failed its check. -/
  | migrationChunkDone (ch : Nat) (errs : List (Nat × List (Nat × Byte))) (writeFail : Bool)
  /-- R451: scrubber `unit` (0–31, 0x20 the Burrow) reads its next line; the errors it finds there. -/
  | scrubRead (unit : Nat) (errs : List (Nat × Byte)) (sram : BitVec 80)
  /-- R452 -/
  | scrubStarvedInterval (unit : Nat)
  /-- R452 -/
  | scrubLapLimit (unit : Nat)
  -- publication and translation (09, 10)
  /-- R253 -/
  | regionDrainComplete (region : BitVec 24)
  /-- R277: the walk for (asid, page v[56:21]) ends. -/
  | walkComplete (asid : BitVec 16) (page : Nat)
  /-- R278 -/
  | walkTimeout (asid : BitVec 16) (page : Nat)
  /-- R288 step 2 at one unit. -/
  | invalidationReceive (u : InvUnit) (id : Nat)
  /-- R288 step 3 at the overflow cache. -/
  | overflowSweepEnd (id : Nat)
  /-- R288 step 4 -/
  | drainReport (u : InvUnit) (id : Nat)
  /-- R291 -/
  | invalidationDrainTimeout (id : Nat)
  /-- R287: a keyed write of XLT_INV with go and region 0. -/
  | xltInvAsid (target : BitVec 24)
  /-- R287 -/
  | xltInvRegion (target : BitVec 24)
  -- queues and engines (12)
  /-- R323: the enable bit of queue offset `o` goes from 0 to 1. -/
  | queueEnable (path : Path) (p o : Nat)
  /-- R351 -/
  | queueDisable (path : Path) (p o : Nat)
  /-- R352 -/
  | queueReset (path : Path) (p : Nat) (o : BitVec 12)
  /-- R327 -/
  | queueWake (q : Nat)
  /-- R328: the read of the queue's oldest fetched index returns. -/
  | descriptorFetched (q : Nat)
  /-- R346: the hand-over of a fired counter reaches queue `q`. -/
  | handOver (q : Nat)
  /-- R345: a turn of queue `q`. -/
  | descriptorDispatch (q : Nat)
  /-- R330 -/
  | nop (q : Nat)
  /-- R332 -/
  | copy (e : Nat)
  /-- R332 -/
  | fill (e : Nat)
  /-- R333 -/
  | convert (e : Nat)
  /-- R334 -/
  | gather (e : Nat)
  /-- R334 -/
  | scatter (e : Nat)
  /-- R336: `order` is the order in which the contributions' lines reach the stream buffer. -/
  | reduce (e : Nat) (order : List Nat)
  /-- R337, R381 -/
  | program (e : Nat)
  /-- R332 -/
  | digest (e : Nat)
  /-- R335 -/
  | compact (e : Nat)
  /-- R338 -/
  | fenceBarrier (q : Nat)
  /-- R338 -/
  | fenceInvalidate (q : Nat)
  /-- R319: the oldest answer at the engine's skulk stop arrives; `sbuf` is a disturbance of the
  stream-buffer word it is written to. -/
  | engineTransferAnswer (e : Nat) (sbuf : BitVec 80)
  /-- R357 -/
  | tileStart (e : Nat)
  /-- R357 -/
  | tileEnd (e : Nat)
  -- instructions of a Fox program (13): the engine executes its next instruction word
  /-- R369 -/
  | add (e : Nat)
  /-- R369 -/
  | sub (e : Nat)
  /-- R370 -/
  | mul (e : Nat)
  /-- R370 -/
  | fma (e : Nat)
  /-- R371 -/
  | div (e : Nat)
  /-- R371 -/
  | rsqrt (e : Nat)
  /-- R371 -/
  | sqrt (e : Nat)
  /-- R371 -/
  | exp2 (e : Nat)
  /-- R371 -/
  | log2 (e : Nat)
  /-- R372 -/
  | min (e : Nat)
  /-- R372 -/
  | max (e : Nat)
  /-- R372 -/
  | abs (e : Nat)
  /-- R372 -/
  | sign (e : Nat)
  /-- R373 -/
  | cmp (e : Nat)
  /-- R368 -/
  | sel (e : Nat)
  /-- R372 -/
  | clamp (e : Nat)
  /-- R374 -/
  | cvt (e : Nat)
  /-- R374 -/
  | srnd (e : Nat)
  /-- R376 -/
  | rsum (e : Nat)
  /-- R376 -/
  | rssq (e : Nat)
  /-- R376 -/
  | rmaxa (e : Nat)
  /-- R340: the descriptor that engine `e` has ended. -/
  | descriptorComplete (e : Nat)
  /-- R483 -/
  | engineHang (e : Nat)
  /-- R483 -/
  | engineCheckerFault (e : Nat)
  /-- R484: a keyed write of 1 to FOX_CTRL reset. -/
  | foxReset (e : Nat)
  /-- R484 step 2 at one sett. -/
  | enginePurge (sett e : Nat)
  /-- R484 steps 2–3. -/
  | purgeReport (sett e : Nat)
  /-- R484 steps 4–5. -/
  | engineResetDone (e : Nat)
  /-- R485 -/
  | engineResetTimeout (e : Nat)
  -- Burrow extension, event ring, QoS (14, 16, 17)
  /-- R398: a keyed write of apply to BUR_EXTCTRL[p]. -/
  | extensionApply (p : Nat)
  /-- R459 -/
  | eventRingConfig (path : Path) (p : Nat) (v : W32)
  /-- R457 -/
  | eventConsumerWrite (path : Path) (p : Nat) (v : W32)
  /-- R467: the next message of partition `p`'s egress queue on port `k` leaves. -/
  | egressDepart (k p : Nat)
  /-- R476 -/
  | maxclrDepth (path : Path) (p k : Nat)
  /-- R476 -/
  | maxclrDelay (path : Path) (p k : Nat)
  /-- R479: a keyed write of apply to QOS_APPLY of block (p, k). -/
  | qosApply (p k : Nat)
  -- sett pairs (18)
  /-- R491: `cause` as in SETT_PAIRSTAT. -/
  | settBadCycle (sett : Nat) (cause : Byte)
  /-- R490 -/
  | settCopyWatchdog (sett : Nat)
  /-- R492: the standby fails, or (`copyPath`) the copy path. -/
  | settStandbyFail (sett : Nat) (copyPath : Bool)
  /-- R493 -/
  | settSelfTestEnd (sett : Nat) (pass : Bool)
  /-- R493 -/
  | settResyncDone (sett : Nat)
  /-- R493 -/
  | settResyncTimeout (sett : Nat)
  /-- R502 -/
  | settPaircmdFailover (sett : Nat)
  /-- R502 -/
  | settPaircmdResync (sett : Nat)
  -- consent and debug (19)
  /-- R522 -/
  | consentKeySet (path : Path) (p : Nat)
  /-- R523 -/
  | tokenInstall (path : Path) (p : Nat)
  /-- R525 -/
  | tokenRevoke (path : Path) (p : Nat)
  /-- R525 -/
  | tokenLapse (p : Nat)
  /-- R530: a keyed write of SEC_D1REQ. -/
  | d1Request (v : W32)
  -- Owl (20)
  /-- R534: a handshake whose parameters and certificate chain of `chain` certificates are in order, or not. -/
  | tlsHandshake (paramsOk : TlsOffer) (chain : Nat) (rootDigest : Bytes)
  /-- R535 -/
  | sessionClose (sess : Nat)
  /-- R535 -/
  | sessionIdleTimeout (sess : Nat)
  /-- R533 -/
  | mgtFrame (k : MgtKind) (f : Frame) (tcpPort : BitVec 16)
  /-- R539: a chunk that is not the last; `code` names the command. -/
  | commandChunk (sess : Nat) (code : BitVec 16) (tag : W32) (body : Bytes)
  /-- R537 -/
  | unknownCommand (sess : Nat) (code : CmdHead) (tag : W32)
  /-- R540 -/
  | info (sess : Nat) (tag : W32) (body : Bytes)
  /-- R540 -/
  | regRead (sess : Nat) (tag : W32) (body : Bytes)
  /-- R537 -/
  | regWrite (sess : Nat) (tag : W32) (keyed : Bool) (body : Bytes)
  /-- R540 -/
  | eventRead (sess : Nat) (tag : W32) (body : Bytes)
  /-- R540 -/
  | ledgerRead (sess : Nat) (tag : W32) (body : Bytes)
  /-- R453 -/
  | scrubStatus (sess : Nat) (tag : W32) (body : Bytes)
  /-- R453 -/
  | scrubConfig (sess : Nat) (tag : W32) (body : Bytes)
  /-- R85: the last chunk's body; likewise below. -/
  | layoutLoad (sess : Nat) (tag : W32) (body : Bytes)
  /-- R81 -/
  | layoutStage (sess : Nat) (tag : W32) (body : Bytes)
  /-- R537 -/
  | layoutFlash (sess : Nat) (tag : W32) (body : Bytes)
  /-- R545 -/
  | rollbackAdvance (sess : Nat) (tag : W32) (body : Bytes)
  /-- R541 -/
  | keyInstall (sess : Nat) (tag : W32) (body : Bytes)
  /-- R543 -/
  | fwWrite (sess : Nat) (tag : W32) (body : Bytes)
  /-- R537 -/
  | fwSelect (sess : Nat) (tag : W32) (body : Bytes)
  /-- R546 -/
  | owlRestart (sess : Nat) (tag : W32) (body : Bytes)
  /-- R542 -/
  | warmReset (sess : Nat) (tag : W32) (body : Bytes)
  /-- R585 -/
  | powerStateRun (sess : Nat) (tag : W32)
  /-- R587 -/
  | powerStateGate (sess : Nat) (tag : W32)
  /-- R588 -/
  | powerStateDrowse (sess : Nat) (tag : W32)
  /-- R591 -/
  | powerStateHibernate (sess : Nat) (tag : W32)
  /-- R594 -/
  | powerStateOff (sess : Nat) (tag : W32)
  /-- R549 -/
  | powerCap (sess : Nat) (tag : W32) (body : Bytes)
  /-- R506 -/
  | lifecycle (sess : Nat) (tag : W32) (body : Bytes)
  /-- R518 -/
  | spdm (sess : Nat) (tag : W32) (body : Bytes)
  /-- R542 -/
  | debugRead (sess : Nat) (tag : W32) (body : Bytes)
  /-- R542 -/
  | debugHaltHalt (sess : Nat) (tag : W32) (body : Bytes)
  /-- R542 -/
  | debugHaltResume (sess : Nat) (tag : W32) (body : Bytes)
  /-- R542 -/
  | debugHaltRead (sess : Nat) (tag : W32) (body : Bytes)
  /-- R542 -/
  | debugHaltWrite (sess : Nat) (tag : W32) (body : Bytes)
  /-- R542: `reply` is what the regulator returns, none when it does not acknowledge within 10 ms. -/
  | pmbus (sess : Nat) (tag : W32) (body : Bytes) (reply : Option Bytes)
  /-- R541 -/
  | mgtConfig (sess : Nat) (tag : W32) (body : Bytes)
  /-- R547: 48 temperatures in 1/16 °C and 16 voltages in mV. -/
  | sensorSample (temps : List Int) (mv : List Nat)
  /-- R548: regulator `i` reads output power `pout` W and STATUS_WORD `status`. -/
  | regulatorPoll (i : Nat) (pout : Nat) (status : BitVec 16)
  /-- R555 -/
  | smbusRead (code : Byte)
  /-- R555 -/
  | smbusWrite (code data : Byte)
  -- host ports (21)
  /-- R557: a keyed write of HST_PCTRL's enable. -/
  | hostPortEnable (k : Nat) (v : Bool)
  /-- R557 -/
  | hostLinkUp (k : Nat)
  /-- R557 -/
  | hostLinkDown (k : Nat)
  /-- R559 -/
  | arpRequest (k : Nat) (f : Frame)
  /-- R559 -/
  | neighbourSolicitation (k : Nat) (f : Frame)
  /-- R559 -/
  | echoRequest (k : Nat) (f : Frame)
  /-- R575: a pause time per priority: none leaves it, 0 resumes. -/
  | pfcFrame (k : Nat) (quanta : List (Option (BitVec 16)))
  /-- R569 -/
  | rdmaWriteFirst (k : Nat) (pk : Packet)
  /-- R569 -/
  | rdmaWriteMiddle (k : Nat) (pk : Packet)
  /-- R569 -/
  | rdmaWriteLast (k : Nat) (pk : Packet)
  /-- R569 -/
  | rdmaWriteOnly (k : Nat) (pk : Packet)
  /-- R571 -/
  | rdmaReadRequest (k : Nat) (pk : Packet)
  /-- R572 -/
  | compareSwap (k : Nat) (pk : Packet)
  /-- R572 -/
  | fetchAdd (k : Nat) (pk : Packet)
  /-- R569 -/
  | hostAck (q : Nat)
  /-- R408: write `i` of the subchannel's write queue is performed. -/
  | dramWritePerformed (ch sub i : Nat)
  /-- R521: an instruction on the test access port, and a word it pushes into the Owl mailbox. -/
  | testAccessPortInstruction (ir : TapInstr)
  -- more of the host interface (20)
  /-- R575 -/
  | pfcXon (k : Nat)
  /-- R575 -/
  | pfcPauseExpiry (k : Nat) (prio : Nat)
  /-- R576 -/
  | cnpReceive (k : Nat) (pk : Packet)
  /-- R576 -/
  | cnpRateRecovery (q : Nat)
  /-- R567 -/
  | unsupportedOpcode (k : Nat) (pk : Packet)
  /-- R564 -/
  | qpReady (q : Nat)
  /-- R564 -/
  | qpReset (q : Nat)
  -- the commands without operands, of every family
  /-- R90: PWRGOOD falls. -/
  | pwrgoodFall
  /-- R101 step 2: the root PLL locks. -/
  | pllLock
  /-- R101 step 6: the content checks have run. -/
  | layoutOk
  /-- R104: the fill ends. -/
  | fillDone
  /-- R101 step 8, R106 step 8: the core is released. -/
  | readyRise
  /-- R106 steps 2–5: the flush has ended. -/
  | warmFlushDone
  /-- R498: 50 ms have passed in step 2. -/
  | warmFlushTimeout
  /-- R106 step 6. -/
  | warmSelfRefreshExit
  /-- R499: 10 s have passed since step 1. -/
  | warmResetTimeout
  /-- R615: a sensor reaches 115 °C. -/
  | thermtrip
  /-- R460 -/
  | policerRefill
  /-- R476 -/
  | queueDepthSample
  /-- R469 -/
  | gateSlotStart
  /-- R471 -/
  | gateSlotCutoff
  /-- R585 -/
  | powerStateReached
  /-- R587 -/
  | gateEntryTimeout
  /-- R591 -/
  | hibernateSweepEnd
  /-- R514 -/
  | wipeComplete
  /-- R549 -/
  | powerCapUpdate
  /-- R550 -/
  | eventLogFlush
  /-- R553 -/
  | ledgerSummary
  /-- R555 -/
  | smbusStale
deriving DecidableEq, Repr

end Sys2Proof
end

