-- ==== Sys2Proof/Config.lean ====
section
/-! DEFINITION. What the manual fixes as constants of the device (periods, depths, masks), and the values it
leaves open: each of those is a constant with no body, so a claim about it holds whatever it is. -/

namespace Sys2Proof.Config

/-- Fabric clocks in 1 µs (R578: 2.4 GHz). -/
def usClk : Nat := 2400
/-- Fabric clocks in one period of the 100 MHz reference (R47, R578). -/
def refClk : Nat := 24
/-- R34: fabric clocks after which an arming lapses. -/
def lapseClk : Nat := 65536
/-- R32: the unlock value. -/
def unlockKey : BitVec 32 := 0xC5A3
/-- R118: 10 ms in fabric clocks. -/
def msClk : Nat := 2400000
/-- 10 ms in fabric clocks. -/
def ms10Clk : Nat := 24000000

/-- Free values: draw `n` of `w` bits (log 8). A command that needs an unstated value takes the next draw. -/
opaque freeBits (w n : Nat) : BitVec w
/-- Free choices below a bound: draw `n`; callers reduce it modulo the number of choices (log 3). -/
opaque freeNat (n : Nat) : Nat
/-- R209: the directory set hash of physical address bits 47:12, which software cannot see; callers reduce it modulo the
number of sets (log 3). -/
opaque dirSet (block : Nat) : Nat
/-- R388: the line-cache set hash of physical address bits 47:10 (log 3). -/
opaque cacheSet (block : Nat) : Nat
/-- R284: the set of a sett translation cache that an ASID and a 2 MiB page fall in, which the manual does not state;
callers reduce it modulo the 512 sets (log 3). -/
opaque tcSet (asid page : Nat) : Nat
/-- R509, R510: the device's private keys: 0 the identity key, 1 the identity key derived from a secret of ones, above those the
attestation keys by firmware digest. How they are derived from the secret is not stated (log 4). -/
opaque privateKey (key : Nat) : Nat
/-- The random number in the device's signature of a message, by signer identity and private key (log 4). -/
opaque signNonce (signer : List (BitVec 8)) (key : Nat) (msg : List (BitVec 8)) : Nat
/-- R510: the certificate of Chesamund's root (log 4). -/
opaque rootCert : List (BitVec 8)
/-- R510: the attestation certificate, signed with the identity key, for a device secret that does or does not read ones and a firmware
digest (log 4). -/
opaque attCert (ones : Bool) (fwDigest : List (BitVec 8)) : List (BitVec 8)
/-- The Chesamund public keys: 0 manufacturing layout key, 1 manufacturing key, 2 firmware key (log 4). -/
opaque chesamundKey (n : Nat) : List (BitVec 8)
/-- R543: a firmware header's magic, security_version, image length and signature; where they stand in its 256 bytes is
not stated (log 39). -/
opaque fwHeader (h : List (BitVec 8)) : Nat × Nat × Nat × List (BitVec 8)
/-- R543: the bytes of a firmware image that its signature covers, which the manual does not state (log 39). -/
opaque fwCovered (image : List (BitVec 8)) : List (BitVec 8)
/-- R518: the CTExponent that the SPDM responder reports (log 4). -/
opaque spdmCt : BitVec 8
/-- R520: the SM3 digest of the boot ROM. -/
opaque bootRomDigest : List (BitVec 8)
/-- R512: the data key and the tweak key drawn from the random generator for the n-th key loaded into a slot (log 4). -/
opaque slotKey (n : Nat) : BitVec 128 × BitVec 128
/-- R371: how far a DIV, RSQRT or SQRT result lies from the exact one, in steps of the result format, by
instruction (0 DIV, 1 RSQRT, 2 SQRT, 3 EXP2, 4 LOG2) and operands (log 9). -/
opaque ulpOff (op : Nat) (a b : BitVec 32) : Int
/-- R371: the LOG2 result of an operand from 0.5 to 2, where the manual gives an absolute bound: taken where it meets the
bound (log 9). -/
opaque log2 (a : BitVec 32) : BitVec 32
/-- R371: the result of DIV of an infinity by a zero, which the manual does not state (log 9). -/
opaque divOpen (a b : BitVec 32) : BitVec 32
/-- R376: the order in which the fixed pairwise tree takes `n` active lanes, which the manual does not state (log 9). -/
opaque treeOrder (n : Nat) : List Nat

end Sys2Proof.Config
end

