-- ==== Sys2Proof/Machine/State.lean ====
section
/-! DEFINITION. The state of the SPL-7200 block: every register, FIFO, buffer, counter, mode and pin the
manual names, as plain data, with each piece's reset value, and the queue of the commands that wait. A bank
of like things is a `Tab` whose unlisted entries are at their reset value. `State.reset` is the device
before PWRGOOD has risen: unpowered, every unit held in reset (R90). -/

namespace Sys2Proof.Machine
open Sys2Proof

/-- No command of the block ends in a fault: what the device detects is an error flag, a counter, a record or a
status of its state. The one constructor stands for a state the machine never takes.
Nobody raises it. Safe. -/
inductive Fault where
  | none_
deriving DecidableEq, Repr

/-- Why a command has no meaning here. -/
inductive Refusal where
  /-- The command `mnemonic` is not modelled: raised by a dispatch arm that has no meaning yet. Safe: no claim
  about such a command can be proved. -/
  | notModelled (mnemonic : String)
deriving DecidableEq, Repr

/-- R46 TOP_SETTLIVE encoding: PAIR, SINGLE, RESYNC, LOST. -/
inductive PairState where
  | pair | single | resync | lost
deriving DecidableEq, Repr

/-- R502 SETT_PAIRSTAT: state of one sett unit. -/
inductive UnitState where
  | active | standby | resync | failed
deriving DecidableEq, Repr

/-- R115 PART_CTRL state. -/
inductive PState where
  | run | draining | quiesced | resetting
deriving DecidableEq, Repr

/-- R163: states of a Dreriorn port. -/
inductive LinkState where
  | disabled | down | train | active | retrain
deriving DecidableEq, Repr

/-- R168 LNK_LANE_STATE state. -/
inductive LaneState where
  | off | standby | inPlan | failed
deriving DecidableEq, Repr

/-- R353 FOX_STATUS state. -/
inductive EngState where
  | idle | running | resetting | fenced | unowned
deriving DecidableEq, Repr

/-- R430 DRC_STATUS state. -/
inductive ChState where
  | training | run | held | selfRefresh | failed | absent
deriving DecidableEq, Repr

/-- R352 PART_QSTAT state. -/
inductive QState where
  | disabled | idle | active | cmpFull | held | error
deriving DecidableEq, Repr

/-- R585: power states. -/
inductive PwrState where
  | run | gate | drowse | hibernate | off
deriving DecidableEq, Repr

/-- R556 OWL_STATUS state. -/
inductive OwlState where
  | boot | run | restarting
deriving DecidableEq, Repr

/-- R101, R106: where the reset sequences stand. -/
inductive Phase where
  | held | waitPll | waitOwl | training | content | waitImage | filling | releasing
  | running | warmFlush | warmHold | warmFill | warmRelease | warmFailed
deriving DecidableEq, Repr

/-- R275: coherence class of a page. -/
inductive Coh where
  | tracked | published | priv
deriving DecidableEq, Repr

/-- R275: rounding mode. -/
inductive Rnd where
  | rne | rtz | stoch
deriving DecidableEq, Repr

/-- R172: the REQ and WBK types the home serves. -/
inductive ReqTy where
  | rdShared | rdOwn | upgrade | rdOnce | wrLine | wrPart | atomic | accWr
  | publish | wbDirty | wbClean
deriving DecidableEq, Repr

/-- R172: SNP_INV, SNP_SHR. -/
inductive SnpKind where
  | inv | shr
deriving DecidableEq, Repr

/-- R48: the status codes 0x00–0x14, in order. -/
inductive Status where
  | ok | conflict | poisoned | unavailable | engineLost | epochLost | xlateFault | permFault
  | timeout | retryLater | quota | badDescriptor | fenced | programFault | alignFault | formatFault
  | badRegion | countOverrun | cancelled | keyLost | unsupported
deriving DecidableEq, Repr

/-- R203: who made a request: a fabric node, a Fox engine, a host queue pair, the device itself. -/
inductive OrigKind where
  | fab | eng | host | dev
deriving DecidableEq, Repr

/-- Where an open request waits: for a walk, at the ring input of a sett whose park is full (R218), parked, for a recall, for its snoops, for a DRAM read, for the read-modify-write unit. -/
inductive TxPhase where
  | walk | ring | parked | recall | snoop | dram | rmw
deriving DecidableEq, Repr

/-- R182, R444: an entry is open, completed, or blocked after an uncorrectable error. -/
inductive DedSt where
  | opened | done | blocked
deriving DecidableEq, Repr

/-- R534, R535: what Owl sends in a TLS handshake. -/
inductive TlsKind where
  | chain | alert
deriving DecidableEq, Repr

/-- R521, R526, R556: the instruction selected at the test access port. -/
inductive TapSel where
  | bypass | idcode | push | other (ir : Nat)
deriving DecidableEq, Repr

/-- R275: a leaf entry, its fields as the walk found them. -/
structure Leaf where
  /-- R275. page epoch (Tracked) -/
  epoch : BitVec 16 := 0
  /-- R275. physical base of the page, or (Published) offset within the region -/
  addr : Nat := 0
  /-- R275. region identifier (Published) -/
  region : BitVec 24 := 0
  /-- R275. key slot -/
  keySlot : Nat := 0
  /-- R275. rounding mode -/
  rnd : Rnd := .rne
  /-- R275. view format code -/
  view : BitVec 4 := 0
  /-- R275. storage format code -/
  stor : BitVec 4 := 0
  /-- R275. coherence class -/
  cls : Coh := .tracked
  /-- R275. host requests permitted -/
  hst : Bool := false
  /-- R275. engine requests permitted -/
  eng : Bool := false
  /-- R275. accelerator requests permitted -/
  acc : Bool := false
  /-- R275. ATOMIC and ACC_WR permitted -/
  a : Bool := false
  /-- R275. writes permitted -/
  w : Bool := false
  /-- R275. reads permitted -/
  r : Bool := false
  /-- R275. page size -/
  size : BitVec 2 := 0
deriving DecidableEq, Repr

/-- The reset value of `Leaf`. -/
def Leaf.reset : Leaf := {}

/-- R284: a resolved translation of one page, as a cache holds it. -/
structure Xl where
  /-- R284. ASID -/
  asid : BitVec 16 := 0
  /-- R284. v[56:21] -/
  page : Nat := 0
  /-- R284. the leaf -/
  leaf : Leaf := Leaf.reset
  /-- R284, R302. physical address that page offset 0 of the leaf's page resolves to (the page's stored range, without j) -/
  base : Nat := 0
  /-- R245. region version (Published) -/
  ver : W32 := 0
deriving DecidableEq, Repr

/-- The reset value of `Xl`. -/
def Xl.reset : Xl := {}

/-- An outgoing message, by type and fields (R170–R174); the model's encoding functions give its slots. -/
structure Msgs where
  /-- R172. type -/
  ty : BitVec 6 := 0
  /-- R125. the device's own node identifier, when it was handed to a port -/
  src : Node := 0x1FFFFF
  /-- R170. destination node, or multicast group -/
  dst : Node := 0
  /-- R170. tag -/
  tag : BitVec 16 := 0
  /-- R181. TOP_BOOTCNT bits 7:0 -/
  srcGen : Byte := 0
  /-- R171. epoch, or status in bits 7:0 -/
  info : BitVec 16 := 0
  /-- R170. poison mark -/
  poison : Bool := false
  /-- R170. multicast copy -/
  mcast : Bool := false
  /-- R173, R174. slots 1 onward -/
  body : List Slot := []
deriving DecidableEq, Repr

/-- The reset value of `Msgs`. -/
def Msgs.reset : Msgs := {}

/-- What a host port has sent: the model's own record of its outputs. -/
structure HSent where
  /-- R559, R560. 0 ARP reply, 1 neighbour advertisement, 2 echo reply, 3 ACK, 4 NAK, 5 READ Response, 6 Atomic Acknowledge, 7 CNP, 8 PFC XOFF, 9 PFC XON -/
  kind : Nat := 0
  /-- R563. host's QP number -/
  qpn : BitVec 24 := 0
  /-- R567. PSN -/
  psn : BitVec 24 := 0
  /-- R567. syndrome of a NAK -/
  syn : Byte := 0
  /-- R559. source MAC -/
  srcMac : BitVec 48 := 0
  /-- R559. destination MAC -/
  dstMac : BitVec 48 := 0
  /-- R558. tag -/
  vlan : Option (BitVec 12) := none
  /-- R559, R563. an IPv6 packet -/
  v6 : Bool := false
  /-- R559. source IP address -/
  srcIp : BitVec 128 := 0
  /-- R559, R563. destination IP address -/
  dstIp : BitVec 128 := 0
  /-- R563. DSCP, of a queue pair's packet -/
  dscp : Option (BitVec 6) := none
  /-- R576. ECN field, 2 for ECT(0) -/
  ecn : BitVec 2 := 0
  /-- R575. priority -/
  prio : BitVec 3 := 0
  /-- R559, R571. payload -/
  data : Bytes := []
deriving DecidableEq, Repr

/-- The reset value of `HSent`. -/
def HSent.reset : HSent := {}

/-- R466: a message waiting in an egress queue, with the stamp of R188. -/
structure EgMsg where
  /-- R466. the message -/
  m : Msgs := Msgs.reset
  /-- R188. port its request arrived on -/
  arrPort : Nat := 0
  /-- R188. that port's generation at arrival -/
  arrGen : Byte := 0
  /-- R467. bytes -/
  size : Nat := 0
  /-- R476. fabric clock at which it entered the queue -/
  since : Nat := 0
  /-- R466. the frame, in a host port's queue -/
  frame : Option HSent := none
  /-- R576. the queue pair whose READ Response data the frame carries -/
  qp : Option Nat := none
deriving DecidableEq, Repr

/-- The reset value of `EgMsg`. -/
def EgMsg.reset : EgMsg := {}

/-- R147: a sequenced flow unit in the replay buffer. -/
structure TxUnit where
  /-- R146. its sequence -/
  seq : BitVec 12 := 0
  /-- R158. a PLAN unit's op, plan_id, mask, reason; none for DATA -/
  plan : Option (Byte × Byte × W32 × Byte) := none
  /-- R142. the message it carries -/
  msg : Option Msgs := none
  /-- R143, R152. pb: whole messages leave, so every sequenced unit ends at a packet boundary -/
  pb : Bool := true
deriving DecidableEq, Repr

/-- The reset value of `TxUnit`. -/
def TxUnit.reset : TxUnit := {}

/-- What a port has sent on its lanes, oldest first: the model's own record of the port's outputs. -/
structure Sent where
  /-- R142. fu_type -/
  kind : BitVec 4 := 0
  /-- R146. sequence of a sequenced unit; the resume point of a REPLAY -/
  seq : BitVec 12 := 0
  /-- R149. ack_kind -/
  ackKind : BitVec 2 := 0
  /-- R149. ack_seq -/
  ackSeq : BitVec 12 := 0
  /-- R142. cr_class -/
  crClass : BitVec 3 := 0
  /-- R155. cr_total -/
  crTotal : BitVec 17 := 0
  /-- R142. pb -/
  pb : Bool := true
  /-- R152. replayed -/
  replayed : Bool := false
  /-- R137. lane mask that carried it -/
  lanes : W32 := 0
  /-- R158. PLAN payload -/
  plan : Option (Byte × Byte × W32 × Byte) := none
  /-- R142. message -/
  msg : Option Msgs := none
deriving DecidableEq, Repr

/-- The reset value of `Sent`. -/
def Sent.reset : Sent := {}

/-- R168: one lane of a port. -/
structure LaneS where
  /-- R168. state -/
  st : LaneState := .standby
  /-- R168. power bit -/
  power : Bool := true
  /-- R168. clear_fail -/
  clearFail : Bool := false
  /-- R168. corrected blocks -/
  corr : W32 := 0
  /-- R168. uncorrectable blocks -/
  uncorr : W32 := 0
  /-- R161. fabric clocks of the uncorrectable blocks of the last 2^24 blocks -/
  win : List Nat := []
  /-- R168. horizontal and vertical margin -/
  margin : BitVec 16 := 0
  /-- R140. excluded from this training -/
  excl : Bool := false
  /-- R140. passed phase 1 -/
  ident : Bool := false
  /-- R140. equalisation rounds of this training -/
  rnds : Nat := 0
  /-- R140. consecutive blocks of the phase's type received -/
  cnt : Nat := 0
  /-- R140. that type -/
  cntTy : Byte := 0
  /-- R141. DOWN blocks accepted -/
  downCnt : Nat := 0
  /-- R141, R160. lane training of this lane runs -/
  training : Bool := false
  /-- R138. node the lane's TS_ID named -/
  node : Node := 0x1FFFFF
  /-- R138. port the lane's TS_ID named -/
  nport : BitVec 3 := 0
  /-- R138. port generation the lane's TS_ID named -/
  ngen : Byte := 0
  /-- R138. transmitter taps c(−2), c(−1), c(+1), c(+2), c(+3) -/
  taps : List Int := [0,0,0,0,0]
  /-- R141. the partner's state of the lane, as its STANDBY blocks last reported -/
  peer : LaneState := .off
  /-- R140. equalisation of this training has ended -/
  eqDone : Bool := false
  /-- R140. deskew of this training has ended -/
  skewDone : Bool := false
  /-- R138. coef_stat this side reports -/
  stat : BitVec 10 := 0
  /-- R138. eq_round this side echoes -/
  echo : Byte := 0
deriving DecidableEq, Repr

/-- The reset value of `LaneS`. -/
def LaneS.reset : LaneS := {}

/-- R163, R168, R200: one Dreriorn port: link layer and transaction unit. -/
structure Port where
  /-- R168. link state -/
  st : LinkState := .down
  /-- R166. port generation -/
  gen : Byte := 0
  /-- R166. ACTIVE since the generation last changed -/
  beenActive : Bool := false
  /-- R163. fabric clock of entry to the state -/
  since : Nat := 0
  /-- R163. the hold-off of this DOWN has ended -/
  holdoffDone : Bool := false
  /-- R140. training phase 1–4; 0 when not training -/
  phase : Nat := 0
  /-- R168. LNK_PARTNER partner_node -/
  pnode : Node := 0x1FFFFF
  /-- R168. LNK_PARTNER partner_port -/
  pport : BitVec 3 := 0
  /-- R168. LNK_ACTIVE_MASK: lane mask in force -/
  plan : W32 := 0
  /-- R159. last plan for which GO was accepted -/
  goPlan : W32 := 0
  /-- R135, R140. the number of units that the port had sent when the link last entered ACTIVE: the stream of its lane blocks begins there with block index 0 -/
  upAt : Nat := 0
  /-- R140. plan_mask this side proposes in TS_GO -/
  prop : W32 := 0
  /-- R141. reason carried in this side's DOWN blocks -/
  reason : Byte := 0
  /-- R168. LNK_CTRL enable -/
  enable : Bool := true
  /-- R168. LNK_CTRL auto_up -/
  autoUp : Bool := true
  /-- R168. LNK_CTRL auto_drop -/
  autoDrop : Bool := true
  /-- R168. LNK_PLAN_MASK -/
  planMask : W32 := 0
  /-- R168. LNK_CMD retrain -/
  cmdRetrain : Bool := false
  /-- R168. LNK_CMD take_down -/
  cmdDown : Bool := false
  /-- R168. LNK_PLAN_STAT plan_id -/
  planId : Byte := 0
  /-- R168. LNK_PLAN_STAT result -/
  planRes : BitVec 4 := 0
  /-- R168. LNK_PLAN_STAT reason -/
  planReason : Byte := 0
  /-- R158. mask of this side's outstanding REQ -/
  planOut : Option W32 := none
  /-- R158. plan_id and mask this side accepted with ACC and waits for GO on -/
  planIn : Option (Byte × W32) := none
  /-- R159. ACC accepted: GO is sent, or waits for replay space, and not yet acknowledged -/
  goWait : Bool := false
  /-- R168. LNK_CMD plan_go -/
  cmdPlan : Bool := false
  /-- R147, R158. PLAN units that wait for replay space -/
  planq : List (Byte × Byte × W32 × Byte) := []
  /-- R137, R158. lane mask that the transmitter uses -/
  txPlan : W32 := 0
  /-- R168. LNK_REPLAY_CFG -/
  replayCfg : BitVec 24 := 0x960
  /-- R168. same_limit -/
  sameLimit : Byte := 0x08
  /-- R168. win_limit -/
  winLimit : Byte := 0x40
  /-- R168. retrain_limit -/
  retrainLimit : BitVec 4 := 3
  /-- R168. LNK_DOWN_CFG hold-off in µs -/
  downCfg : BitVec 16 := 10000
  /-- R168. LNK_FAIL_CFG lane_fail_limit -/
  failLimit : Byte := 16
  /-- R168. LNK_EVSTAT -/
  evstat : BitVec 7 := 0
  /-- R168. LNK_REPLAYS -/
  replays : W32 := 0
  /-- R168. LNK_RETRAINS -/
  retrains : W32 := 0
  /-- R168. LNK_DOWNS -/
  downs : W32 := 0
  /-- R168. LNK_LANEFAILS -/
  laneFails : W32 := 0
  /-- R168. LNK_PLANS -/
  plans : W32 := 0
  /-- R168. LNK_STALEGEN -/
  staleGen : W32 := 0
  /-- R168. LNK_STALENAK -/
  staleNak : W32 := 0
  /-- R168. LNK_CRCERR -/
  crcErr : W32 := 0
  /-- R168. LNK_DUPDROP -/
  dupDrop : W32 := 0
  /-- R168. LNK_NAKSENT -/
  nakSent : W32 := 0
  /-- R168. lanes 0–31 -/
  lanes : Tab LaneS := []
  /-- R146. next sequence to send -/
  txSeq : BitVec 12 := 0
  /-- R146. expected sequence -/
  rxSeq : BitVec 12 := 0
  /-- R149. a unit has been accepted since link-up -/
  rxAny : Bool := false
  /-- R150. wait_replay -/
  waitReplay : Bool := false
  /-- R150. e: units before it are duplicates after a REPLAY -/
  dupUntil : BitVec 12 := 0
  /-- R150. a NAK of rxSeq goes out in the next unit -/
  nakDue : Bool := false
  /-- R147. replay buffer: unacknowledged units, oldest first -/
  buf : List TxUnit := []
  /-- R164. replay events that resent the oldest unit -/
  sameCnt : Nat := 0
  /-- R164. new sequenced units sent since link-up -/
  winUnits : Nat := 0
  /-- R164. that number at each replay event of the last 2^24 units -/
  winAt : List Nat := []
  /-- R164. fabric clocks of recent retrains -/
  recentRetrains : List Nat := []
  /-- R151. fabric clock at which the oldest unit last advanced, or entered the empty buffer -/
  ackAt : Nat := 0
  /-- R153. fabric clock of the replay timer's last event, and the number of units sent before it -/
  timerAt : Option (Nat × Nat) := none
  /-- R155. slots used per class since link-up -/
  crUsed : Tab Nat := []
  /-- R155. partner's latest credit total per class -/
  crTot : Tab Nat := []
  /-- R155. slots freed per class since link-up -/
  rxFreed : Tab Nat := []
  /-- R148. slots delivered and not yet taken by the transaction unit -/
  rxSlots : List Slot := []
  /-- R155. messages that wait for credits or replay space -/
  txq : List EgMsg := []
  /-- R142. units sent, oldest first -/
  sent : List Sent := []
  /-- R138. control words sent by lane, oldest first -/
  lcbs : List (Nat × BitVec 128) := []
  /-- R200. LNK_E2EERR -/
  e2eErr : W32 := 0
  /-- R200. LNK_MALFORMED -/
  malformed : W32 := 0
  /-- R200. LNK_UNROUTE -/
  unroute : W32 := 0
  /-- R200. LNK_STALESRC -/
  staleSrc : W32 := 0
  /-- R200. LNK_RSPDROP -/
  rspDrop : W32 := 0
  /-- R200. LNK_DEDUP_HIT -/
  dedupHit : W32 := 0
  /-- R200. LNK_DEDUP_FULL -/
  dedupFull : W32 := 0
  /-- R200. LNK_UNEXPECT -/
  unexpect : W32 := 0
  /-- R200. LNK_FMG_SRC base -/
  fmgBase : Node := 0x1FFFFF
  /-- R200. LNK_FMG_SRC size_log2 -/
  fmgLog2 : BitVec 5 := 0
  /-- R200. LNK_TXN_EVSTAT -/
  txnEv : BitVec 7 := 0
  /-- R590. plan held before a power state narrowed the port -/
  prePlan : Option W32 := none
deriving DecidableEq, Repr

/-- The reset value of `Port`. -/
def Port.reset : Port := {}

/-- R206: a directory entry: four lines of one sett in one 4 KiB block. -/
structure DirEnt where
  /-- R206. state (0 UNCACHED, 1 SHARED, 2 OWNED) and owner of line k; BUSY is shown by the open transactions -/
  line : List (BitVec 2 × Node) := [(0,0),(0,0),(0,0),(0,0)]
  /-- R206. sharer pointers in use (ptr_count is their number) -/
  ptrs : List Node := []
  /-- R206. coarse vector -/
  coarse : W64 := 0
  /-- R209. recently used -/
  ref : Bool := false
  /-- R314. the leaf under which line k was last granted E or M, by which its owner's data is converted; meaningful only when line k is OWNED -/
  leafs : List Leaf := [Leaf.reset, Leaf.reset, Leaf.reset, Leaf.reset]
deriving DecidableEq, Repr

/-- The reset value of `DirEnt`. -/
def DirEnt.reset : DirEnt := {}

/-- R388: a line of the line cache. -/
structure CLine where
  /-- R387. 64 bytes, decrypted -/
  data : Bytes := []
  /-- R390. dirty -/
  dirty : Bool := false
  /-- R440. poison mark -/
  poison : Bool := false
  /-- R388. way -/
  way : Nat := 0
  /-- R390. recently used -/
  ref : Bool := false
deriving DecidableEq, Repr

/-- The reset value of `CLine`. -/
def CLine.reset : CLine := {}

/-- R391: an entry of a sett's victim buffer. -/
structure Victim where
  /-- R391. physical line number -/
  line : Nat := 0
  /-- R391. its contents -/
  c : CLine := CLine.reset
deriving DecidableEq, Repr

/-- The reset value of `Victim`. -/
def Victim.reset : Victim := {}

/-- R212: an open snoop. -/
structure Snoop where
  /-- R212. tag: bits 15:12 the sett -/
  tag : BitVec 16 := 0
  /-- R172. SNP_INV or SNP_SHR -/
  kind : SnpKind := .inv
  /-- R214. transaction it serves -/
  txn : Nat := 0
  /-- R211. physical line number -/
  line : Nat := 0
  /-- R213. nodes whose answer is missing -/
  wait : List Node := []
  /-- R213. multicast -/
  mc : Bool := false
  /-- R227. sent to the line's owner -/
  ownerSnp : Bool := false
  /-- R225. fabric clock of issue -/
  since : Nat := 0
  /-- R225. timeout in µs in force at issue -/
  lim : Nat := 0
  /-- R314. the leaf under which the owner was granted the line -/
  leaf : Leaf := Leaf.reset
deriving DecidableEq, Repr

/-- The reset value of `Snoop`. -/
def Snoop.reset : Snoop := {}

/-- R237, R502: one sett pair. -/
structure Sett where
  /-- R237. SETT_HOLD -/
  hold : BitVec 12 := 0x080
  /-- R237. SETT_SNPTO -/
  snpto : BitVec 9 := 0x010
  /-- R237. node being swept -/
  sweep : Option Node := none
  /-- R237. deaths waiting for their sweep -/
  sweepQ : List Node := []
  /-- R237. SETT_EVSTAT -/
  evstat : BitVec 9 := 0
  /-- R237. SETT_SNPTOS -/
  snptos : W32 := 0
  /-- R237. SETT_POISONS -/
  poisons : W32 := 0
  /-- R237. SETT_STARVES -/
  starves : W32 := 0
  /-- R237. SETT_RECALLS -/
  recalls : W32 := 0
  /-- R237. SETT_NODEDEATHS -/
  nodeDeaths : W32 := 0
  /-- R237. SETT_DIRERRS -/
  dirErrs : W32 := 0
  /-- R237. SETT_EPOCHLOST -/
  epochLost : W32 := 0
  /-- R237. SETT_UNCOVERED -/
  uncovered : W32 := 0
  /-- R237. SETT_PARKTO -/
  parkTo : W32 := 0
  /-- R237. SETT_LOOKUPS -/
  lookups : W64 := 0
  /-- R219. minimum holds: line, fabric clock of the grant, length -/
  holds : List (Nat × Nat × Nat) := []
  /-- R212. open snoops -/
  snoops : List Snoop := []
  /-- R212. number of the next snoop -/
  nextSnp : BitVec 12 := 0
  /-- R217. port round-robin pointer -/
  rr : Nat := 0
  /-- R206, R209. directory slice, by 4 KiB block number -/
  dir : Tab DirEnt := []
  /-- R388. line-cache slice, by physical line number -/
  cache : Tab CLine := []
  /-- R391. victim buffer -/
  victims : List Victim := []
  /-- R390, R391. lines that wait to be installed, oldest first -/
  insQ : List Victim := []
  /-- R284. translation cache -/
  tc : List Xl := []
  /-- R46. state in TOP_SETTLIVE -/
  pair : PairState := .pair
  /-- R502. unit 0 -/
  unit0 : UnitState := .active
  /-- R502. unit 1 -/
  unit1 : UnitState := .standby
  /-- R502. active unit is unit 1 -/
  act1 : Bool := false
  /-- R502. last cause -/
  cause : Byte := 0
  /-- R493. failed attempts in a row -/
  tries : Nat := 0
  /-- R493. fabric clock of the start of the full state copy -/
  rsSince : Nat := 0
  /-- R502. SETT_PAIRCMD failover -/
  cmdFailover : Bool := false
  /-- R502. SETT_PAIRCMD resync -/
  cmdResync : Bool := false
  /-- R502. SETT_FOEV -/
  foev : BitVec 3 := 0
  /-- R502. SETT_FAILOVERS -/
  failovers : W32 := 0
  /-- R502. SETT_RESYNCFAILS -/
  resyncFails : W32 := 0
  /-- R502. SETT_LOSSES -/
  losses : W32 := 0
  /-- R542. halted by DEBUG_HALT -/
  halted : Bool := false
  /-- R542. sett-table bytes, as DEBUG_HALT wrote them -/
  raw : List Host.Cell := []
deriving DecidableEq, Repr

/-- The reset value of `Sett`. -/
def Sett.reset : Sett := {}

/-- R67: a PARTITION record. -/
structure PartRec where
  /-- R67. partition number -/
  part : Nat := 0
  /-- R67. mode: fenced -/
  fenced : Bool := false
  /-- R67. key slot -/
  keySlot : Nat := 0
  /-- R67. compat flag -/
  compat : Bool := false
  /-- R67. line-cache ways -/
  ways : BitVec 16 := 0
  /-- R67. engine mask -/
  engines : W64 := 0
  /-- R67. dedicated channels -/
  fencedCh : W32 := 0
  /-- R67. scratch quota in MiB -/
  scratch : Nat := 0
  /-- R67. first ASID -/
  asidBase : Nat := 0
  /-- R67. ASIDs -/
  asidCount : Nat := 0
  /-- R67. first queue -/
  queueBase : Nat := 0
  /-- R67. queues -/
  queueCount : Nat := 0
  /-- R67. first multicast group -/
  mcastBase : Nat := 0
  /-- R67. multicast groups -/
  mcastCount : Nat := 0
  /-- R67. ceilings on FAB0–FAB7 -/
  fabShare : W64 := 0
  /-- R67. ceilings on HST0–HST1 -/
  hstShare : BitVec 16 := 0
deriving DecidableEq, Repr

/-- The reset value of `PartRec`. -/
def PartRec.reset : PartRec := {}

/-- R63: an interleave set. -/
structure Ilv where
  /-- R63. pool physical base -/
  base : Nat := 0
  /-- R63. bytes -/
  size : Nat := 0
  /-- R63. channel mask -/
  channels : W32 := 0
  /-- R63. granule code -/
  granule : BitVec 8 := 0
deriving DecidableEq, Repr

/-- The reset value of `Ilv`. -/
def Ilv.reset : Ilv := {}

/-- R69: an extent, in 2 MiB units. -/
structure Extent where
  /-- R69. partition -/
  part : Nat := 0
  /-- R69. base -/
  base : Nat := 0
  /-- R69. count -/
  count : Nat := 0
deriving DecidableEq, Repr

/-- The reset value of `Extent`. -/
def Extent.reset : Extent := {}

/-- R62: a sharer group. -/
structure SGroup where
  /-- R62. base node -/
  base : Node := 0
  /-- R62. size_log2 -/
  log2 : Nat := 0
  /-- R62. multicast group -/
  mcast : Nat := 0
deriving DecidableEq, Repr

/-- The reset value of `SGroup`. -/
def SGroup.reset : SGroup := {}

/-- R65: a routing-table entry. -/
structure RouteEnt where
  /-- R65. base node -/
  base : Node := 0
  /-- R65. size_log2 -/
  log2 : Nat := 0
  /-- R65. port mask -/
  mask : Byte := 0
deriving DecidableEq, Repr

/-- The reset value of `RouteEnt`. -/
def RouteEnt.reset : RouteEnt := {}

/-- R66, R193: a multicast group. -/
structure McEnt where
  /-- R66. group number -/
  group : Nat := 0
  /-- R66. port mask -/
  ports : Byte := 0
  /-- R66. on-die stop mask -/
  stops : W32 := 0
deriving DecidableEq, Repr

/-- The reset value of `McEnt`. -/
def McEnt.reset : McEnt := {}

/-- R72: a POLICER entry. -/
structure Policer where
  /-- R72. port 0–9 -/
  port : Nat := 0
  /-- R72. colour-aware -/
  aware : Bool := false
  /-- R72. Mb/s -/
  cir : W32 := 0
  /-- R72. Mb/s -/
  pir : W32 := 0
  /-- R72. bytes -/
  cbs : W32 := 0
  /-- R72. bytes -/
  pbs : W32 := 0
deriving DecidableEq, Repr

/-- The reset value of `Policer`. -/
def Policer.reset : Policer := {}

/-- R73: a SHAPER entry. -/
structure Shaper where
  /-- R73. port 0–9 -/
  port : Nat := 0
  /-- R73. Mb/s -/
  rate : W32 := 0
  /-- R73. bytes -/
  burst : W32 := 0
deriving DecidableEq, Repr

/-- The reset value of `Shaper`. -/
def Shaper.reset : Shaper := {}

/-- R74: an AFFINITY entry. -/
structure Affin where
  /-- R74. first queue -/
  first : Nat := 0
  /-- R74. queues -/
  count : Nat := 0
  /-- R74. engine mask -/
  engines : W64 := 0
deriving DecidableEq, Repr

/-- The reset value of `Affin`. -/
def Affin.reset : Affin := {}

/-- R71–R74: a partition section. -/
structure PartSec where
  /-- R71. partition -/
  part : Nat := 0
  /-- R71. tenant tag -/
  tenant : W32 := 0
  /-- R71. part_rev -/
  rev : W32 := 0
  /-- R71. global digest it was built against -/
  gdigest : Bytes := []
  /-- R520. digest of the section -/
  sdigest : Bytes := []
  /-- R72. POLICER entries -/
  policers : List Policer := []
  /-- R73. SHAPER entries -/
  shapers : List Shaper := []
  /-- R74. AFFINITY entries -/
  affin : List Affin := []
  /-- R66. multicast groups -/
  mcast : List McEnt := []
deriving DecidableEq, Repr

/-- The reset value of `PartSec`. -/
def PartSec.reset : PartSec := {}

/-- R60–R70: a layout, loaded or built in. -/
structure Layout where
  /-- R98. a built-in layout -/
  builtin : Bool := false
  /-- R52. layout_gen; 0 under a built-in layout -/
  gen : W32 := 0
  /-- R52. rollback_level -/
  rollback : Nat := 0
  /-- R58. global digest -/
  digest : Bytes := []
  /-- R60. dram_speed -/
  dramSpeed : BitVec 2 := 0
  /-- R60. node_id -/
  nodeId : W32 := 0
  /-- R61. directory area, 64 MiB units -/
  dirU : Nat := 16
  /-- R61. line-cache area -/
  cacheU : Nat := 32
  /-- R61. scratch area -/
  scrU : Nat := 12
  /-- R61. tables area -/
  tabU : Nat := 4
  /-- R62. sharer groups -/
  groups : List SGroup := []
  /-- R63. interleave sets -/
  sets : List Ilv := []
  /-- R64. spare rank of each channel, 0xFF none -/
  spare : List Nat := []
  /-- R65. ROUTE entries -/
  routes : List RouteEnt := []
  /-- R66. global multicast groups -/
  mcast : List McEnt := []
  /-- R67. PARTITION records -/
  parts : List PartRec := []
  /-- R69. extents -/
  extents : List Extent := []
  /-- R70. GATE cycle length -/
  gateLen : Nat := 0
  /-- R70. slots: owner and length -/
  gate : List (Nat × Nat) := []
  /-- R71. partition sections -/
  secs : List PartSec := []
deriving DecidableEq, Repr

/-- The reset value of `Layout`. -/
def Layout.reset : Layout := {}

/-- R188: a fabric request's stamp and what its answer must carry. -/
structure OrigFab where
  /-- R188. arrival port -/
  port : Nat := 0
  /-- R188. arrival port's generation -/
  gen : Byte := 0
  /-- R170. source node -/
  src : Node := 0
  /-- R170. source generation -/
  srcGen : Byte := 0
  /-- R170. tag -/
  tag : BitVec 16 := 0
  /-- R182. crc bits 15:0 -/
  sig : BitVec 16 := 0
  /-- R172. slots of the message -/
  slots : Nat := 0
deriving DecidableEq, Repr

/-- The reset value of `OrigFab`. -/
def OrigFab.reset : OrigFab := {}

/-- R205, R217–R221: a request at its home. -/
structure Txn where
  /-- R217. number, in arrival order -/
  id : Nat := 0
  /-- R132. home sett -/
  sett : Nat := 0
  /-- R203. requester's kind -/
  kind : OrigKind := .dev
  /-- R188. fabric stamp -/
  fab : OrigFab := OrigFab.reset
  /-- R203. engine, or queue pair -/
  unit : Nat := 0
  /-- R320. engine generation -/
  ugen : Byte := 0
  /-- R172. operation -/
  ty : ReqTy := .rdOnce
  /-- R173. ASID -/
  asid : BitVec 16 := 0
  /-- R173. address as named -/
  va : Nat := 0
  /-- R173. op field -/
  op : BitVec 4 := 0
  /-- R173. arg field -/
  arg : BitVec 24 := 0
  /-- R171. epoch of a writeback -/
  epoch : BitVec 16 := 0
  /-- R170. the message's data is poisoned -/
  poisonIn : Bool := false
  /-- R174. line data -/
  data : Bytes := []
  /-- R174. byte mask -/
  mask : W64 := 0
  /-- R174. operand slots -/
  opnd : List Slot := []
  /-- R441. disturbances its accesses find -/
  noise : Noise := Noise.none
  /-- R110. partition -/
  part : Nat := 0
  /-- R277. translation, once known -/
  leaf : Leaf := Leaf.reset
  /-- R302. resolved base, once known -/
  base : Nat := 0
  /-- R245. resolved version -/
  ver : W32 := 0
  /-- R206. physical number of its (first) stored line, once known -/
  line : Nat := 0
  /-- R218. where it stands -/
  phase : TxPhase := .walk
  /-- R217. fabric clock of arrival at the sett -/
  since : Nat := 0
  /-- R220. fabric clock at which it parked -/
  parkAt : Nat := 0
  /-- R220. starved -/
  starved : Bool := false
  /-- R220. counted at 64P -/
  counted : Bool := false
  /-- R214. an UPGRADE judged as a grant without data -/
  upgShared : Bool := false
  /-- R214. 1: the owner was invalidated in place of a downgrade (uncovered) -/
  downInv : Nat := 0
  /-- R182, R188. arrival port and its generation of each further copy to answer -/
  copies : List (Nat × Byte) := []
  /-- R249. of a PUBLISH: the status with which the translation of its staging base failed -/
  xst : Status := .ok
  /-- R281, R354. an untranslated transfer of an input-queue descriptor -/
  phys : Bool := false
  /-- R391. its wait for a victim-buffer entry has been counted -/
  vicWait : Bool := false
deriving DecidableEq, Repr

/-- The reset value of `Txn`. -/
def Txn.reset : Txn := {}

/-- R183: one completion of the deduplication cache. -/
structure Ded where
  /-- R182. source -/
  src : Node := 0
  /-- R182. source generation -/
  gen : Byte := 0
  /-- R182. tag -/
  tag : BitVec 16 := 0
  /-- R182. stored signature -/
  sig : BitVec 16 := 0
  /-- R184. partition charged -/
  part : Nat := 0
  /-- R183. returns a value (an entry of its own) -/
  value : Bool := false
  /-- R182. open, completed or blocked -/
  st : DedSt := .opened
  /-- R182. stored completion -/
  ans : Msgs := Msgs.reset
  /-- R183. fabric clock of the completion, or of the block -/
  at_ : Nat := 0
  /-- R182. open request -/
  txn : Nat := 0
deriving DecidableEq, Repr

/-- The reset value of `Ded`. -/
def Ded.reset : Ded := {}

/-- R287–R291: an invalidation in progress. -/
structure Drain where
  /-- R288. number -/
  id : Nat := 0
  /-- R287. of a region's resolutions -/
  region : Bool := false
  /-- R287. ASID or region identifier -/
  target : Nat := 0
  /-- R287. initiator: 0 a FENCE, 1 Owl's XLT_INV, 2 a publication -/
  init : Nat := 0
  /-- R287. FENCE: its queue -/
  queue : Nat := 0
  /-- R291. fabric clock of step 1 -/
  since : Nat := 0
  /-- R288. units that have received it -/
  got : List InvUnit := []
  /-- R288. units that have reported drained -/
  rep : List InvUnit := []
  /-- R288. open requests that the units wait for -/
  txns : List Nat := []
  /-- R291. drain_to has passed -/
  timedOut : Bool := false
deriving DecidableEq, Repr

/-- The reset value of `Drain`. -/
def Drain.reset : Drain := {}

/-- R330: a descriptor, fetched. -/
structure Desc where
  /-- R330. its 64 bytes -/
  bytes : Bytes := []
  /-- R340. ring index; 0xFFFF_FFFF when chained -/
  index : W32 := 0xFFFFFFFF
  /-- R340. came by hand-over -/
  chained : Bool := false
  /-- R349. run again after an engine loss -/
  rerun : Bool := false
  /-- R345. its place in the order in which its queue fetched or read it -/
  no : Nat := 0
  /-- R349. engine whose loss it survived: another of the set runs it again -/
  avoid : Option Nat := none
deriving DecidableEq, Repr

/-- The reset value of `Desc`. -/
def Desc.reset : Desc := {}

/-- R340, R341: how a descriptor has ended, until its record is written. -/
structure EndRec where
  /-- R340. status -/
  status : Status := .ok
  /-- R340. partial -/
  partial_ : Bool := false
  /-- R341. progress -/
  done : Nat := 0
  /-- R340. fault_addr -/
  fault : Nat := 0
deriving DecidableEq, Repr

/-- The reset value of `EndRec`. -/
def EndRec.reset : EndRec := {}

/-- R356: the state of a running program. -/
structure Prog where
  /-- R380. pass B runs -/
  passB : Bool := false
  /-- R355. tile -/
  tile : Nat := 0
  /-- R357. next instruction of the pass -/
  pc : Nat := 0
  /-- R357. a tile has started -/
  inTile : Bool := false
  /-- R359. len_a -/
  lenA : Nat := 0
  /-- R359. len_b -/
  lenB : Nat := 0
  /-- R359. in_a -/
  inA : Byte := 0
  /-- R359. in_b -/
  inB : Byte := 0
  /-- R359. out_mask -/
  outM : Byte := 0
  /-- R363. two_pass -/
  twoPass : Bool := false
  /-- R337. elements -/
  count : Nat := 0
  /-- R356. instruction store -/
  store : List W32 := []
  /-- R360. argument block -/
  args : Bytes := []
  /-- R356. vector registers v0–v31 -/
  v : Tab (List W32) := []
  /-- R356. a0–a3 -/
  acc : List W32 := [0,0,0,0]
  /-- R356. r0–r3 -/
  rr : List W32 := [0,0,0,0]
  /-- R382. the tile read poisoned input -/
  tilePois : Bool := false
  /-- R382. poisoned accumulators of the pass -/
  accPois : List Bool := [false,false,false,false]
  /-- R382. a pass-A accumulator was poisoned -/
  rPois : Bool := false
deriving DecidableEq, Repr

/-- The reset value of `Prog`. -/
def Prog.reset : Prog := {}

/-- R318: the running descriptor of an engine. -/
structure Run where
  /-- R353. queue -/
  q : Nat := 0
  /-- R354. came from the input queue -/
  inq : Bool := false
  /-- R330. the descriptor -/
  d : Desc := Desc.reset
  /-- R341. units done -/
  pos : Nat := 0
  /-- R339. poisoned data was read -/
  pois : Bool := false
  /-- R356. program state -/
  prog : Option Prog := none
  /-- R341. the writes of the unit at pos have been issued -/
  issued : Bool := false
  /-- R339. fault of a transfer, and its address -/
  flt : Option (Status × Nat) := none
  /-- R340. how it ended, once it has -/
  res : Option EndRec := none
  /-- R246, R379. Published pages as resolved for this descriptor -/
  pub : List Xl := []
  /-- R332. chaining value of a DIGEST over the lines read so far -/
  dig : List W32 := []
  /-- R334. model's own: the indices that a SCATTER has used, or the last one of a COMPACT's check -/
  seen : List Nat := []
  /-- R341. lines of the unit at pos whose writes have been answered -/
  wrote : List Nat := []
  /-- R246, R253. those of them that an invalidation has withdrawn from later descriptors -/
  pubOld : List Xl := []
deriving DecidableEq, Repr

/-- The reset value of `Run`. -/
def Run.reset : Run := {}

/-- R319: an answer on its way to an engine. -/
structure Answer where
  /-- R289. request it answers -/
  id : Nat := 0
  /-- R320. engine generation of the transfer -/
  gen : Byte := 0
  /-- R319. line address of the transfer -/
  va : Nat := 0
  /-- R339. status -/
  status : Status := .ok
  /-- R339. poisoned -/
  poison : Bool := false
  /-- R319. data of a read; empty for a write -/
  data : Bytes := []
deriving DecidableEq, Repr

/-- The reset value of `Answer`. -/
def Answer.reset : Answer := {}

/-- R353, R501: one Fox engine. -/
structure Engine where
  /-- R353. state (UNOWNED is shown while no partition owns it) -/
  st : EngState := .idle
  /-- R320. generation -/
  gen : Byte := 0
  /-- R353. FOX_CTRL reset -/
  resetReq : Bool := false
  /-- R353. FOX_EVSTAT -/
  evstat : BitVec 2 := 0
  /-- R501. FOX_RECOV -/
  recov : BitVec 2 := 0
  /-- R353. FOX_DESCS -/
  descs : W32 := 0
  /-- R353. FOX_FAULTS -/
  faults : W32 := 0
  /-- R353. FOX_INQERR -/
  inqErr : W32 := 0
  /-- R353. FOX_BUSY: engine clocks spent running, four in five fabric clocks (log 1) -/
  busy : W64 := 0
  /-- R501. FOX_HANGS -/
  hangs : W32 := 0
  /-- R501. FOX_RESETTO -/
  resetTo : W32 := 0
  /-- R318. running descriptor -/
  run : Option Run := none
  /-- R318. staged descriptor and its queue -/
  staged : Option (Nat × Desc) := none
  /-- R318. stream buffer: lines that answers delivered and the run has not consumed -/
  sbuf : Tab Answer := []
  /-- R20. whether a run has used the stream buffer since it was last cleared -/
  used : Bool := false
  /-- R318. stream buffer bytes written through DEBUG_HALT -/
  raw : List Host.Cell := []
  /-- R284. translation cache -/
  tc : List Xl := []
  /-- R318. line addresses of its outstanding transfers -/
  out : List Nat := []
  /-- R319. answers at the skulk stop, oldest first -/
  ans : List Answer := []
  /-- R483. fabric clock of the last progress event -/
  prog0 : Nat := 0
  /-- R485. fabric clock of step 1 of the reset -/
  rsSince : Nat := 0
  /-- R484. generation named in the purge -/
  purgeGen : Byte := 0
  /-- R484. setts that received the purge and discarded -/
  purgeGot : List Nat := []
  /-- R484. setts that reported purged -/
  purged : List Nat := []
  /-- R486. the reset has become a fencing -/
  fencing : Bool := false
  /-- R484. step 3 has ended -/
  settled : Bool := false
  /-- R587. clock gated by a power state -/
  gated : Bool := false
  /-- R542. halted by DEBUG_HALT -/
  halted : Bool := false
deriving DecidableEq, Repr

/-- The reset value of `Engine`. -/
def Engine.reset : Engine := {}

/-- R322: line 0 of a queue-table entry as the scheduler keeps it. -/
structure QCfg where
  /-- R322. desc_base -/
  descBase : Nat := 0
  /-- R322. cmp_base -/
  cmpBase : Nat := 0
  /-- R322. asid -/
  asid : BitVec 16 := 0
  /-- R322. desc_log2 -/
  descLog2 : Nat := 0
  /-- R322. cmp_log2 -/
  cmpLog2 : Nat := 0
  /-- R322. ordered -/
  ordered : Bool := false
deriving DecidableEq, Repr

/-- The reset value of `QCfg`. -/
def QCfg.reset : QCfg := {}

/-- R321–R352: what a scheduler keeps of one queue. -/
structure Queue where
  /-- R350. PART_QEN bit -/
  en : Bool := false
  /-- R352. reason for ERROR; 0: not in ERROR -/
  err : Nat := 0
  /-- R323. configuration in force -/
  cfg : Option QCfg := none
  /-- R322. head -/
  head : W32 := 0
  /-- R345. number of the next descriptor to be fetched or read -/
  taken : Nat := 0
  /-- R322. cmp_count -/
  cmpCount : W32 := 0
  /-- R327. producer as last read -/
  producer : W32 := 0
  /-- R343. consumer as last read -/
  consumer : W32 := 0
  /-- R327. indices whose reads are outstanding -/
  toRead : List W32 := []
  /-- R345. fetched descriptors, in order -/
  ready : List Desc := []
  /-- R346. pending hand-overs (chain addresses), oldest first -/
  hand : List Nat := []
  /-- R264. hand-overs on their way: counter line, chain, partition generation -/
  inbox : List (Nat × Nat × Byte) := []
  /-- R346. chained descriptors that have been read -/
  chainRd : List Desc := []
  /-- R343. descriptors started whose record is not yet written -/
  open_ : Nat := 0
  /-- R338. a barrier has started and not completed -/
  barrier : Bool := false
  /-- R338. NOP or FENCE taken by the scheduler -/
  sched : Option Desc := none
  /-- R338. invalidation FENCE in progress -/
  fence : Option Desc := none
  /-- R325. a wake is on its way -/
  wake : Bool := false
  /-- R342. descriptors whose counter advance waits for its line: access, end, descriptor, engine -/
  adv : List (Nat × EndRec × Desc × Byte) := []
deriving DecidableEq, Repr

/-- The reset value of `Queue`. -/
def Queue.reset : Queue := {}

/-- R412, R437, R453: what a controller keeps of one rank. -/
structure RankS where
  /-- R412. mode register 4 shows a doubled refresh rate -/
  doubled : Bool := false
  /-- R412. fabric clock at which it was last read -/
  mr4At : Nat := 0
  /-- R437. device marked failed, subchannel A -/
  markA : Option Nat := none
  /-- R437. device marked failed, subchannel B -/
  markB : Option Nat := none
  /-- R422. fabric clocks of the corrected errors of the last 2^32 memory clocks -/
  ce : List Nat := []
  /-- R453. corrected counts per subchannel and device (10 × sub + device) -/
  devCe : Tab Nat := []
  /-- R437. fabric clocks of each device's corrections of the last 2^32 memory clocks -/
  devCor : Tab (List Nat) := []
deriving DecidableEq, Repr

/-- The reset value of `RankS`. -/
def RankS.reset : RankS := {}

/-- R407: a write in a subchannel's write queue. -/
structure DWrite where
  /-- R408. physical line number -/
  line : Nat := 0
  /-- R406. location key of the line (channel, rank, q) -/
  loc : Nat := 0
  /-- R407. bytes -/
  data : Bytes := []
  /-- R434. poison mark -/
  poison : Bool := false
  /-- R407. fabric clock of arrival -/
  since : Nat := 0
  /-- R407. waited 2,048 memory clocks -/
  aged : Bool := false
deriving DecidableEq, Repr

/-- The reset value of `DWrite`. -/
def DWrite.reset : DWrite := {}

/-- R407: a read in a subchannel's read queue. -/
structure DRead where
  /-- R407. request -/
  txn : Nat := 0
  /-- R407. physical line number -/
  line : Nat := 0
  /-- R407. fabric clock of arrival -/
  since : Nat := 0
  /-- R407. waited 2,048 memory clocks -/
  aged : Bool := false
deriving DecidableEq, Repr

/-- The reset value of `DRead`. -/
def DRead.reset : DRead := {}

/-- R419: an operation queued at the read-modify-write unit. -/
structure RmwOp where
  /-- R419. request -/
  txn : Nat := 0
  /-- R419. physical line number -/
  line : Nat := 0
  /-- R409. fabric clock of arrival at the controller -/
  since : Nat := 0
deriving DecidableEq, Repr

/-- The reset value of `RmwOp`. -/
def RmwOp.reset : RmwOp := {}

/-- R407–R415: one subchannel. -/
structure SubCh where
  /-- R407. read queue -/
  rq : List DRead := []
  /-- R407. write queue -/
  wq : List DWrite := []
  /-- R407. writes have priority (wr_hi reached, wr_lo not yet) -/
  wrMode : Bool := false
  /-- R410. open row of each bank (32 × rank + bank) -/
  open_ : Tab Nat := []
  /-- R410. fabric clock of each open bank's last column command -/
  usedAt : Tab Nat := []
  /-- R415. retry buffer: the commands issued and not known to have retired: location of a column command, fabric clock of issue -/
  retry : List (Option Nat × Nat) := []
  /-- R416. alerts in a row with no command retiring -/
  alerts : Nat := 0
  /-- R416. its command bus retrains -/
  catrain : Bool := false
  /-- R416. fabric clock at which that retraining started -/
  catAt : Nat := 0
  /-- R416. retrainings failed in a row -/
  catFails : Nat := 0
  /-- R416. commands retired since the last retraining, up to 2^24 -/
  retired : Nat := 0
  /-- R416. a retraining has ended and fewer than 2^24 commands have retired since -/
  retrained : Bool := false
  /-- R411. tREFI since the last refresh of bank index (4 × rank + index) -/
  unref : Tab Nat := []
  /-- R411. fabric clock at which each bank index was last due for a refresh -/
  refAt : Tab Nat := []
deriving DecidableEq, Repr

/-- The reset value of `SubCh`. -/
def SubCh.reset : SubCh := {}

/-- R430: one DRAM controller. -/
structure Chan where
  /-- R430. state -/
  st : ChState := .training
  /-- R430, R620. speed -/
  speed : BitVec 2 := 0
  /-- R430, R620. DIMM -/
  dimm : Dimm := ⟨0, 0, 0, 0, 0, false, 0, 0, 0, 0, false⟩
  /-- R430. ranks failed at training or retired -/
  out : BitVec 4 := 0
  /-- R430, R620. spare_valid -/
  spareV : Bool := false
  /-- R430, R620. spare rank -/
  spare : BitVec 2 := 0
  /-- R406, R425. physical rank that serves a rank's place (retired or failed rank to spare) -/
  served : Tab Nat := []
  /-- R424. migration running: rank, chunks copied -/
  migr : Option (Nat × Nat) := none
  /-- R426. SPARE_FAILED split: rank, chunks on the spare -/
  split : Option (Nat × Nat) := none
  /-- R426. migration paused by a warm reset -/
  migPaused : Bool := false
  /-- R430. DRC_CTRL hold -/
  hold : Bool := false
  /-- R430. DRC_TIM0–3 -/
  tim : List W32 := [0,0,0,0]
  /-- R430. DRC_SCHED -/
  sched : W32 := 0x301040
  /-- R430. DRC_RETRY_CFG -/
  retryCfg : W32 := 0x24
  /-- R430. DRC_SPARE_CFG -/
  spareCfg : W32 := 0x80801000
  /-- R430. DRC_SPARE_CMD rank -/
  spareRank : BitVec 2 := 0
  /-- R430. DRC_SPARE_STAT result -/
  spareRes : BitVec 4 := 0
  /-- R430. DRC_SPARE_STAT from -/
  spareFrom : BitVec 2 := 0
  /-- R430. DRC_SPARE_STAT done -/
  spareDone : BitVec 20 := 0
  /-- R430, R620. DRC_PASR -/
  pasr : W32 := 0
  /-- R430. DRC_EVSTAT -/
  evstat : BitVec 6 := 0
  /-- R430. DRC_ALERTS -/
  alerts : W32 := 0
  /-- R430. DRC_CATRAINS -/
  catrains : W32 := 0
  /-- R430. DRC_CHFAILS -/
  chfails : W32 := 0
  /-- R430. DRC_REFFORCED -/
  refForced : W32 := 0
  /-- R430. DRC_MIGRATIONS -/
  migrations : W32 := 0
  /-- R430. DRC_TIMREFUSED -/
  timRefused : W32 := 0
  /-- R430. retrying -/
  retrying : Bool := false
  /-- R407. subchannel A -/
  subA : SubCh := SubCh.reset
  /-- R407. subchannel B -/
  subB : SubCh := SubCh.reset
  /-- R419. read-modify-write unit -/
  rmw : List RmwOp := []
  /-- R420. operations that wait for an entry -/
  rmwIn : List RmwOp := []
  /-- R412. ranks -/
  ranks : Tab RankS := []
  /-- R542. halted by DEBUG_HALT -/
  halted : Bool := false
deriving DecidableEq, Repr

/-- The reset value of `Chan`. -/
def Chan.reset : Chan := {}

/-- R453: one scrubber. -/
structure Scrub where
  /-- R453. lap_ms -/
  lapMs : W32 := 0
  /-- R453. laps -/
  laps : W32 := 0
  /-- R453. starved -/
  starved : W32 := 0
  /-- R453. corrected -/
  corrected : W32 := 0
  /-- R453. uncorr -/
  uncorr : W32 := 0
  /-- R453. healed -/
  healed : W32 := 0
  /-- R450. next line of the lap -/
  pos : Nat := 0
  /-- R452. fabric clock at which the lap began -/
  lapAt : Nat := 0
  /-- R452. SCRUB_LAP recorded for this lap -/
  lapLogged : Bool := false
  /-- R450. fabric clock of the last read of each subchannel, or of each Burrow die -/
  readAt : Tab Nat := []
  /-- R452. fabric clock of the last read, or of the last starved interval counted -/
  idleAt : Nat := 0
  /-- R452. fabric clock at which the channel entered self-refresh in this lap -/
  pausedAt : Option Nat := none
deriving DecidableEq, Repr

/-- The reset value of `Scrub`. -/
def Scrub.reset : Scrub := {}

/-- R36, R37: an RWT field's three copies (as the number that packs the field), the last value that passed a vote, and whether its vote has failed. -/
structure Rwt where
  /-- R36. copy 0 -/
  a : Nat := 0
  /-- R36. copy 1 -/
  b : Nat := 0
  /-- R36. copy 2 -/
  c : Nat := 0
  /-- R37. last value that passed a vote -/
  last : Nat := 0
  /-- R37. the vote has failed and the field has not been rewritten -/
  failed : Bool := false
deriving DecidableEq, Repr

/-- The reset value of `Rwt`. -/
def Rwt.reset : Rwt := {}

/-- R460, R475, R478: policer and shaper settings of a (partition, port), staged or in force. -/
structure PolSet where
  /-- R478. cir, Mb/s -/
  cir : W32 := 0
  /-- R478. pir, Mb/s -/
  pir : W32 := 0
  /-- R478. cbs, bytes -/
  cbs : W32 := 0
  /-- R478. pbs, bytes -/
  pbs : W32 := 0
  /-- R478. shaper rate, Mb/s -/
  srate : W32 := 0
  /-- R478. shaper burst, bytes -/
  sburst : W32 := 0
  /-- R478. shape_en, aware, pol_en -/
  ctrl : BitVec 3 := 0
deriving DecidableEq, Repr

/-- The reset value of `PolSet`. -/
def PolSet.reset : PolSet := {}

/-- R460–R479: one partition's traffic on one port. -/
structure PortQos where
  /-- R478. QOS staged settings -/
  staged : PolSet := PolSet.reset
  /-- R478. settings in force -/
  inForce : PolSet := PolSet.reset
  /-- R478. QOS_APPLY result -/
  result : BitVec 4 := 0
  /-- R473, R478. an accepted apply takes effect at the next refill -/
  applyDue : Bool := false
  /-- R473, R479. the settings that it puts in force -/
  applied : PolSet := PolSet.reset
  /-- R460. committed bucket, in 1/1,200 byte: a refill at a whole rate in Mb/s is exact -/
  committed : Nat := 0
  /-- R460. peak bucket -/
  peak : Nat := 0
  /-- R467. shaper bucket -/
  shaper : Nat := 0
  /-- R468. deficit counter -/
  deficit : Nat := 0
  /-- R475. the oldest queued message has been counted in PART_SHP_WAITS -/
  waited : Bool := false
  /-- R466. egress queue, oldest first -/
  egress : List EgMsg := []
  /-- R475. PART_POL_GREEN -/
  green : W64 := 0
  /-- R475. PART_POL_YELLOW -/
  yellow : W64 := 0
  /-- R475. PART_POL_RED -/
  red : W64 := 0
  /-- R475. PART_POL_REFUSED -/
  refused : W32 := 0
  /-- R475. PART_SHP_WAITS -/
  shpWaits : W32 := 0
  /-- R475. PART_SHP_BYTES -/
  shpBytes : W64 := 0
  /-- R475. PART_Q_DEPTHSUM -/
  depthSum : W64 := 0
  /-- R475. PART_Q_SAMPLES -/
  samples : W64 := 0
  /-- R475. PART_Q_DEPTHMAX -/
  depthMax : W32 := 0
  /-- R475. PART_Q_DELAYMAX -/
  delayMax : W32 := 0
  /-- R476. fabric clock at which PART_Q_DEPTHMAX last rose -/
  depthAt : Option Nat := none
  /-- R476. fabric clock at which PART_Q_DELAYMAX last rose -/
  delayAt : Option Nat := none
  /-- R475. PART_Q_DELAYSUM -/
  delaySum : W64 := 0
  /-- R475. PART_Q_DELAYCNT -/
  delayCnt : W64 := 0
deriving DecidableEq, Repr

/-- The reset value of `PortQos`. -/
def PortQos.reset : PortQos := {}

/-- R454–R458: a partition's event ring and its error registers. -/
structure EvRing where
  /-- R458. PART_EVBASE_LO, staged -/
  baseLo : W32 := 0
  /-- R458. PART_EVBASE_HI, staged -/
  baseHi : W32 := 0
  /-- R458. PART_EVCFG log2 -/
  log2 : BitVec 5 := 0
  /-- R458. PART_EVCFG on -/
  on : Bool := false
  /-- R459. base in force -/
  base : Nat := 0
  /-- R458. PART_EVPROD -/
  prod : W32 := 0
  /-- R458. PART_EVCONS -/
  cons : W32 := 0
  /-- R458. PART_EVSTAT -/
  evstat : BitVec 5 := 0
  /-- R458. PART_EVLOST -/
  lost : W32 := 0
  /-- R458. PART_POISONS -/
  poisons : W32 := 0
  /-- R458. PART_CE_DRAM -/
  ceDram : W32 := 0
  /-- R458. PART_CE_SRAM -/
  ceSram : W32 := 0
  /-- R458. PART_EVREFUSED -/
  refused : W32 := 0
  /-- R456. lost is set in the next record written -/
  lostPend : Bool := false
deriving DecidableEq, Repr

/-- The reset value of `EvRing`. -/
def EvRing.reset : EvRing := {}

/-- R41: a word of a FIFO-style interface. -/
structure FWord where
  /-- R41. the word -/
  w : W32 := 0
  /-- R41. end-of-packet mark -/
  eop : Bool := false
deriving DecidableEq, Repr

/-- The reset value of `FWord`. -/
def FWord.reset : FWord := {}

/-- R41–R45: a FIFO-style interface. -/
structure Fifo where
  /-- R41, R45. send side, oldest first -/
  send : List FWord := []
  /-- R41, R45. receive side, oldest first -/
  recv : List FWord := []
  /-- R43. a drop discards arriving words until a mark -/
  dropping : Bool := false
  /-- R45. the packet being pushed was over-long and its rest is dropped -/
  over_ : Bool := false
deriving DecidableEq, Repr

/-- The reset value of `Fifo`. -/
def Fifo.reset : Fifo := {}

/-- R523: an installed consent token. -/
structure Token where
  /-- R523. scope -/
  scope : BitVec 3 := 0
  /-- R523. trace_log2 -/
  log2 : Nat := 0
  /-- R523. tick_limit -/
  limit : Nat := 0
deriving DecidableEq, Repr

/-- The reset value of `Token`. -/
def Token.reset : Token := {}

/-- R542: a D1 trace record. -/
structure TraceRec where
  /-- R542. message type -/
  ty : Byte := 0
  /-- R542. status -/
  status : Byte := 0
  /-- R542. ASID -/
  asid : BitVec 16 := 0
  /-- R542. virtual address -/
  va : Nat := 0
  /-- R542. TOP_TICK -/
  tick : W64 := 0
  /-- R542. arrival port or ring stop -/
  port : Byte := 0
deriving DecidableEq, Repr

/-- The reset value of `TraceRec`. -/
def TraceRec.reset : TraceRec := {}

/-- R518, R519: one exchange of the SPDM responder, as DSP0274 1.2 orders it. -/
structure Spdm where
  /-- R519. how far the exchange has come: 0 none, 1 version, 2 capabilities, 3 algorithms -/
  stage : Nat := 0
  /-- R518. messages of the exchange up to ALGORITHMS, which later signatures cover -/
  vca : Bytes := []
  /-- R518. digest and certificate messages since ALGORITHMS -/
  mb : Bytes := []
  /-- R518. measurement messages since the last signed MEASUREMENTS -/
  l1 : Bytes := []
deriving DecidableEq, Repr

/-- The reset value of `Spdm`. -/
def Spdm.reset : Spdm := {}

/-- R522–R529: a partition's consent and debug block. -/
structure Dbg where
  /-- R529. PART_CKEY, staged -/
  ckey : Tab W32 := []
  /-- R529. PART_TOKEN, staged -/
  tokw : Tab W32 := []
  /-- R522. registered consent key, x then y -/
  key : Option Bytes := none
  /-- R523. installed token -/
  token : Option Token := none
  /-- R529. PART_DBG_STAT result -/
  result : BitVec 3 := 0
  /-- R529. PART_DBG_EVSTAT -/
  evstat : BitVec 2 := 0
  /-- R529. PART_TOKREFUSED -/
  tokRefused : W32 := 0
  /-- R529. PART_SPDMERR -/
  spdmErr : W32 := 0
  /-- R519. SPDM mailbox -/
  fifo : Fifo := Fifo.reset
  /-- R519. exchange of the tenant's mailbox -/
  spdm : Spdm := Spdm.reset
  /-- R524. D1 requests -/
  reqs : W64 := 0
  /-- R524. D1 parks -/
  parks : W64 := 0
  /-- R524. D1 hold waits -/
  holdWaits : W64 := 0
  /-- R524. D1 snoop timeouts -/
  snptos : W64 := 0
  /-- R542. D1 trace ring, oldest first -/
  trace : List TraceRec := []
  /-- R542. sequence of the next trace record -/
  traceSeq : W32 := 0
  /-- R523. requests since the last one traced -/
  sample : Nat := 0
deriving DecidableEq, Repr

/-- The reset value of `Dbg`. -/
def Dbg.reset : Dbg := {}

/-- R395–R399: a partition's Burrow extension. -/
structure ExtMem where
  /-- R400. BUR_EXTBASE staged -/
  stBase : BitVec 27 := 0
  /-- R400. BUR_EXTSIZE staged -/
  stSize : BitVec 16 := 0
  /-- R400. base in force, 2 MiB units -/
  base : Nat := 0
  /-- R400. size in force, 2 MiB units -/
  size : Nat := 0
  /-- R400. BUR_EXTCTRL result -/
  result : BitVec 4 := 0
deriving DecidableEq, Repr

/-- The reset value of `ExtMem`. -/
def ExtMem.reset : ExtMem := {}

/-- R114–R122, R458, R475, R529: one partition. -/
structure PartS where
  /-- R115. op_hold -/
  opHold : Bool := false
  /-- R115. tenant_hold -/
  tenantHold : Bool := false
  /-- R84, R119. its section failed its checks: op_hold stays until one passes -/
  secBad : Bool := false
  /-- R115. state -/
  st : PState := .run
  /-- R118. fabric clock at which DRAINING began -/
  drainAt : Nat := 0
  /-- R118. the 10 ms record of this drain has been written -/
  rec10 : Bool := false
  /-- R489. the 100 ms escalation of this drain has run -/
  rec100 : Bool := false
  /-- R115. partition generation -/
  gen : Byte := 0
  /-- R122. reset_req -/
  resetReq : Bool := false
  /-- R352. PART_QRESET go -/
  qrGo : Bool := false
  /-- R352. PART_QRESET offset -/
  qrOff : BitVec 12 := 0
  /-- R454. event ring -/
  ring : EvRing := EvRing.reset
  /-- R475. traffic per port -/
  qos : Tab PortQos := []
  /-- R529. consent and debug -/
  dbg : Dbg := Dbg.reset
  /-- R395. Burrow extension -/
  ext : ExtMem := ExtMem.reset
deriving DecidableEq, Repr

/-- The reset value of `PartS`. -/
def PartS.reset : PartS := {}

/-- R277, R278: a walk in progress. -/
structure Walk where
  /-- R288. an invalidation of its ASID reached its walker group: it installs nothing -/
  stale : Bool := false
  /-- R277. ASID -/
  asid : BitVec 16 := 0
  /-- R277. v[56:21] -/
  page : Nat := 0
  /-- R278. fabric clock of its start -/
  since : Nat := 0
deriving DecidableEq, Repr

/-- The reset value of `Walk`. -/
def Walk.reset : Walk := {}

/-- R287–R294: the translation block. -/
structure XltS where
  /-- R294. drain_to -/
  drainTo : BitVec 12 := 0x7D0
  /-- R294. walk_to -/
  walkTo : Byte := 0x40
  /-- R294. XLT_INV go -/
  go : Bool := false
  /-- R294. XLT_INV region -/
  region : Bool := false
  /-- R294. XLT_INV target -/
  target : BitVec 24 := 0
  /-- R294. XLT_INVSTAT done -/
  done : Bool := false
  /-- R294. XLT_INVSTAT status -/
  status : Byte := 0
  /-- R294. XLT_EVSTAT -/
  evstat : BitVec 3 := 0
  /-- R294. XLT_WALKS -/
  walks : W32 := 0
  /-- R294. XLT_FAULTS -/
  faults : W32 := 0
  /-- R294. XLT_WALKTO -/
  walkto : W32 := 0
  /-- R294. XLT_DRAINTO -/
  drainto : W32 := 0
  /-- R294. XLT_INVS -/
  invs : W32 := 0
  /-- R277. walks in progress -/
  walk : List Walk := []
  /-- R284. context caches: walker group, ASID, context -/
  ctx : List (Nat × Nat × Bytes) := []
  /-- R284. overflow cache -/
  oc : List Xl := []
  /-- R288. invalidations in progress -/
  drains : List Drain := []
  /-- R288. number of the next invalidation -/
  nextId : Nat := 0
deriving DecidableEq, Repr

/-- The reset value of `XltS`. -/
def XltS.reset : XltS := {}

/-- R400: the Burrow block's counters. -/
structure BurS where
  /-- R400. BUR_EVSTAT -/
  evstat : BitVec 3 := 0
  /-- R400. BUR_HITS -/
  hits : W64 := 0
  /-- R400. BUR_MISSES -/
  misses : W64 := 0
  /-- R400. BUR_VICTIMS -/
  victims : W64 := 0
  /-- R400. BUR_VICFULL -/
  vicfull : W32 := 0
  /-- R400. BUR_CACHE_REREAD -/
  reread : W32 := 0
  /-- R400. BUR_EXTREFUSED -/
  extRefused : W32 := 0
  /-- R542. halted by DEBUG_HALT -/
  halted : Bool := false
  /-- R542. bytes of the Burrow outside the scratch area, as DEBUG_HALT wrote them -/
  raw : List Host.Cell := []
deriving DecidableEq, Repr

/-- The reset value of `BurS`. -/
def BurS.reset : BurS := {}

/-- R469, R478: the QOS block. -/
structure QosS where
  /-- R478. QOS_EVSTAT refused -/
  evstat : Bool := false
  /-- R478. QOS_REFUSED -/
  refused : W32 := 0
  /-- R469. fabric clocks since the global section took effect, or the cycle restarted -/
  gate : Nat := 0
  /-- R471. the slot takes new lookups of its owner -/
  gateOpen : Bool := true
  /-- R468. the partition that each port's round-robin served last -/
  turn : Tab Nat := []
deriving DecidableEq, Repr

/-- The reset value of `QosS`. -/
def QosS.reset : QosS := {}

/-- R557–R577: one host port. -/
structure HPort where
  /-- R577. PSTATUS width -/
  width : BitVec 2 := 0
  /-- R577. PSTATUS align -/
  align : Bool := false
  /-- R577. PSTATUS up -/
  up : Bool := false
  /-- R577. HST_PCTRL -/
  ctrl : BitVec 4 := 2
  /-- R577. MAC address -/
  mac : BitVec 48 := 0
  /-- R577. IPv4 address -/
  ipv4 : W32 := 0
  /-- R577. VLAN identifier -/
  vlan : BitVec 12 := 0
  /-- R577. IPv6 address, bytes 0–3 in its low word -/
  ipv6 : BitVec 128 := 0
  /-- R577. HST_PFC -/
  pfc : BitVec 27 := 0x3C00800
  /-- R577. HST_CNP -/
  cnp : BitVec 16 := 4
  /-- R577. HST_RXDROP -/
  rxdrop : W32 := 0
  /-- R577. HST_ICRCERR -/
  icrcErr : W32 := 0
  /-- R577. HST_PFCTX -/
  pfctx : W32 := 0
  /-- R577. HST_CNPTX -/
  cnptx : W32 := 0
  /-- R575. fabric clock until which a priority is paused -/
  paused : Tab Nat := []
  /-- R575. XOFF has been sent -/
  xoffed : Bool := false
  /-- R559, R560. frames and packets sent, oldest first -/
  sent : List HSent := []
deriving DecidableEq, Repr

/-- The reset value of `HPort`. -/
def HPort.reset : HPort := {}

/-- R570: a line access of a host request that waits to be issued. -/
structure Pend1 where
  /-- R570. line address -/
  va : Nat := 0
  /-- R570. first byte in the line -/
  off : Nat := 0
  /-- R570. bytes to write; empty for a read -/
  data : Bytes := []
  /-- R570. bytes of the line -/
  len : Nat := 0
deriving DecidableEq, Repr

/-- The reset value of `Pend1`. -/
def Pend1.reset : Pend1 := {}

/-- R565, R568, R569: a request of a queue pair that has not been performed whole. -/
structure Pend where
  /-- R568. PSN -/
  psn : BitVec 24 := 0
  /-- R569. 0 WRITE, 1 READ, 2 CAS8, 3 ADD -/
  kind : Nat := 0
  /-- R569. open requests of its lines -/
  txns : List Nat := []
  /-- R567. data of lines read, by line index -/
  got : Tab Bytes := []
  /-- R49. status so far -/
  worst : Status := .ok
  /-- R571. first address -/
  va : Nat := 0
  /-- R571. bytes -/
  len : Nat := 0
  /-- R569. lines not yet issued -/
  left : List Pend1 := []
  /-- R569. an acknowledgement is asked for -/
  ack : Bool := false
  /-- R575. port it arrived on -/
  port : Nat := 0
  /-- R559. MAC address of the host -/
  mac : BitVec 48 := 0
  /-- R575. priority of its frame -/
  prio : BitVec 3 := 0
  /-- R575. bytes of its frame in the receive buffer until its lines are issued -/
  bytes : Nat := 0
  /-- R573. on a partition page -/
  page : Bool := false
  /-- R572. ASID of its window -/
  asid : BitVec 16 := 0
  /-- R560. whether an RDMA WRITE was in progress before it -/
  wo : Bool := false
  /-- R560. next address of that RDMA WRITE -/
  wva : Nat := 0
  /-- R560. its bytes to come -/
  wleft : Nat := 0
  /-- R571, R574. its ASID or page -/
  wkey : W32 := 0
  /-- R568. a duplicate READ -/
  dup : Bool := false
deriving DecidableEq, Repr

/-- The reset value of `Pend`. -/
def Pend.reset : Pend := {}

/-- R563–R576: a queue pair. -/
structure QP where
  /-- R563. context bytes -/
  b : Tab Byte := []
  /-- R568. PSN and original value of the last 16 atomics, newest first -/
  atomics : List (BitVec 24 × W64) := []
  /-- R576. READ Response rate, in 1/65,536 of line rate -/
  rate : Nat := 65536
  /-- R576. fabric clock from which its next READ Response data may leave -/
  dataAt : Nat := 0
  /-- R576. fabric clock of the last CNP sent -/
  cnpAt : Nat := 0
  /-- R576. a CNP has been sent -/
  cnpSent : Bool := false
  /-- R576. fabric clock of the last CNP received or rate step -/
  cnpIn : Nat := 0
  /-- R560. next address of the RDMA WRITE in progress -/
  wrVa : Nat := 0
  /-- R560. its bytes to come -/
  wrLeft : Nat := 0
  /-- R571, R574. its ASID, or bit 16: it writes a partition page -/
  wrKey : W32 := 0
  /-- R560. an RDMA WRITE is in progress -/
  wrOn : Bool := false
  /-- R567. the NAK PSN Sequence Error for epsn has been sent -/
  nakSent : Bool := false
  /-- R568. requests in progress, oldest first -/
  pend : List Pend := []
  /-- R569. newest PSN that may be acknowledged -/
  ackDue : Option (BitVec 24) := none
  /-- R559. port of the newest packet -/
  ackPort : Nat := 0
  /-- R559. MAC address of its sender -/
  ackMac : BitVec 48 := 0
  /-- R575. its priority -/
  ackPrio : BitVec 3 := 0
deriving DecidableEq, Repr

/-- The reset value of `QP`. -/
def QP.reset : QP := {}

/-- R571: an R_Key entry. -/
structure RKey where
  /-- R571. entry bytes -/
  b : Tab Byte := []
deriving DecidableEq, Repr

/-- The reset value of `RKey`. -/
def RKey.reset : RKey := {}

/-- R557–R577: the host interface. -/
structure HstS where
  /-- R577. ports -/
  ports : Tab HPort := []
  /-- R563. queue pairs -/
  qps : Tab QP := []
  /-- R571. R_Key entries -/
  rkeys : Tab RKey := []
  /-- R577. HST_EVSTAT qp_err -/
  evstat : Bool := false
  /-- R577. HST_QPERRS -/
  qperrs : W32 := 0
deriving DecidableEq, Repr

/-- The reset value of `HstS`. -/
def HstS.reset : HstS := {}

/-- R455, R550: a record of the event log. -/
structure EvRec where
  /-- R455. kind -/
  kind : Byte := 0
  /-- R455. status -/
  status : Byte := 0
  /-- R455. detail -/
  detail : Byte := 0
  /-- R550. lost -/
  lost : Bool := false
  /-- R455. addr -/
  addr : W64 := 0
  /-- R455. tick -/
  tick : W64 := 0
  /-- R455. bootcnt -/
  bootcnt : W32 := 0
  /-- R550. partition concerned, 0xFF none -/
  part : Byte := 0xFF
deriving DecidableEq, Repr

/-- The reset value of `EvRec`. -/
def EvRec.reset : EvRec := {}

/-- R535, R539: a management session. -/
structure Sess where
  /-- R535. fabric clock of the last command -/
  lastCmd : Nat := 0
  /-- R539. command whose body is being assembled, 0 none -/
  chCode : BitVec 16 := 0
  /-- R539. body assembled so far -/
  chBody : Bytes := []
  /-- R519. exchange of the operator's responder -/
  spdm : Spdm := Spdm.reset
deriving DecidableEq, Repr

/-- The reset value of `Sess`. -/
def Sess.reset : Sess := {}

/-- R536: a reply in a session stream. -/
structure Reply where
  /-- R538. session (4: the mailbox) -/
  sess : Nat := 0
  /-- R536. code -/
  code : BitVec 16 := 0
  /-- R536. tag -/
  tag : W32 := 0
  /-- R536. status -/
  status : Status := .ok
  /-- R536. body -/
  body : Bytes := []
deriving DecidableEq, Repr

/-- The reset value of `Reply`. -/
def Reply.reset : Reply := {}

/-- R85: a partition section whose scrub runs. -/
structure Repl where
  /-- R85. partition -/
  part : Nat := 0
  /-- R85. the new section -/
  sec : PartSec := PartSec.reset
  /-- R85. session of the command -/
  sess : Nat := 0
  /-- R85. its tag -/
  tag : W32 := 0
deriving DecidableEq, Repr

/-- The reset value of `Repl`. -/
def Repl.reset : Repl := {}

/-- R531–R556, R596: Owl. -/
structure OwlS where
  /-- R556. OWL_STATUS state -/
  st : OwlState := .boot
  /-- R556. bank running -/
  bankB : Bool := false
  /-- R544. bank A has failed this boot -/
  failA : Bool := false
  /-- R544. bank B has failed this boot -/
  failB : Bool := false
  /-- R535. open sessions -/
  sessions : Tab Sess := []
  /-- R536. replies sent, oldest first -/
  replies : List Reply := []
  /-- R533. frames answered at the MGT port -/
  mgtSent : List (MgtKind × Frame) := []
  /-- R534, R535. what Owl sends in TLS handshakes: its certificate chain, or an alert -/
  tlsSent : List (TlsKind × Bytes) := []
  /-- R533. IPv4 address that DHCPv4 has given, byte 0 lowest -/
  lease : Option Nat := none
  /-- R533. IPv6 address formed by SLAAC, byte 0 lowest -/
  slaac : Option Nat := none
  /-- R533. TCP payloads handed to the session layer -/
  tcpIn : List Bytes := []
  /-- R546, R550. event records not yet in flash -/
  evq : List EvRec := []
  /-- R556. OWL_EVSTAT -/
  evstat : BitVec 2 := 0
  /-- R556. OWL_MBOXERR -/
  mboxErr : W32 := 0
  /-- R556. OWL_EVDROP -/
  evDrop : W32 := 0
  /-- R550. lost is set in the next record -/
  lostPend : Bool := false
  /-- R556. mailbox -/
  fifo : Fifo := Fifo.reset
  /-- R453. DRAM scrub interval -/
  scrubInt : BitVec 16 := 64
  /-- R453. Burrow scrub interval -/
  burInt : BitVec 16 := 16
  /-- R453. lap_limit -/
  lapLimit : W32 := 86400
  /-- R547. temperatures, 1/16 °C -/
  temps : List Int := []
  /-- R547. voltages, mV -/
  mv : List Nat := []
  /-- R548. READ_POUT of each device rail, W -/
  pout : Tab Nat := []
  /-- R549. power cap -/
  cap : Nat := 0
  /-- R477. eng_share -/
  engShare : Byte := 0x80
  /-- R477. power in 5 W -/
  power : Byte := 0
  /-- R477. active -/
  active : Bool := false
  /-- R475. PART_PWRCAP_MS of each partition page -/
  capMs : Tab W32 := []
  /-- R555. fabric clock of the last refresh of the SMBus values -/
  smSince : Nat := 0
  /-- R555. stale -/
  smStale : Bool := false
  /-- R555. temperatures served -/
  smTemps : List Int := []
  /-- R555. voltages served -/
  smMv : List Nat := []
  /-- R555. P served -/
  smP : Nat := 0
  /-- R555. bytes returned on SMBus; an empty entry is a NACK -/
  smOut : List Bytes := []
  /-- R542. PMBus transactions sent -/
  pmOut : List Bytes := []
  /-- R596. OWL_PWRSTAT transit -/
  transit : Bool := false
  /-- R596. OWL_PWRSTAT state -/
  pwr : PwrState := .run
  /-- R585. target of the command in progress -/
  target : PwrState := .run
  /-- R585. its session -/
  pwSess : Nat := 0
  /-- R585. its tag -/
  pwTag : W32 := 0
  /-- R587. fabric clock of the request -/
  pwSince : Nat := 0
  /-- R588, R591. how far an entry has come: 0 waits for QUIESCED or for running descriptors, 1 the recall sweep runs, 2 waits for the ports' plans -/
  pwStep : Nat := 0
  /-- R591. the recall sweep of HIBERNATE has ended -/
  swept : Bool := false
  /-- R588. partitions whose op_hold the power state set -/
  noted : List Nat := []
  /-- R593. WBK messages held at the ring inputs: port, message, type -/
  hibWbk : List (Nat × Msg × BitVec 6) := []
  /-- R265. counter lines in HELD that Owl keeps listed -/
  held : List Nat := []
  /-- R541. MGT settings in force -/
  mgt : Bytes := []
  /-- R537. MGT settings that wait until all sessions close -/
  mgtNew : Option Bytes := none
  /-- R514. a warm-reset request waits for the end of the wipe -/
  warmHeld : Bool := false
  /-- R499. attempts of the warm reset in progress -/
  warmTries : Nat := 0
  /-- R499. fabric clock of its step 1 -/
  warmAt : Nat := 0
  /-- R81. image staged for the next warm reset -/
  staged : Option Bytes := none
  /-- R80. session whose staged image waits for training -/
  stSess : Nat := 0
  /-- R77. the image in force, as Owl holds it; none under a built-in layout -/
  image : Option Bytes := none
  /-- R79. flash images that this boot has given up -/
  tried : Nat := 0
  /-- R95. code of the highest speed every installed DIMM supports, as read from SPD -/
  spd : BitVec 2 := 0
  /-- R403, R428. what the SPD of each channel's DIMM showed in step 4 -/
  spds : List Spd := []
  /-- R93. firmware that came over MGT in a MANUFACTURING boot: security_version and image -/
  mgtFw : Option (Nat × Bytes) := none
  /-- R85. a replacement whose scrub (step 4) runs -/
  repl : Option Repl := none
  /-- R82, R88. partitions whose scrub of R82 or R88 runs -/
  scrubs : List Nat := []
  /-- R88. those of them that a replacement's abandoned scrub holds quiesced -/
  reScrub : List Nat := []
  /-- R80. its tag -/
  stTag : W32 := 0
  /-- R553. SUMMARY entries written since the last CE_COUNTS -/
  summaries : Nat := 0
  /-- R553. Tj histogram, seconds -/
  tjHist : Tab Nat := []
  /-- R553. largest Tj, 1/16 °C -/
  tjMax : Int := 0
  /-- R553. energy in W × ms -/
  energy : Nat := 0
  /-- R553. powered time in ms -/
  upMs : Nat := 0
  /-- R553. fabric clock of the last LANE_MARGIN entry of a port -/
  marginAt : Tab Nat := []
deriving DecidableEq, Repr

/-- The reset value of `OwlS`. -/
def OwlS.reset : OwlS := {}

/-- R552, R553: an entry of the service ledger. -/
structure LedEnt where
  /-- R552. type -/
  ty : BitVec 16 := 0
  /-- R552. the whole entry, signature included -/
  bytes : Bytes := []
deriving DecidableEq, Repr

/-- The reset value of `LedEnt`. -/
def LedEnt.reset : LedEnt := {}

/-- R531, R543: a flash bank. -/
structure FwBank where
  /-- R531. firmware image that passed its checks: its security_version and its bytes -/
  fw : Option (Nat × Bytes) := none
  /-- R531. layout image bytes -/
  lay : Bytes := []
deriving DecidableEq, Repr

/-- The reset value of `FwBank`. -/
def FwBank.reset : FwBank := {}

/-- R531, R532: a copy of the configuration in flash. -/
structure CfgCopy where
  /-- R532. sequence number -/
  seq : Nat := 0
  /-- R532. it passes its SM3 check -/
  ok : Bool := true
  /-- R531. preferred bank -/
  preferB : Bool := false
  /-- R531. TOP_BOOTCNT -/
  bootcnt : W32 := 0
  /-- R531. device epoch offset -/
  epochOfs : BitVec 16 := 0
  /-- R531. identity certificate -/
  cert : Bytes := []
  /-- R531. operator root public key -/
  root : Option Bytes := none
  /-- R531. layout-verification keys -/
  layKeys : Tab Bytes := []
  /-- R531. MGT network settings -/
  mgt : Bytes := []
  /-- R548. regulators marked as device rails -/
  regs : List Nat := []
  /-- R548. regulators the configuration names -/
  regNamed : List Nat := []
deriving DecidableEq, Repr

/-- The reset value of `CfgCopy`. -/
def CfgCopy.reset : CfgCopy := {}

/-- R531: the boot flash, which no reset clears. -/
structure FlashS where
  /-- R532. sequence number of the configuration copy in force, whose fields stand below -/
  cfgSeq : Nat := 0
  /-- R532. fabric clock of the last configuration write -/
  cfgAt : Option Nat := none
  /-- R532. the other configuration copy -/
  older : CfgCopy := CfgCopy.reset
  /-- R531. bank A -/
  a : FwBank := FwBank.reset
  /-- R531. bank B -/
  b : FwBank := FwBank.reset
  /-- R531. preferred bank -/
  preferB : Bool := false
  /-- R47. TOP_BOOTCNT -/
  bootcnt : W32 := 0
  /-- R230. device epoch offset -/
  epochOfs : BitVec 16 := 0
  /-- R509. identity certificate -/
  cert : Bytes := []
  /-- R511. operator root public key, x then y -/
  root : Option Bytes := none
  /-- R511. layout-verification keys -/
  layKeys : Tab Bytes := []
  /-- R548. configured regulators marked as device rails -/
  regs : List Nat := []
  /-- R548. regulators the configuration names -/
  regNamed : List Nat := []
  /-- R531. MGT network settings -/
  mgt : Bytes := []
  /-- R503. wiped -/
  wiped : Bool := false
  /-- R550. event log, oldest first -/
  log : List EvRec := []
  /-- R455. seq of the next record -/
  logSeq : W32 := 0
  /-- R552. service ledger -/
  ledger : List LedEnt := []
  /-- R554. LEDGER_FULL has been raised -/
  ledFull : Bool := false
deriving DecidableEq, Repr

/-- The reset value of `FlashS`. -/
def FlashS.reset : FlashS := {}

/-- R503, R509, R545: the fuses, which nothing clears. -/
structure FuseS where
  /-- R503. lifecycle fuses -/
  life : BitVec 128 := 0
  /-- R509. the device secret has been burnt -/
  secret : Bool := false
  /-- R504. the device secret has been overwritten with ones -/
  ones : Bool := false
  /-- R545. firmware anti-rollback counter -/
  fwCnt : Nat := 0
  /-- R545. layout anti-rollback counter -/
  layCnt : Nat := 0
deriving DecidableEq, Repr

/-- The reset value of `FuseS`. -/
def FuseS.reset : FuseS := {}

/-- R503–R530: the security engine. -/
structure SecS where
  /-- R521. instruction selected at the test access port -/
  tap : TapSel := .idcode
  /-- R503. lifecycle fuses as last read -/
  life : BitVec 128 := 0
  /-- R512. key slots: the serial number of the key each holds -/
  slots : Tab Nat := []
  /-- R509. the identity in use was derived from a secret of ones -/
  ones : Bool := false
  /-- R512. serial number of the next key drawn -/
  keySer : Nat := 1
  /-- R530. SEC_D1REQ -/
  d1req : W32 := 0
  /-- R526. D2 is open -/
  d2 : Bool := false
  /-- R530. SEC_WIPE running -/
  wipeRun : Bool := false
  /-- R530. SEC_WIPE done -/
  wipeDone : Bool := false
  /-- R517. TOP_TICK at step 1 of the wipe -/
  wipeAt : W64 := 0
  /-- R514. steps 2 and 3 of the wipe have run, and its fill runs -/
  wipeKeys : Bool := false
  /-- R517. slots that its step 2 destroyed -/
  wipeSlots : W32 := 0
  /-- R530. SEC_EVSTAT -/
  evstat : BitVec 2 := 0
  /-- R530. SEC_ORDREFUSED -/
  ordRefused : W32 := 0
  /-- R530. SEC_TOKREFUSED -/
  tokRefused : W32 := 0
deriving DecidableEq, Repr

/-- The reset value of `SecS`. -/
def SecS.reset : SecS := {}

/-- R46: the TOP block. -/
structure TopS where
  /-- R46. TOP_ENGLIVE -/
  engLive : W64 := 0xFFFFFFFFFFFFFFFF
  /-- R46. TOP_STRAP -/
  straps : BitVec 17 := 0
  /-- R47. TOP_TICK -/
  tick : W64 := 0
  /-- R46. ready -/
  ready : Bool := false
  /-- R46. fill_done -/
  fillDone : Bool := false
  /-- R46. layout_ok -/
  layoutOk : Bool := false
  /-- R46. owl_up -/
  owlUp : Bool := false
  /-- R46. TOP_KEYFAIL -/
  keyfail : W32 := 0
  /-- R46. TOP_VOTEFIX -/
  votefix : W32 := 0
  /-- R46. TOP_VOTEFAIL -/
  votefail : W32 := 0
  /-- R46. TOP_BADADDR -/
  badaddr : W32 := 0
  /-- R46. TOP_SCRATCH -/
  scratch : W32 := 0
  /-- R46. TOP_EVSTAT -/
  evstat : BitVec 4 := 0
deriving DecidableEq, Repr

/-- The reset value of `TopS`. -/
def TopS.reset : TopS := {}

/-- R32, R34: an arming of an unlock register. -/
structure Arming where
  /-- R32. offset of the *_UNLOCK register -/
  unlock : Nat := 0
  /-- R32. armed for the host path -/
  host : Bool := false
  /-- R34. fabric clock of the unlock write -/
  at_ : Nat := 0
deriving DecidableEq, Repr

/-- The reset value of `Arming`. -/
def Arming.reset : Arming := {}

/-- R180: what is recorded of a node. -/
structure NodeG where
  /-- R180. generation -/
  gen : Byte := 0
  /-- R199. declared dead -/
  dead : Bool := false
  /-- R180. the next request names its generation -/
  relearn : Bool := false
  /-- R445. its table word was uncorrectable -/
  blocked : Bool := false
  /-- R445. fabric clock of that -/
  blockAt : Nat := 0
deriving DecidableEq, Repr

/-- The reset value of `NodeG`. -/
def NodeG.reset : NodeG := {}

/-- The whole device: every register, table, queue, fuse, flash area and memory, the model's own free-value counter and clock, and the queue of commands that wait. -/
structure State where
  /-- R90. level of PWRGOOD -/
  pwrgood : Bool := false
  /-- R91. level of WRST_N -/
  wrstN : Bool := true
  /-- R486, R494. units that were out of service before the device was held in reset: engines in bits 63:0, sett units in bits 95:64 -/
  unitsOut : BitVec 96 := 0
  /-- R101. the root PLL is locked -/
  pll : Bool := false
  /-- R101, R106. where the reset sequence stands -/
  phase : Phase := .held
  /-- R580. a clock loss waits for its CLOCK_LOSS record: 1 reference stopped, 2 PLL lost lock -/
  clkLost : Nat := 0
  /-- R615. THERMTRIP_N is asserted -/
  thermtrip : Bool := false
  /-- R34, R469. fabric clocks counted (the clock of every timer) -/
  clk : Nat := 0
  /-- R46. TOP -/
  top : TopS := TopS.reset
  /-- R32. armings -/
  arms : List Arming := []
  /-- R36. RWT fields whose copies differ or whose vote failed -/
  rwt : Tab Rwt := []
  /-- R76. layout in force -/
  lay : Option Layout := none
  /-- R115. partitions -/
  parts : Tab PartS := []
  /-- R168. Dreriorn ports -/
  ports : Tab Port := []
  /-- R237. sett pairs -/
  setts : Tab Sett := []
  /-- R353. Fox engines -/
  engines : Tab Engine := []
  /-- R354. engine input queues -/
  inq : Tab Fifo := []
  /-- R345. by skulk, the queue after the last one its scheduler served -/
  sched : Tab Nat := []
  /-- R350. queue schedulers -/
  queues : Tab Queue := []
  /-- R430. DRAM controllers -/
  chans : Tab Chan := []
  /-- R453. scrubbers; 32 the Burrow's -/
  scrubs : Tab Scrub := []
  /-- R294. translation block -/
  xlt : XltS := XltS.reset
  /-- R400. Burrow block -/
  bur : BurS := BurS.reset
  /-- R478. QOS block -/
  qos : QosS := QosS.reset
  /-- R577. host interface -/
  hst : HstS := HstS.reset
  /-- R556. Owl -/
  owl : OwlS := OwlS.reset
  /-- R531. boot flash -/
  flash : FlashS := FlashS.reset
  /-- R503. fuses -/
  fuse : FuseS := FuseS.reset
  /-- R530. security engine -/
  sec : SecS := SecS.reset
  /-- R217. requests open at the setts, in arrival order -/
  txns : List Txn := []
  /-- R217. number of the next request -/
  nextTxn : Nat := 0
  /-- R20. that number when the core was last reset -/
  txn0 : Nat := 0
  /-- R183. deduplication cache -/
  dedup : List Ded := []
  /-- R180. recorded node generations -/
  nodes : Tab NodeG := []
  /-- R386. Burrow scratch memory, by offset in the scratch area -/
  scr : List Host.Cell := []
  /-- R440. scratch lines marked poisoned (offset / 64) -/
  scrPois : List Nat := []
  /-- R405, R406. DRAM bytes, in the clear, by location (4 × channel + rank) × 2^40 + q -/
  dram : List Host.Cell := []
  /-- R434. DRAM lines marked poisoned (location / 64) -/
  dramPois : List Nat := []
  /-- R417. serial number of the key each line was stored under (location / 64), 0 in the clear -/
  dramKey : Tab Nat := []
  /-- R36, R460, R476, R547. of each periodic action (numbered in Ops.lean), the fabric clock of its last period -/
  cadence : Tab Nat := []
  /-- (the model's own). free values drawn so far -/
  free : Nat := 0
  /-- R104, R429. zero-fills of DRAM, newest first: the range of lines by location (first and number; none: not limited), and the ranges of the pool in it (first and number of 2 MiB units) with the key serial each was filled under -/
  fills : List (Option (Nat × Nat) × List (Nat × Nat × Nat)) := []
  /-- R194. multicast copies taken at stops inside the device: plane, stop, message -/
  stops : List (Nat × Nat × Msgs) := []
  /-- (the block's queue). commands that wait, first in first out -/
  pending : List Instr := []
deriving DecidableEq, Repr

/-- The reset value of `State`. -/
def State.reset : State := {}

end Sys2Proof.Machine
end

