-- ==== Sys2Proof/Machine/Ops.lean ====
section
/-! DEFINITION. The named operations over tables, memory cells, counters and records, on which every meaning
is built. -/

namespace Sys2Proof.Machine
open Sys2Proof

/-! ### Sparse tables -/

/-- The entry at `i`, or the reset value `d` of an entry that is not listed. -/
def tget {α : Type} (d : α) : Tab α → Nat → α
  | [], _ => d
  | (k, v) :: t, i => if k = i then v else tget d t i

/-- The table with entry `i` set to `v`. -/
def tput {α : Type} : Tab α → Nat → α → Tab α
  | [], i, v => [(i, v)]
  | (k, w) :: t, i, v =>
    if k = i then (i, v) :: t else if i < k then (i, v) :: (k, w) :: t else (k, w) :: tput t i v

/-- The table with entry `i` back at its reset value. -/
def tdel {α : Type} (t : Tab α) (i : Nat) : Tab α := t.filter fun c => c.1 != i

/-- Whether entry `i` is listed. -/
def thas {α : Type} (t : Tab α) (i : Nat) : Bool := t.any fun c => c.1 == i

/-! ### Memory cells: strictly rising addresses, no zero byte listed -/

/-- The byte at `a`: a byte that is not listed is zero. -/
def cget : List Host.Cell → Nat → Byte
  | [], _ => 0
  | (k, v) :: t, a => if k = a then v else cget t a

/-- The insertion of a byte in address order. -/
def cins : List Host.Cell → Nat → Byte → List Host.Cell
  | [], a, v => [(a, v)]
  | (k, w) :: t, a, v =>
    if k = a then (a, v) :: t else if a < k then (a, v) :: (k, w) :: t else (k, w) :: cins t a v

/-- The cells with byte `a` set to `v`: a zero removes the entry. -/
def cput (m : List Host.Cell) (a : Nat) (v : Byte) : List Host.Cell :=
  if v = 0 then m.filter fun c => c.1 != a else cins m a v

/-- `n` bytes from `a`. -/
def cgets (m : List Host.Cell) (a : Nat) : Nat → Bytes
  | 0 => []
  | n + 1 => cget m a :: cgets m (a + 1) n

/-- Bytes written from `a` on. -/
def cputs (m : List Host.Cell) (a : Nat) : Bytes → List Host.Cell
  | [] => m
  | b :: bs => cputs (cput m a b) (a + 1) bs

/-- Strictly rising addresses from above `lo`, no zero byte. -/
def cwfFrom (lo : Option Nat) : List Host.Cell → Bool
  | [] => true
  | (k, v) :: t => (match lo with | none => true | some l => decide (l < k)) && v != 0 && cwfFrom (some k) t

/-- The canonical form of memory cells. -/
def Memory.wf (m : List Host.Cell) : Bool := cwfFrom none m

/-- The cells whose addresses lie outside `[a, a + n)`: those bytes read zero. -/
def czero (m : List Host.Cell) (a n : Nat) : List Host.Cell :=
  m.filter fun c => !(decide (a ≤ c.1) && decide (c.1 < a + n))

/-! ### Bits and bytes -/

/-- Little-endian bytes to a number (R7). -/
def leNat : Bytes → Nat
  | [] => 0
  | b :: bs => b.toNat + 256 * leNat bs

/-- The `n` low bytes of a number, little-endian. -/
def toLe : Nat → Nat → Bytes
  | 0, _ => []
  | n + 1, v => BitVec.ofNat 8 v :: toLe n (v / 256)

/-- `n` bytes of a list from `i`; bytes past its end read zero. -/
def slice (bs : Bytes) (i n : Nat) : Bytes :=
  let t := (bs.drop i).take n
  t ++ List.replicate (n - t.length) 0

/-- The little-endian number in `n` bytes from `i`. -/
def fld (bs : Bytes) (i n : Nat) : Nat := leNat (slice bs i n)

/-- The byte string with `new` written over it from `i`. -/
def overlay (bs : Bytes) (i : Nat) (new : Bytes) : Bytes :=
  slice bs 0 i ++ new ++ bs.drop (i + new.length)

/-- Sixteen bytes of a slot, byte 0 first (R169). -/
def slotBytes (x : Slot) : Bytes := toLe 16 x.toNat

/-- Bytes in slots of sixteen. -/
def bytesSlots : Nat → Bytes → List Slot
  | 0, _ => []
  | n + 1, bs => BitVec.ofNat 128 (leNat (slice bs 0 16)) :: bytesSlots n (bs.drop 16)

/-- A counter that saturates (R39). -/
def sat {w : Nat} (x : BitVec w) : BitVec w := if x.toNat + 1 < 2 ^ w then x + 1 else x

/-- A saturating addition. -/
def satAdd {w : Nat} (x : BitVec w) (n : Nat) : BitVec w :=
  if x.toNat + n < 2 ^ w then x + BitVec.ofNat w n else BitVec.ofNat w (2 ^ w - 1)

/-- The value with bit `i` set. -/
def setBit {w : Nat} (x : BitVec w) (i : Nat) : BitVec w := x ||| BitVec.ofNat w (2 ^ i)

/-- The value with bits `[i, i + n)` replaced. -/
def setFld {w : Nat} (x : BitVec w) (i n : Nat) (v : Nat) : BitVec w :=
  (x &&& ~~~(BitVec.ofNat w ((2 ^ n - 1) * 2 ^ i))) ||| BitVec.ofNat w ((v % 2 ^ n) * 2 ^ i)

/-- Bits `[i, i + n)` of a number. -/
def bitsOf (v i n : Nat) : Nat := v / 2 ^ i % 2 ^ n

/-- One bit as a number. -/
def b2n (b : Bool) : Nat := if b then 1 else 0

/-- The lowest set bit of a mask below `n`. -/
def lowBits (n v : Nat) : List Nat := (List.range n).filter fun i => v.testBit i

/-- The list without its elements equal to `x`. -/
def without [BEq α] (l : List α) (x : α) : List α := l.filter fun y => !(y == x)

/-- The list without its element at `i`. -/
def dropAt (l : List α) (i : Nat) : List α := l.take i ++ l.drop (i + 1)

/-- The list with element `i` changed. -/
def modAt (l : List α) (i : Nat) (f : α → α) : List α :=
  match l[i]? with
  | none => l
  | some x => l.take i ++ f x :: l.drop (i + 1)

/-- An element put into a list that `le` orders, after those it does not precede. -/
def sortIn (le : α → α → Bool) (x : α) : List α → List α
  | [] => [x]
  | y :: t => if le y x then y :: sortIn le x t else x :: y :: t

/-- A list in the order of `le`; equal elements keep their order. -/
def sortBy (le : α → α → Bool) (l : List α) : List α := l.foldl (fun acc x => sortIn le x acc) []

/-- The last `n` elements. -/
def lastN (n : Nat) (l : List α) : List α := l.drop (l.length - n)

/-! ### Banks of units -/

namespace State

/-- The queue of waiting commands replaced. -/
def withPending (s : State) (q : List Instr) : State := { s with pending := q }

def part (s : State) (p : Nat) : PartS := tget PartS.reset s.parts p
def setPart (s : State) (p : Nat) (x : PartS) : State := { s with parts := tput s.parts p x }
def port (s : State) (k : Nat) : Port := tget Port.reset s.ports k
def setPort (s : State) (k : Nat) (x : Port) : State := { s with ports := tput s.ports k x }
def sett (s : State) (n : Nat) : Sett := tget Sett.reset s.setts n
def setSett (s : State) (n : Nat) (x : Sett) : State := { s with setts := tput s.setts n x }
def eng (s : State) (e : Nat) : Engine := tget Engine.reset s.engines e
def setEng (s : State) (e : Nat) (x : Engine) : State := { s with engines := tput s.engines e x }
def inqOf (s : State) (e : Nat) : Fifo := tget Fifo.reset s.inq e
def setInq (s : State) (e : Nat) (x : Fifo) : State := { s with inq := tput s.inq e x }
def queue (s : State) (q : Nat) : Queue := tget Queue.reset s.queues q
def setQueue (s : State) (q : Nat) (x : Queue) : State := { s with queues := tput s.queues q x }
def chan (s : State) (c : Nat) : Chan := tget Chan.reset s.chans c
def setChan (s : State) (c : Nat) (x : Chan) : State := { s with chans := tput s.chans c x }
def scrub (s : State) (u : Nat) : Scrub := tget Scrub.reset s.scrubs u
def setScrub (s : State) (u : Nat) (x : Scrub) : State := { s with scrubs := tput s.scrubs u x }

/-! Periodic actions: 0 the refill of R460, 1 the sample of R476, 2 the sensors of R547, 3 the cap of R549, 4 the summary of R553, 5 the
re-vote of R36, 16 + i the output power and 32 + i the other readings of regulator i (R548). -/

/-- Whether a periodic action of period n is due: a period has passed since the start of the one in which it was last taken. -/
def due (s : State) (k n : Nat) : Bool := decide (tget 0 s.cadence k + n ≤ s.clk)

/-- One period of an action has been taken. -/
def took (s : State) (k n : Nat) : State := { s with cadence := tput s.cadence k (tget 0 s.cadence k + n) }

/-- The periods of the actions below n start now. -/
def restartCadence (s : State) (ks : List Nat) : State := { s with cadence := ks.foldl (fun t k => tput t k s.clk) s.cadence }

/-- R452: the scrubber of a channel that enters self-refresh: the time until it leaves counts toward no lap and no interval. -/
def scrubPause (s : State) (u : Nat) : State := s.setScrub u { s.scrub u with pausedAt := some ((s.scrub u).pausedAt.getD s.clk) }

/-- R452: the scrubber of a channel that has left self-refresh. -/
def scrubResume (s : State) (u : Nat) : State :=
  let x := s.scrub u
  match x.pausedAt with
  | none => s
  | some a => s.setScrub u { x with pausedAt := none, lapAt := x.lapAt + (s.clk - a), idleAt := x.idleAt + (s.clk - a) }
def hport (s : State) (k : Nat) : HPort := tget HPort.reset s.hst.ports k
def setHport (s : State) (k : Nat) (x : HPort) : State :=
  { s with hst := { s.hst with ports := tput s.hst.ports k x } }
def qp (s : State) (q : Nat) : QP := tget QP.reset s.hst.qps q
def setQp (s : State) (q : Nat) (x : QP) : State := { s with hst := { s.hst with qps := tput s.hst.qps q x } }
def rkey (s : State) (i : Nat) : RKey := tget RKey.reset s.hst.rkeys i
def setRkey (s : State) (i : Nat) (x : RKey) : State :=
  { s with hst := { s.hst with rkeys := tput s.hst.rkeys i x } }

/-- A partition's state on port `k` (0–7 FAB, 8–9 HST). -/
def pqos (s : State) (p k : Nat) : PortQos := tget PortQos.reset (s.part p).qos k
def setPqos (s : State) (p k : Nat) (x : PortQos) : State :=
  s.setPart p { s.part p with qos := tput (s.part p).qos k x }
/-- A partition's event ring and error registers. -/
def setRing (s : State) (p : Nat) (r : EvRing) : State := s.setPart p { s.part p with ring := r }
/-- A partition's consent and debug block. -/
def setDbg (s : State) (p : Nat) (d : Dbg) : State := s.setPart p { s.part p with dbg := d }
/-- A partition's Burrow extension. -/
def setExt (s : State) (p : Nat) (x : ExtMem) : State := s.setPart p { s.part p with ext := x }

/-- The next draw of `w` free bits, and the state after it (log 8). -/
def drawBits (s : State) (w : Nat) : BitVec w × State :=
  (Config.freeBits w s.free, { s with free := s.free + 1 })

/-- The next free choice below `n`, and the state after it (log 3). -/
def drawNat (s : State) (n : Nat) : Nat × State :=
  (Config.freeNat s.free % n, { s with free := s.free + 1 })

/-- Whether the device is in a warm reset, from step 1 until ready rises (R106). -/
def inWarm (s : State) : Bool :=
  match s.phase with
  | .warmFlush | .warmHold | .warmFill | .warmRelease | .warmFailed => true
  | _ => false

/-! ### TOP events (R39, R46) -/

/-- R33: a keyed write failed. -/
def keyFail (s : State) : State :=
  { s with top := { s.top with keyfail := sat s.top.keyfail, evstat := setBit s.top.evstat 0 } }
/-- R36: one copy was corrected. -/
def voteFix (s : State) : State :=
  { s with top := { s.top with votefix := sat s.top.votefix, evstat := setBit s.top.evstat 1 } }
/-- R37: a field had no majority. -/
def voteFailEv (s : State) : State :=
  { s with top := { s.top with votefail := sat s.top.votefail, evstat := setBit s.top.evstat 2 } }
/-- R29: a write reached a reserved or unmapped offset. -/
def badAddr (s : State) : State :=
  { s with top := { s.top with badaddr := sat s.top.badaddr, evstat := setBit s.top.evstat 3 } }

/-! ### The event log and the service ledger (R550–R553) -/

/-- R546, R550: an event record is queued for the log; while Owl restarts at most 256 are held, and one that
cannot be queued is dropped and counted. -/
def logEvent (s : State) (kind status detail : Byte) (addr : W64) (part : Byte) : State :=
  if s.owl.st = .restarting ∧ 256 ≤ s.owl.evq.length then
    { s with owl := { s.owl with lostPend := true, evDrop := sat s.owl.evDrop, evstat := setBit s.owl.evstat 1 } }
  else
    let r : EvRec := ⟨kind, status, detail, s.owl.lostPend, addr, s.top.tick, s.flash.bootcnt, part⟩
    { s with owl := { s.owl with evq := s.owl.evq ++ [r], lostPend := false } }

/-- A record that concerns no partition, with status OK and no address. -/
def logPlain (s : State) (kind detail : Byte) : State := s.logEvent kind 0 detail 0 0xFF

end State

/-- The code of a status (R48). -/
def Status.code : Status → Byte
  | .ok => 0x00 | .conflict => 0x01 | .poisoned => 0x02 | .unavailable => 0x03 | .engineLost => 0x04
  | .epochLost => 0x05 | .xlateFault => 0x06 | .permFault => 0x07 | .timeout => 0x08 | .retryLater => 0x09
  | .quota => 0x0A | .badDescriptor => 0x0B | .fenced => 0x0C | .programFault => 0x0D | .alignFault => 0x0E
  | .formatFault => 0x0F | .badRegion => 0x10 | .countOverrun => 0x11 | .cancelled => 0x12 | .keyLost => 0x13
  | .unsupported => 0x14

/-- R49: the place of a status in the order of precedence, 0 the first. -/
def Status.rank : Status → Nat
  | .fenced => 0 | .unavailable => 1 | .badDescriptor => 2 | .unsupported => 3 | .alignFault => 4
  | .badRegion => 5 | .xlateFault => 6 | .permFault => 7 | .keyLost => 8 | .formatFault => 9 | .quota => 10
  | .retryLater => 11 | .epochLost => 12 | .conflict => 13 | .countOverrun => 14 | .timeout => 15
  | .programFault => 16 | .engineLost => 17 | .cancelled => 18 | .poisoned => 19 | .ok => 20

/-- R49: of two conditions, the one that is reported. -/
def Status.worst (a b : Status) : Status := if a.rank ≤ b.rank then a else b

/-- R49: the status reported for several conditions, given in any order. -/
def Status.first (l : List Status) : Status := l.foldl Status.worst .ok

/-- The status a code names: a reserved value acts as a permanent failure, which the device never returns. -/
def Status.ofCode (b : Byte) : Status :=
  ([.ok, .conflict, .poisoned, .unavailable, .engineLost, .epochLost, .xlateFault, .permFault, .timeout,
    .retryLater, .quota, .badDescriptor, .fenced, .programFault, .alignFault, .formatFault, .badRegion,
    .countOverrun, .cancelled, .keyLost, .unsupported] : List Status).getD b.toNat .unsupported

/-! ### The configuration in flash (R531, R532) -/

/-- The configuration copy in force. -/
def FlashS.copy (f : FlashS) : CfgCopy :=
  { seq := f.cfgSeq, ok := true, preferB := f.preferB, bootcnt := f.bootcnt, epochOfs := f.epochOfs, cert := f.cert, root := f.root
    layKeys := f.layKeys, mgt := f.mgt, regs := f.regs, regNamed := f.regNamed }

/-- R532: Owl writes the copy that holds the older sequence number: it becomes the one in force. -/
def State.writeCfg (s : State) (g : FlashS → FlashS) : State :=
  { s with flash := { g s.flash with cfgSeq := s.flash.cfgSeq + 1, cfgAt := some s.clk, older := s.flash.copy } }

/-- R532: the copy of the last write fails its check: the other one is in force. -/
def FlashS.tear (f : FlashS) : FlashS :=
  let c := f.older
  if c.ok then
    { f with
      cfgSeq := c.seq, cfgAt := none, older := { f.copy with ok := false }, preferB := c.preferB, bootcnt := c.bootcnt
      epochOfs := c.epochOfs, cert := c.cert, root := c.root, layKeys := c.layKeys, mgt := c.mgt, regs := c.regs, regNamed := c.regNamed }
  else f

/-- R209, R390: not-recently-used over the entries of one set: entry k has just been used, so its mark stands; once every
entry of the set is marked, the marks of the others go. -/
def nru {α : Type} (same : Nat → Bool) (ref : α → Bool) (clear : α → α) (k : Nat) (l : List (Nat × α)) : List (Nat × α) :=
  if l.all fun (i, x) => i == k || (ref x || !same i) then
    l.map fun (i, x) => if i == k || !same i then (i, x) else (i, clear x)
  else l

end Sys2Proof.Machine
end

