-- ==== Sys2Proof/Machine/Flags.lean ====
section
/-! DEFINITION. The check codes: CRC-32C (R175), CRC-64 (R144), the DRAM code RS(80,64) (R432–R437), the SRAM
code (R439–R441), and the Hamming check of lane control blocks (R136). Every code is linear, so a decoder is asked
for the error it locates from the disturbance alone. -/

namespace Sys2Proof.Machine
open Sys2Proof

/-! ### CRCs -/

/-- One bit of a reflected CRC. -/
def crcBit {w : Nat} (poly : BitVec w) (c : BitVec w) : BitVec w :=
  if c.getLsbD 0 then (c >>> 1) ^^^ poly else c >>> 1

/-- One byte of a reflected CRC. -/
def crcByte {w : Nat} (poly : BitVec w) (c : BitVec w) (b : Byte) : BitVec w :=
  let x := c ^^^ b.setWidth w
  crcBit poly (crcBit poly (crcBit poly (crcBit poly (crcBit poly (crcBit poly (crcBit poly (crcBit poly x)))))))

/-- R175: CRC-32C, reflected, initial value and final XOR all ones. -/
def crc32c (bs : Bytes) : W32 := (bs.foldl (crcByte 0x82F63B78) 0xFFFFFFFF) ^^^ 0xFFFFFFFF

/-- R144: CRC-64 of ECMA-182, reflected, initial value and final XOR all ones. -/
def crc64 (bs : Bytes) : W64 := (bs.foldl (crcByte 0xC96C5795D7870F42) 0xFFFFFFFFFFFFFFFF) ^^^ 0xFFFFFFFFFFFFFFFF

/-! ### The Hamming check of lane blocks (R136) -/

/-- h(i): the integers counting upward from 3 that are not powers of two. -/
def hcol : List Nat := (List.range 266).filter fun n => decide (3 ≤ n) && (n &&& (n - 1)) != 0

/-- The check bits c8..c0 of 256 stream bits. -/
def hcheck (x : Nat) : Nat :=
  (hcol.zipIdx.foldl fun acc (h, i) => if x.testBit i then acc ^^^ h else acc) 0

/-- The XOR of the low `n` bits. -/
def parityN (n x : Nat) : Bool := (List.range n).foldl (fun b i => b != x.testBit i) false

/-- R136: the ten check bits of 256 stream bits, c9 the XOR of all of them and of c0–c8. -/
def checkBits (x : Nat) : Nat := hcheck x + 512 * b2n (parityN 256 x != parityN 9 (hcheck x))

/-- What the check of a block finds. -/
inductive HCheck where
  | good (x : Nat)
  | corrected (x : Nat)
  | uncorrectable
deriving DecidableEq, Repr

/-- R136: stream bits `x` with check bits `c` (c9..c0) as received. -/
def hdecode (x c : Nat) : HCheck :=
  let s := hcheck x ^^^ (c % 512)
  let p := parityN 256 x != parityN 10 c
  match s == 0, p with
  | true, false => .good x
  | true, true => .corrected x
  | false, true =>
    match hcol.zipIdx.find? fun (h, _) => h == s with
    | some (_, i) => .corrected (x ^^^ 2 ^ i)
    | none => .corrected x
  | false, false => .uncorrectable

/-! ### GF(2^8) and the DRAM code -/

/-- R432: multiplication by α in GF(2^8) modulo 0x11D. -/
def a8next (x : Nat) : Nat := let y := 2 * x; if 256 ≤ y then y ^^^ 0x11D else y

/-- The powers of α, α^n in the n-th byte (`a8Exp_ok` says so). -/
def a8Exp : Nat :=
  0x8e47add86c361b83cfe9fa7db0582c160b8bcbebfbf3f7f5f47a3d90482412098a45ac562b9bc3eff9f279b259a251a653a7dde070381c0e078dc86432198241ae57a5dc6e3795c46231964babdbe3fff1f67bb3d7e5fc7e3f91c663bfd1e673b7d5e472399249aa55a452299a4da8542a158442219e4fa9da6db85c2e1785cc663397c5ec763b93c7edf87c3e1f81ce67bdd068341a0d884422118643afd9e271b65ba3dfe1fe7fb1d66bbbd3e7fdf0783c1e0f89ca65bc5e2f99c261be5fa1de6fb9d269ba5da05028140a058c46239fc1ee77b5d46a35944a259c4e279dc06030180c06038fc9ea75b45a2d984c261387cde8743a1d8040201008040201

/-- The logarithms, n in the byte of number α^n (`a8Log_ok` says so). -/
def a8Log : Nat :=
  0xaf5850a8eaf4d674e8ade7e6e9d5ae4fd72c757aeb16f50b51a0a99cb05f59cb5a3eccbbb18660fbaa559d29523ba16cf66f0c7fec4917c476a47bb7d8432d1fa2416d4753393c849e5d2a14abd356f261befcdcb2978790cdcfbc955bd13f372e892023d99244117cb4b8267799a5e318fec531edde4a670d63808cf7c0700757a7f373ace5d44e2b79150a9f9b5eca3dba85fa54283a6b6e7e48c3a3b6421e404638835c13d2f1bddb968fce94d03688229110b32598e2fd30dd66628bbf06a672e44d78099ac9b9f9276a7dc2b51d458212f0da8e9335210f24e12f658a05714c08c8f869c11c81ef8d340ee064044bc7681bee33df03c61a320219010000

/-- The n-th byte of a table. -/
def tableByte (t n : Nat) : Nat := (t >>> (8 * n)) % 256

/-- The table of powers holds the powers: the first is 1, each next one the last times α. -/
theorem a8Exp_ok : tableByte a8Exp 0 = 1 ∧
    ((List.range 254).all fun n => tableByte a8Exp (n + 1) == a8next (tableByte a8Exp n)) = true := by decide +kernel

/-- The table of logarithms undoes the table of powers. -/
theorem a8Log_ok : ((List.range 255).all fun n => tableByte a8Log (tableByte a8Exp n) == n) = true := by decide +kernel

/-- α^n, for n below 255. -/
def gpow (n : Nat) : Nat := tableByte a8Exp n

/-- R432: multiplication in GF(2^8) modulo 0x11D. -/
def gmul (a b : Nat) : Nat :=
  match a, b with
  | 0, _ => 0
  | _, 0 => 0
  | a, b => gpow ((tableByte a8Log a + tableByte a8Log b) % 255)

/-- The inverse of a non-zero element. -/
def ginv (a : Nat) : Nat := gpow ((255 - tableByte a8Log a) % 255)

/-- The error pattern of a codeword: position and value, positions distinct, values non-zero. -/
abbrev Errs := List (Nat × Nat)

/-- The syndromes S_0 … S_15 of an error pattern. -/
def syndromes (e : Errs) : List Nat :=
  (List.range 16).map fun j => e.foldl (fun acc (p, v) => acc ^^^ gmul v (gpow (p * j % 255))) 0

/-- R433: the device that holds a position. -/
def deviceOf (p : Nat) : Nat := if p < 8 then 8 else if p < 16 then 9 else (p - 16) / 8

/-- The positions of a device. -/
def devicePos (d : Nat) : List Nat :=
  if d = 8 then List.range 8 else if d = 9 then (List.range 8).map (· + 8)
  else (List.range 8).map (· + (16 + 8 * d))

/-- An error pattern in canonical form: equal positions merged, zero values dropped. -/
def normErrs (e : List (Nat × Nat)) : Errs :=
  (List.range 80).filterMap fun p =>
    let v := e.foldl (fun acc (q, x) => if q = p then acc ^^^ x else acc) 0
    if v = 0 then none else some (p, v)

/-- Two error patterns' sum. -/
def errsAdd (a b : Errs) : Errs := normErrs (a ++ b)

/-- Whether an error pattern is one the decoder accepts as a correction (R436, R437). -/
def acceptable (mark : Option Nat) (e : Errs) : Bool :=
  match mark with
  | none =>
    decide (e.length ≤ 4) ||
      (decide (e.length ≤ 8) && (match e with
        | [] => true
        | (p, _) :: t => t.all fun (q, _) => deviceOf q == deviceOf p))
  | some d => decide ((e.filter fun (q, _) => deviceOf q != d).length ≤ 4)

/-! Polynomials over GF(2^8), the coefficient of x^0 first. -/

/-- The sum of two polynomials. -/
def gpadd : List Nat → List Nat → List Nat
  | [], q => q
  | p, [] => p
  | a :: p, b :: q => (a ^^^ b) :: gpadd p q

/-- A polynomial times a constant. -/
def gpscale (c : Nat) (p : List Nat) : List Nat := p.map (gmul c)

/-- The product of two polynomials. -/
def gpmul : List Nat → List Nat → List Nat
  | [], _ => []
  | a :: p, q => gpadd (gpscale a q) (0 :: gpmul p q)

/-- The value of a polynomial. -/
def gpeval (x : Nat) (p : List Nat) : Nat := p.foldr (fun c acc => c ^^^ gmul x acc) 0

/-- The formal derivative. -/
def gpderiv (p : List Nat) : List Nat := (p.drop 1).zipIdx.map fun (c, i) => if i % 2 = 0 then c else 0

/-- The shortest recurrence of a sequence: its connection polynomial (Berlekamp and Massey). -/
def recurrence (s : List Nat) : List Nat :=
  let step (a : List Nat × List Nat × Nat × Nat × Nat) (n : Nat) : List Nat × List Nat × Nat × Nat × Nat :=
    let (c, b, l, m, v) := a
    let d := (List.range (l + 1)).foldl (fun acc i => acc ^^^ gmul (c.getD i 0) (if i ≤ n then s.getD (n - i) 0 else 0)) 0
    if d = 0 then (c, b, l, m + 1, v)
    else
      let c1 := gpadd c (List.replicate m 0 ++ gpscale (gmul d (ginv v)) b)
      if 2 * l ≤ n then (c1, c, n + 1 - l, 1, d) else (c1, b, l, m + 1, v)
  ((List.range s.length).foldl step ([1], [1], 0, 1, 1)).1

/-- The error pattern with the given syndromes that lies at some erased positions and the fewest others that can be located. -/
def errata (erased : List Nat) (s : List Nat) : Errs :=
  let gam := erased.foldl (fun p i => gpmul p [1, gpow i]) [1]
  let lam := recurrence (((gpmul s gam).take 16).drop erased.length)
  if 5 < lam.length then [] else
  let inv (i : Nat) : Nat := gpow ((255 - i) % 255)
  let found := (List.range 80).filter fun i => gpeval (inv i) lam = 0 && !erased.contains i
  let loc := gpmul lam gam
  let om := (gpmul s loc).take 16
  let der := gpderiv loc
  normErrs ((erased ++ found).map fun i => (i, gmul (gpow i) (gmul (gpeval (inv i) om) (ginv (gpeval (inv i) der)))))

/-- R435–R437: the decoding of a word with an error pattern: the correction that the limits accept, none where there is none. At
most one error pattern within the limits has given syndromes (minimum distance 17), so a pattern within them is found as it
is; any other is decoded from its syndromes. -/
def rsLocate (mark : Option Nat) (e : Errs) : Option Errs :=
  if acceptable mark e then some e
  else
    let s := syndromes e
    let tries : List (List Nat) := match mark with
      | none => [] :: (List.range 10).map devicePos
      | some d => [devicePos d]
    (tries.map fun l => errata l s).find? fun x => acceptable mark x && syndromes x == s

/-- R434: the poison pattern on the check symbols. -/
def poisonErrs : Errs := (List.range 16).map fun p => (p, 0xA5)

/-- What a check of a DRAM line finds (R435, R442). -/
inductive Check where
  | good
  /-- corrected: the number of symbols, the device when 5–8 symbols of one device were corrected, and whether
  erasures of a marked device were corrected -/
  | corrected (n : Nat) (dev : Option Nat) (eras : Bool)
  | uncorrectable
deriving DecidableEq, Repr

/-- The number of symbols a decoding corrects: a marked device's erasures that were in error count. -/
def cost (o : Option Errs) : Nat := match o with | none => 1000 | some e => e.length

/-- What a decoding that corrects the pattern x finds. -/
def checkOf (mark : Option Nat) (x : Errs) : Check :=
  match x with
  | [] => .good
  | (p, _) :: _ =>
    let eras := match mark with | none => false | some d => x.any fun (q, _) => deviceOf q == d
    .corrected x.length (if 5 ≤ x.length ∧ !eras then some (deviceOf p) else none) eras

/-- R435: the outcome of a read of a line stored with or without the poison mark, under an error pattern: whether it
decodes as poisoned, the check's outcome, and the errors that the correction leaves in the word (none where it locates the
true ones). The received word is decoded as it is and with 0xA5 removed from the check symbols; each decoding's error is
the true one plus, on the wrong reading, the poison pattern. -/
def dramDecode (mark : Option Nat) (stored : Bool) (e : Errs) : Bool × Check × Errs :=
  let e := normErrs e
  if e.isEmpty then (stored, .good, [])
  else
  let asIs := if stored then errsAdd e poisonErrs else e
  let less := if stored then e else errsAdd e poisonErrs
  let a := rsLocate mark asIs
  let b := rsLocate mark less
  match a, b with
  | none, none => (true, .uncorrectable, [])
  | some x, none => (false, checkOf mark x, errsAdd asIs x)
  | none, some y => (true, checkOf mark y, errsAdd less y)
  | some x, some y =>
    if x.length < y.length then (false, checkOf mark x, errsAdd asIs x)
    else if y.length < x.length then (true, checkOf mark y, errsAdd less y)
    else (true, .uncorrectable, [])

/-- R435: whether a line decodes as poisoned, and its check's outcome. -/
def dramCheck (mark : Option Nat) (stored : Bool) (e : Errs) : Bool × Check :=
  let (p, c, _) := dramDecode mark stored e
  (p, c)

/-! ### The SRAM code -/

/-- R439: multiplication by α in GF(2^7) modulo 0x89. -/
def a7next (x : Nat) : Nat := let y := 2 * x; if 128 ≤ y then y ^^^ 0x89 else y

/-- α^n in GF(2^7). -/
def a7pow : Nat → Nat
  | 0 => 1
  | n + 1 => a7next (a7pow n)

/-- The BCH syndrome (S_1, S_3) of an error pattern over bits 77:0. -/
def bchSyn (e : Nat) : Nat × Nat :=
  (List.range 78).foldl (fun (p : Nat × Nat) j =>
    if e.testBit j then (p.1 ^^^ a7pow j, p.2 ^^^ a7pow (3 * j % 127)) else p) (0, 0)

/-- The single position below 78 whose syndrome is S. -/
def bchOne (s : Nat × Nat) : Option Nat :=
  (List.range 78).find? fun j => a7pow j == s.1 && a7pow (3 * j % 127) == s.2

/-- The pair of positions below 78 whose syndrome is S. -/
def bchTwo (s : Nat × Nat) : Option (Nat × Nat) :=
  let ps := (List.range 78).flatMap fun j => (List.range j).map fun i => (i, j)
  ps.find? fun (i, j) => (a7pow i ^^^ a7pow j) == s.1 && (a7pow (3 * i % 127) ^^^ a7pow (3 * j % 127)) == s.2

/-- What a check of an SRAM word finds. -/
inductive SCheck where
  | good
  | corrected
  | uncorrectable
deriving DecidableEq, Repr

/-- The parity of a number below 2^80. -/
def parity80 (e : Nat) : Bool := (List.range 80).foldl (fun b i => b != e.testBit i) false

/-- R441: the error that the decoder takes an error pattern on a word's 80 stored bits for: none where it is uncorrectable. F is
bit 79 of the pattern; P is the parity of bits 78:0 XOR the address parity as computed, which equals bit 79 XOR F (R439). -/
def sramLocate (err : BitVec 80) : Option Nat :=
  let e := err.toNat
  if e = 0 then some 0
  else
    let s := bchSyn (e % 2 ^ 78)
    let f := e.testBit 79
    let p := parity80 (e % 2 ^ 79)
    match s == (0, 0), p, f with
    | true, false, false => some 0
    | true, false, true => some (2 ^ 79)
    | true, true, false => some (2 ^ 78)
    | true, true, true => none
    | false, true, _ => (bchOne s).map fun j => 2 ^ j + (if f then 2 ^ 79 else 0)
    | false, false, false =>
      match bchOne s with
      | some j => some (2 ^ j + 2 ^ 78)
      | none => (bchTwo s).map fun (i, j) => 2 ^ i + 2 ^ j
    | false, false, true => none

/-- R441: the outcome for an error pattern. -/
def sramCheck (err : BitVec 80) : SCheck :=
  match sramLocate err with
  | none => .uncorrectable
  | some x => if x = 0 then .good else .corrected

/-- The number of bits set below bit 80. -/
def weight80 (e : Nat) : Nat := ((List.range 80).filter fun i => e.testBit i).length

/-- R440: a Burrow line's word, stored with or without the poison mark: whether it reads as poisoned, the check's outcome, and
the errors that the correction leaves in the word. The number of corrected bits decides between two decodings. -/
def sramPoisonCheck (stored : Bool) (err : BitVec 80) : Bool × SCheck × Nat :=
  if err = 0 then (stored, .good, 0)
  else
    let asIs := if stored then err ^^^ 0x3FFF else err
    let less := if stored then err else err ^^^ 0x3FFF
    let out (x : Nat) : SCheck := if x = 0 then .good else .corrected
    match sramLocate asIs, sramLocate less with
    | none, none => (true, .uncorrectable, 0)
    | some x, none => (false, out x, asIs.toNat ^^^ x)
    | none, some y => (true, out y, less.toNat ^^^ y)
    | some x, some y =>
      if weight80 x < weight80 y then (false, out x, asIs.toNat ^^^ x)
      else if weight80 y < weight80 x then (true, out y, less.toNat ^^^ y)
      else (true, .uncorrectable, 0)

end Sys2Proof.Machine
end

