-- ==== Sys2Proof/Machine/Operands.lean ====
section
/-! DEFINITION. The operand forms of messages (R169–R176): types, classes, lengths, reserved fields, the address
slot, and the slots of the messages the device sends. Those of lane blocks, flow units, instruction words,
descriptors and command bodies stand with the families that read them. -/

namespace Sys2Proof.Machine
open Sys2Proof

/-- R172: the type codes. -/
def tyRdShared : BitVec 6 := 0x01
def tyRdOwn : BitVec 6 := 0x02
def tyUpgrade : BitVec 6 := 0x03
def tyRdOnce : BitVec 6 := 0x04
def tyWrLine : BitVec 6 := 0x05
def tyWrPart : BitVec 6 := 0x06
def tyAtomic : BitVec 6 := 0x07
def tyAccWr : BitVec 6 := 0x08
def tyPublish : BitVec 6 := 0x09
def tySnpInv : BitVec 6 := 0x10
def tySnpShr : BitVec 6 := 0x11
def tyPubNote : BitVec 6 := 0x12
def tyEpochNote : BitVec 6 := 0x13
def tyCmp : BitVec 6 := 0x20
def tySnpAck : BitVec 6 := 0x21
def tyDataS : BitVec 6 := 0x30
def tyDataE : BitVec 6 := 0x31
def tyDataM : BitVec 6 := 0x32
def tyDataU : BitVec 6 := 0x33
def tySnpData : BitVec 6 := 0x34
def tyWbDirty : BitVec 6 := 0x38
def tyWbClean : BitVec 6 := 0x39
def tyFmDown : BitVec 6 := 0x3C
def tyFmUp : BitVec 6 := 0x3D
def tyFmEcho : BitVec 6 := 0x3E
def tyFmEchoRsp : BitVec 6 := 0x3F

/-- R172: the slot counts a type allows; none for a reserved value. -/
def tySlots (ty : BitVec 6) : List Nat :=
  match ty.toNat with
  | 0x01 | 0x02 | 0x03 | 0x04 => [2]
  | 0x05 => [6] | 0x06 => [7] | 0x07 => [3, 4] | 0x08 => [6] | 0x09 => [3]
  | 0x10 | 0x11 | 0x12 | 0x13 => [2]
  | 0x20 => [1, 2] | 0x21 => [1]
  | 0x30 | 0x31 | 0x32 => [5] | 0x33 => [2, 3, 4, 5] | 0x34 => [5]
  | 0x38 => [6] | 0x39 => [2]
  | 0x3C | 0x3D | 0x3E | 0x3F => [2]
  | _ => []

/-- The message classes, 0 REQ, 1 SNP, 2 RSP, 3 DAT, 4 WBK, 5 FMG (R172). -/
def tyClass (ty : BitVec 6) : Nat :=
  let n := ty.toNat
  if n < 0x10 then 0 else if n < 0x20 then 1 else if n < 0x30 then 2 else if n < 0x38 then 3
  else if n < 0x3C then 4 else 5

/-- R171: the six types whose info is an epoch. -/
def tyEpochInfo (ty : BitVec 6) : Bool :=
  ty = tyDataS ∨ ty = tyDataE ∨ ty = tyDataM ∨ ty = tySnpData ∨ ty = tyWbDirty ∨ ty = tyWbClean

/-- R170: the header slot of a message, with its crc and resend fields as given. -/
def hdrSlot (ty : BitVec 6) (len : BitVec 4) (src dst : Node) (tag : BitVec 16) (gen : Byte) (info : BitVec 16)
    (poison resend mcast rsv : Bool) (crc : W32) : Slot :=
  BitVec.ofNat 128 (crc.toNat + 2 ^ 32 * b2n rsv + 2 ^ 33 * b2n mcast + 2 ^ 34 * b2n resend + 2 ^ 35 * b2n poison +
    2 ^ 36 * info.toNat + 2 ^ 52 * gen.toNat + 2 ^ 60 * tag.toNat + 2 ^ 76 * dst.toNat + 2 ^ 97 * src.toNat +
    2 ^ 118 * len.toNat + 2 ^ 122 * ty.toNat)

/-- The bytes that the CRC-32C of a message covers: crc and resend taken as 0 (R175). -/
def crcBytes (ty : BitVec 6) (m : Msg) : Bytes :=
  slotBytes (hdrSlot ty m.len m.src m.dst m.tag m.srcGen m.info m.poison false m.mcast m.rsv 0) ++
    m.body.flatMap slotBytes

/-- R175: whether a message's crc is right. -/
def crcOk (ty : BitVec 6) (m : Msg) : Bool := crc32c (crcBytes ty m) == m.crc

end Sys2Proof.Machine

namespace Sys2Proof
open Machine

/-- Slot i of a message, the header being slot 0; a slot it lacks reads zero. -/
def Msg.slot (m : Msg) (i : Nat) : Nat := (m.body.getD (i - 1) 0).toNat

/-- R173: the address slot. -/
def Msg.addr (m : Msg) : Nat := bitsOf (m.slot 1) 64 64
def Msg.asid (m : Msg) : BitVec 16 := BitVec.ofNat 16 (bitsOf (m.slot 1) 48 16)
def Msg.phys (m : Msg) : Bool := (m.slot 1).testBit 47
def Msg.op (m : Msg) : BitVec 4 := BitVec.ofNat 4 (bitsOf (m.slot 1) 43 4)
def Msg.arg (m : Msg) : BitVec 24 := BitVec.ofNat 24 (m.slot 1 % 2 ^ 24)

/-- The bytes of slots i to i + n − 1. -/
def Msg.bytes (m : Msg) (i n : Nat) : Bytes := (List.range n).flatMap fun k => slotBytes (BitVec.ofNat 128 (m.slot (i + k)))

end Sys2Proof

namespace Sys2Proof.Machine
open Sys2Proof

/-- R171, R173, R174: whether every reserved field of a message of this type is zero. -/
def reservedOk (ty : BitVec 6) (m : Msg) : Bool :=
  let info := if tyEpochInfo ty then true else m.info.toNat < 256
  let addrSlot (opUsed argUsed : Bool) : Bool :=
    bitsOf (m.slot 1) 24 19 == 0 && (opUsed || m.op == 0) && (argUsed || m.arg == 0)
  let body := match ty.toNat with
    | 0x01 | 0x02 | 0x03 | 0x04 | 0x05 | 0x38 | 0x39 => addrSlot false false
    | 0x06 => addrSlot false false && bitsOf (m.slot 2) 64 64 == 0
    | 0x07 => addrSlot true false && (if m.op.toNat < 9 then bitsOf (m.slot 2) 64 64 == 0 else true)
    | 0x08 => addrSlot true false
    | 0x09 => addrSlot false true && bitsOf (m.slot 2) 64 64 == 0
    | 0x10 | 0x11 => addrSlot true false
    | 0x12 => m.slot 1 / 2 ^ 64 == 0 && bitsOf (m.slot 1) 24 8 == 0
    | 0x13 => m.slot 1 / 2 ^ 48 == 0
    | 0x20 => m.slot 1 / 2 ^ 32 == 0
    | 0x3C => m.slot 1 / 2 ^ 40 == 0 && bitsOf (m.slot 1) 29 3 == 0
    | 0x3D => m.slot 1 / 2 ^ 29 == 0
    | 0x3E | 0x3F => m.slot 1 / 2 ^ 64 == 0
    | _ => true
  !m.rsv && info && body

/-- R176: whether a message that passed its CRC is malformed. A len of ATOMIC and the number of slots received must
agree too. -/
def malformed (ty : BitVec 6) (m : Msg) : Bool :=
  !((tySlots ty).contains (m.len.toNat + 1)) || m.body.length != m.len.toNat || m.mcast || !reservedOk ty m

/-- R172: the number of slots of a message the device sends. -/
def Msgs.nslots (m : Msgs) : Nat := m.body.length + 1

/-- The slots of a message the device sends (R125, R170, R175, R181). -/
def Msgs.slots (m : Msgs) : List Slot :=
  let len : BitVec 4 := BitVec.ofNat 4 m.body.length
  let h0 := hdrSlot m.ty len m.src m.dst m.tag m.srcGen m.info m.poison false m.mcast false 0
  let crc := crc32c (slotBytes h0 ++ m.body.flatMap slotBytes)
  hdrSlot m.ty len m.src m.dst m.tag m.srcGen m.info m.poison false m.mcast false crc :: m.body

end Sys2Proof.Machine
end

