-- ==== Sys2Proof/Machine/Geometry.lean ====
section
/-! DEFINITION. Who owns what and where it lies: the voted ownership fields (R36, R37), partitions of ASIDs, engines
and queues (R108–R110), extents and special pages (R69, R239, R270, R321), the sett hash (R132), interleaving and
DRAM locations (R405, R406), scratch windows and extensions (R131, R394, R396), key slots (R417). -/

namespace Sys2Proof.Machine
open Sys2Proof

/-! ### RWT fields -/

/-- The number of an RWT field in the table of copies. -/
def rwtKey : RwtField → Nat
  | .owner p => p
  | .layoutGen => 100
  | .secState => 101
  | .share p => 200 + p
  | .mcast g => 10000 + g
  | .route i => 100000 + i
  | .extent i => 200000 + i
  | .slot i => 300000 + i

/-- R67: ownership of a partition's resources as one number: the PARTITION record's fields packed. -/
def packOwner (r : PartRec) : Nat :=
  r.part + r.keySlot * 2 ^ 8 + b2n r.fenced * 2 ^ 16 + 2 ^ 17 * b2n r.compat + 2 ^ 24 * r.ways.toNat +
  2 ^ 40 * r.engines.toNat + 2 ^ 104 * r.fencedCh.toNat + 2 ^ 136 * r.scratch + 2 ^ 168 * r.asidBase +
  2 ^ 200 * r.asidCount + 2 ^ 232 * r.queueBase + 2 ^ 248 * r.queueCount + 2 ^ 264 * r.mcastBase +
  2 ^ 280 * r.mcastCount

/-- The PARTITION record of a packed ownership field; its shares are a field of their own. -/
def unpackOwner (n : Nat) (fab : W64) (hst : BitVec 16) : PartRec where
  part := bitsOf n 0 8
  keySlot := bitsOf n 8 8
  fenced := n.testBit 16
  compat := n.testBit 17
  ways := BitVec.ofNat 16 (bitsOf n 24 16)
  engines := BitVec.ofNat 64 (bitsOf n 40 64)
  fencedCh := BitVec.ofNat 32 (bitsOf n 104 32)
  scratch := bitsOf n 136 32
  asidBase := bitsOf n 168 32
  asidCount := bitsOf n 200 32
  queueBase := bitsOf n 232 16
  queueCount := bitsOf n 248 16
  mcastBase := bitsOf n 264 16
  mcastCount := bitsOf n 280 16
  fabShare := fab
  hstShare := hst

/-- R503: the lifecycle state of the fuses (0 BLANK, 1 PROVISIONED, 2 DEPLOYED, 3 REFURBISH, 4 SCRAPPED). -/
def lifeState (f : BitVec 128) : Nat :=
  let n := ((List.range 120).filter fun i => f.getLsbD (i + 1)).length
  if f.getLsbD 127 then 4
  else if !f.getLsbD 0 then 0
  else if n = 0 then 1
  else if n % 2 = 1 then 2 else 3

/-- R503: lc_count. -/
def lcCount (f : BitVec 128) : Nat := ((List.range 121).filter fun i => f.getLsbD i).length

/-- The PARTITION record of partition p in a layout. -/
def Layout.recOf (l : Layout) (p : Nat) : Option PartRec := l.parts.find? fun r => r.part == p

/-- The value an RWT field is loaded with: from the layout in force, or the fuses as last read. -/
def State.rwtCanon (s : State) (f : RwtField) : Nat :=
  let l := s.lay.getD Layout.reset
  match f with
  | .owner p => match l.recOf p with | none => 0 | some r => packOwner r
  | .layoutGen => l.gen.toNat
  | .secState => lifeState s.sec.life
  | .share p => match l.recOf p with | none => 0 | some r => r.fabShare.toNat + 2 ^ 64 * r.hstShare.toNat
  | .mcast g =>
    match (l.mcast ++ l.secs.flatMap (·.mcast)).find? fun m => m.group == g with
    | none => 0
    | some m => m.ports.toNat + m.stops.toNat * 2 ^ 8
  | .route i =>
    match l.routes[i]? with
    | none => 0
    | some r => r.base.toNat + 2 ^ 21 * r.log2 + 2 ^ 26 * r.mask.toNat
  | .extent i =>
    match l.extents[i]? with
    | none => 0
    | some e => e.part + 2 ^ 8 * e.base + 2 ^ 40 * e.count
  | .slot i =>
    match l.gate[i]? with
    | none => 0
    | some (o, n) => o + 2 ^ 8 * n

/-- The copies of an RWT field: an unlisted field's copies all hold its value. -/
def State.rwtOf (s : State) (f : RwtField) : Rwt :=
  let v := s.rwtCanon f
  tget ⟨v, v, v, v, false⟩ s.rwt (rwtKey f)

/-- R37: whether a value names only resources, partitions and states that exist: of the 4 GiB Burrow at most 4,096 MiB of scratch, and of
the 16 TiB pool at most 8,388,608 units of 2 MiB. -/
def rwtLegal (f : RwtField) (v : Nat) : Bool :=
  match f with
  | .owner p =>
    let r := unpackOwner v 0 0
    v == 0 || (r.part == p && decide (r.keySlot < 32) && decide (r.asidBase + r.asidCount ≤ 65536) &&
      decide (r.queueBase + r.queueCount ≤ 4096) && decide (r.mcastBase + r.mcastCount ≤ 4096) && decide (r.scratch ≤ 4096) &&
      decide (v < 2 ^ 296))
  | .layoutGen => decide (v < 2 ^ 32)
  | .secState => decide (v ≤ 4)
  | .share _ => (List.range 10).all fun i => decide (bitsOf v (8 * i) 8 ≤ 128)
  | .mcast _ => decide (v < 2 ^ 40)
  | .route _ =>
    decide (bitsOf v 21 5 ≤ 21) && v % 2 ^ 21 % 2 ^ bitsOf v 21 5 == 0
  | .extent _ => decide (bitsOf v 0 8 ≤ 31) && decide (bitsOf v 8 32 + bitsOf v 40 32 ≤ 8388608) && decide (v < 2 ^ 72)
  | .slot _ => (decide (bitsOf v 0 8 ≤ 31) || bitsOf v 0 8 == 0x3E || bitsOf v 0 8 == 0x3F) && decide (v < 2 ^ 40)

/-- R36, R37: the value that at least two copies hold, when it is legal. -/
def voted (legal : Nat → Bool) (r : Rwt) : Option Nat :=
  let m := if r.a = r.b then some r.a else if r.a = r.c then some r.a else if r.b = r.c then some r.b else none
  match m with
  | none => none
  | some v => if legal v then some v else none

/-- The value in use of an RWT field: none while its vote fails. -/
def State.rwtUse (s : State) (f : RwtField) : Option Nat := voted (rwtLegal f) (s.rwtOf f)

/-- R37: the value a register shows: the voted one, or the last that passed a vote. -/
def State.rwtShow (s : State) (f : RwtField) : Nat := (s.rwtUse f).getD (s.rwtOf f).last

/-- R503: the lifecycle state by which the device acts: 0 BLANK, 1 PROVISIONED, 2 DEPLOYED, 3 REFURBISH, 4 SCRAPPED. While
the vote of the security state fails, what depends on it is FENCED as in SCRAPPED (R37). -/
def State.life (s : State) : Nat := (s.rwtUse .secState).getD 4

/-! ### Partitions -/

/-- The record of partition p as its voted ownership gives it: none when it owns nothing or the vote fails. -/
def State.prec (s : State) (p : Nat) : Option PartRec :=
  match s.rwtUse (.owner p) with
  | none => none
  | some 0 => none
  | some v =>
    let sh := (s.rwtUse (.share p)).getD 0
    some (unpackOwner v (BitVec.ofNat 64 (sh % 2 ^ 64)) (BitVec.ofNat 16 (sh / 2 ^ 64)))

/-- The record of partition p as registers show it: by the last values that passed a vote (R37). -/
def State.precShow (s : State) (p : Nat) : Option PartRec :=
  match s.rwtShow (.owner p) with
  | 0 => none
  | v =>
    let sh := s.rwtShow (.share p)
    some (unpackOwner v (BitVec.ofNat 64 (sh % 2 ^ 64)) (BitVec.ofNat 16 (sh / 2 ^ 64)))

/-- The record of partition p on which the ranges of other partitions rest: its voted ownership, or, while the vote fails, that of the
layout that Owl holds, from which it rewrites the field (R37). -/
def State.precKept (s : State) (p : Nat) : Option PartRec :=
  match s.rwtUse (.owner p) with
  | none => (s.lay.getD Layout.reset).parts.find? fun r => r.part == p
  | some _ => s.prec p

/-- Whether the vote of a field that is listed fails. -/
def State.voteFails (s : State) (f : RwtField) : Bool := thas s.rwt (rwtKey f) && (s.rwtUse f).isNone

/-- R37: whether a vote fails on which the requests of partition p depend: those of its ownership and shares, of an extent
or a GATE slot that the last vote gave it, or (for a partition that is not fenced) of a slot for shared use. Every such
request is answered FENCED. -/
def State.ownFails (s : State) (p : Nat) : Bool :=
  let l := s.lay.getD Layout.reset
  s.voteFails (.owner p) || s.voteFails (.share p) ||
    ((List.range l.extents.length).any fun i => bitsOf (s.rwtShow (.extent i)) 0 8 == p && s.voteFails (.extent i)) ||
    (List.range l.gate.length).any fun i =>
      let o := bitsOf (s.rwtShow (.slot i)) 0 8
      (o == p || (o == 0x3F && (match s.precShow p with | none => false | some r => !r.fenced))) && s.voteFails (.slot i)

/-- The partitions of the layout in force, in ascending number. -/
def State.partList (s : State) : List Nat :=
  (List.range 32).filter fun p => (s.lay.getD Layout.reset).parts.any fun r => r.part == p

/-- R110: the partition whose ASID range holds an ASID. -/
def State.asidPart (s : State) (a : Nat) : Option Nat :=
  (List.range 32).find? fun p => match s.prec p with
    | none => false
    | some r => decide (r.asidBase ≤ a) && decide (a < r.asidBase + r.asidCount)

/-- R37: whether the vote fails of the ownership of a partition that the last vote gave an ASID to. -/
def State.asidFails (s : State) (a : Nat) : Bool :=
  (List.range 32).any fun p => s.voteFails (.owner p) && (match s.precShow p with
    | none => false
    | some r => decide (r.asidBase ≤ a) && decide (a < r.asidBase + r.asidCount))

/-- R110: the partition that owns an engine. -/
def State.engPart (s : State) (e : Nat) : Option Nat :=
  (List.range 32).find? fun p => match s.prec p with | none => false | some r => r.engines.getLsbD e

/-- The partition whose queue range holds a queue. -/
def State.queuePart (s : State) (q : Nat) : Option Nat :=
  (List.range 32).find? fun p => match s.prec p with
    | none => false
    | some r => decide (r.queueBase ≤ q) && decide (q < r.queueBase + r.queueCount)

/-- The partition that owns a channel by fencing. -/
def State.chanPart (s : State) (c : Nat) : Option Nat :=
  (List.range 32).find? fun p => match s.prec p with | none => false | some r => r.fencedCh.getLsbD c

/-- R389, R391: the line-cache ways a line of partition p (none: no partition) may use. A fenced partition's ways stay its own while the
vote of its ownership fails. -/
def State.waysOf (s : State) (p : Option Nat) : List Nat :=
  let fencedWays : Nat := (List.range 32).foldl (fun acc q => match s.precKept q with
    | none => acc
    | some r => acc ||| r.ways.toNat) 0
  let mine := match p with
    | none => none
    | some q => match s.precKept q with
      | none => none
      | some r => if r.fenced then some r.ways.toNat else none
  match mine with
  | some w => lowBits 16 w
  | none => (List.range 16).filter fun i => !fencedWays.testBit i

/-! ### Pages of a partition -/

/-- 2 MiB. -/
def mib2 : Nat := 2097152

/-- R76: the section of partition p in force; none when it failed, or under a built-in layout. -/
def State.secOf (s : State) (p : Nat) : Option PartSec :=
  (s.lay.getD Layout.reset).secs.find? fun x => x.part == p
/-- PART_TENANT: the tenant tag in force. -/
def State.tenant (s : State) (p : Nat) : W32 := match s.secOf p with | none => 0 | some c => c.tenant

/-- R36: the extents with the owners that their votes give; one whose vote fails is not used. -/
def State.extentList (s : State) : List Extent :=
  let es := (s.lay.getD Layout.reset).extents
  if s.rwt.isEmpty then es
  else (List.range es.length).filterMap fun i => (s.rwtUse (.extent i)).map fun v =>
    ⟨bitsOf v 0 8, bitsOf v 8 32, bitsOf v 40 32⟩

/-- R69: the extents of partition p, in image order: base and length in bytes. -/
def State.extents (s : State) (p : Nat) : List (Nat × Nat) :=
  (s.extentList.filter fun e => e.part == p).map fun e => (mib2 * e.base, mib2 * e.count)

/-- The partition whose extent holds a DRAM-class address. -/
def State.extPart (s : State) (pa : Nat) : Option Nat :=
  (s.extentList.find? fun e => decide (mib2 * e.base ≤ pa) && decide (pa < mib2 * (e.base + e.count))).map (·.part)

/-- R36, R70: the slots of the GATE cycle with their owners; one whose vote fails belongs to nobody (0xFF). -/
def State.gateSlots (s : State) : List (Nat × Nat) :=
  let g := (s.lay.getD Layout.reset).gate
  if s.rwt.isEmpty then g
  else g.zipIdx.map fun ((_, n), i) => match s.rwtUse (.slot i) with
    | none => (0xFF, n)
    | some v => (bitsOf v 0 8, bitsOf v 8 32)

/-- R470: the owner of the GATE slot at position `pos`. -/
def slotOwner (g : List (Nat × Nat)) (pos : Nat) : Nat :=
  (g.foldl (fun (acc : Option Nat × Nat) (o, n) =>
    match acc.1 with
    | some _ => acc
    | none => if pos < acc.2 + n then (some o, acc.2) else (none, acc.2 + n)) (none, 0)).1.getD 0x3F

/-- R471: the fabric clocks left in the slot at position `pos`. -/
def slotLeft (g : List (Nat × Nat)) (pos : Nat) : Nat :=
  g.foldl (fun (acc : Nat × Nat) (_, n) =>
    if acc.1 ≤ pos ∧ pos < acc.1 + n then (acc.1 + n, acc.1 + n - pos) else (acc.1 + n, acc.2)) (0, 0) |>.2

/-- Whether a range lies inside one extent of partition p. -/
def State.inOneExtent (s : State) (p a n : Nat) : Bool :=
  (s.extents p).any fun (b, l) => decide (b ≤ a) && decide (a + n ≤ b + l)

/-- R239: the region page. -/
def State.regionPage (s : State) (p : Nat) : Option Nat := (s.extents p).head?.map (·.1)
/-- R270: the translation page. -/
def State.xlatPage (s : State) (p : Nat) : Option Nat :=
  match (s.extents p).head? with
  | none => none
  | some (b, l) => if l = mib2 then none else some (mib2 + b)
/-- R321: the queue page, the last 2 MiB of the first extent; none with fewer than three units. -/
def State.queuePage (s : State) (p : Nat) : Option Nat :=
  match (s.extents p).head? with
  | none => none
  | some (b, l) => if l < 3 * mib2 then none else some (b + mib2 * (l / mib2 - 1))

/-- Whether [a, a + n) meets the 2 MiB page at b. -/
def meetsPage (a n : Nat) (b : Option Nat) : Bool :=
  match b with
  | none => false
  | some b => decide (a < mib2 + b) && decide (b < a + n)

/-- Whether [a, a + n) meets the region page, the translation page or the queue page of p. -/
def State.meetsSpecial (s : State) (p a n : Nat) : Bool :=
  meetsPage a n (s.regionPage p) || meetsPage a n (s.xlatPage p) || meetsPage a n (s.queuePage p)

/-! ### Addresses -/

/-- R132: the home sett of an address. -/
def settOf (addr : Nat) : Nat :=
  let a := bitsOf addr 6 15
  (a % 16 ^^^ bitsOf a 4 4 ^^^ bitsOf a 8 4 ^^^ bitsOf a 12 3)

/-- R388: the line-cache sets of a sett, and the set of the line at an address. -/
def cacheSets (l : Layout) : Nat := 67108864 * l.cacheU / 16 / 1152
def State.cacheSet (s : State) (pa : Nat) : Nat := Config.cacheSet (pa / 1024) % cacheSets (s.lay.getD Layout.reset)

/-- R209: the directory sets of a sett, and the set of the 4 KiB block with a number. -/
def dirSets (l : Layout) : Nat := 67108864 * l.dirU / 16 / 512
def State.dirSet (s : State) (block : Nat) : Nat := Config.dirSet block % dirSets (s.lay.getD Layout.reset)

/-- Address classes of R130. -/
inductive PaClass where
  | dram
  | scratch (p off : Nat)
  | tables (off : Nat)
  | reserved
deriving DecidableEq, Repr

/-- R130: the class of a pool physical address. -/
def paClass (pa : Nat) : PaClass :=
  if pa < 0x100000000000 then .dram
  else if 0x800000000000 ≤ pa ∧ pa < 0x820000000000 then
    .scratch (pa % 0x400000000000 / 0x1000000000) (pa % 0x1000000000)
  else if 0xC000_0000_0000 ≤ pa ∧ pa < 0x1000000000000 then .tables (pa % 0x400000000000)
  else .reserved

/-- The base of partition p's scratch window (R131). -/
def scratchBase (p : Nat) : Nat := 0x800000000000 + 0x1000000000 * p

/-- The scratch quota of a PARTITION record in bytes. -/
def quotaOf (r : Option PartRec) : Nat := match r with | none => 0 | some r => 1048576 * r.scratch

/-- R394: the scratch quota of p in bytes, and where it starts in the scratch area: it stays there while a vote fails (R37). -/
def State.scrQuota (s : State) (p : Nat) : Nat := quotaOf (s.precKept p)
def State.scrBase (s : State) (p : Nat) : Nat :=
  ((List.range p).map fun q => s.scrQuota q).foldl (· + ·) 0

/-- Where a stored line of pool memory is held: a DRAM line by its DRAM-class address, or a line of scratch by its
offset in the scratch area. -/
inductive Where_ where
  | dram (pa : Nat)
  | scr (off : Nat)
deriving DecidableEq, Repr

/-- R131, R394, R396: where the byte at a pool physical address is held: none where nothing is. -/
def State.whereIs (s : State) (pa : Nat) : Option Where_ :=
  match paClass pa with
  | .dram => some (.dram pa)
  | .scratch p o =>
    let q := s.scrQuota p
    let q2 := mib2 * (q / mib2)
    let x := (s.part p).ext
    if o < q then some (.scr (s.scrBase p + o))
    else if o < q2 + mib2 * x.size then some (.dram (mib2 * x.base + (o - q2)))
    else none
  | _ => none

/-- The end of a scratch window: quota and extension (R131). -/
def State.scrEnd (s : State) (p : Nat) : Nat :=
  let q := s.scrQuota p
  max q (mib2 * (q / mib2) + mib2 * (s.part p).ext.size)

/-- R63: the granule in bytes of a granule code. -/
def granuleOf (c : BitVec 8) : Nat := if c = 0 then 256 else if c = 1 then 4096 else mib2

/-- R405: the channel and channel address of a DRAM-class address; none where no set covers it. -/
def State.chanAddr (s : State) (pa : Nat) : Option (Nat × Nat) :=
  let l := s.lay.getD Layout.reset
  match l.sets.find? fun t => decide (t.base ≤ pa) && decide (pa < t.base + t.size) with
  | none => none
  | some t =>
    let chs := lowBits 32 t.channels.toNat
    let n := chs.length
    if n = 0 then none
    else
      let g := granuleOf t.granule
      let off := pa - t.base
      let u := off / g
      let ch := chs.getD (u % n) 0
      let cb := (l.sets.filter fun v => decide (v.base < t.base) && v.channels.getLsbD ch).foldl
        (fun acc v => acc + v.size / (lowBits 32 v.channels.toNat).length) 0
      some (ch, cb + (u / n) * g + off % g)

/-- 1 GiB. -/
def gib : Nat := 1073741824

/-- R406: the ranks that hold logical positions, in ascending number: installed, neither the spare nor failed at
training. The spare is none even once it serves; a retired or failed rank that the spare serves keeps its position. -/
def Chan.logical (c : Chan) : List Nat :=
  (List.range 4).filter fun r => c.dimm.present.getLsbD r &&
    !(c.spare.toNat == r && (c.spareV || c.split.isSome || c.served.any fun (_, x) => x == r)) &&
    !(c.dimm.failed.getLsbD r && !thas c.served r)

/-- R424–R426: the rank that serves offset q of rank r: the spare, for a retired rank and for the copied chunks of a
migration or of the split that a failed spare leaves. -/
def Chan.rankAt (c : Chan) (r q : Nat) : Nat :=
  if thas c.served r then tget r c.served r
  else
    let go (m : Option (Nat × Nat)) : Option Nat :=
      match m with
      | some (f, n) => if f = r ∧ q / 16384 < n then some c.spare.toNat else none
      | none => none
    match go c.migr with
    | some x => x
    | none => (go c.split).getD r

/-- R406: channel, rank and offset in the rank of a channel address. -/
def State.rankAddr (s : State) (ch a : Nat) : Option (Nat × Nat) :=
  let c := s.chan ch
  let cap := gib * c.dimm.rankGib.toNat
  if cap = 0 then none
  else match c.logical[a / cap]? with
    | none => none
    | some r => some (c.rankAt r (a % cap), a % cap)

/-- The location key of a byte of a rank. -/
def locKey (ch rank q : Nat) : Nat := 2 ^ 40 * (4 * ch + rank) + q

/-- The location key of a DRAM-class address. -/
def State.locOf (s : State) (pa : Nat) : Option Nat :=
  match s.chanAddr pa with
  | none => none
  | some (ch, a) => match s.rankAddr ch a with
    | none => none
    | some (r, q) => some (locKey ch r q)

/-- The channel, rank and offset of a location key. -/
def locChan (k : Nat) : Nat := k / 2 ^ 42
def locRank (k : Nat) : Nat := k / 2 ^ 40 % 4
def locQ (k : Nat) : Nat := k % 2 ^ 40
/-- R406: the subchannel of a location. -/
def locSub (k : Nat) : Nat := bitsOf k 6 1
/-- R406: bank (4 × group + bank in group) and row of a location. -/
def locBank (k : Nat) : Nat :=
  (bitsOf k 14 3 ^^^ bitsOf k 19 3) * 4 + bitsOf k 17 2
def locRow (k : Nat) : Nat := locQ k / 2 ^ 19

/-- R417: the key slot that encrypts a DRAM-class address: none outside every extent. -/
def State.slotOf (s : State) (pa : Nat) : Option Nat :=
  match s.extPart pa with
  | none => none
  | some p => match s.prec p with
    | none => none
    | some r => some r.keySlot

/-- The serial number of the key a line is encrypted under: 0 in the clear; none when its slot is empty (R418). -/
def State.keyAt (s : State) (pa : Nat) : Option Nat :=
  match s.slotOf pa with
  | none => some 0
  | some k => if thas s.sec.slots k then some (tget 0 s.sec.slots k) else none

/-! ### Node identifiers and routes -/

/-- R123: the device's own node identifier. -/
def State.nodeId (s : State) : Node :=
  let dflt : Node := BitVec.ofNat 21 (0x1FFF00 + bitsOf s.top.straps.toNat 11 6)
  match s.lay with
  | none => dflt
  | some l => if l.builtin ∨ l.nodeId = 0xFFFFFFFF then dflt else BitVec.ofNat 21 l.nodeId.toNat

/-- R126: the port mask of the routing entry that matches a node, by the voted table. -/
def State.routeOf (s : State) (d : Node) : Option Byte :=
  let n := (s.lay.getD Layout.reset).routes.length
  (List.range n).findSome? fun i => match s.rwtUse (.route i) with
    | none => none
    | some v =>
      let lg := bitsOf v 21 5
      if d.toNat / 2 ^ lg * 2 ^ lg = v % 2 ^ 21 then some (BitVec.ofNat 8 (v / 2 ^ 26)) else none

/-- R37: whether the vote fails of the routing entry that the last vote gives a node. -/
def State.routeFails (s : State) (d : Node) : Bool :=
  !s.rwt.isEmpty && (List.range (s.lay.getD Layout.reset).routes.length).any fun i =>
    let v := s.rwtShow (.route i)
    let lg := bitsOf v 21 5
    d.toNat / 2 ^ lg * 2 ^ lg == v % 2 ^ 21 && s.voteFails (.route i)

/-- R37: whether a snoop's target depends on a field whose vote fails: a node's routing entry, or a sharer group's multicast entry. -/
def State.targetFails (s : State) (x : Node ⊕ Nat) : Bool :=
  match x with
  | .inl d => s.routeFails d
  | .inr g => match (s.lay.getD Layout.reset).groups[g]? with
    | none => false
    | some r => s.voteFails (.mcast r.mcast)

/-- R187: the port of a mask by which a message for d leaves; none when no port of it is ACTIVE. -/
def State.pickPort (s : State) (m : Byte) (d : Node) (tag : BitVec 16) : Option Nat :=
  let x := (d.toNat ^^^ (tag.toNat * 32)) % 2 ^ 21
  let h := x % 128 ^^^ bitsOf x 7 7 ^^^ bitsOf x 14 7
  let act := (lowBits 8 m.toNat).filter fun k => decide ((s.port k).st = .active)
  if act.length = 0 then none else act[h % act.length]?

/-- R187: the port by which a message for node d leaves; none when no entry matches or no port of it is ACTIVE. -/
def State.portFor (s : State) (d : Node) (tag : BitVec 16) : Option Nat :=
  match s.routeOf d with
  | none => none
  | some m => s.pickPort m d tag

/-- R230: the device epoch offset applied to a Tracked page's leaf epoch. -/
def State.effEpoch (s : State) (e : BitVec 16) : BitVec 16 := e + s.flash.epochOfs

/-- R193: the port and stop masks of a multicast group, by the voted table. -/
def State.mcastOf (s : State) (g : Nat) : Byte × W32 :=
  let v := (s.rwtUse (.mcast g)).getD 0
  (BitVec.ofNat 8 v, BitVec.ofNat 32 (v / 256))

end Sys2Proof.Machine
end

