-- ==== Sys2Proof/Machine/Numbers.lean ====
section
/-! DEFINITION. Number formats (R295–R298), the format views' conversions (R306–R311), and the arithmetic of
ACC_WR (R259) and of the Fox programs' sums. A finite number is a sign, a natural mantissa and a power of two, so every
intermediate result is exact and is rounded once. -/

namespace Sys2Proof.Machine
open Sys2Proof

/-- A number: a finite one is (−1)^neg × m × 2^e. -/
inductive Num where
  | fin (neg : Bool) (m : Nat) (e : Int)
  | inf (neg : Bool)
  | nan
deriving DecidableEq, Repr

/-- A binary format (R296): width, mantissa bits, exponent bias, whether it has an infinity, the largest
finite magnitude code, and the default NaN (0 where it has none). -/
structure Fmt where
  bits : Nat
  man : Nat
  bias : Nat
  hasInf : Bool
  maxCode : Nat
  nanCode : Nat
  emax : Int
deriving DecidableEq, Repr

/-- R296, R306: the formats. -/
def fFP32 : Fmt := ⟨32, 23, 127, true, 0x7F7FFFFF, 0x7FC00000, 127⟩
def fBF16 : Fmt := ⟨16, 7, 127, true, 0x7F7F, 0x7FC0, 127⟩
def fFP16 : Fmt := ⟨16, 10, 15, true, 0x7BFF, 0x7E00, 15⟩
def fE4M3 : Fmt := ⟨8, 3, 7, false, 0x7E, 0x7F, 8⟩
def fE5M2 : Fmt := ⟨8, 2, 15, true, 0x7B, 0x7E, 15⟩
def fE3M2 : Fmt := ⟨6, 2, 3, false, 0x1F, 0, 4⟩
def fE2M3 : Fmt := ⟨6, 3, 1, false, 0x1F, 0, 2⟩
def fE2M1 : Fmt := ⟨4, 1, 1, false, 0x7, 0, 2⟩

/-- R295: the element format of a code 0b0000–0b0100. -/
def elemFmt (code : Nat) : Fmt :=
  match code with
  | 0 => fFP32 | 1 => fBF16 | 2 => fFP16 | 3 => fE4M3 | _ => fE5M2

/-- R295: the element format of an MX code; MXINT8 has none. -/
def mxFmt (code : Nat) : Option Fmt :=
  match code with
  | 8 => some fE4M3 | 9 => some fE5M2 | 10 => some fE3M2 | 11 => some fE2M3 | 12 => some fE2M1 | _ => none

/-- The exponent of a subnormal's unit. -/
def Fmt.qmin (f : Fmt) : Int := 1 - (f.bias : Int) - (f.man : Int)

/-- The value of a code (R296). -/
def Fmt.decode (f : Fmt) (x : Nat) : Num :=
  let neg := x.testBit (f.bits - 1)
  let mag := x % 2 ^ (f.bits - 1)
  let e := mag / 2 ^ f.man
  let m := mag % 2 ^ f.man
  if f.maxCode < mag then
    if f.hasInf ∧ m = 0 then .inf neg else .nan
  else if e = 0 then .fin neg m f.qmin
  else .fin neg (2 ^ f.man + m) (f.qmin + (e : Int) - 1)

/-- How a value that lies between two representable ones is rounded: `u` is the stochastic draw. -/
inductive RMode where
  | rne
  | rtz
  | stoch (u : Nat)
deriving DecidableEq, Repr

/-- m × 2^e over 2^q, rounded to a natural number; and whether it was exact. -/
def roundAt (md : RMode) (m : Nat) (e q : Int) : Nat × Bool :=
  if q ≤ e then (m * 2 ^ (e - q).toNat, true)
  else
    let d := 2 ^ (q - e).toNat
    let r := m / d
    let rem := m % d
    if rem = 0 then (r, true)
    else match md with
      | .rne => (if d < 2 * rem ∨ (2 * rem = d ∧ r % 2 = 1) then r + 1 else r, false)
      | .rtz => (r, false)
      | .stoch u => (if u < 65536 * rem / d then r + 1 else r, false)

/-- The magnitude code of m × 2^e in a format, as if its exponent range had no upper limit (R306). -/
def Fmt.magCode (f : Fmt) (md : RMode) (m : Nat) (e : Int) : Nat × Bool :=
  if m = 0 then (0, true)
  else
    let q := max ((Nat.log2 m : Int) + e - (f.man : Int)) f.qmin
    let (r, ex) := roundAt md m e q
    ((q - f.qmin).toNat * 2 ^ f.man + r, ex)

/-- The code of the sign bit. -/
def Fmt.signCode (f : Fmt) (neg : Bool) : Nat := if neg then 2 ^ (f.bits - 1) else 0

/-- Infinity of a sign, or the largest finite where the format has none (R306, R308). -/
def Fmt.infCode (f : Fmt) (neg : Bool) : Nat :=
  f.signCode neg + (if f.hasInf then f.maxCode + 1 else f.maxCode)

/-- A number in a format, rounded by `md`: R306 and R259 with `rne`, R308 with the leaf's mode. -/
def Fmt.encode (f : Fmt) (md : RMode) : Num → Nat
  | .nan => f.nanCode
  | .inf neg => f.infCode neg
  | .fin neg m e =>
    let c := (f.magCode md m e).1
    if f.maxCode < c then
      match md with
      | .rne => f.infCode neg
      | _ => f.signCode neg + f.maxCode
    else f.signCode neg + c

/-- The sum of two numbers, exact; a sum of +0 and −0 is +0, and infinities of opposite sign give a NaN (R259). -/
def Num.add : Num → Num → Num
  | .nan, _ => .nan
  | _, .nan => .nan
  | .inf a, .inf b => if a = b then .inf a else .nan
  | .inf a, _ => .inf a
  | _, .inf b => .inf b
  | .fin na ma ea, .fin nb mb eb =>
    let e := min ea eb
    let x : Int := (ma * 2 ^ (ea - e).toNat : Nat)
    let y : Int := (mb * 2 ^ (eb - e).toNat : Nat)
    let z := (if na then -x else x) + (if nb then -y else y)
    if z = 0 then .fin (na && nb) 0 e else .fin (decide (z < 0)) z.natAbs e

/-- The negation. -/
def Num.neg : Num → Num
  | .nan => .nan
  | .inf a => .inf (!a)
  | .fin a m e => .fin (!a) m e

/-- The product, exact. -/
def Num.mul : Num → Num → Num
  | .nan, _ => .nan
  | _, .nan => .nan
  | .inf a, .inf b => .inf (a != b)
  | .inf a, .fin b m _ => if m = 0 then .nan else .inf (a != b)
  | .fin a m _, .inf b => if m = 0 then .nan else .inf (a != b)
  | .fin a m e, .fin b n f => .fin (a != b) (m * n) (e + f)

/-- Whether a number is zero. -/
def Num.isZero : Num → Bool
  | .fin _ m _ => m == 0
  | _ => false

/-- Whether a number is a NaN. -/
def Num.isNan : Num → Bool
  | .nan => true
  | _ => false

/-- Comparison of magnitudes m × 2^e: whether the first is below the second. -/
def magLt (m : Nat) (e : Int) (n : Nat) (f : Int) : Bool :=
  let q := min e f
  decide (m * 2 ^ (e - q).toNat < n * 2 ^ (f - q).toNat)

/-- Whether a < b, neither a NaN. Zeros of both signs are equal. -/
def Num.lt : Num → Num → Bool
  | .nan, _ => false
  | _, .nan => false
  | .inf a, .inf b => a && !b
  | .inf a, .fin .. => a
  | .fin .., .inf b => !b
  | .fin na ma ea, .fin nb mb eb =>
    if ma = 0 ∧ mb = 0 then false
    else if ma = 0 then !nb
    else if mb = 0 then na
    else if na != nb then na
    else if na then magLt mb eb ma ea else magLt ma ea mb eb

/-! ### Fields of a line -/

/-- The elements of `w` bytes of a byte string, little-endian, `n` of them. -/
def elems (w : Nat) : Nat → Bytes → List Nat
  | 0, _ => []
  | n + 1, bs => fld bs 0 w :: elems w n (bs.drop w)

/-- Elements of `w` bytes back to bytes. -/
def unelems (w : Nat) (xs : List Nat) : Bytes := xs.flatMap fun x => toLe w x

/-- Bytes of an element of a view or storage format. -/
def fmtBytes (code : Nat) : Nat := (elemFmt code).bits / 8

/-- Elements of a view line. -/
def viewElems (view : Nat) : Nat := 64 / fmtBytes view

/-- Whether a code is legal as a view, as element storage, as MX storage (R295). -/
def isElemCode (c : Nat) : Bool := decide (c ≤ 4)
def isMxCode (c : Nat) : Bool := decide (8 ≤ c ∧ c ≤ 13)

/-- Bytes of an MX block (R298). -/
def mxBytes (code : Nat) : Nat :=
  match code with
  | 8 => 33 | 9 => 33 | 13 => 33 | 10 => 25 | 11 => 25 | _ => 17

/-- R299: the stored bytes of a view line, where the pair is defined. -/
def storedB (stor view : Nat) : Option Nat :=
  if !isElemCode view then none
  else if isElemCode stor then some (viewElems view * fmtBytes stor)
  else if isMxCode stor then
    if view = 0 then none else some (mxBytes stor * (viewElems view / 32))
  else none

/-! ### MX blocks -/

/-- Element field i of a block whose element bytes are `bs` (R298). -/
def mxField (code i : Nat) (bs : Bytes) : Nat :=
  match code with
  | 10 | 11 => bitsOf (fld bs 0 24) (6 * i) 6
  | 12 => bitsOf (fld bs 0 16) (4 * i) 4
  | _ => fld bs i 1

/-- The value of an element field before the scale. -/
def mxElem (code x : Nat) : Num :=
  match mxFmt code with
  | some f => f.decode x
  | none => if 128 ≤ x then .fin true (256 - x) (-6) else .fin false x (-6)

/-- A number scaled by a power of two. -/
def Num.scale (k : Int) : Num → Num
  | .fin a m e => .fin a m (e + k)
  | x => x

/-- R297: the 32 values of a block. -/
def mxDecode (code : Nat) (bs : Bytes) : List Num :=
  let x := fld bs 0 1
  (List.range 32).map fun i =>
    if x = 0xFF then .nan else (mxElem code (mxField code i (bs.drop 1))).scale ((x : Int) - 127)

/-- floor(log2) of a non-zero finite magnitude. -/
def log2Of (m : Nat) (e : Int) : Int := (Nat.log2 m : Int) + e

/-- R309 step 4: the element field of v/X. -/
def mxField1 (code : Nat) (md : RMode) (v : Num) (sc : Int) : Nat :=
  match v with
  | .fin neg m e =>
    match mxFmt code with
    | some f =>
      let c := (f.magCode md m (e - sc)).1
      f.signCode neg + min c f.maxCode
    | none =>
      let r := min (roundAt md m (e - sc) (-6)).1 127
      if neg then (256 - r) % 256 else r
  | _ => 0

/-- Fields of an MX block packed into its element bytes (R298). -/
def mxPack (code : Nat) (fs : List Nat) : Bytes :=
  match code with
  | 10 | 11 => toLe 24 ((fs.zipIdx.map fun (x, i) => x * 2 ^ (6 * i)).foldl (· + ·) 0)
  | 12 => toLe 16 ((fs.zipIdx.map fun (x, i) => x * 2 ^ (4 * i)).foldl (· + ·) 0)
  | _ => fs.map fun x => BitVec.ofNat 8 x

/-- emax of an MX code's element (R296). -/
def mxEmax (code : Nat) : Int :=
  match mxFmt code with
  | some f => f.emax
  | none => 0

/-- R309: a block of 32 values encoded whole; `md i` is the rounding of element i. -/
def mxEncode (code : Nat) (md : Nat → RMode) (vs : List Num) : Bytes :=
  let bad := vs.any fun v => match v with | .fin .. => false | _ => true
  if bad then 0xFF :: List.replicate (mxBytes code - 1) 0
  else
    let top := vs.foldl (fun (a : Option Int) v => match v with
      | .fin _ m e => if m = 0 then a else match a with
        | none => some (log2Of m e)
        | some b => some (max b (log2Of m e))
      | _ => a) none
    match top with
    | none =>
      0x00 :: mxPack code (vs.map fun v => match v with
        | .fin true _ _ => (match mxFmt code with | some f => f.signCode true | none => 0)
        | _ => 0)
    | some l =>
      let e := max (-127) (min 127 (l - mxEmax code))
      BitVec.ofNat 8 (e + 127).toNat :: mxPack code (vs.zipIdx.map fun (v, i) => mxField1 code (md i) v e)

/-! ### A view line -/

/-- R306: the values of a view line's stored bytes. -/
def storedNums (stor view : Nat) (bs : Bytes) : List Num :=
  if isElemCode stor then (elems (fmtBytes stor) (viewElems view) bs).map (elemFmt stor).decode
  else if viewElems view = 64 then mxDecode stor bs ++ mxDecode stor (bs.drop (mxBytes stor))
  else mxDecode stor bs

/-- R306: a view line of its stored bytes. An element of the view's own format is delivered as its value; a NaN as
the default NaN. -/
def readView (stor view : Nat) (bs : Bytes) : Bytes :=
  if stor = view then bs
  else unelems (fmtBytes view) ((storedNums stor view bs).map ((elemFmt view).encode .rne))

/-- The rounding of element i under a leaf's mode, with the stochastic draws from `base` on (R308). -/
def rmode (r : Rnd) (base i : Nat) : RMode :=
  match r with
  | .rne => .rne
  | .rtz => .rtz
  | .stoch => .stoch (Config.freeBits 16 (base + i)).toNat

/-- Whether a byte mask has a bit set in bytes [i, i + n). -/
def maskAny (mask : W64) (i n : Nat) : Bool := bitsOf mask.toNat i n != 0

/-- R308–R311, R315: the stored bytes after a write of `data` under `mask` to a view line whose stored bytes were `old`. With
view equal to storage the bytes are stored as they are. In a poisoned line (`zero`) an encoding takes what is not written
as zero. -/
def writeView (stor view : Nat) (rnd : Rnd) (base : Nat) (old data : Bytes) (mask : W64) (zero : Bool) : Bytes :=
  let merge (a b : Bytes) : Bytes :=
    (List.range 64).map fun i => if mask.toNat.testBit i then b.getD i 0 else a.getD i 0
  if stor = view then merge old data
  else
    let w := fmtBytes view
    let n := viewElems view
    let view0 := if zero then List.replicate 64 0 else readView stor view old
    let new := merge view0 data
    let vals := (elems w n new).map (elemFmt view).decode
    if isElemCode stor then
      let ws := fmtBytes stor
      (vals.zipIdx.map fun (v, i) =>
        if maskAny mask (i * w) w then toLe ws ((elemFmt stor).encode (rmode rnd base i) v)
        else slice old (i * ws) ws).flatten
    else
      let blk := mxBytes stor
      ((List.range (n / 32)).map fun k =>
        if maskAny mask (k * 32 * w) (32 * w) then
          mxEncode stor (fun i => rmode rnd base (32 * k + i)) ((vals.drop (32 * k)).take 32)
        else slice old (k * blk) blk).flatten

/-! ### ACC_WR (R257–R259) -/

/-- R257: bytes of an element of an ACC_WR format. -/
def accBytes (op : Nat) : Nat :=
  match op with
  | 0 => 4 | 1 => 2 | 2 => 2 | 3 => 4 | _ => 8

/-- R259: one element sum. -/
def accElem (op a b : Nat) : Nat :=
  match op with
  | 3 => (a + b) % 2 ^ 32
  | 4 => (a + b) % 2 ^ 64
  | k => (elemFmt k).encode .rne (((elemFmt k).decode a).add ((elemFmt k).decode b))

/-- R257: a line added into a line. -/
def accLine (op : Nat) (old add_ : Bytes) : Bytes :=
  let w := accBytes op
  unelems w (List.zipWith (accElem op) (elems w (64 / w) old) (elems w (64 / w) add_))

/-! ### ATOMIC (R222) -/

/-- R222: bytes of an operand. -/
def atomSize (op : Nat) : Nat := if op = 10 then 16 else 8

/-- A 64-bit value as a signed number. -/
def sgn64 (x : Nat) : Int := if 2 ^ 63 ≤ x then (x : Int) - 2 ^ 64 else x

/-- R222: the new value of m, with the operand slots; and whether a compare-and-swap swapped. -/
def atomVal (op m : Nat) (o0 o1 : Slot) : Nat × Bool :=
  let a := o0.toNat % 2 ^ 64
  let b := o0.toNat / 2 ^ 64
  match op with
  | 0 => ((m + a) % 2 ^ 64, false)
  | 1 => (m &&& a, false)
  | 2 => (m ||| a, false)
  | 3 => (m ^^^ a, false)
  | 4 => (a, false)
  | 5 => (if sgn64 m < sgn64 a then a else m, false)
  | 6 => (if sgn64 a < sgn64 m then a else m, false)
  | 7 => (max m a, false)
  | 8 => (min m a, false)
  | 9 => if m = a then (b, true) else (m, false)
  | _ => if m = o0.toNat then (o1.toNat, true) else (m, false)

end Sys2Proof.Machine
end

