-- ==== Sys2Proof/Machine/Sm4.lean ====
section
/-! DEFINITION. SM4-XTS (R417): the block cipher of GB/T 32907 in the mode of IEEE 1619, which the manual names and does not restate
(PRESUMED, log 4). -/

namespace Sys2Proof.Machine
open Sys2Proof

/-- A number's low n bytes, big-endian, and the number that bytes are, so read. -/
def toBe (n v : Nat) : Bytes := (toLe n v).reverse
def beNat (bs : Bytes) : Nat := leNat bs.reverse

/-- A left rotation. -/
def rol (x : W32) (n : Nat) : W32 := x.rotateLeft (n % 32)

/-- The big-endian words of a block. -/
def beWords : Nat → Bytes → List W32
  | 0, _ => []
  | n + 1, bs => BitVec.ofNat 32 (beNat (slice bs 0 4)) :: beWords n (bs.drop 4)

/-- The S-box, sixteen entries a row. -/
def sm4Sbox : List Nat :=
  [0xD6, 0x90, 0xE9, 0xFE, 0xCC, 0xE1, 0x3D, 0xB7, 0x16, 0xB6, 0x14, 0xC2, 0x28, 0xFB, 0x2C, 0x05] ++
  [0x2B, 0x67, 0x9A, 0x76, 0x2A, 0xBE, 0x04, 0xC3, 0xAA, 0x44, 0x13, 0x26, 0x49, 0x86, 0x06, 0x99] ++
  [0x9C, 0x42, 0x50, 0xF4, 0x91, 0xEF, 0x98, 0x7A, 0x33, 0x54, 0x0B, 0x43, 0xED, 0xCF, 0xAC, 0x62] ++
  [0xE4, 0xB3, 0x1C, 0xA9, 0xC9, 0x08, 0xE8, 0x95, 0x80, 0xDF, 0x94, 0xFA, 0x75, 0x8F, 0x3F, 0xA6] ++
  [0x47, 0x07, 0xA7, 0xFC, 0xF3, 0x73, 0x17, 0xBA, 0x83, 0x59, 0x3C, 0x19, 0xE6, 0x85, 0x4F, 0xA8] ++
  [0x68, 0x6B, 0x81, 0xB2, 0x71, 0x64, 0xDA, 0x8B, 0xF8, 0xEB, 0x0F, 0x4B, 0x70, 0x56, 0x9D, 0x35] ++
  [0x1E, 0x24, 0x0E, 0x5E, 0x63, 0x58, 0xD1, 0xA2, 0x25, 0x22, 0x7C, 0x3B, 0x01, 0x21, 0x78, 0x87] ++
  [0xD4, 0x00, 0x46, 0x57, 0x9F, 0xD3, 0x27, 0x52, 0x4C, 0x36, 0x02, 0xE7, 0xA0, 0xC4, 0xC8, 0x9E] ++
  [0xEA, 0xBF, 0x8A, 0xD2, 0x40, 0xC7, 0x38, 0xB5, 0xA3, 0xF7, 0xF2, 0xCE, 0xF9, 0x61, 0x15, 0xA1] ++
  [0xE0, 0xAE, 0x5D, 0xA4, 0x9B, 0x34, 0x1A, 0x55, 0xAD, 0x93, 0x32, 0x30, 0xF5, 0x8C, 0xB1, 0xE3] ++
  [0x1D, 0xF6, 0xE2, 0x2E, 0x82, 0x66, 0xCA, 0x60, 0xC0, 0x29, 0x23, 0xAB, 0x0D, 0x53, 0x4E, 0x6F] ++
  [0xD5, 0xDB, 0x37, 0x45, 0xDE, 0xFD, 0x8E, 0x2F, 0x03, 0xFF, 0x6A, 0x72, 0x6D, 0x6C, 0x5B, 0x51] ++
  [0x8D, 0x1B, 0xAF, 0x92, 0xBB, 0xDD, 0xBC, 0x7F, 0x11, 0xD9, 0x5C, 0x41, 0x1F, 0x10, 0x5A, 0xD8] ++
  [0x0A, 0xC1, 0x31, 0x88, 0xA5, 0xCD, 0x7B, 0xBD, 0x2D, 0x74, 0xD0, 0x12, 0xB8, 0xE5, 0xB4, 0xB0] ++
  [0x89, 0x69, 0x97, 0x4A, 0x0C, 0x96, 0x77, 0x7E, 0x65, 0xB9, 0xF1, 0x09, 0xC5, 0x6E, 0xC6, 0x84] ++
  [0x18, 0xF0, 0x7D, 0xEC, 0x3A, 0xDC, 0x4D, 0x20, 0x79, 0xEE, 0x5F, 0x3E, 0xD7, 0xCB, 0x39, 0x48]

/-- The S-box on each byte of a word. -/
def sm4Tau (x : W32) : W32 :=
  let f (i : Nat) : Nat := sm4Sbox.getD (bitsOf x.toNat (8 * i) 8) 0
  BitVec.ofNat 32 (f 0 + 256 * f 1 + 65536 * f 2 + 16777216 * f 3)

/-- The linear maps of a round and of the key schedule. -/
def sm4L (x : W32) : W32 := x ^^^ rol x 2 ^^^ rol x 10 ^^^ rol x 18 ^^^ rol x 24
def sm4Lk (x : W32) : W32 := x ^^^ rol x 13 ^^^ rol x 23

/-- Four words after a step: the first leaves, and its sum with a function of the others and of a word enters. -/
def sm4Step (t : W32 → W32) (x : List W32) (k : W32) : List W32 :=
  let w (i : Nat) : W32 := x.getD i 0
  [w 1, w 2, w 3, w 0 ^^^ t (w 1 ^^^ w 2 ^^^ w 3 ^^^ k)]

/-- The constant of round i of the key schedule: bytes 7 · (4i + j) modulo 256. -/
def sm4Ck (i : Nat) : W32 := BitVec.ofNat 32 (beNat ((List.range 4).map fun j => BitVec.ofNat 8 (7 * (4 * i + j))))

/-- The 32 round keys of a key of 16 bytes. -/
def sm4Keys (key : Bytes) : List W32 :=
  let x0 := (beWords 4 key).zipWith (· ^^^ ·) [0xA3B1BAC6, 0x56AA3350, 0x677D9197, 0xB27022DC]
  ((List.range 32).foldl (fun (x, ks) i =>
    let y := sm4Step (fun v => sm4Lk (sm4Tau v)) x (sm4Ck i)
    (y, ks ++ [y.getD 3 0])) (x0, ([] : List W32))).2

/-- A block of 16 bytes under round keys: in their order it is encrypted, in the reverse one decrypted. -/
def sm4Block (ks : List W32) (b : Bytes) : Bytes :=
  (ks.foldl (sm4Step fun v => sm4L (sm4Tau v)) (beWords 4 b)).reverse.flatMap fun w => toBe 4 w.toNat

/-- The product of a tweak with α, of bytes in little-endian order (IEEE 1619). -/
def xtsDouble (t : Nat) : Nat := if t < 2 ^ 127 then 2 * t else (2 * t % 2 ^ 128) ^^^ 0x87

/-- R417: a line of four blocks under round keys and the tweak of its first block. -/
def xtsBlocks (ks : List W32) : Nat → Nat → Bytes → Bytes
  | 0, _, _ => []
  | n + 1, t, b =>
    let x (u : Bytes) : Bytes := u.zipWith (· ^^^ ·) (toLe 16 t)
    x (sm4Block ks (x (slice b 0 16))) ++ xtsBlocks ks n (xtsDouble t) (b.drop 16)

/-- R417: a line encrypted, or decrypted, under a data key and a tweak key; the tweak is the line number as a 128-bit little-endian
value. -/
def xtsLine (dec : Bool) (data tweak : Bytes) (line : Nat) (b : Bytes) : Bytes :=
  let ks := sm4Keys data
  xtsBlocks (if dec then ks.reverse else ks) 4 (leNat (sm4Block (sm4Keys tweak) (toLe 16 line))) b

/-- R417, R512: a line as stored under the key of a serial number, from its bytes in the clear, and back: 0 is no key. -/
def sealed (key line : Nat) (b : Bytes) : Bytes :=
  if key = 0 then b else xtsLine false (toLe 16 (Config.slotKey key).1.toNat) (toLe 16 (Config.slotKey key).2.toNat) line b
def opened (key line : Nat) (b : Bytes) : Bytes :=
  if key = 0 then b else xtsLine true (toLe 16 (Config.slotKey key).1.toNat) (toLe 16 (Config.slotKey key).2.toNat) line b

/-- R417, R513: what a line stored under key k0 reads as under key k (0: in the clear), by its line number and its bytes in the clear. -/
def rekeyed (k k0 line : Nat) (plain : Bytes) : Bytes := if k = k0 then plain else slice (opened k line (sealed k0 line plain)) 0 64

end Sys2Proof.Machine
end

