-- ==== Sys2Proof/Machine/Store.lean ====
section
/-! DEFINITION. Lines of pool memory: DRAM under its keys and poison marks (R417, R434), the write queues (R407, R408),
the line cache and the victim buffers (R387–R392), Burrow scratch (R394, R395); and the event records of poisoning and
of a partition's ring (R228, R446–R459). A line is named by its canonical pool physical address: the DRAM address of
a line of an extension (R397), else the address itself. -/

namespace Sys2Proof.Machine
open Sys2Proof

/-- A line's 64 bytes and its poison mark. -/
structure LineVal where
  data : Bytes
  poison : Bool
deriving DecidableEq, Repr

/-- The canonical address of a line (R397): none where no memory is. -/
def State.canon (s : State) (pa : Nat) : Option Nat :=
  match s.whereIs pa with
  | none => none
  | some (.dram a) => some (a / 64 * 64)
  | some (.scr _) => some (pa / 64 * 64)

/-- Whether a canonical address is in the DRAM class. -/
def isDram (pa : Nat) : Bool := decide (pa < 0x100000000000)

/-! ### DRAM -/

/-- The key serial under which the stored line at a location and address was written: its own tag, or that of the last
fill that covered it, or 0. -/
def State.storedKey (s : State) (loc pa : Nat) : Nat :=
  if thas s.dramKey (loc / 64) then tget 0 s.dramKey (loc / 64)
  else
    let at_ (e : Nat × Nat × Nat) : Bool := decide (e.1 ≤ pa / mib2) && decide (pa / mib2 < e.1 + e.2.1)
    let here (f : Option (Nat × Nat) × List (Nat × Nat × Nat)) : Bool := match f.1 with
      | none => f.2.any at_
      | some (a, n) => decide (a ≤ loc / 64) && decide (loc / 64 < a + n)
    match s.fills.find? here with
    | some f => match f.2.find? at_ with
      | some (_, _, k) => k
      | none => 0
    | none => 0

/-- R417: what the line at a location reads as for address `pa`: its bytes when its key is the one in force, else
bytes unrelated to them. -/
def State.dramLine (s : State) (loc pa : Nat) : LineVal :=
  let plain := cgets s.dram (loc / 64 * 64) 64
  let k := (s.keyAt pa).getD 0
  let k0 := s.storedKey loc pa
  ⟨rekeyed k k0 (pa / 64) plain, s.dramPois.contains (loc / 64)⟩

/-- A line stored at a location: bytes, the key in force for its address, and its poison mark. -/
def State.dramStore (s : State) (loc pa : Nat) (v : LineVal) : State :=
  { s with
    dram := cputs s.dram (loc / 64 * 64) v.data
    dramKey := tput s.dramKey (loc / 64) ((s.keyAt pa).getD 0)
    dramPois := if v.poison then
        (if s.dramPois.contains (loc / 64) then s.dramPois else loc / 64 :: s.dramPois)
      else without s.dramPois (loc / 64) }

/-- A subchannel. -/
def Chan.sub (c : Chan) (i : Nat) : SubCh := if i = 0 then c.subA else c.subB
def Chan.setSub (c : Chan) (i : Nat) (x : SubCh) : Chan := if i = 0 then { c with subA := x } else { c with subB := x }

/-- R408: the newest write of a location in its write queue. -/
def State.queued (s : State) (loc : Nat) : Option DWrite :=
  (((s.chan (locChan loc)).sub (locSub loc)).wq.filter fun w => w.loc / 64 == loc / 64).getLast?

/-- R408: write `i` of a subchannel's write queue is performed; one whose owner's key slot has been emptied leaves the queue unperformed
(R418). -/
def State.performWrite (s : State) (ch sub i : Nat) : State :=
  let c := s.chan ch
  let u := c.sub sub
  match u.wq[i]? with
  | none => s
  | some w =>
    let s1 := if (s.keyAt (w.line * 64)).isNone then s else s.dramStore w.loc (w.line * 64) ⟨w.data, w.poison⟩
    s1.setChan ch (c.setSub sub { u with wq := dropAt u.wq i })

/-- R391, R408: a line placed in the write queue of its subchannel. A full queue of 64 first performs its oldest
write. A write for a FAILED channel is discarded (R416). -/
def State.pushWrite (s : State) (pa : Nat) (v : LineVal) : State :=
  match s.locOf pa with
  | none => s
  | some loc =>
    let ch := locChan loc
    let sub := locSub loc
    if (s.chan ch).st = .failed then s
    else
      let s1 := if 64 ≤ ((s.chan ch).sub sub).wq.length then s.performWrite ch sub 0 else s
      let c := s1.chan ch
      let u := c.sub sub
      let w : DWrite := ⟨pa / 64, loc / 64 * 64, v.data, v.poison, s1.clk, false⟩
      s1.setChan ch (c.setSub sub { u with wq := u.wq ++ [w] })

/-! ### Scratch -/

/-- R395: a scratch line. -/
def State.scrLine (s : State) (off : Nat) : LineVal :=
  ⟨cgets s.scr (off / 64 * 64) 64, s.scrPois.contains (off / 64)⟩

def State.scrStore (s : State) (off : Nat) (v : LineVal) : State :=
  { s with
    scr := cputs s.scr (off / 64 * 64) v.data
    scrPois := if v.poison then (if s.scrPois.contains (off / 64) then s.scrPois else off / 64 :: s.scrPois)
      else without s.scrPois (off / 64) }

/-! ### The line cache -/

/-- R387: a cached line. -/
def State.cached (s : State) (pa : Nat) : Option CLine :=
  let c := (s.sett (settOf pa)).cache
  if thas c (pa / 64) then some (tget CLine.reset c (pa / 64)) else none

/-- The newest victim-buffer entry of a line (R391). -/
def State.victim (s : State) (pa : Nat) : Option CLine :=
  (((s.sett (settOf pa)).victims.filter fun v => v.line == pa / 64).getLast?).map (·.c)

/-- The line that waits to be installed (R390, R391). -/
def State.waiting (s : State) (pa : Nat) : Option CLine :=
  (((s.sett (settOf pa)).insQ.filter fun v => v.line == pa / 64).getLast?).map (·.c)

/-- A line held short of DRAM: in the line cache, waiting for its place there, in the victim buffer, or in its write queue; and whether it is
dirty against DRAM. -/
def State.held (s : State) (pa : Nat) : Option (LineVal × Bool) :=
  match s.cached pa with
  | some c => some (⟨c.data, c.poison⟩, c.dirty)
  | none => match s.waiting pa with
    | some c => some (⟨c.data, c.poison⟩, c.dirty)
    | none => match s.victim pa with
      | some c => some (⟨c.data, c.poison⟩, true)
      | none => match s.locOf pa with
        | none => none
        | some loc => match s.queued loc with
          | some w => some (⟨w.data, w.poison⟩, false)
          | none => none

/-- The line as memory holds it, whichever level holds it: none where no memory is. -/
def State.view (s : State) (pa : Nat) : Option LineVal :=
  match s.whereIs pa with
  | none => none
  | some (.scr off) => some (s.scrLine off)
  | some (.dram a) => match s.held a with
    | some (v, _) => some v
    | none => match s.locOf a with
      | none => none
      | some loc => some (s.dramLine loc a)

/-- What an install of a line finds (R388–R391). -/
inductive Place where
  | hit (way : Nat)
  | free (way : Nat)
  | evict (line way : Nat)
  /-- every permitted way holds a BUSY line -/
  | noWay
  /-- the victim it would need has no entry of the victim buffer -/
  | noVictim
deriving DecidableEq, Repr

/-- The partition whose extent holds a DRAM-class address. -/
def State.lineOwner (s : State) (pa : Nat) : Option Nat := s.extPart pa

/-- R388–R391: where the line at `pa` is placed; `busy` are the line numbers that transactions hold. Among clean
choices the manual leaves open, the free way is the lowest, and the victim is a free choice among the
not-recently-used (log 3). -/
def State.place (s : State) (pa : Nat) (busy : List Nat) : Place :=
  let t := s.sett (settOf pa)
  if thas t.cache (pa / 64) then .hit (tget CLine.reset t.cache (pa / 64)).way
  else
    let set := s.cacheSet pa
    let ways := s.waysOf (s.lineOwner pa)
    let inSet := t.cache.filter fun (l, c) => s.cacheSet (64 * l) == set && ways.contains c.way
    match ways.find? fun w => !(inSet.any fun (_, c) => c.way == w) with
    | some w => .free w
    | none =>
      let idle := inSet.filter fun (l, _) => !busy.contains l
      let old := idle.filter fun (_, c) => !c.ref
      let pick := if old.isEmpty then idle else old
      match pick[Config.freeNat s.free % pick.length]? with
      | none => .noWay
      | some (l, c) =>
        if c.dirty ∧ 4 * ways.length ≤ (t.victims.filter fun v => ways.contains v.c.way).length then .noVictim
        else .evict l c.way

/-- R390: the lines of a sett after line number k has been used: not-recently-used within its set. -/
def State.usedLine (s : State) (k : Nat) (c : Tab CLine) : Tab CLine :=
  nru (fun l => s.cacheSet (64 * l) == s.cacheSet (64 * k)) (·.ref) (fun c => { c with ref := false }) k c

/-- R391: an install waits for an entry of the victim buffer. -/
def State.countVicfull (s : State) : State :=
  { s with bur := { s.bur with vicfull := sat s.bur.vicfull, evstat := setBit s.bur.evstat 0 } }

/-- R390, R391: a line installed where `p` says; a dirty line it displaces goes to the victim buffer. One that finds no way or no entry of the
victim buffer waits, and takes the place of an older one of its line that waits. -/
def State.installAt (s : State) (pa : Nat) (v : LineVal) (dirty : Bool) (p : Place) : State :=
  let n := settOf pa
  let t0 := s.sett n
  let t := { t0 with insQ := t0.insQ.filter fun x => x.line != pa / 64 }
  let new (w : Nat) : CLine := ⟨v.data, dirty, v.poison, w, true⟩
  match p with
  | .hit w => s.setSett n { t with cache := s.usedLine (pa / 64) (tput t.cache (pa / 64) (new w)) }
  | .free w => s.setSett n { t with cache := s.usedLine (pa / 64) (tput t.cache (pa / 64) (new w)) }
  | .evict l w =>
    let old := tget CLine.reset t.cache l
    let t1 := { t with
      cache := s.usedLine (pa / 64) (tput (tdel t.cache l) (pa / 64) (new w))
      victims := if old.dirty then t.victims ++ [⟨l, old⟩] else t.victims }
    { s with free := s.free + 1 }.setSett n t1
  | .noWay => s.setSett n { t with insQ := t.insQ ++ [⟨pa / 64, new 0⟩] }
  | .noVictim =>
    (if t0.insQ.any (fun x => x.line == pa / 64) then s else s.countVicfull).setSett n { t with insQ := t.insQ ++ [⟨pa / 64, new 0⟩] }

/-- R390: a line installed in the line cache. -/
def State.install (s : State) (pa : Nat) (v : LineVal) (dirty : Bool) (busy : List Nat) : State :=
  s.installAt pa v dirty (s.place pa busy)

/-- R390, R391: the lines of a sett that wait are installed as far as they find a place now, oldest first. -/
def State.installWaiting (s : State) (n : Nat) (busy : List Nat) : State :=
  (s.sett n).insQ.foldl (fun s v =>
    match s.place (v.line * 64) busy with
    | .noWay => s
    | .noVictim => s
    | p => s.installAt (v.line * 64) ⟨v.c.data, v.c.poison⟩ v.c.dirty p) s

/-- R442: what a partition's registers count when a word of its dedicated SRAM, or a line of its fenced
channels, is corrected. -/
def State.countCeSram (s : State) (p : Nat) : State :=
  let r := (s.part p).ring
  s.setRing p { r with ceSram := sat r.ceSram, evstat := setBit r.evstat 3 }
def State.countCeDram (s : State) (p : Nat) : State :=
  let r := (s.part p).ring
  s.setRing p { r with ceDram := sat r.ceDram, evstat := setBit r.evstat 2 }

/-! ### Access conditions -/

/-- The status of an access to the line at a canonical address, before any data is looked at: a lost home (R133), a
failed channel (R416), an address that no set covers (R130), an empty key slot (R418). -/
def State.lineStatus (s : State) (pa : Nat) : Status :=
  if (s.sett (settOf pa)).pair = .lost then .unavailable
  else if isDram pa then
    match s.locOf pa with
    | none => .xlateFault
    | some loc =>
      if (s.chan (locChan loc)).st = .failed then .unavailable
      else if (s.keyAt pa).isNone then .keyLost else .ok
  else match s.whereIs pa with
    | none => .xlateFault
    | some _ => .ok

/-- A line written at its home by a device unit: dirty in the line cache, or in scratch. -/
def State.storeLine (s : State) (pa : Nat) (v : LineVal) (busy : List Nat) : State :=
  match s.whereIs pa with
  | none => s
  | some (.scr off) => s.scrStore off v
  | some (.dram a) => s.install a v true busy

/-- Bytes of a page of a leaf (R269), and the page-offset bits of an address. -/
def pageBytes (sz : BitVec 2) : Nat := if sz = 0 then 2 ^ 21 else if sz = 1 then 2 ^ 30 else 2 ^ 39

/-- R302: the 9 bits of the virtual address just above the page offset. -/
def jOf (sz : BitVec 2) (va : Nat) : Nat :=
  if sz = 0 then bitsOf va 21 9 else if sz = 1 then bitsOf va 30 9 else bitsOf va 39 9

/-- R301, R302: the byte addresses of the stored bytes of the view line that `va` names, under a leaf that resolves to
`base`. -/
def storedAddrs (l : Leaf) (base va : Nat) : List Nat :=
  let sz := pageBytes l.size
  let o := va % sz / 64 * 64
  match storedB l.stor.toNat l.view.toNat with
  | none => []
  | some b =>
    if b = 64 then (List.range 64).map fun k => base + o + k
    else
      let b0 := base + jOf l.size va * (sz * b / 64)
      let first := o / 1024 * b
      let n := settOf va
      (List.range b).map fun k =>
        let x := first + k
        let blk := b0 + x / 64 * 1024
        let p := n ^^^ bitsOf blk 10 4 ^^^ bitsOf blk 14 4 ^^^ bitsOf blk 18 3
        blk + 64 * p + x % 64

/-- The line addresses, canonical and each once, of the stored bytes of a view line. -/
def State.storedLines (s : State) (l : Leaf) (base va : Nat) : List Nat :=
  ((storedAddrs l base va).filterMap fun a => s.canon a).foldl (fun acc a => if acc.contains a then acc else acc ++ [a]) []

/-- The stored lines that a request touches; a PUBLISH works on its descriptor line (R252). -/
def State.txnLines (s : State) (t : Txn) : List Nat :=
  if t.ty = .publish then [t.line * 64] else s.storedLines t.leaf t.base t.va

/-- Whether a request has started at its home: its lines are BUSY (R205). -/
def Txn.started (t : Txn) : Bool :=
  decide (t.phase ≠ .walk) && decide (t.phase ≠ .ring) && decide (t.phase ≠ .parked)

/-- The line numbers that the open transactions hold BUSY (R205): those of their data, and those with an open snoop. -/
def State.busyLines (s : State) : List Nat :=
  ((s.txns.filter Txn.started).flatMap fun t => (s.txnLines t).map (· / 64)) ++ s.setts.flatMap fun (_, t) => t.snoops.map (·.line)

/-- A write of bytes within one line by a device unit, at the line's home (R456, R340): it covers the whole line only with
64 bytes, and else leaves a poisoned line poisoned (R226). -/
def State.devWrite (s : State) (pa : Nat) (bs : Bytes) : State × Status :=
  match s.canon pa with
  | none => (s, .xlateFault)
  | some a =>
    match s.lineStatus a with
    | .ok =>
      match s.view a with
      | none => (s, .xlateFault)
      | some v =>
        let whole := decide (64 ≤ bs.length)
        let pois := v.poison && !whole
        (s.storeLine a ⟨overlay v.data (pa % 64) bs, pois⟩ s.busyLines, if pois then .poisoned else .ok)
    | st => (s, st)

/-- R390, R402: the read of a line at its home by a device unit leaves it in the line cache: a hit, or a miss that installs it. -/
def State.touchLine (s : State) (pa : Nat) : State :=
  match s.canon pa with
  | none => s
  | some a =>
    if !isDram a ∨ s.lineStatus a ≠ .ok then s
    else match s.cached a with
      | some c =>
        let n := settOf a
        let s1 := s.setSett n { s.sett n with cache := s.usedLine (a / 64) (tput (s.sett n).cache (a / 64) { c with ref := true }) }
        { s1 with bur := { s1.bur with hits := sat s1.bur.hits } }
      | none =>
        let s1 : State := { s with bur := { s.bur with misses := sat s.bur.misses } }
        match s1.view a with
        | some v => s1.install a v ((s1.held a).any (·.2)) s1.busyLines
        | none => s1

/-- A read of bytes within one line by a device unit. -/
def State.devRead (s : State) (pa n : Nat) : Bytes × Status :=
  match s.canon pa with
  | none => ([], .xlateFault)
  | some a =>
    match s.lineStatus a with
    | .ok =>
      match s.view a with
      | none => ([], .xlateFault)
      | some v => (slice v.data (pa % 64) n, if v.poison then .poisoned else .ok)
    | st => ([], st)

/-! ### The event ring -/

/-- R456: a record that is dropped. -/
def EvRing.dropRec (r : EvRing) : EvRing :=
  { r with lost := sat r.lost, evstat := setBit r.evstat 0, lostPend := true }

/-- R455, R456: an event record written to partition p's ring, or dropped and counted. -/
def State.ringWrite (s : State) (p : Nat) (kind status detail : Byte) (addr : Nat) : State :=
  let r := (s.part p).ring
  if !r.on ∨ (r.prod - r.cons).toNat = 2 ^ r.log2.toNat then s.setRing p r.dropRec
  else
    let k := r.prod.toNat
    let flags := b2n (!(k.testBit r.log2.toNat)) + 2 * b2n r.lostPend
    let bytes := toLe 4 k ++ [BitVec.ofNat 8 flags, kind, status, detail] ++ toLe 8 addr ++
      toLe 8 s.top.tick.toNat ++ toLe 4 s.flash.bootcnt.toNat ++ toLe 4 0
    match s.devWrite (r.base + 32 * (k % 2 ^ r.log2.toNat)) bytes with
    | (s1, .ok) => s1.setRing p { r with prod := r.prod + 1, lostPend := false }
    | (s1, _) => s1.setRing p r.dropRec

/-- R551: a record of partition p: in its ring, and in Owl's event log, which holds these kinds for every partition. -/
def State.ringRecord (s : State) (p : Nat) (kind status detail : Byte) (addr : Nat) : State :=
  (s.ringWrite p kind status detail addr).logEvent kind status detail (BitVec.ofNat 64 addr) (BitVec.ofNat 8 p)

/-- The partition to which a line's poison is reported: that of its extent, or of its scratch window. -/
def State.reportPart (s : State) (pa : Nat) : Option Nat :=
  match paClass pa with
  | .dram => s.extPart pa
  | .scratch p _ => some p
  | _ => none

/-- R458: a line of a partition has been poisoned. -/
def State.countPoison (s : State) (pa : Nat) : State :=
  match s.reportPart pa with
  | none => s
  | some p =>
    let r := (s.part p).ring
    s.setRing p { r with poisons := sat r.poisons, evstat := setBit r.evstat 1 }

/-- R228, R442, R446: one poison record, counted whether recorded or dropped. -/
def State.poisonRecord (s : State) (pa : Nat) (cause : Byte) : State :=
  match s.reportPart pa with
  | none => s
  | some p => (s.countPoison pa).ringRecord p 0x01 0x02 cause (pa / 64 * 64)

/-- The owner shown in an event-log record. -/
def partByte (p : Option Nat) : Byte := match p with | none => 0xFF | some p => BitVec.ofNat 8 p

/-- R443: an uncorrectable SRAM word that no partition's line holds: Owl's event record. -/
def State.sramLost (s : State) : State := s.logPlain 0x15 2

/-- R228: sett n counts a line poisoned by R225 or R227. -/
def State.settPoison (s : State) (n : Nat) : State :=
  let t := s.sett n
  s.setSett n { t with poisons := sat t.poisons, evstat := setBit t.evstat 1 }

/-- R226: the home poisons a line: it is written to the line cache with the mark and its data as it stands. -/
def State.poisonLine (s : State) (pa : Nat) : State :=
  match s.view pa with
  | none => s
  | some v => s.storeLine pa ⟨v.data, true⟩ s.busyLines

end Sys2Proof.Machine
end

