-- ==== Sys2Proof/Machine/Fabric.lean ====
section
/-! DEFINITION. Messages on their way: the transaction units' counters (R200), recorded node generations (R180),
credits and the replay buffer as messages enter them (R147, R155), routing and the egress queues (R187, R188, R466),
multicast (R193, R194), the deduplication cache (R182–R184, R444). -/

namespace Sys2Proof.Machine
open Sys2Proof

/-! ### Counters of a transaction unit (R200) -/

namespace State

def e2eErr (s : State) (k : Nat) : State :=
  let p := s.port k
  s.setPort k { p with e2eErr := sat p.e2eErr, txnEv := setBit p.txnEv 0 }
def countMalformed (s : State) (k : Nat) : State :=
  let p := s.port k
  s.setPort k { p with malformed := sat p.malformed, txnEv := setBit p.txnEv 1 }
def countUnroute (s : State) (k : Nat) : State :=
  let p := s.port k
  s.setPort k { p with unroute := sat p.unroute, txnEv := setBit p.txnEv 2 }
def countStale (s : State) (k : Nat) : State :=
  let p := s.port k
  s.setPort k { p with staleSrc := sat p.staleSrc, txnEv := setBit p.txnEv 3 }
def countRspDrop (s : State) (k : Nat) : State :=
  let p := s.port k
  s.setPort k { p with rspDrop := sat p.rspDrop, txnEv := setBit p.txnEv 4 }
def countDedupFull (s : State) (k : Nat) : State :=
  let p := s.port k
  s.setPort k { p with dedupFull := sat p.dedupFull, txnEv := setBit p.txnEv 5 }
def countUnexpect (s : State) (k : Nat) : State :=
  let p := s.port k
  s.setPort k { p with unexpect := sat p.unexpect, txnEv := setBit p.txnEv 6 }
/-- R200: a copy was answered without applying; this counter has no event flag. -/
def countDedupHit (s : State) (k : Nat) : State :=
  let p := s.port k
  s.setPort k { p with dedupHit := sat p.dedupHit }

end State

/-! ### Credits and sending (R142, R147, R155) -/

/-- R154: the advertised receive buffer of a class, in slots. -/
def bufSlots (c : Nat) : Nat := [8192, 4096, 8192, 65536, 16384, 1024].getD c 0

/-- Whether n slots of class c may be sent (R155): the slots used and n do not exceed the total, compared modulo 2^17. -/
def Port.credit (p : Port) (c n : Nat) : Bool :=
  decide ((tget (bufSlots c) p.crTot c + 2 ^ 17 - (tget 0 p.crUsed c + n) % 2 ^ 17) % 2 ^ 17 < 2 ^ 16)

/-- R149: the acknowledgement that every sent unit carries: a NAK that is due, else an ACK of the last accepted
sequence, else none. -/
def Port.ackNow (p : Port) : BitVec 2 × BitVec 12 :=
  if p.nakDue then (2, p.rxSeq) else if p.rxAny then (1, p.rxSeq - 1) else (0, 0)

/-- R155: the credit total that the next unit reports: the classes in turn, so each in every six units. -/
def Port.crNow (p : Port) : BitVec 3 × BitVec 17 :=
  let c := p.sent.length % 6
  (BitVec.ofNat 3 (c + 1), BitVec.ofNat 17 (bufSlots c + tget 0 p.rxFreed c))

/-- R142, R149, R152: a unit leaves on the transmitter's lanes with the acknowledgement and credit fields as they stand. -/
def Port.emit (p : Port) (kind : BitVec 4) (seq : BitVec 12) (replayed pb : Bool) (plan : Option (Byte × Byte × W32 × Byte))
    (m : Option Msgs) : Port :=
  let (ak, aq) := p.ackNow
  { p with
    nakDue := false
    sent := p.sent ++ [{ kind := kind, seq := seq, ackKind := ak, ackSeq := aq, crClass := p.crNow.1, crTotal := p.crNow.2
                         pb := pb, replayed := replayed, lanes := p.txPlan, plan := plan, msg := m }] }

/-- A sequenced unit sent: stored for replay under the next sequence (R146, R147). Whole messages leave, so it ends at a packet
boundary (R143). Into an empty buffer it starts the replay timer (R151). -/
def Port.sendUnit (p : Port) (clk : Nat) (plan : Option (Byte × Byte × W32 × Byte)) (m : Option Msgs) : Port :=
  let q : Port := { p with
    txSeq := p.txSeq + 1
    buf := p.buf ++ [{ seq := p.txSeq, plan := plan, msg := m }]
    winUnits := p.winUnits + 1
    ackAt := if p.buf.isEmpty then clk else p.ackAt }
  q.emit (if plan.isSome then 3 else 0) p.txSeq false true plan m

/-- An unsequenced IDLE unit (kind 1) or REPLAY unit (kind 2) sent, which carries the acknowledgement. -/
def Port.sendPlain (p : Port) (kind : BitVec 4) (seq : BitVec 12) : Port := p.emit kind seq false true none none

/-- R158: a PLAN unit sent: op, plan_id, mask, reason. The transmitter switches at the packet boundary that ACC or GO ends. -/
def Port.sendPlanNow (p : Port) (clk : Nat) (x : Byte × Byte × W32 × Byte) : Port :=
  let q := p.sendUnit clk (some x) none
  if x.1 = 2 ∨ x.1 = 4 then { q with txPlan := x.2.2.1 } else q

/-- R147: the PLAN units that wait for replay space are sent as far as there is room. -/
def Port.drainPlan (clk : Nat) : List (Byte × Byte × W32 × Byte) → Port → Port
  | [], p => { p with planq := [] }
  | x :: xs, p => if p.buf.length < 4095 then Port.drainPlan clk xs (p.sendPlanNow clk x) else { p with planq := x :: xs }

/-- R147, R155: whether a message can be sent now: the link carries traffic, fewer than 4,095 units are
unacknowledged, and its class has credits. -/
def Port.canSend (p : Port) (m : Msgs) : Bool :=
  decide (p.st = .active) && decide (p.buf.length < 4095) && p.credit (tyClass m.ty) m.nslots

/-- A message leaves in a sequenced unit of its own and uses its credits (R156). -/
def Port.sendMsg (p : Port) (clk : Nat) (m : Msgs) : Port :=
  let c := tyClass m.ty
  let q : Port := { p with crUsed := tput p.crUsed c (tget 0 p.crUsed c + m.nslots) }
  q.sendUnit clk none (some m)

/-- A message handed to a port: sent, or queued behind those of its class that wait (R178). -/
def Port.offer (p : Port) (clk : Nat) (e : EgMsg) : Port :=
  if p.canSend e.m ∧ !(p.txq.any fun x => tyClass x.m.ty == tyClass e.m.ty) then p.sendMsg clk e.m
  else { p with txq := p.txq ++ [e] }

/-- The queued messages that can be sent are sent, oldest first of each class; `n` bounds the number looked at. -/
def Port.drain (clk : Nat) : Nat → List EgMsg → List EgMsg → Port → Port
  | 0, kept, rest, p => { p with txq := kept ++ rest }
  | _ + 1, kept, [], p => { p with txq := kept }
  | n + 1, kept, e :: rest, p =>
    if p.canSend e.m ∧ !(kept.any fun x => tyClass x.m.ty == tyClass e.m.ty) then
      Port.drain clk n kept rest (p.sendMsg clk e.m)
    else Port.drain clk n (kept ++ [e]) rest p

/-- What waits at a port is sent as far as it can be: PLAN units, then messages. -/
def Port.flush (p : Port) (clk : Nat) : Port :=
  let q := Port.drainPlan clk p.planq p
  Port.drain clk q.txq.length [] q.txq q

/-! ### Sending (R181, R187, R188, R194) -/

/-- R181: the generation the device carries: TOP_BOOTCNT bits 7:0. -/
def State.srcGen (s : State) : Byte := BitVec.ofNat 8 s.flash.bootcnt.toNat

/-- A message that is not shaped, handed to a port. -/
def State.offerPort (s : State) (k : Nat) (m : Msgs) : State :=
  s.setPort k ((s.port k).offer s.clk { m := { m with src := s.nodeId }, arrPort := k, arrGen := (s.port k).gen, size := 16 * m.nslots, since := s.clk })

/-- R187: where a note or an unanswerable snoop is counted: the lowest-numbered port of the entry's mask, or FAB0. -/
def State.unroutePort (s : State) (d : Node) : Nat :=
  match s.routeOf d with
  | none => 0
  | some m => (lowBits 8 m.toNat).headD 0

/-- R18, R194: the plane of a message from the device: that of the sett that homes the address it carries, or plane 0. -/
def Msgs.plane (m : Msgs) : Nat :=
  if m.ty = tySnpInv ∨ m.ty = tySnpShr then settOf (bitsOf (m.body.getD 0 0).toNat 64 64) else 0

/-- R194, R466: a multicast message from the device goes once round its plane: each stop of the group's stop mask takes a copy
(bits 7:0 are ignored, R193); each port of the port mask takes one and sends it, or drops and counts it where its link is not
ACTIVE. -/
def State.multicast (s : State) (g : Nat) (m : Msgs) : State :=
  let (ports, stops) := s.mcastOf g
  let taken := (lowBits 32 stops.toNat).filter fun i => decide (8 ≤ i)
  let s1 : State := { s with stops := s.stops ++ taken.map fun i => (m.plane, i, { m with src := s.nodeId, mcast := true, dst := BitVec.ofNat 21 g }) }
  (lowBits 8 ports.toNat).foldl (fun s k =>
    if (s.port k).st = .active then
      s.offerPort k { m with mcast := true, dst := BitVec.ofNat 21 g }
    else s.countUnroute k) s1

/-- R187, R188, R466: a response to a fabric request: to the egress queue of the partition on the port by which it
leaves (its arrival port while the vote of its routing entry fails, log 60), stamped with the request's arrival port and that port's generation; a response that no partition is
charged for goes to the port at once. One with no way out is counted on its arrival port. -/
def State.respond (s : State) (f : OrigFab) (part : Option Nat) (m : Msgs) : State :=
  let m := { m with src := s.nodeId, dst := f.src, tag := f.tag, srcGen := s.srcGen }
  match if s.routeFails f.src then some f.port else s.portFor f.src f.tag with
  | none => s.countUnroute f.port
  | some k =>
    let e : EgMsg := { m := m, arrPort := f.port, arrGen := f.gen, size := 16 * m.nslots, since := s.clk }
    match part with
    | some p =>
      let q := s.pqos p k
      s.setPqos p k { q with egress := q.egress ++ [e] }
    | none =>
      if (s.port f.port).gen = f.gen then s.setPort k ((s.port k).offer s.clk e) else s.countRspDrop f.port

/-- R172: a CMP with a status and, for PUBLISH, a version. -/
def cmpMsg (st : Status) (ver : Option W32) : Msgs :=
  { ty := tyCmp, info := BitVec.ofNat 16 st.code.toNat,
    body := match ver with | none => [] | some v => [BitVec.ofNat 128 v.toNat] }

/-! ### Recorded node generations (R180, R445) -/

def State.node (s : State) (d : Node) : NodeG := tget NodeG.reset s.nodes d.toNat
def State.nodeKnown (s : State) (d : Node) : Bool := thas s.nodes d.toNat
def State.setNode (s : State) (d : Node) (g : NodeG) : State := { s with nodes := tput s.nodes d.toNat g }

/-- R180: whether a node is marked dead. -/
def State.nodeDead (s : State) (d : Node) : Bool := s.nodeKnown d && (s.node d).dead

/-- R180, R445: whether a REQ or WBK message of a node with this src_gen passes check 6, and the table after it. -/
def State.srcCheck (s : State) (d : Node) (gen : Byte) : Bool × State :=
  let n := s.node d
  if !s.nodeKnown d then (true, s.setNode d ⟨gen, false, false, false, 0⟩)
  else if n.blocked ∨ n.dead then (false, s)
  else if n.relearn then (true, s.setNode d { n with gen := gen, relearn := false })
  else (n.gen == gen, s)

/-- R445: an uncorrectable word of the table blocks its four nodes. -/
def State.nodeWordLost (s : State) (d : Node) : State :=
  let w := d.toNat / 4 * 4
  (List.range 4).foldl (fun s i =>
    { s with nodes := tput s.nodes (w + i) ⟨0, false, true, true, s.clk⟩ }) s

/-! ### The deduplication cache (R182–R184, R444) -/

/-- R182: whether an entry holds a key. -/
def Ded.isKey (d : Ded) (src : Node) (gen : Byte) (tag : BitVec 16) : Bool :=
  d.src == src && d.gen == gen && d.tag == tag

def State.ded (s : State) (src : Node) (gen : Byte) (tag : BitVec 16) : Option Ded :=
  s.dedup.find? fun d => d.isKey src gen tag

def State.dedDrop (s : State) (src : Node) (gen : Byte) (tag : BitVec 16) : State :=
  { s with dedup := s.dedup.filter fun d => !(d.isKey src gen tag) }

/-- R183: whether two completions share an entry: status only, one source and generation, equal tag bits 15:4. Up to sixteen
do, one for each tag. R183 does not name the partition; as R184 reserves entries to partitions, completions charged to different ones share
none (DESIGN CHOICE, log 63). -/
def Ded.shares (a b : Ded) : Bool :=
  !a.value && !b.value && a.src == b.src && a.gen == b.gen && a.tag.toNat / 16 == b.tag.toNat / 16 && a.part == b.part

/-- The entries a list of completions takes: one for each completion that no earlier one shares an entry with. -/
def dedEntries : List Ded → Nat
  | [] => 0
  | d :: t => dedEntries t + (if t.any d.shares then 0 else 1)

/-- R184: entries of partition p beyond its reserved 4,096. -/
def dedOver (l : List Ded) (p : Nat) : Nat := dedEntries (l.filter fun d => d.part == p) - 4096

/-- R184: whether one more entry fits for partition p: its reserved entries, or the 131,072 shared ones. -/
def dedRoom (l : List Ded) (p : Nat) : Bool :=
  decide (dedEntries (l.filter fun d => d.part == p) < 4096) ||
    decide (((List.range 32).map (dedOver l)).foldl (· + ·) 0 < 131072)

/-- R183: a completion past its 64 µs. -/
def Ded.old (d : Ded) (clk : Nat) : Bool := decide (d.st = .done) && decide (153600 + d.at_ ≤ clk)

/-- R183: the completions of the entry that holds `d`. -/
def entryOf (l : List Ded) (d : Ded) : List Ded := l.filter fun x => x.shares d || x.isKey d.src d.gen d.tag

/-- R184: an entry can be reused once every completion in it is past its 64 µs; its age is that of its latest one. -/
def entryOld (l : List Ded) (clk : Nat) (d : Ded) : Bool := (entryOf l d).all fun x => x.old clk
def entryAt (l : List Ded) (d : Ded) : Nat := ((entryOf l d).map (·.at_)).foldl max 0

/-- R182, R184: an open entry made for a request, or none where no entry may be used. The oldest completed entry past
its 64 µs is reused whole when none is free: one of the requesting partition, or one that lies beyond its own partition's
reserve. -/
def State.dedOpen (s : State) (e : Ded) : Option State :=
  if s.dedup.any e.shares ∨ dedRoom s.dedup e.part then some { s with dedup := s.dedup ++ [e] }
  else
    let cand := s.dedup.filter fun d => entryOld s.dedup s.clk d && (d.part == e.part || decide (0 < dedOver s.dedup d.part))
    match cand.foldl (fun (a : Option Ded) d => match a with
        | none => some d
        | some b => if entryAt s.dedup d < entryAt s.dedup b then some d else a) none with
    | none => none
    | some v => some { s with dedup := (s.dedup.filter fun d => !(d.shares v || d.isKey v.src v.gen v.tag)) ++ [e] }

/-- R182: the open entry completes with an answer, now. A blocked or missing entry stays as it is. -/
def State.dedDone (s : State) (f : OrigFab) (ans : Msgs) : State :=
  { s with dedup := s.dedup.map fun d =>
      if d.isKey f.src f.srcGen f.tag ∧ d.st = .opened then { d with st := .done, ans := ans, at_ := s.clk } else d }

/-- R183, R444: whether the entry that holds a completion is the one that a key looks up: that of its tag, or of status-only completions of its
tag bits 15:4. -/
def Ded.covers (d : Ded) (src : Node) (gen : Byte) (tag : BitVec 16) : Bool :=
  d.isKey src gen tag || !d.value && d.src == src && d.gen == gen && d.tag.toNat / 16 == tag.toNat / 16

/-- R183, R444: the completions of the entry that a key looks up; none where there is no entry. -/
def State.dedEntry (s : State) (src : Node) (gen : Byte) (tag : BitVec 16) : List Ded :=
  match (s.ded src gen tag).orElse fun _ => s.dedup.find? fun d => d.covers src gen tag with
  | none => []
  | some d => entryOf s.dedup d

/-- R444: an entry found uncorrectable is replaced by a blocked one, with every completion that it holds; their operations still send their
one answer each, and the copies recorded in the entry receive none. -/
def State.dedBlock (s : State) (src : Node) (gen : Byte) (tag : BitVec 16) : State :=
  let l := s.dedEntry src gen tag
  { s with
    dedup := s.dedup.map fun d => if l.contains d then { d with st := .blocked, at_ := s.clk } else d
    txns := s.txns.map fun t =>
      if t.kind = .fab ∧ l.any (fun d => d.isKey t.fab.src t.fab.srcGen t.fab.tag) then { t with copies := [] } else t }

/-- R444: whether the entry that a key looks up is blocked. -/
def State.dedBlocked (s : State) (src : Node) (gen : Byte) (tag : BitVec 16) : Bool :=
  s.dedup.any fun d => decide (d.st = .blocked) && d.covers src gen tag

end Sys2Proof.Machine
end

