-- ==== Sys2Proof/Machine/Walk.lean ====
section
/-! DEFINITION. Address translation: contexts, entries and the walk (R269–R283), the resolution of Published pages
(R244, R304), the translation caches (R284), and the checks of a translated request (R201, R224, R258, R279, R280,
R300). A walk reads its lines at their homes as they stand when it ends. -/

namespace Sys2Proof.Machine
open Sys2Proof

/-- R304: whether [a, a + n) lies inside a union of ranges; `fuel` bounds the ranges passed. -/
def covers (rs : List (Nat × Nat)) : Nat → Nat → Nat → Bool
  | 0, a, e => decide (e ≤ a)
  | f + 1, a, e =>
    if e ≤ a then true
    else match rs.find? fun (b, l) => decide (b ≤ a) && decide (a < b + l) with
      | none => false
      | some (b, l) => covers rs f (b + l) e

/-- Whether [a, a + n) lies inside the union of partition p's extents. -/
def State.inExtents (s : State) (p a n : Nat) : Bool :=
  let es := s.extents p
  covers es es.length a (a + n)

/-- R277 step 7: whether a page range lies in the partition's extents or its scratch window. -/
def State.pageOk (s : State) (p a n : Nat) : Bool :=
  s.inExtents p a n ||
    (decide (scratchBase p ≤ a) && decide (a + n ≤ scratchBase p + s.scrEnd p))

/-- A line read of a walk: it must lie inside the partition's extents (R277). -/
def State.walkRead (s : State) (p pa n : Nat) : Except Status Bytes :=
  if s.inExtents p pa n then
    match s.devRead pa n with
    | (bs, .ok) => .ok bs
    | (_, st) => .error st
  else .error .xlateFault

/-- R274, R275: an entry's fields. -/
structure PTE where
  valid : Bool
  leaf : Bool
  raw : Nat
deriving DecidableEq, Repr

def pteOf (bs : Bytes) : PTE :=
  let n := leNat bs
  ⟨n.testBit 0, n.testBit 1, n⟩

/-- R274: the next table of a pointer, when it is well formed. -/
def ptrOf (n : Nat) : Option Nat :=
  let a := bitsOf n 64 48
  if n / 2 ^ 112 = 0 ∧ bitsOf n 2 62 = 0 ∧ a % 8192 = 0 then some a else none

/-- R275, R277 step 6: a leaf read at a level (0 root, 1, 2), when it passes its checks. -/
def leafOf (n level slot : Nat) : Option Leaf :=
  let cls := bitsOf n 10 2
  let size := bitsOf n 2 2
  let rnd := bitsOf n 20 2
  let epoch := bitsOf n 112 16
  let region := bitsOf n 32 24
  let addr := bitsOf n 64 48
  let sz := BitVec.ofNat 2 size
  if bitsOf n 56 8 = 0 ∧ bitsOf n 27 5 = 0 ∧ cls ≠ 3 ∧ size ≠ 3 ∧ rnd ≠ 3 ∧ size = 2 - level ∧
     addr % pageBytes sz = 0 ∧ bitsOf n 22 5 = slot ∧ (cls = 1 ∨ region = 0) ∧ (cls = 0 ∨ epoch = 0) then
    some {
      epoch := BitVec.ofNat 16 epoch
      addr := addr
      region := BitVec.ofNat 24 region
      keySlot := slot
      rnd := if rnd = 0 then .rne else if rnd = 1 then .rtz else .stoch
      view := BitVec.ofNat 4 (bitsOf n 16 4)
      stor := BitVec.ofNat 4 (bitsOf n 12 4)
      cls := if cls = 0 then .tracked else if cls = 1 then .published else .priv
      hst := n.testBit 9
      eng := n.testBit 8
      acc := n.testBit 7
      a := n.testBit 6
      w := n.testBit 5
      r := n.testBit 4
      size := sz }
  else none

/-- R240: the pool address of a region's descriptor, and of the region page's counters. -/
def State.regionDesc (s : State) (p i : Nat) : Option Nat :=
  match s.regionPage p with
  | none => none
  | some b =>
    let k := i % 16 ^^^ bitsOf i 4 4 ^^^ bitsOf i 8 2
    some (b + i * 1024 + k * 64)

/-- R238: a region identifier's partition and index, when it is well formed. -/
def regionOf (id : BitVec 24) : Option (Nat × Nat) :=
  let n := id.toNat
  if bitsOf n 10 9 = 0 then some (n / 2 ^ 19, n % 1024) else none

/-- R244, R277, R304: the resolution of a Published leaf of partition p for an address: its base and version. The stored range that the
address selects must end inside the region. -/
def State.resolvePub (s : State) (p : Nat) (l : Leaf) (va : Nat) : Except Status (Nat × W32) :=
  match regionOf l.region with
  | none => .error .xlateFault
  | some (rp, i) =>
    if rp ≠ p then .error .xlateFault
    else match s.regionDesc p i with
      | none => .error .xlateFault
      | some d =>
        match s.devRead d 64 with
        | (bs, .ok) =>
          let len := mib2 * fld bs 16 4
          let cur := fld bs 8 8
          let sz := pageBytes l.size
          let b := (storedB l.stor.toNat l.view.toNat).getD 64
          if !(fld bs 4 1).testBit 0 then .error .xlateFault
          else if len < l.addr + sz then .error .xlateFault
          else if !s.inOneExtent p cur len then .error .xlateFault
          else if len < l.addr + ((if b = 64 then 0 else jOf l.size va) + 1) * (sz * b / 64) then .error .xlateFault
          else if l.stor.toNat ≠ fld bs 5 1 % 16 then .error .formatFault
          else .ok (cur + l.addr, BitVec.ofNat 32 (fld bs 0 4))
        | (_, st) => .error st

/-- R271, R277 step 2: whether a context is well formed. -/
def ctxOk (bs : Bytes) : Bool :=
  let root := fld bs 0 8
  let lg := fld bs 16 1
  let nb := fld bs 12 4
  fld bs 8 1 == 1 && fld bs 9 1 == 0 && root % 8192 == 0 && decide (root < 2 ^ 48) &&
    decide (1 ≤ fld bs 10 2) && decide (fld bs 10 2 ≤ 512) && decide (lg ≤ 21) && decide (nb < 2 ^ 21) &&
    nb % 2 ^ lg == 0 && fld bs 17 7 == 0 && fld bs 28 4 == 0

/-- R271: the address of an ASID's context. -/
def State.ctxAddr (s : State) (p : Nat) (r : PartRec) (asid : Nat) : Option Nat :=
  match s.xlatPage p with
  | none => none
  | some b =>
    let o := 32 * (asid - r.asidBase)
    if o + 32 ≤ mib2 then some (b + o) else none

/-- R271: the context of an ASID, as its walker group's cache or memory holds it. -/
def State.context (s : State) (p : Nat) (r : PartRec) (g asid : Nat) : Except Status Bytes :=
  match s.xlt.ctx.find? fun (g', a, _) => g' == g && a == asid with
  | some (_, _, bs) => .ok bs
  | none => match s.ctxAddr p r asid with
    | none => .error .xlateFault
    | some a => match s.walkRead p a 32 with
      | .error e => .error e
      | .ok bs => if ctxOk bs then .ok bs else .error .xlateFault

/-- R273: the leaf of a direct ASID's page. -/
def directLeaf (page slot : Nat) : Leaf where
  addr := mib2 * page
  keySlot := slot
  cls := .priv
  hst := true
  eng := true
  a := true
  w := true
  r := true

/-- R277 steps 3–5: the entry that maps an address, and its level. -/
def State.findLeaf (s : State) (p root : Nat) (rootCount va : Nat) : Except Status (Nat × Nat) :=
  let rd (base idx : Nat) : Except Status Nat :=
    match s.walkRead p (base + 16 * idx) 16 with
    | .error e => .error e
    | .ok bs => .ok (leNat bs)
  if rootCount * 512 ≤ bitsOf va 39 18 then .error .xlateFault
  else match rd root (bitsOf va 39 18) with
    | .error e => .error e
    | .ok n0 =>
      if !n0.testBit 0 then .error .xlateFault
      else if n0.testBit 1 then .ok (n0, 0)
      else match ptrOf n0 with
        | none => .error .xlateFault
        | some t1 => match rd t1 (bitsOf va 30 9) with
          | .error e => .error e
          | .ok n1 =>
            if !n1.testBit 0 then .error .xlateFault
            else if n1.testBit 1 then .ok (n1, 1)
            else match ptrOf n1 with
              | none => .error .xlateFault
              | some t2 => match rd t2 (bitsOf va 21 9) with
                | .error e => .error e
                | .ok n2 =>
                  if !n2.testBit 0 then .error .xlateFault
                  else if n2.testBit 1 then .ok (n2, 2)
                  else .error .xlateFault

/-- R277 step 7: a leaf placed in memory. -/
def State.placeLeaf (s : State) (p : Nat) (l : Leaf) (va : Nat) : Except Status (Nat × W32) :=
  match l.cls with
  | .published => s.resolvePub p l va
  | _ =>
    let sz := pageBytes l.size
    let b := (storedB l.stor.toNat l.view.toNat).getD 64
    let t := sz * b / 64
    let from_ := if b = 64 then l.addr else l.addr + jOf l.size va * t
    if s.pageOk p from_ t then .ok (l.addr, 0) else .error .xlateFault

/-- R277 steps 1–6: the leaf that maps an address under an ASID with tables. -/
def State.walkLeaf (s : State) (p : Nat) (r : PartRec) (asid : BitVec 16) (va : Nat) : Except Status Leaf :=
  match s.context p r (bitsOf va 21 2 ^^^ asid.toNat % 4) asid.toNat with
  | .error e => .error e
  | .ok ctx => match s.findLeaf p (fld ctx 0 8) (fld ctx 10 2) va with
    | .error e => .error e
    | .ok (n, level) => match leafOf n level r.keySlot with
      | none => .error .xlateFault
      | some l => .ok l

/-- R277: the walk for an address under an ASID. -/
def State.walkFor (s : State) (asid : BitVec 16) (va : Nat) : Except Status Xl :=
  match s.asidPart asid.toNat with
  | none => .error .xlateFault
  | some p => match s.prec p with
    | none => .error .xlateFault
    | some r =>
      let page := bitsOf va 21 36
      if asid.toNat = r.asidBase then
        let a := mib2 * page
        if (s.inExtents p a mib2 && s.regionPage p != some a) ||
           (decide (scratchBase p ≤ a) && decide (a < scratchBase p + s.scrEnd p)) then
          .ok ⟨asid, page, directLeaf page r.keySlot, a, 0⟩
        else .error .xlateFault
      else match s.walkLeaf p r asid va with
        | .error e => .error e
        | .ok l => match s.placeLeaf p l va with
          | .error e => .error e
          | .ok (base, ver) => .ok ⟨asid, page, l, base, ver⟩

/-- R271–R277, R390: the lines that the walk for an address reads: the context, unless its group holds it, the entries on its way, and the
descriptor of a Published page's region. -/
def State.walkReads (s : State) (asid : BitVec 16) (va : Nat) : List Nat :=
  match s.asidPart asid.toNat with
  | none => []
  | some p => match s.prec p with
    | none => []
    | some r =>
      if asid.toNat = r.asidBase then []
      else
        let g := bitsOf va 21 2 ^^^ asid.toNat % 4
        let own := if s.xlt.ctx.any fun (g', a, _) => g' == g && a == asid.toNat then [] else (s.ctxAddr p r asid.toNat).toList
        match s.context p r g asid.toNat with
        | .error _ => own
        | .ok ctx =>
          let step (a : Nat) : Option Nat := match s.walkRead p a 16 with
            | .error _ => none
            | .ok bs => if (leNat bs).testBit 0 && !(leNat bs).testBit 1 then ptrOf (leNat bs) else none
          let a0 := fld ctx 0 8 + 16 * bitsOf va 39 18
          let a1 := (step a0).map fun t => t + 16 * bitsOf va 30 9
          let a2 := (a1.bind step).map fun t => t + 16 * bitsOf va 21 9
          let desc : Option Nat := match s.walkLeaf p r asid va with
            | .error _ => none
            | .ok l => if l.cls = .published then (regionOf l.region).bind fun (rp, i) => if rp = p then s.regionDesc p i else none else none
          own ++ (if fld ctx 10 2 * 512 ≤ bitsOf va 39 18 then [] else a0 :: a1.toList ++ a2.toList) ++ desc.toList

/-- Whether the directory shows an owner of the line at `pa`. -/
def State.owned (s : State) (pa : Nat) : Bool :=
  ((tget DirEnt.reset (s.sett (settOf pa)).dir (pa / 4096)).line.getD (bitsOf pa 10 2) (0, 0)).1 == 2

/-- R243, R244: the region descriptor of a Published leaf of partition p, while an accelerator owns its line. A line that
cannot be reached is not snooped: its read fails (R256). -/
def State.ownedDesc (s : State) (p : Nat) (l : Leaf) : Option Nat :=
  if l.cls ≠ .published then none
  else match regionOf l.region with
    | none => none
    | some (rp, i) =>
      if rp ≠ p then none
      else match s.regionDesc p i with
        | none => none
        | some d => if s.owned d ∧ s.lineStatus d = .ok then some d else none

/-- R243: the descriptor that a walk must have from its owner before it can resolve its page. -/
def State.walkDesc (s : State) (asid : BitVec 16) (va : Nat) : Option Nat :=
  match s.asidPart asid.toNat with
  | none => none
  | some p => match s.prec p with
    | none => none
    | some r =>
      if asid.toNat = r.asidBase then none
      else match s.walkLeaf p r asid va with
        | .error _ => none
        | .ok l => s.ownedDesc p l

/-! ### The caches (R284) -/

/-- R285: the walker group of a page under an ASID. -/
def walkGroup (asid page : Nat) : Nat := (page % 4) ^^^ (asid % 4)

/-- An entry added at the end; the oldest go beyond the capacity. -/
def tcPut (cap : Nat) (tc : List Xl) (x : Xl) : List Xl :=
  lastN cap ((tc.filter fun y => !(y.asid == x.asid && y.page == x.page)) ++ [x])

/-- R284: an entry added to a sett's cache of 512 sets of eight; the oldest of a full set goes. -/
def tcPutSett (tc : List Xl) (x : Xl) : List Xl :=
  let rest := tc.filter fun y => !(y.asid == x.asid && y.page == x.page)
  if rest.length < 8 then rest ++ [x]
  else
    let set (y : Xl) : Nat := Config.tcSet y.asid.toNat y.page % 512
    let mine := rest.filter fun y => set y == set x
    match mine with
    | old :: _ => (if mine.length < 8 then rest else rest.filter fun y => !(y.asid == old.asid && y.page == old.page)) ++ [x]
    | [] => rest ++ [x]

def tcGet (tc : List Xl) (asid : BitVec 16) (va : Nat) : Option Xl :=
  tc.find? fun y => y.asid == asid && y.page == bitsOf va 21 36

/-- R246: the resolution of the Published page that holds an address, of whatever size, among those that a descriptor has used; its page is
given as the 2 MiB that hold the address. -/
def pubGet (l : List Xl) (asid : BitVec 16) (va : Nat) : Option Xl :=
  (l.find? fun y => y.asid == asid && mib2 * y.page / pageBytes y.leaf.size == va / pageBytes y.leaf.size).map fun y =>
    { y with page := bitsOf va 21 36 }

/-- R246: the resolution under which engine `unit`'s descriptor reads the Published page of an address, once it has one. -/
def State.pubOf (s : State) (k : OrigKind) (unit : Nat) (asid : BitVec 16) (va : Nat) : Option Xl :=
  if k = .eng then (match (s.eng unit).run with
    | none => none
    | some r => pubGet (r.pubOld ++ r.pub) asid va)
  else none

/-- The cache that serves a requester: an engine's own, else the home sett's. -/
def State.tcOf (s : State) (k : OrigKind) (unit sett : Nat) : List Xl :=
  if k = .eng then (s.eng unit).tc else (s.sett sett).tc

/-- R284, R246: an entry installed in the cache that serves a requester. A Published page's first resolution under a descriptor holds for the
whole descriptor, and no later one is installed while it runs. -/
def State.tcInstall (s : State) (k : OrigKind) (unit sett : Nat) (x : Xl) : State :=
  if k = .eng then
    if (s.pubOf k unit x.asid (mib2 * x.page)).isSome then s
    else
      let g := s.eng unit
      s.setEng unit { g with
        tc := tcPut 512 g.tc x
        run := g.run.map fun r => if x.leaf.cls = .published then { r with pub := r.pub ++ [x] } else r }
  else s.setSett sett { s.sett sett with tc := tcPutSett (s.sett sett).tc x }

/-- R284, R285: a lookup in the requester's cache and then the overflow cache, whose Published leaves are resolved
again, by a walk where an accelerator owns the descriptor line. While an invalidation of the ASID is on its way to the overflow cache or
its sweep runs, that cache misses (R288, R290). -/
def State.lookup (s : State) (k : OrigKind) (unit sett : Nat) (asid : BitVec 16) (va : Nat) : Option Xl :=
  match (s.pubOf k unit asid va).orElse fun _ => tcGet (s.tcOf k unit sett) asid va with
  | some x => some x
  | none =>
    if s.xlt.drains.any fun d => !d.region && d.target == asid.toNat && !d.rep.contains .overflow then none
    else match tcGet s.xlt.oc asid va with
      | none => none
      | some x =>
        if x.leaf.cls = .published then
          match s.asidPart asid.toNat with
          | none => none
          | some p => if (s.ownedDesc p x.leaf).isSome then none else match s.resolvePub p x.leaf va with
            | .ok (b, v) => some { x with base := b, ver := v }
            | .error _ => none
        else some x

/-! ### The checks of a translated request -/

/-- R272, R279: the admission of the accelerator `src` under an ASID: PERM_FAULT outside the node range and under a direct
ASID; a context that cannot be read or is malformed gives its own status. -/
def State.admission (s : State) (asid : BitVec 16) (va : Nat) (src : Node) : Status :=
  match s.asidPart asid.toNat with
  | none => .xlateFault
  | some p => match s.prec p with
    | none => .xlateFault
    | some r =>
      if asid.toNat = r.asidBase then .permFault
      else match s.context p r (bitsOf va 21 2 ^^^ asid.toNat % 4) asid.toNat with
        | .error e => e
        | .ok ctx =>
          let lg := fld ctx 16 1
          let nb := fld ctx 12 4
          if nb ≠ 0x1FFFFF ∧ src.toNat / 2 ^ lg * 2 ^ lg = nb then .ok else .permFault

/-- R272: whether the accelerator `src` is admitted under an ASID. -/
def State.admitted (s : State) (asid : BitVec 16) (va : Nat) (src : Node) : Bool := s.admission asid va src == .ok

/-- R280: whether a leaf gives the permissions that a request type needs. -/
def permOk (ty : ReqTy) (l : Leaf) : Bool :=
  match ty with
  | .rdShared | .rdOnce => l.r
  | .rdOwn | .upgrade => l.r && l.w
  | .wrLine | .wrPart | .wbDirty => l.w
  | .atomic | .accWr => l.r && l.w && l.a
  | .wbClean => true
  | .publish => l.w && l.cls == .priv

/-- R201: whether the page's class allows a request type. -/
def classOk (ty : ReqTy) (c : Coh) : Bool :=
  match c, ty with
  | .published, .rdOwn => false
  | .published, .upgrade => false
  | .published, .wrLine => false
  | .published, .wrPart => false
  | .published, .atomic => false
  | .published, .accWr => false
  | .published, .wbDirty => false
  | _, _ => true

/-- R300, R224, R258: whether the page's formats allow a request. -/
def formatOk (ty : ReqTy) (op : Nat) (l : Leaf) : Bool :=
  let pair := storedB l.stor.toNat l.view.toNat
  let base := pair.isSome && (l.cls != .tracked || pair == some 64)
  match ty with
  | .atomic => base && l.view == l.stor
  | .accWr => base && l.view == l.stor && (if op < 3 then l.stor.toNat == op else !isMxCode l.stor.toNat)
  | .wbClean => true
  | .publish => base
  | _ => base

/-- R279: the requester's kind is permitted. -/
def kindOk (k : OrigKind) (l : Leaf) : Bool :=
  match k with
  | .fab => l.acc
  | .eng => l.eng
  | .host => l.hst
  | .dev => true

/-- R418, R513: whether the key slot that a leaf names holds a key; slot number 32 stands for an untranslated access (R354), which its line's
own slot judges. -/
def State.slotHeld (s : State) (l : Leaf) : Bool := decide (32 ≤ l.keySlot) || thas s.sec.slots l.keySlot

/-- R279: the status of a translation of a request and its permissions, before its home judges its line; R280: WB_CLEAN needs
no permission. -/
def State.xlStatus (s : State) (k : OrigKind) (ty : ReqTy) (op : Nat) (l : Leaf) : Status :=
  Status.first [if ty = .wbClean ∨ (kindOk k l ∧ permOk ty l) then .ok else .permFault,
    if s.slotHeld l then .ok else .keyLost,
    if formatOk ty op l then .ok else .formatFault]

/-- R49, R201, R279: the status of a translated request with its class's rule and its lines: `.ok` when it may go on. -/
def State.leafStatus (s : State) (k : OrigKind) (ty : ReqTy) (op : Nat) (l : Leaf) (lines : List Nat) : Status :=
  Status.first ([s.xlStatus k ty op l, if classOk ty l.cls then .ok else .permFault] ++ lines.map s.lineStatus)

/-- R281: whether a fault under an ASID is counted in its context, and where. -/
def State.faultCtx (s : State) (asid : BitVec 16) : Option Nat :=
  match s.asidPart asid.toNat with
  | none => none
  | some p => match s.prec p with
    | none => none
    | some r =>
      if asid.toNat = r.asidBase then none
      else match s.ctxAddr p r asid.toNat with
        | none => none
        | some a => match s.walkRead p a 32 with
          | .error _ => none
          | .ok bs => if (fld bs 8 1).testBit 0 then some a else none

/-- R281: a translation that ends with a fault: counted in XLT_FAULTS and, under a valid and readable context, in the
context's faults field. -/
def State.countFault (s : State) (asid : BitVec 16) : State :=
  let s1 : State := { s with xlt := { s.xlt with faults := sat s.xlt.faults, evstat := setBit s.xlt.evstat 0 } }
  match s1.faultCtx asid with
  | none => s1
  | some a => (s1.devWrite (a + 24) (toLe 4 (leNat (s1.devRead (a + 24) 4).1 + 1))).1

end Sys2Proof.Machine
end

