-- ==== Sys2Proof/Machine/Rings.lean ====
section
/-! DEFINITION. The queue table and what a scheduler's accesses need: entries (R321–R323), translation under a queue's asid
(R324), and the bytes of a completion record (R340). -/

namespace Sys2Proof.Machine
open Sys2Proof

/-! ### Entries -/

/-- R321: the pool physical address of a queue's entry. -/
def State.qEntry (s : State) (q : Nat) : Option Nat :=
  match s.queuePart q with
  | none => none
  | some p => match s.queuePage p, s.prec p with
    | some b, some r => some (b + 128 * (q - r.queueBase))
    | _, _ => none

/-- R352: a queue enters ERROR with a reason; one already there keeps its reason. -/
def State.queueError (s : State) (q reason : Nat) : State :=
  let x := s.queue q
  if x.err = 0 then s.setQueue q { x with err := reason } else s

/-- A field of line 0 that the device writes back: 24 head, 28 cmp_count. -/
def State.qWriteBack (s : State) (q off : Nat) (v : W32) : State :=
  match s.qEntry q with
  | none => s
  | some a => (s.devWrite (a + off) (toLe 4 v.toNat)).1

/-- R323: why line 0 of an entry fails its check: a reason of R352, 0 when it passes. -/
def State.qCheck (s : State) (p : Nat) (l : Bytes) : Nat :=
  let dl := fld l 18 1
  let cl := fld l 19 1
  if s.asidPart (fld l 16 2) ≠ some p then 2
  else if dl < 4 ∨ 16 < dl ∨ cl < 4 ∨ 16 < cl then 3
  else if fld l 0 8 % (64 * 2 ^ dl) ≠ 0 ∨ fld l 8 8 % (32 * 2 ^ cl) ≠ 0 then 4
  else 0

/-- The configuration in line 0. -/
def qCfgOf (l : Bytes) : QCfg :=
  ⟨fld l 0 8, fld l 8 8, BitVec.ofNat 16 (fld l 16 2), fld l 18 1, fld l 19 1, (fld l 20 1).testBit 0⟩

/-- R400, R401: what a write to the Burrow has changed in queue q's cached entry is gone once the entry is read again. -/
def State.clearEntry (s : State) (q : Nat) : State :=
  let l := s.lay.getD Layout.reset
  let b := 67108864 * (l.dirU + l.cacheU + l.scrU) + 0x3400000 + 128 * q
  { s with bur := { s.bur with raw := s.bur.raw.filter fun (a, _) => !(decide (b ≤ a) && decide (a < b + 128)) } }

/-! ### Accesses under a queue's asid (R324) -/

/-- The translation of an address under an asid for an engine-kind request of a type, with the checks of R280 and R300; a failure
beside whether it is a fault of the translation (R281). -/
def State.schedXl (s : State) (asid : BitVec 16) (va : Nat) (ty : ReqTy) : Except (Status × Bool) Xl :=
  if 2 ^ 57 ≤ va then .error (.xlateFault, true)
  else match s.walkFor asid va with
    | .error e => .error (e, true)
    | .ok x =>
      match s.leafStatus .eng ty 0 x.leaf (s.storedLines x.leaf x.base va) with
      | .ok => if (s.storedLines x.leaf x.base va).isEmpty then .error (.xlateFault, true) else .ok x
      | e => .error (e, decide (e ≠ .unavailable))

/-- R281: a scheduler's failed access, counted when its translation faulted. -/
def State.schedFault (s : State) (asid : BitVec 16) (e : Status × Bool) : State := if e.2 then s.countFault asid else s

/-- The mask of n bytes from offset o of a line. -/
def lineMask (o n : Nat) : W64 := BitVec.ofNat 64 ((2 ^ n - 1) * 2 ^ o)

/-! ### Completion records (R340) -/

/-- R340: the 32 bytes of a completion record. -/
def recordBytes (k log2 : Nat) (e : EndRec) (d : Desc) (engine ctr : Byte) : Bytes :=
  let flags := b2n (!k.testBit log2) + 2 * b2n d.chained + 4 * b2n e.partial_ + 8 * b2n d.rerun
  toLe 4 k ++ [e.status.code, BitVec.ofNat 8 flags, engine, ctr] ++ slice d.bytes 4 4 ++ toLe 4 d.index.toNat ++
    toLe 8 e.done ++ toLe 8 e.fault

/-- R330, R338: a descriptor's operation; whether it is a queue barrier; whether it runs on the scheduler. -/
def Desc.op (d : Desc) : Nat := fld d.bytes 0 1
def Desc.isBarrier (d : Desc) : Bool := d.op == 0x0A && fld d.bytes 16 1 == 0
def Desc.onScheduler (d : Desc) : Bool := d.op == 0 || d.op == 0x0A

end Sys2Proof.Machine
end

