-- ==== Sys2Proof/Machine/Home.lean ====
section
/-! DEFINITION. The home sett: the directory (R206–R209), snoops (R210–R213), what the home does with a request
(R201, R214), order, parking and holds (R217–R220), atomics and accumulation (R222–R224, R257–R260), counters that
fire (R263–R265), publication (R248–R252), and the answers. A request is a `Txn` that moves through its phases: it
waits for a walk, parks, waits for a recall or its snoops, waits for DRAM or the read-modify-write unit, and is
performed and answered in one step. -/

namespace Sys2Proof.Machine
open Sys2Proof

/-! ### Open requests -/

def State.setTxn (s : State) (t : Txn) : State :=
  { s with txns := s.txns.map fun u => if u.id = t.id then t else u }
def State.dropTxn (s : State) (id : Nat) : State := { s with txns := s.txns.filter fun u => u.id != id }
def State.txn (s : State) (id : Nat) : Option Txn := s.txns.find? fun u => u.id == id
/-- A request opened, under the next number. -/
def State.openTxn (s : State) (t : Txn) : State :=
  { s with txns := s.txns ++ [{ t with id := s.nextTxn, since := s.clk }], nextTxn := s.nextTxn + 1 }

/-! ### D1 (R524) -/

/-- R524, R528: whether D1 holds for partition p with a scope bit (0 counters, 1 trace, 2 engines); never in BLANK or
SCRAPPED. -/
def State.d1 (s : State) (p i : Nat) : Bool :=
  match (s.part p).dbg.token with
  | none => false
  | some t => s.sec.d1req.getLsbD p && !s.sec.d2 && t.scope.getLsbD i && decide (s.top.tick.toNat < t.limit) && s.life % 4 != 0

/-- A D1 counter of partition p changed, while D1 holds with the counter scope; paused in HIBERNATE (R527). -/
def State.d1Count (s : State) (p : Nat) (f : Dbg → Dbg) : State :=
  if s.d1 p 0 ∧ s.owl.pwr ≠ .hibernate then s.setDbg p (f (s.part p).dbg) else s

/-- R524, R542: the trace record of one sampled request; paused in HIBERNATE (R527). -/
def State.d1Trace (s : State) (p : Nat) (ty status : Byte) (asid : BitVec 16) (va : Nat) (port : Byte) : State :=
  if s.d1 p 1 ∧ s.owl.pwr ≠ .hibernate then
    let d := (s.part p).dbg
    let lg := match d.token with | none => 0 | some t => t.log2
    if d.sample + 1 < 2 ^ lg then s.setDbg p { d with sample := d.sample + 1 }
    else s.setDbg p { d with
      sample := 0
      traceSeq := d.traceSeq + 1
      trace := lastN 65536 (d.trace ++ [⟨ty, status, asid, va, s.top.tick, port⟩]) }
  else s

/-! ### Counters of a sett (R237) -/

namespace State

def settEv (s : State) (n bit : Nat) (f : Sett → Sett) : State :=
  let t := f (s.sett n)
  s.setSett n { t with evstat := setBit t.evstat bit }
def countLookup (s : State) (n : Nat) : State :=
  s.setSett n { s.sett n with lookups := sat (s.sett n).lookups }
def countUncovered (s : State) (n : Nat) : State := s.settEv n 7 fun t => { t with uncovered := sat t.uncovered }
def countRecall (s : State) (n : Nat) : State := s.settEv n 3 fun t => { t with recalls := sat t.recalls }
def countSnpto (s : State) (n : Nat) : State := s.settEv n 0 fun t => { t with snptos := sat t.snptos }
def countEpochLost (s : State) (n : Nat) : State := s.settEv n 6 fun t => { t with epochLost := sat t.epochLost }

end State

/-! ### The directory (R206–R208) -/

/-- R206: the line of an entry that an address is. -/
def lineIx (pa : Nat) : Nat := bitsOf pa 10 2

def State.dirEnt (s : State) (pa : Nat) : DirEnt := tget DirEnt.reset (s.sett (settOf pa)).dir (pa / 4096)

/-- R209: a directory after the entry of block b has been used: not-recently-used within its set. -/
def State.usedEnt (s : State) (b : Nat) (d : Tab DirEnt) : Tab DirEnt :=
  nru (fun x => s.dirSet x == s.dirSet b) (·.ref) (fun e => { e with ref := false }) b d

/-- R207, R209: an entry kept; when all four lines are UNCACHED it is freed and its sharer set cleared. -/
def State.setDirEnt (s : State) (pa : Nat) (e : DirEnt) : State :=
  let t := s.sett (settOf pa)
  let b := pa / 4096
  if e.line.all fun (st, _) => st == 0 then s.setSett (settOf pa) { t with dir := tdel t.dir b }
  else s.setSett (settOf pa) { t with dir := s.usedEnt b (tput t.dir b { e with ref := true }) }

/-- The address of line k of a 4 KiB block that a sett homes. -/
def lineAddr (n block k : Nat) : Nat :=
  let b := block * 4096 + k * 1024
  b + 64 * (n ^^^ bitsOf b 10 4 ^^^ bitsOf b 14 4 ^^^ bitsOf b 18 3)

/-- State and owner of line k. -/
def DirEnt.at (e : DirEnt) (k : Nat) : BitVec 2 × Node := e.line.getD k (0, 0)
def DirEnt.setAt (e : DirEnt) (k : Nat) (st : BitVec 2) (o : Node) : DirEnt :=
  { e with line := modAt e.line k fun _ => (st, o) }

/-- The leaf under which line k was granted to its owner (R314). -/
def DirEnt.leafAt (e : DirEnt) (k : Nat) : Leaf := e.leafs.getD k Leaf.reset
/-- Line k granted to an owner in E or M under a leaf. -/
def DirEnt.own (e : DirEnt) (k : Nat) (o : Node) (l : Leaf) : DirEnt :=
  { e.setAt k 2 o with leafs := modAt e.leafs k fun _ => l }

/-- R62: the sharer group that covers a node. -/
def State.groupFor (s : State) (d : Node) : Option Nat :=
  ((s.lay.getD Layout.reset).groups.zipIdx.find? fun (g, _) =>
    d.toNat / 2 ^ g.log2 * 2 ^ g.log2 == g.base.toNat).map (·.2)

/-- R207: whether the sharer set holds a node. -/
def State.isSharer (s : State) (e : DirEnt) (d : Node) : Bool :=
  e.ptrs.contains d || (match s.groupFor d with | none => false | some g => e.coarse.getLsbD g)

/-- R207, R208: a node joins the sharers: none when no pointer is free and no group covers it. -/
def State.addSharer (s : State) (e : DirEnt) (d : Node) : Option DirEnt :=
  if s.isSharer e d then some e
  else if e.ptrs.length < 4 then some { e with ptrs := e.ptrs ++ [d] }
  else match s.groupFor d with
    | none => none
    | some g => some { e with coarse := setBit e.coarse g }

/-! ### Snoops (R210–R213) -/

/-- R173: an address slot. -/
def addrSlot (addr : Nat) (asid : BitVec 16) (phys : Bool) (op : BitVec 4) (arg : BitVec 24) : Slot :=
  BitVec.ofNat 128 (addr % 2 ^ 64 * 2 ^ 64 + 2 ^ 48 * asid.toNat + 2 ^ 47 * b2n phys + 2 ^ 43 * op.toNat + arg.toNat)

/-- R225: the snoop timeout in force at a sett, in µs. -/
def Sett.limit (t : Sett) : Nat := max 1 (min 256 t.snpto.toNat)

/-- R213: the nodes of a sharer group whose answers a multicast snoop expects. -/
def State.groupNodes (s : State) (g : SGroup) : List Node :=
  (s.nodes.filter fun (d, n) => decide (g.base.toNat ≤ d) && decide (d < g.base.toNat + 2 ^ g.log2) && !n.dead).map
    fun (d, _) => BitVec.ofNat 21 d

/-- R212: the first snoop tag from `g` on that no open snoop carries; `n` bounds the tags looked at. -/
def nextTag (open_ : List Snoop) : Nat → BitVec 16 → BitVec 16
  | 0, g => g
  | n + 1, g =>
    if open_.any fun x => x.tag == g then nextTag open_ n (BitVec.ofNat 16 (g.toNat / 4096 * 4096 + (g.toNat + 1) % 4096)) else g

/-- A snoop opened for a request on a line, and its message; a unicast snoop with no way out stays open and is reported
in the second component (R127). -/
def State.snoop1 (s : State) (t : Txn) (kind : SnpKind) (pa : Nat) (reason : BitVec 4) (dst : Node ⊕ Nat)
    (owner : Bool) : State × Option (BitVec 16) :=
  let n := settOf pa
  let st := s.sett n
  let tag : BitVec 16 := nextTag st.snoops 4096 (BitVec.ofNat 16 (n * 4096 + st.nextSnp.toNat))
  let nextSnp : BitVec 12 := BitVec.ofNat 12 (tag.toNat % 4096 + 1)
  let ty := match kind with | .inv => tySnpInv | .shr => tySnpShr
  let m : Msgs := { ty := ty, tag := tag, srcGen := s.srcGen, body := [addrSlot pa 0 true reason 0] }
  let mk (wait : List Node) (mc : Bool) : Snoop := ⟨tag, kind, t.id, pa / 64, wait, mc, owner, s.clk, st.limit, (s.dirEnt pa).leafAt (lineIx pa)⟩
  let put (x : Snoop) : State := s.setSett n { st with nextSnp := nextSnp, snoops := st.snoops ++ [x] }
  match dst with
  | .inl d =>
    let s1 := put (mk [d] false)
    match s1.portFor d tag with
    | none => (s1.countUnroute (s1.unroutePort d), some tag)
    | some k => (s1.offerPort k { m with dst := d }, none)
  | .inr g =>
    match (s.lay.getD Layout.reset).groups[g]? with
    | none => (s, none)
    | some grp =>
      let w := s.groupNodes grp
      let s1 := s.multicast grp.mcast m
      if w.isEmpty then (s1, none)
      else
        let st1 := s1.sett n
        (s1.setSett n { st1 with nextSnp := nextSnp, snoops := st1.snoops ++ [mk w true] }, none)

/-- Snoops to nodes and groups, in order; the tags of those with no way out. -/
def State.snoopAll (s : State) (t : Txn) (kind : SnpKind) (pa : Nat) (reason : BitVec 4) (owner : Bool) :
    List (Node ⊕ Nat) → State × List (BitVec 16)
  | [] => (s, [])
  | x :: xs =>
    let (s1, o) := s.snoop1 t kind pa reason x owner
    let (s2, l) := State.snoopAll s1 t kind pa reason owner xs
    (s2, match o with | none => l | some tag => tag :: l)

/-- The holders of a line: its owner, or the whole sharer set (R207). A dead sharer's snoop counts as answered (R227), so
none is sent to it. -/
def State.holders (s : State) (e : DirEnt) (k : Nat) : List (Node ⊕ Nat) :=
  match e.at k with
  | (2, o) => [.inl o]
  | (1, _) => (e.ptrs.filter fun d => !s.nodeDead d).map .inl ++ (lowBits 64 e.coarse.toNat).map .inr
  | _ => []

/-- The requester as a node: engines, hosts and the device are none (R203). -/
def Txn.node (t : Txn) : Option Node := if t.kind = .fab then some t.fab.src else none

/-- R211: the reason of a request's snoops. Of the device's own accesses, the counter advance of R267 is an ATOMIC (arg 4) and a completion
record an uncached write (arg 3). -/
def Txn.reason (t : Txn) : BitVec 4 :=
  if t.kind = .dev then (if t.arg = 4 then 2 else if t.arg = 3 then 3 else 0) else match t.ty with
  | .wrLine | .wrPart => 3
  | .atomic | .accWr => 2
  | _ => 0

/-- R214: the snoops a request needs on a Tracked line, and whether an owner to be downgraded is invalidated because it
cannot be recorded. -/
def State.plan (s : State) (t : Txn) (pa : Nat) : Option (SnpKind × List (Node ⊕ Nat) × Bool × Bool) :=
  let e := s.dirEnt pa
  let k := lineIx pa
  let others := (s.holders e k).filter fun x => match x, t.node with
    | .inl d, some n => d != n
    | _, _ => true
  match e.at k with
  | (1, _) =>
    match t.ty with
    | .rdOwn | .upgrade => if others.isEmpty then none else some (.inv, others, false, false)
    | .wrLine | .wrPart | .atomic | .accWr =>
      if (s.holders e k).isEmpty then none else some (.inv, s.holders e k, false, false)
    | _ => none
  | (2, o) =>
    let mine := t.node == some o
    match t.ty with
    | .rdShared | .rdOnce =>
      if mine then none
      else match s.addSharer e o with
        | some _ => some (.shr, [.inl o], true, false)
        | none => some (.inv, [.inl o], true, true)
    | .rdOwn | .upgrade => if mine then none else some (.inv, [.inl o], true, false)
    | .wrLine | .wrPart | .atomic | .accWr => some (.inv, [.inl o], true, false)
    | _ => none
  | _ => none

/-! ### Poisoned lines (R225–R229) -/

/-- R449: whether the line at `pa` is poisoned already. -/
def State.isPoisoned (s : State) (pa : Nat) : Bool := (s.view pa).any (·.poison)

/-- R225, R227, R228: a line poisoned, counted and recorded with a cause unless it was poisoned already (R449), and UNCACHED. -/
def State.poisonTracked (s : State) (pa : Nat) (cause : Byte) : State :=
  let s1 := s.poisonLine pa
  let s2 := if s.isPoisoned pa then s1 else (s1.settPoison (settOf pa)).poisonRecord pa cause
  s2.setDirEnt pa ((s2.dirEnt pa).setAt (lineIx pa) 0 0)

/-- R227: a line OWNED by a dead node, found by a lookup, by the sweep, or when a transaction on it ends. -/
def State.deadOwner (s : State) (pa : Nat) : State :=
  match (s.dirEnt pa).at (lineIx pa) with
  | (2, o) => if s.nodeDead o then s.poisonTracked pa 0x02 else s
  | _ => s

/-- R229: an uncorrectable directory entry. -/
def State.dirLost (s : State) (pa : Nat) : State :=
  let n := settOf pa
  let b := pa / 4096
  let s1 := (List.range 4).foldl (fun s k =>
    let a := lineAddr n b k
    if s.isPoisoned a then s else (s.poisonLine a).poisonRecord a 0x06) s
  let t := s1.sett n
  let s2 := s1.setSett n { t with dir := tdel t.dir b, dirErrs := sat t.dirErrs, evstat := setBit t.evstat 5 }
  s2.logEvent 0x15 0x02 0x03 (BitVec.ofNat 64 (b * 4096)) 0xFF

/-- R209, R227, R229: the lookup of a line in its directory, where it may find the disturbance that a request brings: counted, the
entry used, and an owner that is dead dealt with. -/
def State.dirLookup (s : State) (t : Txn) (pa : Nat) : State :=
  let n := settOf pa
  let s1 := s.countLookup n
  let x := s1.sett n
  let s2 :=
    if !thas x.dir (pa / 4096) then s1
    else if sramCheck t.noise.dir = .uncorrectable then s1.dirLost pa
    else s1.setDirEnt pa (s1.dirEnt pa)
  s2.deadOwner pa

/-! ### Answers -/

/-- What a request is answered with: a type for the fabric, a status, line data, value slots, poison, epoch, and the
region version of a PUBLISH. -/
structure Ans where
  ty : BitVec 6 := tyCmp
  st : Status := .ok
  data : Bytes := []
  val : List Slot := []
  poison : Bool := false
  epoch : BitVec 16 := 0
  ver : Option W32 := none
deriving DecidableEq, Repr

/-- A CMP with a status. -/
def Ans.cmp (st : Status) : Ans := { st := st }

/-- R171, R174: the message of an answer. -/
def Ans.msg (a : Ans) : Msgs :=
  if a.ty = tyCmp then cmpMsg a.st a.ver
  else
    { ty := a.ty
      info := if tyEpochInfo a.ty then a.epoch else BitVec.ofNat 16 a.st.code.toNat
      poison := a.poison
      body := if a.val.isEmpty then bytesSlots 4 a.data else a.val }

/-- R182: whether a request type is non-idempotent. -/
def ReqTy.nonIdem : ReqTy → Bool
  | .rdShared => false
  | .rdOnce => false
  | _ => true

/-- The type code of a request (R172). -/
def ReqTy.code : ReqTy → Byte
  | .rdShared => 0x01 | .rdOwn => 0x02 | .upgrade => 0x03 | .rdOnce => 0x04 | .wrLine => 0x05 | .wrPart => 0x06
  | .atomic => 0x07 | .accWr => 0x08 | .publish => 0x09 | .wbDirty => 0x38 | .wbClean => 0x39

/-- The bytes an engine or a host takes from an answer: line data, or the value slots. -/
def Ans.bytes (a : Ans) : Bytes := if a.val.isEmpty then a.data else a.val.flatMap slotBytes

/-- A host request's line that has been performed: its data and status are kept with the request (R569). -/
def State.hostLine (s : State) (t : Txn) (a : Ans) : State :=
  let q := s.qp t.unit
  let upd (p : Pend) : Pend :=
    if p.txns.contains t.id then
      { p with
        txns := without p.txns t.id
        got := tput p.got (t.va / 64) a.bytes
        worst := p.worst.worst (if a.poison ∧ a.st = .ok then .poisoned else a.st) }
    else p
  s.setQp t.unit { q with pend := q.pend.map upd }

/-- An answer on its way to an engine (R319): one of another generation is dropped at the stop (R481). -/
def State.engAnswer (s : State) (t : Txn) (a : Ans) : State :=
  let e := s.eng t.unit
  if e.gen = t.ugen then
    let st := if a.poison ∧ a.st = .ok then Status.poisoned else a.st
    s.setEng t.unit { e with ans := e.ans ++ [⟨t.id, t.ugen, t.va / 64 * 64, st, a.poison, a.bytes⟩] }
  else s

/-- R17, R193, R217: the ring stop that a request comes from: its port, its host port, or its engine's Skulk. R17 gives the device's own
requests, a queue scheduler's among them, no stop of their own: the trace of R542 shows 31 for them (DESIGN CHOICE, log 54). -/
def Txn.stop (t : Txn) : Nat :=
  match t.kind with
  | .fab => t.fab.port
  | .host => t.fab.port
  | .eng => 10 + t.unit / 8
  | .dev => 31

/-- A request is answered and closes, with each copy that it recorded, by the port that the copy came by (R188). The line of a transaction
whose owner has died meanwhile is dealt with as it ends (R227). -/
def State.answer (s : State) (t : Txn) (a : Ans) : State :=
  let s1 := s.dropTxn t.id
  let s1 := s1.d1Trace t.part t.ty.code a.st.code t.asid t.va
    (BitVec.ofNat 8 t.stop)
  let s2 := match t.kind with
    | .fab =>
      let m := a.msg
      let s2 := if t.ty.nonIdem then s1.dedDone t.fab m else s1
      t.copies.foldl (fun s (k, g) => s.respond { t.fab with port := k, gen := g } (some t.part) m) (s2.respond t.fab (some t.part) m)
    | .eng => s1.engAnswer t a
    | .host => s1.hostLine t a
    | .dev => s1
  if t.started ∧ (t.leaf.cls = .tracked ∨ t.ty = .publish) then s2.deadOwner (t.line * 64) else s2

/-! ### Counters (R263–R265) -/

/-- R263: the partition whose counter a line is. -/
def State.counterOf (s : State) (pa : Nat) : Option Nat :=
  (List.range 32).find? fun p => match s.regionPage p with
    | none => false
    | some b => decide (0x100000 + b ≤ pa) && decide (pa < mib2 + b)

/-- R346: the hand-overs pending at a queue. -/
def Queue.pendings (q : Queue) : Nat := q.hand.length + q.chainRd.length

/-- R264, R346: the status of a hand-over to a queue, as the scheduler judges it. -/
def State.handStatus (s : State) (p q : Nat) : Status :=
  if s.queuePart q ≠ some p then .badDescriptor
  else if !(s.queue q).en ∨ (s.queue q).err ≠ 0 then .cancelled
  else if 16 ≤ (s.queue q).pendings then .quota else .ok

/-- R264: a fired counter's hand-over: its status as it stands, and, unless that refuses it, the hand-over on its way to the queue, whose
scheduler judges it again as it arrives (log 31). One for a disabled queue or one in ERROR is refused here: it is not read and gets no
record. -/
def State.handOff (s : State) (p pa : Nat) (line : Bytes) : State × Byte :=
  let q := fld line 24 2
  let st := s.handStatus p q
  if st = .badDescriptor ∨ st = .cancelled then (s, st.code)
  else
    let x := s.queue q
    (s.setQueue q { x with inbox := x.inbox ++ [(pa / 64, fld line 16 8, (s.part p).gen)] }, st.code)

/-- R264: a counter line after a change: an ARMED one whose count is at least expected fires, and its (queue, chain) is
handed over or held. -/
def State.counterStep (s : State) (pa : Nat) (l : Bytes) : State × Bytes :=
  match s.counterOf pa with
  | none => (s, l)
  | some p =>
    if fld l 26 1 = 1 ∧ fld l 8 8 ≤ fld l 0 8 then
      let l1 := overlay l 28 (toLe 4 (fld l 28 4 + 1))
      if (s.part p).st = .run then
        let (s1, st) := s.handOff p pa l1
        (s1, overlay (overlay l1 26 [2]) 27 [st])
      else ({ s with owl := { s.owl with held := s.owl.held ++ [pa / 64] } }, overlay l1 26 [3])
    else (s, l)

/-- R264: the counter line at `pa` as it stands in memory, checked after a change. -/
def State.counterCheck (s : State) (pa : Nat) : State :=
  match s.view pa with
  | none => s
  | some v =>
    let (s1, l) := s.counterStep pa v.data
    if l = v.data then s1 else s1.storeLine pa ⟨l, v.poison⟩ s1.busyLines

/-- R325: the queue whose watched line 1 a line is. -/
def State.watched (s : State) (pa : Nat) : Option Nat :=
  (List.range 32).findSome? fun p => match s.queuePage p, s.prec p with
    | some b, some r =>
      let o := pa - b
      if b ≤ pa ∧ o < mib2 ∧ o % 128 = 64 ∧ o / 128 < r.queueCount then some (r.queueBase + o / 128) else none
    | _, _ => none

/-- R325: after a write performed at the home, a change of producer or consumer wakes the queue's scheduler. -/
def State.watchLine (s : State) (pa : Nat) (old new : Bytes) : State :=
  match s.watched pa with
  | none => s
  | some q => if slice old 0 8 = slice new 0 8 then s else s.setQueue q { s.queue q with wake := true }

/-- R325, over lines and their bytes before the write. -/
def State.watchLines (s : State) (olds : List (Nat × Bytes)) : State :=
  olds.foldl (fun s (a, d) => s.watchLine a d ((s.view a).map (·.data) |>.getD d)) s

/-- R265: an ATOMIC ADD at offset 0 of a counter line in FIRED or HELD. -/
def State.overrun (s : State) (t : Txn) (pa : Nat) (l : Bytes) : Bool :=
  (s.counterOf pa).isSome && t.ty == .atomic && t.op == 0 && t.va % 64 == 0 && (fld l 26 1 == 2 || fld l 26 1 == 3)

/-! ### Reading and writing the stored bytes -/

/-- The stored bytes of a view line, and whether a stored line of them is poisoned (R315). -/
def State.readStored (s : State) (l : Leaf) (base va : Nat) : Bytes × Bool :=
  let addrs := storedAddrs l base va
  let lines := s.storedLines l base va
  let vs := lines.map fun a => (a, (s.view a).getD ⟨List.replicate 64 0, false⟩)
  (addrs.map fun x =>
    let c := (s.canon x).getD 0
    match vs.find? fun (a, _) => a == c with
    | none => 0
    | some (_, v) => v.data.getD (x % 64) 0,
   vs.any fun (_, v) => v.poison)

/-- The stored bytes of a view line written: each stored line keeps its other bytes; its poison is cleared only when all
64 bytes of it are covered by a whole-line write, and is set by poisoned data (R226, R315), which poisons a line that was not (R446, R458). -/
def State.writeStored (s : State) (l : Leaf) (base va : Nat) (bs : Bytes) (whole pois : Bool) : State :=
  let addrs := storedAddrs l base va
  let pairs := addrs.zip bs
  (s.storedLines l base va).foldl (fun s a =>
    match s.view a with
    | none => s
    | some v =>
      let mine := pairs.filter fun (x, _) => s.canon x == some a
      let data := mine.foldl (fun d (x, b) => overlay d (x % 64) [b]) v.data
      let full := whole && decide (64 ≤ mine.length)
      (if pois && !v.poison then s.countPoison a else s).storeLine a ⟨data, pois || (v.poison && !full)⟩ s.busyLines) s

/-- R214, R314, R325: data that enters the home for a Tracked line from its owner, through the page's conversion. A counter that it makes
due fires (R264), unless its owner stays a sharer and must be invalidated first (`fire` false, R243). -/
def State.takeData (s : State) (l : Leaf) (base va : Nat) (data : Bytes) (pois fire : Bool) : State :=
  let old := (s.readStored l base va).1
  let olds := (s.storedLines l base va).map fun a => (a, ((s.view a).map (·.data)).getD [])
  let bs := writeView l.stor.toNat l.view.toNat l.rnd s.free old data (BitVec.allOnes 64) false
  let s1 := { s with free := s.free + 64 }.writeStored l base va bs true pois
  (if fire then (s1.storedLines l base va).foldl State.counterCheck s1 else s1).watchLines olds

/-- R314: the same of the line at `pa`, which is the one stored line of its view line (B = 64), under the leaf by which its
owner holds it. -/
def State.takeLine (s : State) (l : Leaf) (pa : Nat) (data : Bytes) (pois fire : Bool) : State :=
  s.takeData l (pa / pageBytes l.size * pageBytes l.size) pa data pois fire

/-! ### Performing (R201, R214, R222–R226, R257–R260) -/

/-- R230, R245: the epoch that data messages carry. -/
def State.epochOf (s : State) (t : Txn) : BitVec 16 :=
  match t.leaf.cls with
  | .tracked => s.effEpoch t.leaf.epoch
  | .published => BitVec.ofNat 16 t.ver.toNat
  | .priv => 0

/-- R219: a minimum hold starts when ownership is granted. -/
def State.startHold (s : State) (pa : Nat) : State :=
  let n := settOf pa
  let t := s.sett n
  if t.hold = 0 then s else s.setSett n { t with holds := t.holds ++ [(pa / 64, s.clk, t.hold.toNat)] }

/-- R207, R208: sharers recorded for a line that becomes SHARED, in order; how many could not be. -/
def State.shareBy (s : State) (e : DirEnt) : List Node → DirEnt × List Node × Nat
  | [] => (e, [], 0)
  | d :: ds => match s.addSharer e d with
    | some e1 => let (e2, l, n) := State.shareBy s e1 ds; (e2, d :: l, n)
    | none => let (e2, l, n) := State.shareBy s e ds; (e2, l, n + 1)

/-- R214: the directory after a request on a Tracked line, and the type of its answer. -/
def State.dirFinish (s : State) (t : Txn) (pa : Nat) : State × BitVec 6 :=
  let e := s.dirEnt pa
  let k := lineIx pa
  let n := settOf pa
  let unc (s : State) (c : Nat) : State := (List.range c).foldl (fun s _ => s.countUncovered n) s
  match t.ty with
  | .rdShared =>
    match t.node with
    | none => (s, tyDataU)
    | some x => match e.at k with
      | (0, _) => ((s.setDirEnt pa (e.own k x t.leaf)).startHold pa, tyDataE)
      | (1, _) => match s.addSharer e x with
        | some e1 => (s.setDirEnt pa e1, tyDataS)
        | none => (s.countUncovered n, tyDataU)
      | (2, o) =>
        if o = x then (s.startHold pa, tyDataE)
        else
          let ys := if t.downInv = 1 then [] else [o]
          let (e1, l, c) := s.shareBy e (ys ++ [x])
          let e2 := if l.isEmpty then e1.setAt k 0 0 else e1.setAt k 1 0
          (unc (s.setDirEnt pa e2) (c + t.downInv), if l.contains x then tyDataS else tyDataU)
      | _ => (s, tyDataU)
  | .rdOwn =>
    match t.node with
    | none => (s, tyDataU)
    | some x => ((s.setDirEnt pa (e.own k x t.leaf)).startHold pa, tyDataM)
  | .upgrade =>
    match t.node with
    | none => (s, tyCmp)
    | some x =>
      let clean := t.upgShared || e.at k == (2, x)
      ((s.setDirEnt pa (e.own k x t.leaf)).startHold pa, if clean then tyCmp else tyDataM)
  | .rdOnce =>
    match e.at k with
    | (2, o) =>
      if t.node = some o then (s, tyDataU)
      else if t.downInv = 1 then (unc (s.setDirEnt pa (e.setAt k 0 0)) 1, tyDataU)
      else match s.addSharer e o with
        | some e1 => (s.setDirEnt pa (e1.setAt k 1 0), tyDataU)
        | none => (unc (s.setDirEnt pa (e.setAt k 0 0)) 1, tyDataU)
    | _ => (s, tyDataU)
  | _ => (s.setDirEnt pa (e.setAt k 0 0), tyCmp)

/-- The answer type of a read of a page without a directory (R201). -/
def plainTy (ty : ReqTy) (c : Coh) : BitVec 6 :=
  match ty, c with
  | .rdShared, .published => tyDataS
  | .rdShared, _ => tyDataE
  | .rdOwn, _ => tyDataM
  | .upgrade, _ => tyCmp
  | _, _ => tyDataU

/-- Whether a request reads and grants, rather than writes. -/
def ReqTy.isRead : ReqTy → Bool
  | .rdShared | .rdOwn | .upgrade | .rdOnce => true
  | _ => false

/-- R222: the answer slots of an atomic. -/
def atomAns (op m : Nat) (swapped : Bool) : List Slot :=
  if op < 9 then [BitVec.ofNat 128 m]
  else if op = 9 then [BitVec.ofNat 128 (m + 2 ^ 64 * b2n swapped)]
  else [BitVec.ofNat 128 m, BitVec.ofNat 128 (b2n swapped)]

/-- R222, R224, R265: an ATOMIC on a line as it stands: the line after it, and its answer. -/
def State.atomOn (s : State) (t : Txn) (pa : Nat) (v : LineVal) : LineVal × Ans :=
  if v.poison then (v, { st := .poisoned })
  else if s.overrun t pa v.data then
    (⟨overlay v.data 32 (toLe 4 (fld v.data 32 4 + 1)), false⟩,
     { st := .countOverrun, val := if t.kind = .fab then [] else [BitVec.ofNat 128 (fld v.data 0 8)] })
  else
    let n := atomSize t.op.toNat
    let o := t.va % 64
    let m := fld v.data o n
    let (x, sw) := atomVal t.op.toNat m (t.opnd.getD 0 0) (t.opnd.getD 1 0)
    (⟨overlay v.data o (toLe n x), false⟩, { ty := tyDataU, val := atomAns t.op.toNat m sw })

/-- R257, R260, R224: an ACC_WR on a line as it stands, its answer, and whether it poisons a line that was not poisoned
(R449). -/
def accOn (t : Txn) (v : LineVal) : LineVal × Ans × Bool :=
  if t.poisonIn then (⟨v.data, true⟩, { st := .poisoned }, !v.poison)
  else if v.poison then (v, { st := .poisoned }, false)
  else (⟨accLine t.op.toNat v.data t.data, false⟩, { st := .ok }, false)

/-- A write of the request's data through its view, its poison rule, and its status: POISONED when a stored line that was poisoned is not
covered wholly (R226, R308–R315). -/
def State.performWr (s : State) (t : Txn) : State × Status :=
  let (old, pois) := s.readStored t.leaf t.base t.va
  let whole := t.ty != .wrPart || (t.kind != .fab && t.mask == BitVec.allOnes 64)
  let mask := if t.ty = .wrPart then t.mask else BitVec.allOnes 64
  let bs := writeView t.leaf.stor.toNat t.leaf.view.toNat t.leaf.rnd s.free old t.data mask (pois && !whole)
  let mine (a : Nat) : Nat := ((storedAddrs t.leaf t.base t.va).filter fun x => s.canon x == some a).length
  let stays := (s.storedLines t.leaf t.base t.va).any fun a => s.isPoisoned a && !(whole && decide (64 ≤ mine a))
  ({ s with free := s.free + 64 }.writeStored t.leaf t.base t.va bs whole t.poisonIn, if stays then .poisoned else .ok)

/-- A write performed at its home, and what follows every write there: a counter that fires (R264), a watch that wakes (R325). -/
def State.landWr (s : State) (t : Txn) : State × Status :=
  let olds := (s.txnLines t).map fun a => (a, ((s.view a).map (·.data)).getD [])
  let (s1, st) := s.performWr t
  (((s.txnLines t).foldl State.counterCheck s1).watchLines olds, st)

/-- A request performed at its home with its stored lines at hand, and answered. -/
def State.perform (s : State) (t : Txn) : State :=
  let pa := t.line * 64
  let tracked := t.leaf.cls == .tracked
  if t.ty.isRead then
    let (bs, pois) := s.readStored t.leaf t.base t.va
    let data := readView t.leaf.stor.toNat t.leaf.view.toNat bs
    let (s1, ty) := if tracked then s.dirFinish t pa else (s, plainTy t.ty t.leaf.cls)
    s1.answer t { ty := ty, data := data, poison := pois, epoch := s.epochOf t }
  else
    let s0 := if tracked then (s.dirFinish t pa).1 else s
    match t.ty with
    | .atomic =>
      let v := (s0.view pa).getD ⟨List.replicate 64 0, false⟩
      let (v1, a) := s0.atomOn t pa v
      let s1 := if v1 = v then s0 else s0.storeLine pa v1 s0.busyLines
      ((s1.counterCheck pa).watchLine pa v.data v1.data).answer t a
    | .accWr =>
      let v := (s0.view pa).getD ⟨List.replicate 64 0, false⟩
      let (v1, a, rec_) := accOn t v
      let s1 := if v1 = v then s0 else s0.storeLine pa v1 s0.busyLines
      let s2 := if rec_ then s1.poisonRecord pa 0x07 else s1
      (s2.counterCheck pa).answer t a
    | _ =>
      let (s1, st) := s0.landWr t
      s1.answer t (Ans.cmp st)

/-! ### The data of a request -/

/-- Whether a request needs the bytes its stored lines hold: all but a whole write of lines it covers wholly (R310). -/
def Txn.needsData (t : Txn) : Bool :=
  match t.ty with
  | .wrLine | .wbDirty => (storedB t.leaf.stor.toNat t.leaf.view.toNat).getD 64 < 64
  | .upgrade => !t.upgShared
  | _ => true

/-- R223: whether the operation is performed at memory. -/
def Txn.atMemory (t : Txn) : Bool :=
  (t.ty == .atomic || t.ty == .accWr) && t.leaf.cls == .priv && isDram (t.line * 64)

/-- A line after a check of its word k, stored with or without the mark: the word keeps the errors that a wrong correction leaves in
its data, and the line is poisoned where any of its words decodes so (R440, R441). -/
def LineVal.checked (v : LineVal) (k left : Nat) (pois : Bool) : LineVal :=
  ⟨if left = 0 then v.data else overlay v.data (8 * k) (toLe 8 (fld v.data (8 * k) 8 ^^^ bitsOf left 14 64)), v.poison || pois⟩

/-- R441–R443: a disturbance found on the line's word in the line cache or in scratch; a wrong correction of a pattern beyond what
the code corrects stays in a word that is a free choice (log 10). -/
def State.lineNoise (s : State) (pa : Nat) (err : BitVec 80) : State :=
  if err = 0 then s
  else match s.whereIs pa with
    | none => s
    | some (.scr off) =>
      let v := s.scrLine off
      match sramPoisonCheck v.poison err with
      | (pois, oc, left) =>
      let w := v.checked (Config.freeNat s.free % 8) left pois
      let s := if w = v ∨ oc = .uncorrectable then s else ({ s with free := s.free + 1 } : State).scrStore off w
      match oc with
      | .good => s
      | .corrected => match paClass pa with
        | .scratch p _ => s.countCeSram p
        | _ => s
      | .uncorrectable =>
        ((s.scrStore off ⟨v.data, true⟩).poisonRecord pa 0x05).logEvent 0x15 0x02 0x02 (BitVec.ofNat 64 pa)
          (partByte (s.reportPart pa))
    | some (.dram a) => match s.cached a with
      | none => s
      | some c =>
        let n := settOf a
        let t := s.sett n
        match sramPoisonCheck c.poison err with
        | (pois, oc, left) =>
        let w := LineVal.checked ⟨c.data, c.poison⟩ (Config.freeNat s.free % 8) left pois
        let s := if w = ⟨c.data, c.poison⟩ ∨ oc = .uncorrectable then s
          else ({ s with free := s.free + 1 } : State).setSett n
            { t with cache := tput t.cache (a / 64) { c with data := w.data, poison := w.poison } }
        match oc with
        | .good => s
        | .corrected =>
          match s.lineOwner a with
          | none => s
          | some p => match s.prec p with
            | some r => if r.fenced then s.countCeSram p else s
            | none => s
        | .uncorrectable =>
          if c.dirty then
            ((s.setSett n { t with cache := tput t.cache (a / 64) { c with poison := true } }).poisonRecord a 0x05).logEvent
              0x15 0x02 0x02 (BitVec.ofNat 64 a) (partByte (s.reportPart a))
          else
            let s1 := s.setSett n { t with cache := tdel t.cache (a / 64) }
            ({ s1 with bur := { s1.bur with reread := sat s1.bur.reread, evstat := setBit s1.bur.evstat 1 } } : State).logEvent
              0x15 0x02 0x02 (BitVec.ofNat 64 a) (partByte (s.reportPart a))

/-- Stored lines of a request that no level above DRAM holds. -/
def State.missing (s : State) (t : Txn) : List Nat :=
  (s.txnLines t).filter fun a => isDram a && (s.held a).isNone

/-- Lines that are held above DRAM but not in the line cache are installed; each lookup counts a hit or a miss (R390,
R402). -/
def State.touchLines (s : State) (t : Txn) : State :=
  (s.txnLines t).foldl (fun s a =>
    if !isDram a then s
    else match s.cached a with
      | some c =>
        let n := settOf a
        let s1 := s.setSett n { s.sett n with cache := s.usedLine (a / 64) (tput (s.sett n).cache (a / 64) { c with ref := true }) }
        { s1 with bur := { s1.bur with hits := sat s1.bur.hits } }
      | none =>
        let s1 : State := { s with bur := { s.bur with misses := sat s.bur.misses } }
        match s1.held a with
        | some (v, d) => s1.install a v d s1.busyLines
        | none => s1) s

/-- R407: a line read placed in the read queue of its subchannel. -/
def State.pushRead (s : State) (id pa : Nat) : State :=
  match s.locOf pa with
  | none => s
  | some loc =>
    let ch := locChan loc
    let c := s.chan ch
    let u := c.sub (locSub loc)
    s.setChan ch (c.setSub (locSub loc) { u with rq := u.rq ++ [⟨id, pa / 64, s.clk, false⟩] })

/-- R420: operations that wait in the controller's input queue enter the unit as far as it has entries free, oldest first. -/
def Chan.rmwFill (c : Chan) : Chan :=
  let room := 32 - c.rmw.length
  { c with rmw := c.rmw ++ c.rmwIn.take room, rmwIn := c.rmwIn.drop room }

/-- R223, R419: an operation passed to the read-modify-write unit of its line's controller: the cached copy is written to
DRAM if it is dirty, and dropped. A full unit lets it wait (R420). -/
def State.toMemory (s : State) (t : Txn) : State :=
  let pa := t.line * 64
  let n := settOf pa
  let s1 := match s.held pa with
    | some (v, true) => s.pushWrite pa v
    | _ => s
  let x := s1.sett n
  let s2 := s1.setSett n { x with
    cache := tdel x.cache (pa / 64)
    insQ := x.insQ.filter fun v => v.line != pa / 64
    victims := x.victims.filter fun v => v.line != pa / 64 }
  match s2.locOf pa with
  | none => s2
  | some loc =>
    let ch := locChan loc
    let c := s2.chan ch
    let op : RmwOp := ⟨t.id, pa / 64, s2.clk⟩
    let s3 := s2.setChan ch { c with rmwIn := c.rmwIn ++ [op] }.rmwFill
    s3.setTxn { t with phase := .rmw }

/-- The data stage: a request whose key has been destroyed since it was translated is answered KEY_LOST (R513); one whose lines are at hand is performed; else its missing lines are read from DRAM, and it
waits (R390). -/
def State.dataStage (s : State) (t : Txn) : State :=
  let s := s.setTxn t
  if !s.slotHeld t.leaf || (s.txnLines t).any fun a => s.lineStatus a == .keyLost then s.answer t (Ans.cmp .keyLost)
  else if t.atMemory then s.toMemory t
  else
    let s1 := s.lineNoise (t.line * 64) t.noise.line
    let t1 := { t with noise := { t.noise with line := 0 } }
    let s2 := s1.touchLines t1
    if !t1.needsData ∨ (s2.missing t1).isEmpty then s2.perform t1
    else
      let s3 := (s2.missing t1).foldl (fun s a => s.pushRead t.id a) s2
      s3.setTxn { t1 with phase := .dram }

/-! ### Snoop timeouts and node death (R225–R228) -/

/-- R249, R272, R300: the translation of a PUBLISH's staging base: admitted, and its leaf as the request needs it. -/
def State.pubXl (s : State) (t : Txn) : Status :=
  let adm := if t.kind = .fab then s.admission t.asid t.va t.fab.src else .ok
  if t.xst ≠ .ok then t.xst else Status.first [adm, s.xlStatus t.kind .publish 0 t.leaf]

/-- R249: the conditions of a PUBLISH that depend on nothing in the descriptor line at `da`. -/
def State.pubEarly (s : State) (t : Txn) (da : Nat) : Status :=
  Status.first [s.lineStatus da, if t.va % mib2 ≠ 0 then .alignFault else .ok, s.pubXl t]

/-- R249, R281: a PUBLISH answered: a fault of its translation, unless it was counted as it ended the walk, is counted. -/
def State.pubAnswer (s : State) (t : Txn) (st : Status) (ver : Option W32) : State :=
  (if t.xst = .ok ∧ s.pubXl t ≠ .ok then s.countFault t.asid else s).answer t { st := st, ver := ver }

/-- R225: a request completed on the poisoned line, without a grant. -/
def State.completePoisoned (s : State) (t : Txn) : State :=
  match t.ty with
  | .rdShared | .rdOwn | .rdOnce =>
    let (bs, _) := s.readStored t.leaf t.base t.va
    s.answer t { ty := tyDataU, data := readView t.leaf.stor.toNat t.leaf.view.toNat bs, poison := true }
  | .wrLine | .wrPart =>
    let (s1, st) := s.landWr t
    s1.answer t (Ans.cmp st)
  | .publish => s.pubAnswer t ((s.pubEarly t (t.line * 64)).worst .poisoned) (some 0)
  | _ => s.answer t (Ans.cmp .poisoned)

/-- The snoops of a sett that are open for a request. -/
def State.snoopsOf (s : State) (n id : Nat) : List Snoop := (s.sett n).snoops.filter fun x => x.txn == id

/-- A snoop closed. -/
def State.closeSnoop (s : State) (tag : BitVec 16) : State :=
  let n := tag.toNat / 4096
  s.setSett n { s.sett n with snoops := (s.sett n).snoops.filter fun x => x.tag != tag }

/-! ### Parking and order (R217–R221, R470) -/

/-- R217: whether request `a` is served before `b`: a starved one first, then the older, then the first from the port
round-robin pointer upward. -/
def before (rr : Nat) (a b : Txn) : Bool :=
  if a.starved ≠ b.starved then a.starved
  else if a.since ≠ b.since then decide (a.since < b.since)
  else decide ((a.stop + 32 - rr) % 32 ≤ (b.stop + 32 - rr) % 32)

/-- R524: whether a request is one of its partition: an access of the device to a region or counter line is not. -/
def Txn.charged (t : Txn) : Bool := t.kind != .dev || t.arg == 3 || t.arg == 4

/-- R218: the requests that stand in a sett's park. -/
def State.parkedAt (s : State) (n : Nat) : Nat := (s.txns.filter fun t => t.sett == n && decide (t.phase = .parked)).length

/-- R218: a request parks. An access of the device that finds the park of 1,024 full waits at the ring input instead; a request has had its
place kept since it was taken (`State.parkFull`). -/
def State.park (s : State) (t : Txn) : State :=
  if t.phase = .parked then s.setTxn t
  else if t.kind = .dev ∧ 1024 ≤ s.parkedAt t.sett then s.setTxn { t with phase := .ring }
  else
    let s1 := s.setTxn { t with phase := .parked, parkAt := s.clk }
    if t.charged then s1.d1Count t.part fun d => { d with parks := sat d.parks } else s1

/-- R470, R471: whether the GATE slot in force takes REQ lookups of partition p now: not in the last 32 fabric clocks of its own slot. -/
def State.gateAdmits (s : State) (p : Nat) : Bool :=
  if s.gateSlots.isEmpty then true
  else
    let fenced := match s.prec p with | none => false | some r => r.fenced
    let owner := slotOwner s.gateSlots s.qos.gate
    if fenced then owner == p && s.qos.gateOpen && decide (32 < slotLeft s.gateSlots s.qos.gate) else owner == 0x3F || owner == 0x3E

/-- R219: whether one of some lines is in a minimum hold. -/
def State.inHold (s : State) (n : Nat) (lines : List Nat) : Bool :=
  (s.sett n).holds.any fun (l, at_, k) => lines.contains (l * 64) && decide (s.clk < at_ + k)

/-- R209: whether a line lies in a directory entry that another request recalls: its lines wait until the recall has ended. -/
def State.recalled (s : State) (t : Txn) (pa : Nat) : Bool :=
  (s.sett (settOf pa)).snoops.any fun x => x.txn != t.id && x.line / 64 == pa / 4096 &&
    (match s.txn x.txn with
    | none => false
    | some u => decide (u.phase = .recall))

/-- R209, R218–R220: whether a request may not start on its lines now: a started request holds one, one is in a minimum hold,
one has an open snoop, one's entry is being recalled, or one is reserved for an older starved request. -/
def State.lineTaken (s : State) (t : Txn) (lines : List Nat) : Bool :=
  let n := t.sett
  s.txns.any (fun u => u.id != t.id && u.started && (s.txnLines u).any lines.contains) ||
    s.inHold n lines || (s.sett n).snoops.any (fun x => x.txn != t.id && lines.contains (x.line * 64)) ||
    lines.any (s.recalled t) ||
    s.txns.any (fun u => u.id != t.id && decide (u.phase = .parked) && u.starved && (s.txnLines u).any lines.contains &&
      !(t.starved && decide (t.id < u.id)))

/-- R217: request t has been chosen for its lines: where an equally old request on one of them loses by the port round-robin pointer, that
advances past the port of t. -/
def State.tookTurn (s : State) (t : Txn) (lines : List Nat) : State :=
  let tie (u : Txn) : Bool := u.id != t.id && u.sett == t.sett && decide (u.phase = .parked) && u.starved == t.starved &&
    u.since == t.since && u.stop != t.stop && (s.txnLines u).any lines.contains
  if s.txns.any tie then s.setSett t.sett { s.sett t.sett with rr := (t.stop + 1) % 32 } else s

/-! ### Serving a request -/

/-- R209: the directory set a block lies in, with its entries. -/
def State.dirSetOf (s : State) (pa : Nat) : List (Nat × DirEnt) :=
  (s.sett (settOf pa)).dir.filter fun (b, _) => s.dirSet b == s.dirSet (pa / 4096)

/-- R209: whether a request grants a line to its requester, or leaves it SHARED. -/
def ReqTy.grants (ty : ReqTy) : Bool := ty == .rdShared || ty == .rdOwn || ty == .upgrade

/-- R209: the blocks without an entry for which requests have started that will allocate one in the set of `pa`: each has a way of the
set. -/
def State.dirClaims (s : State) (pa : Nat) : Nat :=
  ((s.txns.filter fun u => u.started && decide (u.phase ≠ .recall) && decide (u.leaf.cls = .tracked) && u.ty.grants &&
      settOf (u.line * 64) == settOf pa && !thas (s.sett (settOf pa)).dir (u.line / 64) &&
      s.dirSet (u.line / 64) == s.dirSet (pa / 4096)).map fun u => u.line / 64).eraseDups.length

/-- R209: the choice of a directory entry for a line that leaves UNCACHED. -/
inductive DirRoom where
  | room
  | recall (block : Nat)
  | wait
deriving DecidableEq, Repr

def State.dirRoom (s : State) (pa : Nat) : DirRoom :=
  if thas (s.sett (settOf pa)).dir (pa / 4096) then .room
  else
    let es := s.dirSetOf pa
    if es.length + s.dirClaims pa < 16 then .room
    else
      let busy := s.busyLines
      let idle := es.filter fun (b, _) => !((List.range 4).any fun k => busy.contains (lineAddr (settOf pa) b k / 64))
      let old := idle.filter fun (_, e) => !e.ref
      let pick := if old.isEmpty then idle else old
      match pick[Config.freeNat s.free % pick.length]? with
      | none => .wait
      | some (b, _) => .recall b

/-- The Tracked stage before the snoops: the number of snoop tags free (R212). -/
def Sett.tagsFree (t : Sett) : Nat := 4096 - t.snoops.length

/-! ### Changes of the device to region and counter lines (R243) -/

/-- R255, R264: one listed HELD counter handed over from its line as it stands, and no longer listed, while its partition is in
RUN. A line that is no longer HELD, or cannot be reached, is not handed over; a poisoned one becomes FIRED with status
POISONED and stays poisoned (log 20). -/
def State.handHeld (s : State) (pa : Nat) : State :=
  if (s.counterOf pa).any fun p => decide ((s.part p).st ≠ .run) then s
  else
  let s : State := { s with owl := { s.owl with held := without s.owl.held (pa / 64) } }
  match s.lineStatus pa, s.view pa, s.counterOf pa with
  | .ok, some v, some p =>
    if fld v.data 26 1 ≠ 3 then s
    else if v.poison then s.storeLine pa ⟨overlay (overlay v.data 26 [2]) 27 [Status.poisoned.code], true⟩ s.busyLines
    else
      let (s1, st) := s.handOff p pa v.data
      s1.storeLine pa ⟨overlay (overlay v.data 26 [2]) 27 [st], false⟩ s1.busyLines
  | _, _, _ => s

/-- R253, R256: draining cleared in the region descriptor at `pa` as it stands. -/
def State.clearDraining (s : State) (pa : Nat) : State :=
  match s.lineStatus pa, s.view pa with
  | .ok, some v => s.storeLine pa ⟨overlay v.data 4 [BitVec.ofNat 8 (fld v.data 4 1 &&& 0xFD)], v.poison⟩ s.busyLines
  | _, _ => s

/-- R225: a snoop times out, and with it c in all of those that its request has open on the line, each counted: the snoops end, the line is
poisoned and UNCACHED, and the request that they served is completed; a recall serves none. An access of the device itself goes on with the
poisoned line when its snoops are found answered (`State.snoopsDone`). -/
def State.timeoutSnoop (s : State) (tag : BitVec 16) (death : Bool) (c : Nat) : State :=
  let n := tag.toNat / 4096
  match (s.sett n).snoops.find? fun x => x.tag == tag with
  | none => s
  | some x =>
    let keep (y : Snoop) : Bool := !(y.txn == x.txn && y.line == x.line)
    let each (s : State) : State := match s.txn x.txn with
      | some t => if t.charged then (s.countSnpto n).d1Count t.part fun d => { d with snptos := sat d.snptos } else s.countSnpto n
      | none => s.countSnpto n
    let s1 := (List.range c).foldl (fun s _ => each s) (s.setSett n { s.sett n with snoops := (s.sett n).snoops.filter keep })
    let s2 := s1.poisonTracked (x.line * 64) (if death then 0x02 else 0x01)
    match s2.txn x.txn with
    | none => s2
    | some t =>
      if t.phase = .snoop ∧ t.line = x.line ∧ t.kind ≠ .dev then s2.completePoisoned t else s2

/-- R209: a recalled line leaves the directory once no snoop of its recall is open on it. -/
def State.recallLine (s : State) (id line : Nat) : State :=
  match s.txn id with
  | some t =>
    if t.phase ≠ .recall ∨ (s.sett (settOf (line * 64))).snoops.any (fun y => y.txn == id && y.line == line) then s
    else s.setDirEnt (line * 64) ((s.dirEnt (line * 64)).setAt (lineIx (line * 64)) 0 0)
  | none => s

/-- R127, R225: snoops with no way out are unanswered at once: each does what a timeout does, and the nodes of the unicast
ones are declared dead by `die`. -/
def State.unanswered (die : State → Node → State) (s : State) (tags : List (BitVec 16)) : State :=
  let snp (g : BitVec 16) : Option Snoop := (s.sett (g.toNat / 4096)).snoops.find? fun x => x.tag == g
  let xs := tags.filterMap snp
  let s1 := xs.foldl (fun s x => (s.timeoutSnoop x.tag false (xs.filter fun y => y.line == x.line).length).recallLine x.txn x.line) s
  (xs.flatMap fun x => if x.mc then [] else x.wait).foldl die s1

/-- R243, R249: the region descriptor of a PUBLISH, when its identifier names one of partition p. -/
def State.pubDesc (s : State) (t : Txn) : Option Nat :=
  match regionOf (BitVec.ofNat 24 t.arg.toNat) with
  | none => none
  | some (p, i) => if p = t.part then s.regionDesc p i else none

/-- R249: the status of a PUBLISH against the descriptor line `d` as it stands, and the staging base `pa`. The conditions on
the staging range are judged only once the staging base has been translated. -/
def State.pubStatus (s : State) (t : Txn) (d : Bytes) (pa : Nat) : Status :=
  let slot2 := (t.opnd.getD 0 0).toNat
  let expect := slot2 % 2 ^ 32
  let len := bitsOf slot2 32 32
  let valid := (fld d 4 1).testBit 0
  let draining := (fld d 4 1).testBit 1
  let note := (fld d 4 1).testBit 2
  let g := fld d 6 2 % 4096
  let bytes := mib2 * len
  let known := s.pubXl t == .ok
  let hit (b n : Nat) : Bool := decide (pa < b + n) && decide (b < pa + bytes)
  let mcIn := match s.prec t.part with
    | none => false
    | some r => decide (r.mcastBase ≤ g) && decide (g < r.mcastBase + r.mcastCount)
  let mcDef := ((s.lay.getD Layout.reset).mcast ++ (s.lay.getD Layout.reset).secs.flatMap (·.mcast)).any
    fun m => m.group == g
  if !valid then .badRegion
  else Status.first [
    if len ≠ fld d 16 4 then .badDescriptor else .ok,
    if known && !s.inOneExtent t.part pa bytes then .badDescriptor else .ok,
    if known && hit (fld d 8 8) (mib2 * fld d 16 4) then .badDescriptor else .ok,
    if known && draining && hit (fld d 24 8) (mib2 * fld d 16 4) then .badDescriptor else .ok,
    if note && !(mcIn && mcDef) then .badDescriptor else .ok,
    if known && t.leaf.stor.toNat ≠ fld d 5 1 % 16 then .formatFault else .ok,
    if draining then .retryLater else .ok,
    if expect ≠ fld d 0 4 then .conflict else .ok]

/-- R250: the flip of a descriptor line. -/
def pubFlip (t : Txn) (d : Bytes) (pa : Nat) : Bytes :=
  let d1 := overlay d 24 (slice d 8 8)
  let d2 := overlay d1 32 (slice d 0 4)
  let d3 := overlay d2 8 (toLe 8 pa)
  let d4 := overlay d3 0 (toLe 4 (fld d 0 4 + 1))
  let d5 := overlay d4 4 [BitVec.ofNat 8 (fld d 4 1 ||| 2)]
  let d6 := overlay d5 36 (toLe 4 (fld d 36 4 + 1))
  overlay d6 44 (toLe 4 (match t.node with | some x => x.toNat | none => 0x1FFFFF))

/-- R250, R253: the drain of a region starts. -/
def State.startDrain (s : State) (region : Bool) (target init queue : Nat) : State :=
  let d : Drain := ⟨s.xlt.nextId, region, target, init, queue, s.clk, [], [], [], false⟩
  { s with xlt := { s.xlt with drains := s.xlt.drains ++ [d], nextId := s.xlt.nextId + 1 } }

/-- R250: the flip of the descriptor line `d` at `da`, its answer, its note and its drain. -/
def State.publishFlip (s : State) (t : Txn) (da : Nat) (d : Bytes) (pa : Nat) : State :=
  let nd := pubFlip t d pa
  let s1 := s.storeLine da ⟨nd, false⟩ s.busyLines
  let s2 := s1.answer t { st := .ok, ver := some (BitVec.ofNat 32 (fld nd 0 4)) }
  let note : Msgs := { ty := tyPubNote, srcGen := s2.srcGen, body := [BitVec.ofNat 128 (t.arg.toNat + fld nd 0 4 * 2 ^ 32)] }
  let s3 := if (fld nd 4 1).testBit 2 then s2.multicast (fld nd 6 2 % 4096) note else s2
  s3.startDrain true t.arg.toNat 2 0

/-- R214, R207: an owner that a snoop will downgrade is recorded among the sharers as the snoop goes out, so that its pointer cannot be
lost to another line of the entry. -/
def State.reserveSharer (s : State) (pa : Nat) (o : Node) : State :=
  match s.addSharer (s.dirEnt pa) o with
  | none => s
  | some e => s.setDirEnt pa e

/-- R214: the same of the one owner that SNP_SHR goes to. -/
def State.reserveOwner (s : State) (kind : SnpKind) (pa : Nat) (dst : List (Node ⊕ Nat)) : State :=
  match kind, dst with
  | .shr, [.inl o] => s.reserveSharer pa o
  | _, _ => s

/-! ### The device's own accesses to Tracked lines: region and counter lines (R243), completion records (R340) and the
counter advances of completions (R267) -/

/-- R340: the record writes of queue q that wait for their lines. -/
def State.recPending (s : State) (q : Nat) : Nat :=
  (s.txns.filter fun t => decide (t.kind = .dev) && t.arg == 3 && t.unit == q).length

/-- R340, R322, R352: a completion record written to its line; cmp_count follows. A write that fails puts the queue into
ERROR, and a queue in ERROR writes no further record. -/
def State.recordThen (s : State) (t : Txn) : State :=
  let q := t.unit
  if (s.queue q).err ≠ 0 then s else
  match Status.first ((s.txnLines t).map s.lineStatus) with
  | .ok => match s.landWr t with
    | (s1, .ok) => s1.qWriteBack q 28 ((s1.queue q).cmpCount - BitVec.ofNat 32 (s1.recPending q))
    | (s1, _) => s1.queueError q 7
  | _ => s.queueError q 7

/-- R264, R346: the status of a hand-over recorded in the counter line at `pa`, while it is FIRED. -/
def State.setFire (s : State) (pa : Nat) (st : Byte) : State :=
  match s.lineStatus pa, s.view pa with
  | .ok, some v => if fld v.data 26 1 = 2 then s.storeLine pa ⟨overlay v.data 27 [st], v.poison⟩ s.busyLines else s
  | _, _ => s

/-- What the device does with a line once it has it: 0 nothing more, 1 a HELD counter is handed over, 2 draining is
cleared, 3 a completion record is written, 5 a counter that is due fires, 256 on a fire_status. -/
def State.devThen (s : State) (t : Txn) : State :=
  let s1 := s.dropTxn t.id
  let pa := t.line * 64
  (if t.arg = 1 then s1.handHeld pa
  else if t.arg = 2 then s1.clearDraining pa
  else if t.arg = 3 then s1.recordThen t
  else if t.arg = 5 then (if s1.lineStatus pa = .ok then s1.counterCheck pa else s1)
  else if 256 ≤ t.arg.toNat then s1.setFire pa (BitVec.ofNat 8 t.arg.toNat)
  else s1).deadOwner pa

/-- R243: an access of the device to a line that it treats as Tracked: it waits as any request does, for its partition's GATE slot too (R470),
downgrades an owner before a read, and invalidates every holder before a change; then it goes on as `k` says. -/
def State.devServe (k : State → Txn → State) (die : State → Node → State) (s : State) (t : Txn) : State :=
  let pa := t.line * 64
  let n := t.sett
  let done (s : State) (t : Txn) : State := k (s.dirFinish t pa).1 t
  if s.lineStatus pa ≠ .ok then k s t
  else if !s.gateAdmits t.part ∨ s.lineTaken t [pa] then s.park t
  else
    let s := ((s.setTxn t).tookTurn t [pa]).dirLookup t pa
    match s.plan t pa with
    | none => done s t
    | some (kind, dst, owner, down) =>
      if (s.sett n).tagsFree < dst.length then s.park t
      else
        let t1 := { t with phase := .snoop, downInv := b2n down }
        let (s1, dead) := ((s.reserveOwner kind pa dst).setTxn t1).snoopAll t1 kind pa t.reason owner dst
        let s2 := s1.unanswered die dead
        match s2.txn t.id with
        | none => s2
        | some t2 => if t2.phase = .snoop ∧ (s2.snoopsOf n t.id).isEmpty then done s2 t2 else s2

/-- R340, R352: the completion record of a descriptor of a queue. A queue in ERROR writes none; a record write that fails
puts the queue into ERROR. A line of a Tracked page is written as a request writes it (R214). -/
def State.writeRecordWith (die : State → Node → State) (s : State) (q : Nat) (e : EndRec) (d : Desc) (engine ctr : Byte) : State :=
  let x := s.queue q
  match x.cfg with
  | none => s
  | some c =>
    if x.err ≠ 0 then s
    else
      let k := x.cmpCount.toNat
      let bs := recordBytes k c.cmpLog2 e d engine ctr
      let va := c.cmpBase + 32 * (k % 2 ^ c.cmpLog2)
      match s.schedXl c.asid va .wrPart with
      | .error f => (s.schedFault c.asid f).queueError q 7
      | .ok y =>
        let t : Txn := { id := s.nextTxn, kind := .dev, unit := q, ty := .wrPart, asid := c.asid, va := va / 64 * 64, leaf := y.leaf
                         base := y.base, ver := y.ver, data := overlay (List.replicate 64 0) (va % 64) bs
                         mask := lineMask (va % 64) bs.length, sett := settOf va, since := s.clk, arg := 3
                         line := ((s.storedLines y.leaf y.base va).headD 0) / 64, part := (s.queuePart q).getD 0xFF }
        let s1 := s.setQueue q { x with cmpCount := x.cmpCount + 1 }
        if y.leaf.cls = .tracked then (s1.openTxn t).devServe State.devThen die t else s1.recordThen t

/-- R338, R343: a started descriptor has ended: its reserved record is written and its reservation freed; a barrier holds no
later descriptor any more. -/
def State.endStartedWith (die : State → Node → State) (s : State) (q : Nat) (e : EndRec) (d : Desc) (engine ctr : Byte) : State :=
  let s1 := s.writeRecordWith die q e d engine ctr
  let x := s1.queue q
  s1.setQueue q { x with open_ := x.open_ - 1, barrier := x.barrier && !d.isBarrier }

/-- R265, R267: the ATOMIC ADD of 1 to a counter line, with its status. -/
def State.addOne (s : State) (t : Txn) : State × Status :=
  let pa := t.line * 64
  match s.lineStatus pa, s.view pa with
  | .ok, some v =>
    let (v1, a) := s.atomOn t pa v
    let s1 := if v1 = v then s else s.storeLine pa v1 s.busyLines
    ((s1.counterCheck pa).watchLine pa v.data v1.data, a.st)
  | .ok, none => (s, .xlateFault)
  | st, _ => (s, st)

/-- R342: what the device does with a line once it has it, when the access is the counter advance of a completion: the
record follows it, with its status. -/
def State.devThenWith (die : State → Node → State) (s : State) (t : Txn) : State :=
  if t.arg = 4 then
    let (s1, st) := (s.dropTxn t.id).addOne t
    let x := s1.queue t.unit
    match x.adv.find? fun (i, _) => i == t.id with
    | none => s1
    | some (_, e, d, g) =>
      (s1.setQueue t.unit { x with adv := x.adv.filter fun (i, _) => i != t.id }).endStartedWith die t.unit e d g st.code
  else s.devThen t

/-- R342, R343: a started descriptor of a queue ends: with status OK and the ctr flag its counter is advanced first. -/
def State.finishDescWith (die : State → Node → State) (s : State) (q : Nat) (e : EndRec) (d : Desc) (engine : Byte) : State :=
  let none_ (s : State) (st : Status) : State := s.endStartedWith die q e d engine st.code
  let x := s.queue q
  match e.status == .ok && (fld d.bytes 1 1).testBit 1, x.cfg with
  | true, some c =>
    let va := fld d.bytes 8 8
    if va % 64 ≠ 0 then none_ s .alignFault
    else match s.schedXl c.asid va .atomic with
    | .error f => none_ (s.schedFault c.asid f) f.1
    | .ok y =>
      let t : Txn := { id := s.nextTxn, kind := .dev, unit := q, ty := .atomic, asid := c.asid, va := va, leaf := y.leaf, base := y.base
                       ver := y.ver, opnd := [1], sett := settOf va, since := s.clk, arg := 4
                       line := ((s.storedLines y.leaf y.base va).headD 0) / 64, part := (s.queuePart q).getD 0xFF }
      if y.leaf.cls = .tracked then
        ((s.setQueue q { x with adv := x.adv ++ [(t.id, e, d, engine)] }).openTxn t).devServe (State.devThenWith die) die t
      else
        let (s1, st) := s.addOne t
        none_ s1 st
  | _, _ => none_ s .cancelled

/-- R243: the device reads (or, with `change`, changes) the region or counter line at `pa`, and then does what `cont` names
(`State.devThen`); nothing where it does so already. -/
def State.devAccessWith (die : State → Node → State) (s : State) (pa : Nat) (change : Bool) (cont : BitVec 24) : State :=
  if s.txns.any fun u => decide (u.kind = .dev) && u.line == pa / 64 && u.arg == cont && decide (u.phase ≠ .recall) then s
  else
    let t : Txn := { id := s.nextTxn, kind := .dev, ty := if change then .wrPart else .rdOnce, sett := settOf pa, line := pa / 64
                     base := pa / 64 * 64, arg := cont, part := (s.reportPart pa).getD 0xFF }
    (s.openTxn t).devServe State.devThen die t

/-! ### PUBLISH (R248–R252) -/

/-- R248–R252: a PUBLISH at SETT[0]. An owner of the descriptor line is downgraded by a read of the device's own before the PUBLISH starts,
which waits for it parked, so that it has one snoop round when it has started (R221, R243; log 48): its line's holders are invalidated
before it is changed, by a flip or a conflict counted. -/
def State.servePublish (die : State → Node → State) (s : State) (t : Txn) : State :=
  match s.pubDesc t with
  | none => s.answer t { st := .badRegion, ver := some 0 }
  | some da =>
    let early := s.pubEarly t da
    let n := settOf da
    let k := lineIx da
    let s := (s.setTxn t).dirLookup t da
    let t := { t with noise := { t.noise with dir := 0 } }
    let e := s.dirEnt da
    let free := (s.sett n).tagsFree
    match e.at k with
    | (2, o) =>
      if s.lineStatus da ≠ .ok then s.pubAnswer t early (some 0)
      else if s.targetFails (.inl o) then s.pubAnswer t (early.worst .fenced) (some 0)
      else (s.park t).devAccessWith die da false 0
    | (ls, _) =>
      let v := (s.view da).getD ⟨List.replicate 64 0, false⟩
      let pa := t.base + t.va % pageBytes t.leaf.size
      if s.lineStatus da ≠ .ok then s.pubAnswer t early (some 0)
      else if v.poison then s.pubAnswer t (early.worst .poisoned) (some 0)
      else
        let st := early.worst (s.pubStatus t v.data pa)
        let ver : Option W32 := some (BitVec.ofNat 32 (fld v.data 0 4))
        let clear (s : State) : State := if ls = 1 then s.setDirEnt da ((s.dirEnt da).setAt k 0 0) else s
        let change (s : State) : State :=
          if st = .ok then (clear s).publishFlip t da v.data pa
          else ((clear s).storeLine da ⟨overlay v.data 40 (toLe 4 (fld v.data 40 4 + 1)), false⟩ s.busyLines).pubAnswer t st ver
        if st = .ok ∨ st = .conflict then
          let hs := s.holders e k
          if hs.isEmpty then change s
          else if hs.any s.targetFails then s.pubAnswer t .fenced ver
          else if free < hs.length then s.park t
          else
            let t1 := { t with phase := .snoop }
            let (s1, dead) := (s.setTxn t1).snoopAll t1 .inv da 0 false hs
            if (s1.snoopsOf n t.id).isEmpty then change s1 else s1.unanswered die dead
        else s.pubAnswer t st (if st = .badRegion then some 0 else ver)

/-- The stage after the snoops of a request have been answered. A PUBLISH's descriptor line is UNCACHED then. -/
def State.afterSnoops (die : State → Node → State) (s : State) (t : Txn) : State :=
  if t.ty = .publish then (s.setDirEnt (t.line * 64) ((s.dirEnt (t.line * 64)).setAt (lineIx (t.line * 64)) 0 0)).servePublish die t
  else s.dataStage t

/-- R209, R212, R219: whether the recall of block `b` at sett n can start: its snoops find tags, and none of its lines is in a
minimum hold. -/
def State.recallFits (s : State) (n b : Nat) : Bool :=
  let e := tget DirEnt.reset (s.sett n).dir b
  let need := ((List.range 4).map fun k => (s.holders e k).length).foldl (· + ·) 0
  decide (need ≤ (s.sett n).tagsFree) && !s.inHold n ((List.range 4).map (lineAddr n b))

/-- R209: a directory entry is recalled for a request: SNP_INV with reason RECALL to the holders of its lines; a line that no
snoop holds leaves the directory at once. The tags of the snoops with no way out stand beside it. -/
def State.recallEntry (s : State) (t : Txn) (n b : Nat) : State × List (BitVec 16) :=
  let s0 := (List.range 4).foldl (fun s k => s.deadOwner (lineAddr n b k)) (s.countRecall n)
  let v := tget DirEnt.reset (s0.sett n).dir b
  (List.range 4).foldl (fun (acc : State × List (BitVec 16)) k =>
    let a := lineAddr n b k
    let (x, l) := acc.1.snoopAll t .inv a 1 ((v.at k).1 == 2) (acc.1.holders v k)
    (if (v.at k).1 = 0 then x else x.recallLine t.id (a / 64), acc.2 ++ l)) (s0, [])

/-- The Tracked stage: dead owners, the allocation of an entry, and the snoops of R214. -/
def State.trackedStage (die : State → Node → State) (s : State) (t : Txn) : State :=
  let pa := t.line * 64
  let n := settOf pa
  let s := s.dirLookup t pa
  let t := { t with noise := { t.noise with dir := 0 } }
  let e := s.dirEnt pa
  let space := if t.ty.grants ∧ (e.at (lineIx pa)).1 = 0 then s.dirRoom pa else .room
  match space with
  | .wait => s.park t
  | .recall b =>
    let v := tget DirEnt.reset (s.sett n).dir b
    if (List.range 4).any fun k => (s.holders v k).any s.targetFails then s.answer t (Ans.cmp .fenced)
    else if !s.recallFits n b then s.park t
    else
      let (s1, dead) := ({ s with free := s.free + 1 }.setTxn { t with phase := .recall }).recallEntry { t with phase := .recall } n b
      let s2 := s1.unanswered die dead
      match s2.txn t.id with
      | none => s2
      | some t2 =>
        if t2.phase = .recall ∧ (s2.snoopsOf n t.id).isEmpty then s2.dataStage { t2 with phase := .snoop, upgShared := false } else s2
  | .room =>
    let t := { t with upgShared := decide (t.ty = .upgrade) &&
      (match e.at (lineIx pa), t.node with
       | (1, _), some x => s.isSharer e x
       | (2, o), some x => o == x
       | _, _ => false) }
    match s.plan t pa with
    | none => s.dataStage { t with phase := .snoop }
    | some (kind, dst, owner, down) =>
      if dst.any s.targetFails then s.answer t (Ans.cmp .fenced)
      else if s.txns.any fun u => u.id == t.id && decide ((s.sett n).tagsFree < dst.length) then s.park t
      else
        let t1 := { t with phase := .snoop, downInv := b2n down }
        let (s1, dead) := ((s.reserveOwner kind pa dst).setTxn t1).snoopAll t1 kind pa t.reason owner dst
        let s2 := s1.unanswered die dead
        match s2.txn t.id with
        | none => s2
        | some t2 => if t2.phase = .snoop ∧ (s2.snoopsOf n t.id).isEmpty then s2.afterSnoops die t2 else s2

/-- R390, R391: whether an install that the request needs finds no place: every way BUSY, or no victim entry. -/
def State.noPlace (s : State) (t : Txn) : Option Place :=
  if t.atMemory then none
  else (((s.txnLines t).filter isDram).map fun a => s.place a s.busyLines).find? fun p => p = .noWay ∨ p = .noVictim

/-- A WBK message at its home (R201, R214–R216, R231): it neither parks nor waits for a REQ. -/
def State.serveWb (s : State) (t : Txn) : State :=
  let pa := t.line * 64
  let n := settOf pa
  match t.leaf.cls with
  | .published => s.answer t (Ans.cmp (if t.ty = .wbDirty then .permFault else .ok))
  | .priv => if t.ty = .wbDirty then s.dataStage { t with phase := .dram } else s.answer t (Ans.cmp .ok)
  | .tracked =>
    let s := s.dirLookup t pa
    if t.epoch ≠ s.effEpoch t.leaf.epoch then (s.countEpochLost n).answer t (Ans.cmp .epochLost)
    else
      let e := s.dirEnt pa
      let k := lineIx pa
      match e.at k with
      | (2, o) =>
        if o = t.fab.src then
          if t.ty = .wbDirty then
            let s1 := s.setDirEnt pa (e.setAt k 0 0)
            let s2 := s1.takeData t.leaf t.base t.va t.data t.poisonIn true
            s2.answer t (Ans.cmp .ok)
          else (s.setDirEnt pa (e.setAt k 0 0)).answer t (Ans.cmp .ok)
        else s.answer t (Ans.cmp .ok)
      | (1, _) =>
        let s1 := if t.ty = .wbClean then s.setDirEnt pa { e with ptrs := without e.ptrs t.fab.src } else s
        s1.answer t (Ans.cmp .ok)
      | _ => s.answer t (Ans.cmp .ok)

/-- R333, R336, R359, R364, R377: an engine's transfer for CONVERT or of a program image or argument block (arg 1) needs
view equal to storage; one for REDUCE (arg 2, op the format) also the format rule of R258; one of a stream (arg 3) a view
equal to its format; one of acc_out (arg 4) FP32 storage and view. -/
def Txn.rawOk (t : Txn) : Bool :=
  if t.kind ≠ .eng then true
  else if t.arg = 1 then t.leaf.view == t.leaf.stor
  else if t.arg = 2 then
    t.leaf.view == t.leaf.stor &&
      (if t.op.toNat < 3 then t.leaf.stor.toNat == t.op.toNat else !isMxCode t.leaf.stor.toNat)
  else if t.arg = 3 then t.leaf.view.toNat == t.op.toNat
  else if t.arg = 4 then t.leaf.view == 0 && t.leaf.stor == 0
  else true

/-- A translated request at its home: the checks of R49, then order and parking, then its class's stage. -/
def State.serveOne (die : State → Node → State) (s : State) (t : Txn) : State :=
  if t.ty = .publish then
    (match s.pubDesc t with
    | some da =>
      let t := { t with line := da / 64 }
      let s := s.setTxn t
      if !s.gateAdmits t.part ∨ (s.sett t.sett).halted ∨ s.bur.halted ∨ s.lineTaken t [da] then s.park t
      else (s.tookTurn t [da]).servePublish die t
    | none => (s.setTxn t).servePublish die t)
  else
    let lines := s.txnLines t
    let t := { t with line := lines.headD 0 / 64 }
    let s := s.setTxn t
    let adm := if t.kind = .fab ∧ t.ty ≠ .wbClean then s.admission t.asid t.va t.fab.src else .ok
    let raw := if t.rawOk then .ok else .formatFault
    let at_ : Status := if (storedB t.leaf.stor.toNat t.leaf.view.toNat).isNone then .formatFault else if lines.isEmpty then .xlateFault else .ok
    let xl := Status.first [adm, s.xlStatus t.kind t.ty t.op.toNat t.leaf, at_, raw]
    let st := Status.first [adm, s.leafStatus t.kind t.ty t.op.toNat t.leaf lines, at_, raw]
    let s := if xl = .ok ∨ t.phys then s else s.countFault t.asid
    if t.ty = .wbClean then
      if st ≠ .ok then s.answer t (Ans.cmp (if st = .unavailable then st else .ok)) else s.serveWb t
    else if st ≠ .ok then s.answer t (Ans.cmp st)
    else if t.ty = .wbDirty then s.serveWb t
    else if !s.gateAdmits t.part ∨ (s.sett t.sett).halted ∨ s.bur.halted then s.park t
    else if s.lineTaken t lines then
      let s1 := if s.inHold t.sett lines ∧ t.phase ≠ .parked then s.d1Count t.part fun d => { d with holdWaits := sat d.holdWaits } else s
      s1.park t
    else
      let s := s.tookTurn t lines
      match s.noPlace t with
      | some .noVictim => if t.vicWait then s.park t else s.countVicfull.park { t with vicWait := true }
      | some _ => s.park t
      | none =>
        if t.leaf.cls = .tracked then s.trackedStage die t else s.dataStage { t with phase := .dram }

/-- R217, R218: a parked request tried again at once: under its own translation where its engine issued it under that one (R289), else under one
that the caches hold now. -/
def State.tryParked (die : State → Node → State) (s : State) (t : Txn) : State :=
  match s.txn t.id with
  | none => s
  | some u =>
    if u.phase ≠ .parked then s
    else match u.kind with
      | .dev => s.devServe (State.devThenWith die) die u
      | .eng => s.serveOne die u
      | _ => if u.xst ≠ .ok then s.serveOne die u else match s.lookup u.kind u.unit u.sett u.asid u.va with
        | some x => s.serveOne die { u with leaf := x.leaf, base := x.base, ver := x.ver }
        | none => s

/-- R217: the parked requests of a sett, in the order in which they are served. -/
def State.parkedIn (s : State) (n : Nat) : List Txn :=
  sortBy (before (s.sett n).rr) (s.txns.filter fun t => t.sett == n && decide (t.phase = .parked))

/-- R217, R218: the parked requests on the lines of a new one that are served before it, in their order. -/
def State.ahead (s : State) (t : Txn) : List Txn :=
  let lines := match t.ty, s.pubDesc t with
    | .publish, some da => [da]
    | _, _ => s.txnLines t
  let rr := (s.sett t.sett).rr
  sortBy (before rr) (s.txns.filter fun u =>
    u.sett == t.sett && decide (u.phase = .parked) && before rr u t && (s.txnLines u).any lines.contains)

/-- A translated request at its home. The parked requests on its lines that come before it are served before it (R217, R218); a WBK message
waits for none (R216). -/
def State.serveWith (die : State → Node → State) (s : State) (t : Txn) : State :=
  if t.phase = .parked ∨ t.ty = .wbDirty ∨ t.ty = .wbClean then s.serveOne die t
  else ((s.ahead t).foldl (State.tryParked die) (s.setTxn t)).serveOne die t

/-! ### Snoop answers and node death (R214, R225, R227) -/

/-- What a request does once the last of its snoops has been answered. After a recall it goes on with the way that the victim leaves: a transaction
waits on one snoop round (R221), and its own line is UNCACHED. -/
def State.snoopsDoneWith (die : State → Node → State) (s : State) (n id : Nat) : State :=
  if !(s.snoopsOf n id).isEmpty then s
  else match s.txn id with
    | none => s
    | some t =>
      if t.phase = .snoop then (if t.kind = .dev then State.devThenWith die (s.dirFinish t (t.line * 64)).1 t else s.afterSnoops die t)
      else if t.kind = .dev then s.dropTxn id
      else if t.phase = .recall then s.dataStage { t with phase := .snoop, upgShared := false }
      else s

/-- R264: whether the line at `pa` is an ARMED counter whose count has reached its expected value. -/
def State.counterDue (s : State) (pa : Nat) : Bool :=
  (s.counterOf pa).isSome && (s.view pa).any fun v => fld v.data 26 1 == 1 && decide (fld v.data 8 8 ≤ fld v.data 0 8)

/-- R213, R214: one node's answer to an open snoop, with data or without. A counter that the data of SNP_SHR makes due fires in an access of
the device's own, which first invalidates the owner that has become a sharer (R243, R264; log 48). -/
def State.snoopAnswerWith (die : State → Node → State) (s : State) (tag : BitVec 16) (src : Node)
    (data : Option (Bytes × Bool)) : State :=
  let n := tag.toNat / 4096
  match (s.sett n).snoops.find? fun x => x.tag == tag with
  | none => s
  | some x =>
    let pa := x.line * 64
    let s1 := match data with
      | none => s
      | some (bs, pois) => match s.txn x.txn with
        | some (t : Txn) => if t.line = x.line ∧ t.ty = ReqTy.wrLine then s else s.takeLine x.leaf pa bs pois (x.kind != SnpKind.shr)
        | none => s.takeLine x.leaf pa bs pois true
    let left := without x.wait src
    if left.isEmpty then
      let s2 := ((s1.closeSnoop tag).recallLine x.txn x.line).snoopsDoneWith die n x.txn
      if data.isSome ∧ x.kind = .shr ∧ s2.counterDue pa then s2.devAccessWith die pa true 5 else s2
    else
      let upd (y : Snoop) : Snoop := if y.tag = tag then { y with wait := left } else y
      s1.setSett n { s1.sett n with snoops := (s1.sett n).snoops.map upd }

/-- R227: a death declared, at one sett: the node's parked requests are discarded, its snoops count as answered or as a
timeout, and a sweep starts or is queued. -/
def State.deathAt (die : State → Node → State) (d : Node) (s : State) (n : Nat) : State :=
  let s1 := s.settEv n 4 fun t => { t with nodeDeaths := sat t.nodeDeaths }
  let s2 : State := { s1 with
    txns := s1.txns.filter fun t => !(t.sett == n && decide (t.phase = .parked) && t.node == some d) }
  let t := s2.sett n
  let s3 := s2.setSett n (match t.sweep with
    | none => { t with sweep := some d }
    | some _ => { t with sweepQ := t.sweepQ ++ [d] })
  ((s3.sett n).snoops.filter fun x => x.wait.contains d).foldl (fun s x =>
    if x.ownerSnp then ((s.timeoutSnoop x.tag true 1).recallLine x.txn x.line).snoopsDoneWith die n x.txn
    else s.snoopAnswerWith die x.tag d none) s3

/-- R227: the death of a node, at every sett. A death may let a request go on that finds another node silent, whose death
follows: as many as there are nodes. -/
def State.deathFuel : Nat → State → Node → State
  | 0, s, _ => s
  | f + 1, s, d =>
    if s.nodeDead d then s
    else (List.range 16).foldl (State.deathAt (State.deathFuel f) d) (s.setNode d { s.node d with dead := true, relearn := false })

def State.death (s : State) (d : Node) : State := State.deathFuel 2097152 s d

/-- R243: an access of the device to a region or counter line. -/
def State.devAccess (s : State) (pa : Nat) (change : Bool) (cont : BitVec 24) : State := s.devAccessWith State.death pa change cont

/-- R340, R343: a record, the end of a started descriptor, and its end with the counter advance. -/
def State.writeRecord (s : State) (q : Nat) (e : EndRec) (d : Desc) (engine ctr : Byte) : State :=
  s.writeRecordWith State.death q e d engine ctr
def State.endStarted (s : State) (q : Nat) (e : EndRec) (d : Desc) (engine ctr : Byte) : State :=
  s.endStartedWith State.death q e d engine ctr
def State.finishDesc (s : State) (q : Nat) (e : EndRec) (d : Desc) (engine : Byte) : State :=
  s.finishDescWith State.death q e d engine

/-- R221, R342, R352: a scheduler's access that waited for its line is answered TIMEOUT: a record write that fails puts its queue into ERROR,
and a counter advance leaves its status in the record. -/
def State.schedTimeout (s : State) (t : Txn) : State :=
  let s1 := s.dropTxn t.id
  if t.arg = 4 then
    let x := s1.queue t.unit
    match x.adv.find? fun (i, _) => i == t.id with
    | none => s1
    | some (_, e, d, g) =>
      (s1.setQueue t.unit { x with adv := x.adv.filter fun (i, _) => i != t.id }).endStarted t.unit e d g Status.timeout.code
  else s1.queueError t.unit 7

/-- R497: the counter advances and record writes that wait for their lines are done at once: each record is written before
step 2. -/
def State.flushRecords (s : State) : State :=
  let now (a : BitVec 24) (s : State) : State :=
    (s.txns.filter fun t => decide (t.kind = .dev) && t.arg == a).foldl (fun s t => s.devThenWith State.death t) s
  now 3 (now 4 s)

/-- A translated request at its home. -/
def State.serve (s : State) (t : Txn) : State := s.serveWith State.death t

def State.snoopsDone (s : State) (n id : Nat) : State := s.snoopsDoneWith State.death n id

def State.snoopAnswer (s : State) (tag : BitVec 16) (src : Node) (data : Option (Bytes × Bool)) : State :=
  s.snoopAnswerWith State.death tag src data

/-- R277, R285: a request that needs a translation: served at once on a hit, else it waits for the walk of its page,
merged with one that runs. -/
def State.translate (s : State) (t : Txn) : State :=
  match s.lookup t.kind t.unit t.sett t.asid t.va with
  | some x => (s.tcInstall t.kind t.unit t.sett x).serve { t with leaf := x.leaf, base := x.base, ver := x.ver }
  | none =>
    let page := bitsOf t.va 21 36
    let s := s.setTxn { t with phase := .walk }
    if s.xlt.walk.any fun w => w.asid == t.asid && w.page == page then s
    else { s with xlt := { s.xlt with walk := s.xlt.walk ++ [⟨false, t.asid, page, s.clk⟩] } }

/-- R218: whether a sett's park of 1,024 requests is full. A request that the sett has taken and that still waits for its walk may have to
park: its place is kept (DESIGN CHOICE, log 45). -/
def State.parkFull (s : State) (n : Nat) : Bool :=
  decide (1024 ≤ s.parkedAt n + (s.txns.filter fun t => t.sett == n && decide (t.phase = .walk) && t.ty != .wbDirty && t.ty != .wbClean).length)

/-- A request that a sett takes: translated, or judged without a translation (R249). -/
def State.take (s : State) (t : Txn) : State := if t.xst = .ok then s.translate t else s.serve t

/-- R218, R191: the requests that wait at a sett's ring input are taken while its park is not full, oldest first. -/
def State.admitRing (s : State) (n : Nat) : State :=
  ((s.txns.filter fun t => t.sett == n && decide (t.phase = .ring)).map (·.id)).foldl (fun s i =>
    match s.txn i with
    | none => s
    | some t =>
      let t1 := { t with phase := .walk, since := s.clk }
      if s.parkFull n then s
      else if t.kind = .dev then (s.setTxn t1).devServe (State.devThenWith State.death) State.death t1
      else (s.setTxn t1).take t1) s

/-- A request enters: it is opened at the ring input of its sett, behind those that wait there, and taken unless it must wait too (R218); a
writeback never waits. -/
def State.request (s : State) (t : Txn) : State :=
  let n := if t.ty = .publish then 0 else settOf t.va
  let wbk := t.ty == .wbDirty || t.ty == .wbClean
  let t1 := { t with id := s.nextTxn, since := s.clk, sett := n, phase := if wbk then .walk else .ring }
  let s1 := ((s.openTxn t1).d1Count t.part fun d => { d with reqs := sat d.reqs }).admitRing n
  if wbk then s1.take t1 else s1

/-- R279: the status that an ASID's partition has for want of its key. -/
def State.asidKey (s : State) (asid : BitVec 16) : Status :=
  match (s.asidPart asid.toNat).bind s.prec with
  | none => .ok
  | some r => if thas s.sec.slots r.keySlot then .ok else .keyLost

/-- A walk that failed: the requests that waited are answered with its status, or that of their admission or of their partition's empty key
slot where R49 puts it first (R272, R279, R281, R282); a PUBLISH is judged by its
other conditions too (R249). -/
def State.failTranslation (s : State) (t : Txn) (st : Status) : State :=
  let s1 := s.countFault t.asid
  let st0 := if t.ty = .wbClean then st else st.worst (s1.asidKey t.asid)
  let st1 := if t.kind = .fab ∧ t.ty ≠ .wbClean then (s1.admission t.asid t.va t.fab.src).worst st0 else st0
  if t.ty = .publish then s1.serve { t with xst := st1 }
  else s1.answer t { st := if t.ty = .wbClean then .ok else st1 }

/-- A parked request competes again (R218): an engine's transfer under the translation that it was issued under, any other under one that
holds now (R289). -/
def State.retry (s : State) (id : Nat) : State :=
  match s.txn id with
  | none => s
  | some t =>
    if t.phase ≠ .parked then s
    else match t.kind with
      | .dev => s.devServe (State.devThenWith State.death) State.death t
      | .eng => s.serve t
      | _ => s.take t

end Sys2Proof.Machine
end

