-- ==== Sys2Proof/Machine/Sm3.lean ====
section
/-! DEFINITION. SM3 digests (R51, R520, R552; the algorithm is GB/T 32905's, which the manual names and does not
restate: PRESUMED, log 4). Words are numbers below 2^32, so that Lean's kernel evaluates a digest fast. -/

namespace Sys2Proof.Machine
open Sys2Proof

/-- A left rotation of a word by less than 32. -/
def rolNat (x n : Nat) : Nat := (x * 2 ^ n ||| x / 2 ^ (32 - n)) % 4294967296

/-- P_1 and P_0. -/
def sm3P1 (x : Nat) : Nat := x ^^^ rolNat x 15 ^^^ rolNat x 23
def sm3P0 (x : Nat) : Nat := x ^^^ rolNat x 9 ^^^ rolNat x 17

/-- The message expansion: `n` more words before those given, the last first. -/
def sm3Expand : Nat → List Nat → List Nat
  | 0, w => w
  | n + 1, w =>
    let g (i : Nat) : Nat := w.getD (i - 1) 0
    sm3Expand n ((sm3P1 (g 16 ^^^ g 9 ^^^ rolNat (g 3) 15) ^^^ rolNat (g 13) 7 ^^^ g 6) :: w)

/-- The eight working words. -/
structure Sm3 where
  a : Nat
  b : Nat
  c : Nat
  d : Nat
  e : Nat
  f : Nat
  g : Nat
  h : Nat
deriving DecidableEq, Repr

/-- The initial value. -/
def sm3Iv : Sm3 := ⟨0x7380166F, 0x4914B2B9, 0x172442D7, 0xDA8A0600, 0xA96F30BC, 0x163138AA, 0xE38DEE4D, 0xB0FB0E4E⟩

/-- Round j, with its word and the fourth after it. -/
def sm3Round (v : Sm3) (j w w4 : Nat) : Sm3 :=
  let t := if j < 16 then 0x79CC4519 else 0x7A879D8A
  let ss1 := rolNat ((rolNat v.a 12 + v.e + rolNat t (j % 32)) % 4294967296) 7
  let ss2 := ss1 ^^^ rolNat v.a 12
  let ff := if j < 16 then v.a ^^^ v.b ^^^ v.c else (v.a &&& v.b) ||| (v.a &&& v.c) ||| (v.b &&& v.c)
  let gg := if j < 16 then v.e ^^^ v.f ^^^ v.g else (v.e &&& v.f) ||| ((0xFFFFFFFF ^^^ v.e) &&& v.g)
  let tt1 := (ff + v.d + ss2 + (w ^^^ w4)) % 4294967296
  let tt2 := (gg + v.h + ss1 + w) % 4294967296
  ⟨tt1, v.a, rolNat v.b 9, v.c, sm3P0 tt2, v.e, rolNat v.f 19, v.g⟩

/-- The rounds from round j on, over the words from word j on. -/
def sm3Rounds : Nat → Nat → List Nat → Sm3 → Sm3
  | 0, _, _, v => v
  | n + 1, j, w, v => sm3Rounds n (j + 1) w.tail (sm3Round v j (w.getD 0 0) (w.getD 4 0))

/-- One block. -/
def sm3Block (v : Sm3) (b : Bytes) : Sm3 :=
  let x := sm3Rounds 64 0 (sm3Expand 52 ((beWords 16 b).map BitVec.toNat).reverse).reverse v
  ⟨x.a ^^^ v.a, x.b ^^^ v.b, x.c ^^^ v.c, x.d ^^^ v.d, x.e ^^^ v.e, x.f ^^^ v.f, x.g ^^^ v.g, x.h ^^^ v.h⟩

def sm3Blocks : Nat → Sm3 → Bytes → Sm3
  | 0, v, _ => v
  | n + 1, v, bs => sm3Blocks n (sm3Block v (slice bs 0 64)) (bs.drop 64)

/-- The bytes of a chaining value. -/
def Sm3.bytes (v : Sm3) : Bytes := [v.a, v.b, v.c, v.d, v.e, v.f, v.g, v.h].flatMap fun x => toBe 4 x

/-- The chaining value held as eight words; none before the first block. -/
def sm3Of : List W32 → Sm3
  | [a, b, c, d, e, f, g, h] => ⟨a.toNat, b.toNat, c.toNat, d.toNat, e.toNat, f.toNat, g.toNat, h.toNat⟩
  | _ => sm3Iv

/-- The chaining value after one more block of a message. -/
def sm3Next (l : List W32) (b : Bytes) : List W32 :=
  let v := sm3Block (sm3Of l) b
  [v.a, v.b, v.c, v.d, v.e, v.f, v.g, v.h].map (BitVec.ofNat 32)

/-- The digest of a message of n bytes, a multiple of 64, after its last block. -/
def sm3Last (l : List W32) (n : Nat) : Bytes :=
  (sm3Block (sm3Of l) ([0x80] ++ List.replicate 55 0 ++ toBe 8 (8 * n))).bytes

/-- The SM3 digest of a message, 32 bytes. -/
def sm3 (m : Bytes) : Bytes :=
  let n := m.length
  let z := (119 - n % 64) % 64
  let p := m ++ [0x80] ++ List.replicate z 0 ++ toBe 8 (8 * n)
  (sm3Blocks (p.length / 64) sm3Iv p).bytes

end Sys2Proof.Machine
end

