-- ==== Sys2Proof/Machine/Sm2.lean ====
section
/-! DEFINITION. SM2 signatures over SM3 (R57; the algorithm of GB/T 32918.2 on the curve of GB/T 32918.5, which the manual names and does
not restate: PRESUMED, log 4). Coordinates and signature values are 32-byte big-endian strings. -/

namespace Sys2Proof.Machine
open Sys2Proof

/-- The curve y² = x³ + a·x + b modulo p, and its base point of order n. -/
def sm2P : Nat := 0xFFFFFFFEFFFFFFFFFFFFFFFFFFFFFFFFFFFFFFFF00000000FFFFFFFFFFFFFFFF
def sm2A : Nat := 0xFFFFFFFEFFFFFFFFFFFFFFFFFFFFFFFFFFFFFFFF00000000FFFFFFFFFFFFFFFC
def sm2B : Nat := 0x28E9FA9E9D9F5E344D5A9E4BCF6509A7F39789F515AB8F92DDBCBD414D940E93
def sm2N : Nat := 0xFFFFFFFEFFFFFFFFFFFFFFFFFFFFFFFF7203DF6B21C6052B53BBF40939D54123
def sm2Gx : Nat := 0x32C4AE2C1F1981195F9904466A39C9948FE30BBFF2660BE1715A4589334C74C7
def sm2Gy : Nat := 0xBC3736A2F4F6779C59BDCEE36B692153D0A9877CC62A474002DF32E52139F0A0

/-- The bits of a 256-bit number, the highest first. -/
def bits256 (e : Nat) : List Bool := (List.range 256).map fun i => e.testBit (255 - i)

/-- A power modulo m; with the exponent m - 2 the inverse modulo a prime. -/
def powMod (b e m : Nat) : Nat := (bits256 e).foldl (fun r t => let s := r * r % m; if t then s * b % m else s) 1
def invMod (b m : Nat) : Nat := powMod b (m - 2) m

/-- A difference modulo p of numbers below p. -/
def subP (a b : Nat) : Nat := (a + (sm2P - b)) % sm2P

/-- A point (x/z², y/z³) of the curve; z = 0 is the point at infinity. -/
structure Pt where
  x : Nat
  y : Nat
  z : Nat
deriving DecidableEq, Repr

/-- A point twice. -/
def Pt.double (p : Pt) : Pt :=
  let yy := p.y * p.y % sm2P
  let s := 4 * p.x * yy % sm2P
  let zz := p.z * p.z % sm2P
  let m := (3 * p.x * p.x + sm2A * zz * zz) % sm2P
  let x := subP (m * m % sm2P) (2 * s % sm2P)
  ⟨x, subP (m * subP s x % sm2P) (8 * yy * yy % sm2P), 2 * p.y * p.z % sm2P⟩

/-- The sum of two points. -/
def Pt.add (p q : Pt) : Pt :=
  if p.z = 0 then q
  else if q.z = 0 then p
  else
    let pz := p.z * p.z % sm2P
    let qz := q.z * q.z % sm2P
    let u1 := p.x * qz % sm2P
    let h := subP (q.x * pz % sm2P) u1
    let s1 := p.y * q.z * qz % sm2P
    let r := subP (q.y * p.z * pz % sm2P) s1
    if h = 0 then (if r = 0 then p.double else ⟨1, 1, 0⟩)
    else
      let hh := h * h % sm2P
      let hhh := h * hh % sm2P
      let v := u1 * hh % sm2P
      let x := subP (r * r % sm2P) ((hhh + 2 * v) % sm2P)
      ⟨x, subP (r * subP v x % sm2P) (s1 * hhh % sm2P), h * p.z * q.z % sm2P⟩

/-- A multiple of a point. -/
def Pt.mul (k : Nat) (p : Pt) : Pt := (bits256 k).foldl (fun q t => if t then q.double.add p else q.double) ⟨1, 1, 0⟩

/-- A point's coordinates. -/
def Pt.affine (p : Pt) : Nat × Nat :=
  let i := invMod p.z sm2P
  (p.x * i * i % sm2P, p.y * i * i * i % sm2P)

/-- The base point, and the point that a public key names, x then y. -/
def sm2G : Pt := ⟨sm2Gx, sm2Gy, 1⟩
def keyPt (key : Bytes) : Pt := ⟨beNat (slice key 0 32), beNat (slice key 32 32), 1⟩

/-- The public key of a private key. -/
def sm2Key (d : Nat) : Bytes :=
  let a := (sm2G.mul d).affine
  toBe 32 a.1 ++ toBe 32 a.2

/-- The number that is signed: the digest of the signer's identity with its key, and of the message. -/
def sm2E (signer key msg : Bytes) : Nat :=
  let z := sm3 (toBe 2 (8 * signer.length) ++ signer ++ toBe 32 sm2A ++ toBe 32 sm2B ++ toBe 32 sm2Gx ++ toBe 32 sm2Gy ++ slice key 0 64)
  beNat (sm3 (z ++ msg))

/-- R57: whether a signature, r then s, of a message verifies under a public key and a signer identity. -/
def sm2Verify (signer key msg sig : Bytes) : Bool :=
  let r := beNat (slice sig 0 32)
  let s := beNat (slice sig 32 32)
  let t := (r + s) % sm2N
  decide (0 < r) && decide (r < sm2N) && decide (0 < s) && decide (s < sm2N) && decide (t ≠ 0) &&
    decide ((sm2E signer key msg + (((sm2G.mul s).add ((keyPt key).mul t)).affine).1) % sm2N = r)

/-- R509, R510: a signature of a message, r then s, with one of the device's private keys. -/
def sm2Sign (signer : Bytes) (key : Nat) (msg : Bytes) : Bytes :=
  let d := 1 + Config.privateKey key % (sm2N - 2)
  let k := 1 + Config.signNonce signer key msg % (sm2N - 1)
  let r := (sm2E signer (sm2Key d) msg + (sm2G.mul k).affine.1) % sm2N
  toBe 32 r ++ toBe 32 (invMod (1 + d) sm2N * (k + (sm2N - r) * d) % sm2N)

/-- R509: the identity public key, x then y, derived from the device secret, or from a secret of ones. -/
def identityKey (ones : Bool) : Bytes := sm2Key (1 + Config.privateKey (b2n ones) % (sm2N - 2))

/-- Signer identities: ASCII strings SPL7200-LAYOUT (R57), -OWLFW (R543), -LEDGER (R552), -LIFECYCLE (R505), -CONSENT (R523), -WIPE
(R517), -KEYINST (R541). -/
def sigLayout : Bytes := toBe 14 0x53504C373230302D4C41594F5554
def sigFw : Bytes := toBe 13 0x53504C373230302D4F574C4657
def sigLedger : Bytes := toBe 14 0x53504C373230302D4C4544474552
def sigLife : Bytes := toBe 17 0x53504C373230302D4C4946454359434C45
def sigConsent : Bytes := toBe 15 0x53504C373230302D434F4E53454E54
def sigWipe : Bytes := toBe 12 0x53504C373230302D57495045
def sigKeyInst : Bytes := toBe 15 0x53504C373230302D4B4559494E5354

end Sys2Proof.Machine
end

