-- ==== Sys2Proof/Machine/Ledger.lean ====
section
/-! DEFINITION. The entries of the service ledger (R552–R554). -/

namespace Sys2Proof.Machine
open Sys2Proof

/-- The bytes of the ledger in flash. -/
def State.ledgerBytes (s : State) : Nat := s.flash.ledger.foldl (fun n e => n + e.bytes.length) 0

/-- R552: the ledger digest: SM3 of the last entry, zero before the first. -/
def State.ledgerDigest (s : State) : Bytes :=
  match s.flash.ledger.getLast? with
  | none => List.replicate 32 0
  | some e => sm3 e.bytes

/-- R552: the fields before an entry's body. -/
def State.ledgerHead (s : State) (ty : BitVec 16) (len : Nat) : Bytes :=
  toLe 4 0x72001ED6 ++ toLe 2 ty.toNat ++ toLe 2 len ++ toLe 4 s.flash.ledger.length ++ toLe 4 s.flash.bootcnt.toNat ++
    toLe 8 s.top.tick.toNat ++ s.ledgerDigest

/-- R552, R554: an entry appended: the body padded to a multiple of eight bytes, and the signature. In the last MiB of
the area only the types other than SUMMARY, CE_COUNTS and LANE_MARGIN continue, and LEDGER_FULL is raised once; what the area's 64 MiB
(R531) do not hold is not written. -/
def State.ledgerAdd (s : State) (ty : BitVec 16) (body : Bytes) : State :=
  let low := 67108864 < 1048576 + s.ledgerBytes
  let s1 := if low ∧ !s.flash.ledFull then
      ({ s with flash := { s.flash with ledFull := true } } : State).logPlain 0x20 0
    else s
  let b := body ++ List.replicate ((8 - body.length % 8) % 8) 0
  if low ∧ (ty = 1 ∨ ty = 2 ∨ ty = 5) ∨ 67108864 < s.ledgerBytes + 120 + b.length then s1
  else
    let pre := s.ledgerHead ty (120 + b.length) ++ b
    let e : LedEnt := ⟨ty, pre ++ sm2Sign sigLedger (b2n s.sec.ones) pre⟩
    { s1 with flash := { s1.flash with ledger := s1.flash.ledger ++ [e] } }

/-- The body of numbers, four bytes each (log 24: the manual lists the bodies' contents and gives no layout). -/
def ledgerNums (l : List Nat) : Bytes := l.flatMap (toLe 4)

end Sys2Proof.Machine
end

