-- ==== Sys2Proof/Machine/Traffic.lean ====
section
/-! DEFINITION. Policing, shaping and time gates (R460–R479): the policers and shapers of a (partition, port), ports
0–7 FAB0–FAB7 and 8–9 HST0–HST1, and the meanings of the traffic commands. Buckets count in 1/1,200 byte, so that a refill
of 16 fabric clocks at a whole rate in Mb/s adds exactly that many. -/

namespace Sys2Proof.Machine
open Sys2Proof

/-- R67: the share ceiling of p on port k, in Mb/s: bytes of 1/128 of 12,000,000 Mb/s on a fabric port and of 800,000
Mb/s on a host port. -/
def State.ceiling (s : State) (p k : Nat) : Nat :=
  match s.prec p with
  | none => 0
  | some r => if k < 8 then 93750 * bitsOf r.fabShare.toNat (8 * k) 8 else 6250 * bitsOf r.hstShare.toNat (8 * (k - 8)) 8

/-- R468: the share byte of p on port k. -/
def State.shareByte (s : State) (p k : Nat) : Nat :=
  match s.prec p with
  | none => 0
  | some r => if k < 8 then bitsOf r.fabShare.toNat (8 * k) 8 else bitsOf r.hstShare.toNat (8 * (k - 8)) 8

/-- R465: a burst in bytes, raised to the largest unit of the port. -/
def burstOf (k : Nat) (b : W32) : Nat := max b.toNat (if k < 8 then 256 else 4352)

/-- A policer in force: rates in Mb/s, bursts in bytes. -/
structure PolIn where
  cir : Nat
  pir : Nat
  cbs : Nat
  pbs : Nat
  aware : Bool
deriving DecidableEq, Repr

/-- R75, R460, R478: the policer of p on port k: its settings in force, or the ceiling; none on a port without share. -/
def State.policer (s : State) (p k : Nat) : Option PolIn :=
  let f := (s.pqos p k).inForce
  let c := s.ceiling p k
  if f.ctrl.getLsbD 0 then some ⟨f.cir.toNat, f.pir.toNat, burstOf k f.cbs, burstOf k f.pbs, f.ctrl.getLsbD 1⟩
  else if c = 0 then none else some ⟨c, c, burstOf k 65536, burstOf k 65536, false⟩

/-- R466, R478: the shaper of p on port k: rate in Mb/s and burst in bytes. -/
def State.shaperOf (s : State) (p k : Nat) : Nat × Nat :=
  let f := (s.pqos p k).inForce
  if f.ctrl.getLsbD 2 then (f.srate.toNat, burstOf k f.sburst) else (s.ceiling p k, burstOf k 65536)

/-- Colours: 0 green, 1 yellow, 2 red. R461: the colour of a unit of `b` bytes that arrives with colour `arr`. -/
def colourOf (aware : Bool) (arr committed peak b : Nat) : Nat :=
  let n := b * 1200
  if aware ∧ arr = 2 then 2
  else if peak < n then 2
  else if aware ∧ arr = 1 then 1
  else if committed < n then 1 else 0

/-- R461–R464: a unit of `b` bytes of partition p policed on port k: its colour, and the state with its buckets and
counters. A copy (`resend`) is passed whatever its colour, and is taken from each bucket that holds enough bytes. -/
def State.police (s : State) (p k b arr : Nat) (resend : Bool) : Nat × State :=
  match s.policer p k with
  | none => (0, s)
  | some pol =>
    let q := s.pqos p k
    let c := colourOf pol.aware arr q.committed q.peak b
    let n := b * 1200
    let takeP := c < 2
    let takeC := c = 0 ∨ (resend ∧ c = 2 ∧ n ≤ q.committed)
    let q1 := { q with
      peak := if takeP then q.peak - n else q.peak
      committed := if takeC then q.committed - n else q.committed
      green := if c = 0 then satAdd q.green b else q.green
      yellow := if c = 1 then satAdd q.yellow b else q.yellow
      red := if c = 2 then satAdd q.red b else q.red
      refused := if c = 2 ∧ !resend then sat q.refused else q.refused }
    (c, s.setPqos p k q1)

/-- One refill of a bucket (R460): `rate` Mb/s for 16 fabric clocks is `rate` units. -/
def refill (rate burst x : Nat) : Nat := min (x + rate) (burst * 1200)

/-- R473, R479: an accepted apply takes effect at the refill: the values that it judged come into force, whatever was staged or refused
since, and tokens are cut to the new bursts. -/
def PortQos.takeApply (q : PortQos) : PortQos :=
  if q.applyDue then { q with inForce := q.applied, applyDue := false } else q

/-- R460, R467: a refill of one (partition, port). -/
def State.refillOne (s : State) (p k : Nat) : State :=
  let s1 := s.setPqos p k (s.pqos p k).takeApply
  let q := s1.pqos p k
  let (c, pk) := match s1.policer p k with
    | none => (q.committed, q.peak)
    | some pol => (refill pol.cir pol.cbs q.committed, refill pol.pir pol.pbs q.peak)
  let (r, b) := s1.shaperOf p k
  s1.setPqos p k { q with committed := c, peak := pk, shaper := refill r b q.shaper }

/-- Every partition of the layout on every port. -/
def State.eachPq (s : State) (f : State → Nat → Nat → State) : State :=
  s.partList.foldl (fun s p => (List.range 10).foldl (fun s k => f s p k) s) s

/-- R460: a refill time, every 16 fabric clocks: every policer and shaper bucket is refilled, and applies take effect. -/
def execPolicerRefill (s : State) : Host.Outcome State Fault Refusal :=
  .next (if s.due 0 16 then (s.took 0 16).eachPq State.refillOne else s)

/-- R460, R473: the buckets of one (partition, port) filled to their bursts. -/
def State.fillBuckets (s : State) (p k : Nat) : State :=
  let q := s.pqos p k
  let (c, pk) := match s.policer p k with
    | none => (0, 0)
    | some pol => (pol.cbs * 1200, pol.pbs * 1200)
  s.setPqos p k { q with committed := c, peak := pk, shaper := (s.shaperOf p k).2 * 1200 }

/-- R75, R76, R466, R478: the settings of p on port k as its section, or the defaults, give them, staged and in force, with
full buckets. On a port where p has no share and no POLICER entry there is no policer (R75), and the spec gives its four
settings no value: they read 0 (DESIGN CHOICE, log 28). The shaper's defaults stand whatever the share: the ceiling, and 64 KiB. -/
def State.loadPq (s : State) (p k : Nat) : State :=
  let sec := s.secOf p
  let pol : Option Policer := match sec with | none => none | some x => x.policers.find? fun (e : Policer) => e.port == k
  let shp : Option Shaper := match sec with | none => none | some x => x.shapers.find? fun (e : Shaper) => e.port == k
  let dflt : W32 := if s.ceiling p k = 0 then 0 else 65536
  let set : PolSet :=
    { cir := match pol with | some e => e.cir | none => BitVec.ofNat 32 (s.ceiling p k)
      pir := match pol with | some e => e.pir | none => BitVec.ofNat 32 (s.ceiling p k)
      cbs := match pol with | some e => e.cbs | none => dflt
      pbs := match pol with | some e => e.pbs | none => dflt
      srate := match shp with | some e => e.rate | none => BitVec.ofNat 32 (s.ceiling p k)
      sburst := match shp with | some e => e.burst | none => 65536
      ctrl := BitVec.ofNat 3 (b2n pol.isSome + 2 * b2n (match pol with | some e => e.aware | none => false) +
        4 * b2n shp.isSome) }
  let q := s.pqos p k
  (s.setPqos p k { q with staged := set, inForce := set, applyDue := false }).fillBuckets p k

/-- R467, R468, R476: the oldest message of an egress queue leaves: its size is taken from the bucket and from the queue's deficit, and its
delay is counted. -/
def PortQos.depart (q : PortQos) (size clk since : Nat) : PortQos :=
  let rest := q.egress.drop 1
  let delay := clk - since
  { q with
    egress := rest
    deficit := if rest.isEmpty then 0 else q.deficit - size
    waited := false
    shaper := q.shaper - size * 1200
    shpBytes := satAdd q.shpBytes size
    delaySum := satAdd q.delaySum delay
    delayCnt := sat q.delayCnt
    delayMax := if q.delayMax.toNat < delay then (if delay < 2 ^ 32 then BitVec.ofNat 32 delay else BitVec.allOnes 32)
      else q.delayMax
    delayAt := if q.delayMax.toNat < delay then some clk else q.delayAt }

/-- R557, R575: whether a host port sends no frame of a priority for now: its link is down, or the priority is paused. -/
def State.frameStops (s : State) (k : Nat) (f : HSent) : Bool :=
  let h := s.hport k
  !h.up || decide (s.clk < tget 0 h.paused f.prio.toNat)

/-- R576: whether a queue pair whose rate has been cut sends no READ Response data for now. -/
def QP.slowed (x : QP) (clk : Nat) : Bool := decide (x.rate < 65536) && (x.rate == 0 || decide (clk < x.dataAt))

/-- R557, R576: fabric clocks that n bytes take at the rate of a queue pair, on a port of 8 lanes (24 clocks for 1,000 bytes at line
rate) or 4. -/
def dataClks (wide : Bool) (rate n : Nat) : Nat := (n * (if wide then 24 else 48) * 65536 + 1000 * rate - 1) / (1000 * rate)

/-- R576: READ Response data has left: the next follows at the queue pair's rate. -/
def State.paceData (s : State) (k : Nat) (e : EgMsg) (n : Nat) : State :=
  match e.qp with
  | none => s
  | some q =>
    let x := s.qp q
    s.setQp q { x with dataAt := s.clk + dataClks (decide ((s.hport k).width = 2)) x.rate n }

/-- R466, R476: whether port k can put a queued message on its link now, so that its first slot leaves as it leaves the queue: the link
is up, no older message of its class waits, and the receiver has credits; a host frame's priority is not paused, nor its READ Response
data held back (R576). -/
def State.portTakes (s : State) (k : Nat) (e : EgMsg) : Bool :=
  match e.frame with
  | some f => !s.frameStops (k - 8) f && !(match e.qp with
      | none => false
      | some q => (s.qp q).slowed s.clk)
  | none => decide ((s.port k).st = .active) && (s.port k).canSend e.m && !((s.port k).txq.any fun x => tyClass x.m.ty == tyClass e.m.ty)

/-- R188: whether the response at the head of an egress queue is for a port whose generation has changed. -/
def State.staleMsg (s : State) (e : EgMsg) : Bool := e.frame.isNone && (s.port e.arrPort).gen != e.arrGen

/-- R467, R468: whether p's queue on port k holds a message that may leave now. -/
def State.egReady (s : State) (k p : Nat) : Bool :=
  let q := s.pqos p k
  match q.egress with
  | [] => false
  | e :: _ => s.portTakes k e && !s.staleMsg e && decide (e.size * 1200 ≤ q.shaper)

/-- R468: the quantum of p's queue on port k. -/
def State.quantum (s : State) (p k : Nat) : Nat := max (s.shareByte p k) 1 * 256

/-- R468: the rounds in which the round-robin first reaches p's queue with a deficit that its message fits: none for the queue whose turn
has not ended, else at least one. -/
def State.rounds (s : State) (k p : Nat) : Nat :=
  let q := s.pqos p k
  let size := match q.egress with | [] => 0 | e :: _ => e.size
  let need := (size - q.deficit + s.quantum p k - 1) / s.quantum p k
  if p = tget 31 s.qos.turn k then need else max 1 need

/-- R468: deficit round-robin over the queues of port k whose buckets allow a message, in the order of partitions after the one served
last: the queue that is served next, and the visits that each gets until then. -/
def State.nextEgress (s : State) (k : Nat) : Option (Nat × List (Nat × Nat)) :=
  let t := tget 31 s.qos.turn k
  let ready := ((List.range 32).map fun i => (t + 1 + i) % 32).filter (s.egReady k)
  let rank (p : Nat) : Nat := 32 * s.rounds k p + (if s.rounds k p = 0 then 0 else (p + 31 - t) % 32)
  match ready with
  | [] => none
  | a :: l =>
    let w := l.foldl (fun b p => if rank p < rank b then p else b) a
    some (w, ready.map fun p =>
      (p, if s.rounds k w = 0 then 0 else if (p + 31 - t) % 32 ≤ (w + 31 - t) % 32 then s.rounds k w else s.rounds k w - 1))

/-- R468: the queues visited get their quanta, and the round-robin stands at the queue that is served. -/
def State.giveQuanta (s : State) (k w : Nat) (visits : List (Nat × Nat)) : State :=
  let s1 := visits.foldl (fun s (p, n) =>
    if n = 0 then s else s.setPqos p k { s.pqos p k with deficit := (s.pqos p k).deficit + n * s.quantum p k }) s
  { s1 with qos := { s1.qos with turn := tput s1.qos.turn k w } }

/-- R466–R468, R475, R476: the oldest message of p's egress queue on port k leaves, when its bucket holds its size and the round-robin
serves it. One that finds too few tokens waits, and is counted once. A response whose arrival port's generation has changed is
discarded instead (R188). -/
def State.egressDepart (s : State) (k p : Nat) : State :=
  let q := s.pqos p k
  match q.egress with
  | [] => s
  | e :: _ =>
    if s.staleMsg e then (s.setPqos p k { q with egress := q.egress.drop 1, waited := false }).countRspDrop e.arrPort
    else if !s.portTakes k e then s
    else if q.shaper < e.size * 1200 then
      if q.waited then s else s.setPqos p k { q with waited := true, shpWaits := sat q.shpWaits }
    else match s.nextEgress k with
      | none => s
      | some (w, visits) =>
        if w ≠ p then s
        else
          let s1 := s.giveQuanta k w visits
          let s2 := s1.setPqos p k ((s1.pqos p k).depart e.size s.clk e.since)
          match e.frame with
          | some f =>
            let h := s2.hport (k - 8)
            (s2.setHport (k - 8) { h with sent := h.sent ++ [f] }).paceData (k - 8) e f.data.length
          | none => s2.setPort k ((s2.port k).offer s2.clk e)

/-- R467, R468: the next message of partition p's egress queue on port k leaves. -/
def execEgressDepart (k p : Nat) (s : State) : Host.Outcome State Fault Refusal := .next (s.egressDepart k p)

/-- R476: the depth of one egress queue is sampled. -/
def State.sampleOne (s : State) (p k : Nat) : State :=
  let q := s.pqos p k
  let d := (q.egress.map (·.size)).foldl (· + ·) 0
  s.setPqos p k { q with
    depthSum := satAdd q.depthSum d
    samples := sat q.samples
    depthMax := if q.depthMax.toNat < d then (if d < 2 ^ 32 then BitVec.ofNat 32 d else BitVec.allOnes 32) else q.depthMax
    depthAt := if q.depthMax.toNat < d then some s.clk else q.depthAt }

/-- R476: the egress queues' depths are sampled, every 1,024 fabric clocks. -/
def execQueueDepthSample (s : State) : Host.Outcome State Fault Refusal :=
  .next (if s.due 1 1024 then (s.took 1 1024).eachPq State.sampleOne else s)

/-- R471: the last 32 fabric clocks of a slot that a partition owns: no new REQ lookup of it begins. -/
def execGateSlotCutoff (s : State) : Host.Outcome State Fault Refusal :=
  if slotOwner s.gateSlots s.qos.gate < 32 ∧ slotLeft s.gateSlots s.qos.gate ≤ 32 then
    .next { s with qos := { s.qos with gateOpen := false } }
  else .next s

/-- R479: the reason an apply is refused: 4 NO_SHARE, 3 CIR_ABOVE_PIR, 2 ABOVE_CEILING; 1 APPLIED. -/
def State.applyResult (s : State) (p k : Nat) : Nat :=
  let c := s.ceiling p k
  let v := (s.pqos p k).staged
  if c = 0 then 4
  else if v.pir.toNat < v.cir.toNat then 3
  else if c < v.pir.toNat ∨ c < v.srate.toNat then 2 else 1

/-- R478, R479: an apply: judged at once, in force at the next refill; a refused one leaves the settings in force. -/
def State.qosApply (s : State) (p k : Nat) : State :=
  let q := s.pqos p k
  let r := s.applyResult p k
  if r = 1 then s.setPqos p k { q with result := 1, applyDue := true, applied := q.staged }
  else
    let s1 := s.setPqos p k { q with result := BitVec.ofNat 4 r }
    { s1 with qos := { s1.qos with evstat := true, refused := sat s1.qos.refused } }

end Sys2Proof.Machine
end

