-- ==== Sys2Proof/Machine/Dram.lean ====
section
/-! DEFINITION. The DRAM controllers (R403–R431), the checks of DRAM lines (R435–R438, R442, R447), rank retirement
(R422–R426), the read-modify-write unit (R419, R420) and the scrubbers (R450–R452). Command scheduling below a line
access is timing; the model keeps what it leaves behind: queues, open rows, refresh debts, alerts. -/

namespace Sys2Proof.Machine
open Sys2Proof

/-! ### Places -/

/-- R404: fabric clocks in `n` memory clocks at the channel's speed. -/
def Chan.memClk (c : Chan) (n : Nat) : Nat :=
  match c.speed.toNat with
  | 0 => n * 3 / 2
  | 1 => n * 2
  | _ => n * 3

/-- R422, R437: of the fabric clocks of events, those of the last 2^32 memory clocks. -/
def Chan.within (c : Chan) (clk : Nat) (l : List Nat) : List Nat := l.filter fun x => decide (clk < x + c.memClk (2 ^ 32))

/-- R405: for one set on channel `ch`: its base on the channel, population, granule and the channel's place in it. -/
def setOnChan (l : Layout) (t : Ilv) (ch : Nat) : Nat × Nat × Nat × Nat :=
  let chs := lowBits 32 t.channels.toNat
  let cb := (l.sets.filter fun v => decide (v.base < t.base) && v.channels.getLsbD ch).foldl
    (fun acc v => acc + v.size / (lowBits 32 v.channels.toNat).length) 0
  (cb, chs.length, granuleOf t.granule, (chs.takeWhile fun c => c != ch).length)

/-- The pool address that R405 and R406 place at offset q of rank r of a channel; none where no set lies. -/
def State.paOf (s : State) (ch r q : Nat) : Option Nat :=
  let c := s.chan ch
  let l := s.lay.getD Layout.reset
  let cap := gib * c.dimm.rankGib.toNat
  let ix := (c.logical.zipIdx.find? fun (x, _) => c.rankAt x q == r).map (·.2)
  match ix with
  | none => none
  | some i =>
    let a := i * cap + q
    l.sets.findSome? fun t =>
      if !t.channels.getLsbD ch then none
      else
        let (cb, n, g, k) := setOnChan l t ch
        if n = 0 then none
        else if cb ≤ a ∧ a < cb + t.size / n then some (t.base + ((a - cb) / g * n + k) * g + (a - cb) % g) else none

/-- R424: whether a location waits for the chunk of a running migration that is being copied. -/
def Chan.inChunk (c : Chan) (loc : Nat) : Bool :=
  match c.migr with
  | some (f, n) => locRank loc == f && locQ loc / 16384 == n
  | none => false

/-- R430: whether a command bus of the channel retrains. -/
def Chan.catrain (c : Chan) : Bool := c.subA.catrain || c.subB.catrain

/-- R409, R413, R416, R424: whether the controller performs accesses to a location now. -/
def State.dramReady (s : State) (loc : Nat) : Bool :=
  let c := s.chan (locChan loc)
  decide (c.st = .run) && !(c.sub (locSub loc)).catrain && !c.halted && !c.inChunk loc

/-- R415, R416: n commands of a subchannel have retired: no alert stands in a row, and 2^24 of them after a retraining show that it did not
fail. -/
def SubCh.retire (u : SubCh) (n : Nat) : SubCh :=
  if n = 0 then u
  else
    let k := min (u.retired + n) (2 ^ 24)
    { u with
      alerts := 0
      retired := k
      retrained := u.retrained && decide (k < 2 ^ 24)
      catFails := if u.retrained && decide (k = 2 ^ 24) then 0 else u.catFails }

/-- R415: whether a command in the retry buffer has not retired: 24 memory clocks since its issue have not passed. -/
def Chan.young (c : Chan) (clk : Nat) (x : Option Nat × Nat) : Bool := decide (clk < x.2 + c.memClk 24)

/-- R415: the commands of a subchannel that have retired leave its retry buffer. -/
def Chan.settle (c : Chan) (sub clk : Nat) : Chan :=
  let u := c.sub sub
  let left := u.retry.filter (c.young clk)
  c.setSub sub ({ u with retry := left }.retire (u.retry.length - left.length))

/-- R415: whether a subchannel replays: the commands that an alert had issued again have not all retired. -/
def Chan.replays (c : Chan) (sub clk : Nat) : Bool := c.retrying && (c.sub sub).retry.any (c.young clk)

/-- R415: a command is issued: it stands in the retry buffer of 64 until it retires. -/
def SubCh.issued (u : SubCh) (loc : Option Nat) (clk : Nat) : SubCh :=
  let l := u.retry ++ [(loc, clk)]
  { u with retry := lastN 64 l }.retire (l.length - 64)

/-- R410: a column command opens its row, or with idle 0 leaves the bank closed. -/
def Chan.opened (c : Chan) (u : SubCh) (loc clk : Nat) : SubCh :=
  let b := 32 * locRank loc + locBank loc
  { u with
    open_ := if c.sched.toNat % 256 = 0 then tdel u.open_ b else tput u.open_ b (locRow loc)
    usedAt := tput u.usedAt b clk }

/-- R410, R415: a read of a location has returned, and so its command has retired, with those before it: no replay runs. -/
def Chan.accessed (c : Chan) (loc clk : Nat) : Chan :=
  let sub := locSub loc
  let u := c.opened (c.sub sub) loc clk
  { c.setSub sub ({ u with retry := [] }.retire (u.retry.length + 1)) with retrying := false }

/-- R410, R415: a write of a location is issued. -/
def Chan.wrote (c : Chan) (loc clk : Nat) : Chan :=
  let sub := locSub loc
  let c1 := c.settle sub clk
  c1.setSub sub ((c1.opened (c1.sub sub) loc clk).issued (some loc) clk)

/-! ### Checks (R435–R438, R442, R447) -/

/-- The marked device of a location's rank and subchannel. -/
def State.markAt (s : State) (loc : Nat) : Option Nat :=
  let r := tget RankS.reset (s.chan (locChan loc)).ranks (locRank loc)
  if locSub loc = 0 then r.markA else r.markB

/-- R433: the devices that an error pattern touches. -/
def errDevices (e : List (Nat × Nat)) : List Nat :=
  (List.range 10).filter fun d => (normErrs e).any fun (p, _) => deviceOf p == d

/-- R442, R453: a corrected line: counted for its rank and devices, toward marking for a device correction, and in the
owning partition's register on a fenced channel. A line outside every extent belongs to no partition. -/
def State.countCorrected (s : State) (loc : Nat) (pa : Option Nat) (e : List (Nat × Nat)) (dev : Option Nat) : State :=
  let ch := locChan loc
  let c := s.chan ch
  let r := tget RankS.reset c.ranks (locRank loc)
  let ix (d : Nat) : Nat := 10 * locSub loc + d
  let ce := (errDevices e).foldl (fun t d => tput t (ix d) (tget 0 t (ix d) + 1)) r.devCe
  let cor := match dev with
    | none => r.devCor
    | some d => tput r.devCor (ix d) ((c.within s.clk (tget [] r.devCor (ix d)) ++ [s.clk]).reverse.take 8).reverse
  let s1 := s.setChan ch { c with ranks := tput c.ranks (locRank loc) { r with
    ce := ((c.within s.clk r.ce ++ [s.clk]).reverse.take 65535).reverse, devCe := ce, devCor := cor } }
  match s1.chanPart ch with
  | none => s1
  | some p => if pa.bind s.extPart = some p then s1.countCeDram p else s1

/-- R447: the bytes of a line as a read finds them under errors that no correction removes: in the clear, the stored bytes with the errors; under
a key, what the stored bytes with the errors decrypt to. -/
def State.damaged (s : State) (pa : Nat) (data : Bytes) (e : List (Nat × Nat)) : Bytes :=
  let at_ (i : Nat) : Nat := e.foldl (fun a (p, v) => if p = i + 16 then a ^^^ v else a) 0
  let k := (s.keyAt pa).getD 0
  let bs := sealed k (pa / 64) data
  slice (opened k (pa / 64) ((List.range 64).map fun i => bs.getD i 0 ^^^ BitVec.ofNat 8 (at_ i))) 0 64

/-- R442: an uncorrectable DRAM line: poisoned where it is stored, with its data as read, and reported; `cause` as in a
POISON record. -/
def State.dramLost (s : State) (loc pa : Nat) (e : List (Nat × Nat)) (cause : Byte) : State × LineVal :=
  let v : LineVal := ⟨s.damaged pa (s.dramLine loc pa).data e, true⟩
  (((s.dramStore loc pa v).poisonRecord pa cause).logEvent 0x15 0x02 0x01 (BitVec.ofNat 64 pa) (partByte (s.extPart pa)), v)

/-- A read of a line in DRAM under an error pattern: what it delivers, with its counts and reports. A line that decodes as
poisoned is a POISON_READ and reported nowhere (R442). -/
def State.dramRead (s : State) (loc pa : Nat) (errs : List (Nat × Byte)) (cause : Byte) : State × LineVal :=
  let e := errs.map fun (p, v) => (p, v.toNat)
  let v := s.dramLine loc pa
  match dramDecode (s.markAt loc) v.poison e with
  | (_, .uncorrectable, _) => s.dramLost loc pa e cause
  | (pois, oc, left) =>
    let d := if left.isEmpty then v.data else s.damaged pa v.data left
    match pois, oc with
    | false, .corrected _ dev _ => (s.countCorrected loc (some pa) e dev, ⟨d, pois⟩)
    | _, _ => (s, ⟨d, pois⟩)

/-! ### Scheduling (R407) -/

/-- R407, R408: the wr_hi and wr_lo levels in force, and whether writes have priority at a queue of `n` lines. -/
def Chan.writesFirst (c : Chan) (was : Bool) (n : Nat) : Bool :=
  let hi := max 1 (min 64 (bitsOf c.sched.toNat 16 8))
  let lo := if hi ≤ bitsOf c.sched.toNat 8 8 then hi - 1 else bitsOf c.sched.toNat 8 8
  if hi ≤ n then true else was && decide (lo < n)

/-- Whether a location lies in an open row of its subchannel. -/
def SubCh.rowOpen (u : SubCh) (loc : Nat) : Bool :=
  let b := 32 * locRank loc + locBank loc
  thas u.open_ b && tget 0 u.open_ b == locRow loc

/-- R407: a queued request, as the rules compare it: its place in its queue, its location, whether it has waited 2,048 memory clocks, and since
when it has waited. -/
structure Cand where
  ix : Nat
  loc : Nat
  aged : Bool
  since : Nat
deriving DecidableEq, Repr

/-- R407 rules 5 and 6: of the requests of a queue, oldest first: an aged one, else one to an open row, else the oldest. -/
def SubCh.choose (u : SubCh) (l : List Cand) : Option Nat :=
  ((l.find? (·.aged)).orElse fun _ => (l.find? fun x => u.rowOpen x.loc).orElse fun _ => l.head?).map (·.ix)

/-- R419: the lines that the read-modify-write unit of a channel is to read, each with its oldest operation's place in the unit. -/
def Chan.rmwReads (c : Chan) : List (RmwOp × Nat) := c.rmw.zipIdx.filter fun (o, i) => !((c.rmw.take i).any fun x => x.line == o.line)

/-- The reads of a subchannel that a column command may serve, oldest first: the first 64 of its queue, and, numbered after the queue, those of
the read-modify-write unit; without those that a queued write answers (R408) or that wait for a chunk's copy (R424). -/
def State.readCands (s : State) (ch sub : Nat) : List Cand :=
  let c := s.chan ch
  let q := (c.sub sub).rq
  let cand (line ix since : Nat) (aged : Bool) : Option Cand := match s.locOf (line * 64) with
    | none => none
    | some loc => if locSub loc ≠ sub ∨ c.inChunk loc ∨ (s.queued loc).isSome then none else some ⟨ix, loc, aged, since⟩
  sortBy (fun a b => decide (a.since ≤ b.since))
    (((q.take 64).zipIdx.filterMap fun (r, i) => cand r.line i r.since r.aged) ++
      c.rmwReads.filterMap fun (o, i) => cand o.line (q.length + i) o.since (decide (o.since + c.memClk 2048 ≤ s.clk)))

/-- The writes of a subchannel that a column command may serve: those with no older write to their line (R408). -/
def Chan.writeCands (c : Chan) (sub : Nat) : List Cand :=
  let q := (c.sub sub).wq
  q.zipIdx.filterMap fun (w, i) =>
    if c.inChunk w.loc ∨ (q.take i).any (fun x => x.loc == w.loc) then none else some ⟨i, w.loc, w.aged, w.since⟩

/-- R407: the request that the next column command of a subchannel serves: read i (.inl) or write i (.inr). A forced refresh comes
first, and then the replay of the retry buffer, so that there is none before them. -/
def State.nextColumn (s : State) (ch sub : Nat) : Option (Nat ⊕ Nat) :=
  let c := s.chan ch
  let u := c.sub sub
  if u.unref.any (fun (_, n) => decide (4 ≤ n)) ∨ c.replays sub s.clk then none
  else
    let rs := s.readCands ch sub
    let ws := c.writeCands sub
    if rs.isEmpty ∨ c.writesFirst u.wrMode u.wq.length ∧ !ws.isEmpty then (u.choose ws).map .inr else (u.choose rs).map .inl

/-- R407, R408: whether a request's read of a line is served now: from a queued write, or by the next column command. -/
def State.readTurn (s : State) (id line loc : Nat) : Bool :=
  (s.queued loc).isSome || (match s.nextColumn (locChan loc) (locSub loc) with
    | some (.inl i) => match ((s.chan (locChan loc)).sub (locSub loc)).rq[i]? with
      | some r => r.txn == id && r.line == line
      | none => false
    | _ => false)

/-! ### Reads and withdrawals -/

/-- A request's reads taken out of every read queue. -/
def SubCh.dropReads (u : SubCh) (id : Nat) : SubCh := { u with rq := u.rq.filter fun r => r.txn != id }
def State.dropReads (s : State) (id : Nat) : State :=
  { s with chans := s.chans.map fun (k, c) => (k, { c with subA := c.subA.dropReads id, subB := c.subB.dropReads id }) }

/-- The first of a request's lines whose read is queued and served now, with its location. -/
def State.firstRead (s : State) (t : Txn) : Option (Nat × Nat) :=
  (s.txnLines t).findSome? fun a => match s.locOf a with
    | none => none
    | some loc =>
      if ((s.chan (locChan loc)).sub (locSub loc)).rq.any (fun r => r.txn == t.id && r.line == a / 64) ∧
        s.readTurn t.id (a / 64) loc then some (a, loc)
      else none

/-- The lines of a request whose reads are queued. -/
def State.readsOf (s : State) (t : Txn) : List Nat :=
  (s.txnLines t).filter fun a => match s.locOf a with
    | none => false
    | some loc => ((s.chan (locChan loc)).sub (locSub loc)).rq.any fun r => r.txn == t.id && r.line == a / 64

/-- R407: one read of a request leaves its queue. -/
def State.popRead (s : State) (id pa loc : Nat) : State :=
  let ch := locChan loc
  let c := s.chan ch
  let u := c.sub (locSub loc)
  s.setChan ch (c.setSub (locSub loc) { u with rq := u.rq.filter fun r => !(r.txn == id && r.line == pa / 64) })

/-- R390, R408, R418, R435, R447: the read of a request's next line returns: from the newest queued write, or from DRAM
checked and decrypted; it is installed clean, unless a write has brought the line into the cache meanwhile; and when no line is missing the
request is performed. -/
def State.readDone (s : State) (id : Nat) (errs : List (Nat × Byte)) : State :=
  match s.txn id with
  | none => s
  | some t =>
    match s.firstRead t with
    | none => s
    | some (pa, loc) =>
      if t.phase ≠ .dram ∨ !s.dramReady loc then s
      else if (s.keyAt pa).isNone then (s.dropReads id).answer t (Ans.cmp .keyLost)
      else
        let s1 := s.popRead id pa loc
        let s2 := if (s1.cached pa).isSome ∨ (s1.waiting pa).isSome ∨ (s1.victim pa).isSome then s1 else match s1.queued loc with
          | some w => s1.install pa ⟨w.data, w.poison⟩ false s1.busyLines
          | none =>
            let s1 := s1.setChan (locChan loc) ((s1.chan (locChan loc)).accessed loc s1.clk)
            let (s2, v) := s1.dramRead loc pa errs 0x03
            s2.install pa v false s2.busyLines
        if (s2.readsOf t).isEmpty then s2.perform t else s2

/-- R390: the line read of transaction `id` returns. -/
def execDramReadComplete (id : Nat) (errs : List (Nat × Byte)) (s : State) : Host.Outcome State Fault Refusal :=
  .next (s.readDone id errs)

/-- R409: the fabric clock at which the controller received the oldest access of a request that waits on DRAM. -/
def State.accessSince (s : State) (t : Txn) : Option Nat :=
  let rs := s.chans.flatMap fun (_, c) =>
    ((c.subA.rq ++ c.subB.rq).filter fun r => r.txn == t.id).map (·.since) ++
      ((c.rmw ++ c.rmwIn).filter fun r => r.txn == t.id).map (·.since)
  rs.foldl (fun a x => match a with | none => some x | some y => some (min x y)) none

/-- The accesses of a request taken back from every controller. -/
def State.withdraw (s : State) (id : Nat) : State :=
  let s1 := s.dropReads id
  { s1 with chans := s1.chans.map fun (k, c) => (k, { c with
      rmw := c.rmw.filter fun r => r.txn != id
      rmwIn := c.rmwIn.filter fun r => r.txn != id }.rmwFill) }

/-- R409: an access not performed within 25 µs is withdrawn, and its request is answered TIMEOUT, unapplied. -/
def execDramAccessWithdrawn (id : Nat) (s : State) : Host.Outcome State Fault Refusal :=
  match s.txn id with
  | none => .next s
  | some t => match s.accessSince t with
    | none => .next s
    | some c => if 60000 + c ≤ s.clk then .next ((s.withdraw id).answer t (Ans.cmp .timeout)) else .next s

/-! ### Writes -/

/-- R217, R391: the lines that wait to be installed at a sett, and then its parked requests, compete for the places that have become free. -/
def State.wakeSett (s : State) (n : Nat) : State :=
  let s1 := s.installWaiting n s.busyLines
  (s1.parkedIn n).foldl (fun s t => s.retry t.id) s1

/-- R391: a victim's write enters its subchannel's write queue, which frees its entry of the victim buffer and wakes
installs that wait. An older victim of its line goes before it; a full queue, or a controller that takes no writes, leaves it; a FAILED
channel discards it. -/
def State.victimQueued (s : State) (n i : Nat) : State :=
  let t := s.sett n
  match t.victims[i]? with
  | none => s
  | some v =>
    if (t.victims.take i).any fun x => x.line == v.line then s else
    let pa := v.line * 64
    let free (s : State) : State :=
      let t := s.sett n
      s.setSett n { t with victims := dropAt t.victims i }
    match s.locOf pa with
    | none => free s
    | some loc =>
      let c := s.chan (locChan loc)
      if c.st = .failed then (free s).wakeSett n
      else if c.st ≠ .run ∨ 64 ≤ (c.sub (locSub loc)).wq.length then s
      else
        let s1 := free (s.pushWrite pa ⟨v.c.data, v.c.poison⟩)
        let s2 : State := { s1 with bur := { s1.bur with victims := sat s1.bur.victims } }
        s2.wakeSett n

def execVictimQueued (sett i : Nat) (s : State) : Host.Outcome State Fault Refusal := .next (s.victimQueued sett i)

/-- R407, R408: write i of a subchannel is performed, when it is its turn: not before an older write of its line, and R415: it stays in the retry
buffer of 64 commands until a later command retires. -/
def State.writePerformed (s : State) (ch sub i : Nat) : State :=
  let u := (s.chan ch).sub sub
  match u.wq[i]? with
  | none => s
  | some w =>
    if !s.dramReady w.loc ∨ s.nextColumn ch sub ≠ some (.inr i) then s
    else
      let s1 := s.performWrite ch sub i
      let c := (s1.chan ch).wrote w.loc s1.clk
      let u1 := c.sub sub
      s1.setChan ch (c.setSub sub { u1 with
        wrMode := c.writesFirst (c.writesFirst u.wrMode u.wq.length) u1.wq.length })

def execDramWritePerformed (ch sub i : Nat) (s : State) : Host.Outcome State Fault Refusal :=
  .next (s.writePerformed ch sub i)

/-- Every queued write of a channel performed, oldest first; `n` bounds their number. -/
def State.drainWrites (s : State) (ch sub : Nat) : Nat → State
  | 0 => s
  | n + 1 => if ((s.chan ch).sub sub).wq.isEmpty then s else (s.performWrite ch sub 0).drainWrites ch sub n

/-! ### The read-modify-write unit (R419, R420) -/

/-- R419, R222, R257: one queued operation on the line's value: the value after it, its answer, and R264's check. A
poisoned contribution poisons the line (R260). -/
def State.rmwOp (s : State) (pa : Nat) (v : LineVal) (id : Nat) : State × LineVal :=
  match s.txn id with
  | none => (s, v)
  | some t =>
    if t.ty = .atomic then
      let (v1, a) := s.atomOn t pa v
      let (s1, l) := s.counterStep pa v1.data
      ((s1.watchLine pa v.data v1.data).answer t a, ⟨l, v1.poison⟩)
    else
      let (v1, a, rec_) := accOn t v
      let s1 := if rec_ then s.poisonRecord pa 0x07 else s
      let (s2, l) := s1.counterStep pa v1.data
      (s2.answer t a, ⟨l, v1.poison⟩)

/-- R407, R408: whether the read of a batch's line is served now: from a queued write, or by the next column command. -/
def State.rmwTurn (s : State) (line loc : Nat) : Bool :=
  let c := s.chan (locChan loc)
  (s.queued loc).isSome || (match s.nextColumn (locChan loc) (locSub loc) with
    | some (.inl i) => c.rmwReads.any fun (o, k) => o.line == line && i == (c.sub (locSub loc)).rq.length + k
    | _ => false)

/-- R419, R420: the batch of a line: its read, its operations in arrival order, and its write. -/
def State.rmwRun (s : State) (line : Nat) (errs : List (Nat × Byte)) : State :=
  let pa := line * 64
  match s.locOf pa with
  | none => s
  | some loc =>
    let ch := locChan loc
    let c := s.chan ch
    let ops := c.rmw.filter fun r => r.line == line
    if ops.isEmpty then s
    else
      let s0 := s.setChan ch { c with rmw := c.rmw.filter fun r => r.line != line }.rmwFill
      let all (s : State) (st : Status) : State :=
        ops.foldl (fun s o => match s.txn o.txn with | none => s | some t => s.answer t (Ans.cmp st)) s
      if (s0.keyAt pa).isNone then all s0 .keyLost
      else
        let (s1, v) := match s0.queued loc with
          | some w => (s0, (⟨w.data, w.poison⟩ : LineVal))
          | none => (s0.setChan ch ((s0.chan ch).accessed loc s0.clk)).dramRead loc pa errs 0x03
        if v.poison then all s1 .poisoned
        else
          let (s2, v2) := ops.foldl (fun (a : State × LineVal) o => a.1.rmwOp pa a.2 o.txn) (s1, v)
          s2.pushWrite pa v2

/-- R407, R419, R420: the batch of a line ends, when its read is served and its write finds room. -/
def State.rmwBatch (s : State) (line : Nat) (errs : List (Nat × Byte)) : State :=
  match s.locOf (line * 64) with
  | none => s
  | some loc =>
    if !s.dramReady loc ∨ 64 ≤ ((s.chan (locChan loc)).sub (locSub loc)).wq.length ∨ !s.rmwTurn line loc then s else s.rmwRun line errs

/-- R419: the batch of a line ends. -/
def execRmwBatchDone (line : Nat) (errs : List (Nat × Byte)) (s : State) : Host.Outcome State Fault Refusal :=
  .next (s.rmwBatch line errs)

/-! ### Aging, banks, refresh -/

/-- R407: a request (read i, or write i beyond the reads) that has waited 2,048 memory clocks. -/
def State.requestAged (s : State) (ch sub i : Nat) : State :=
  let c := s.chan ch
  let u := c.sub sub
  let due (t : Nat) : Bool := decide (t + c.memClk 2048 ≤ s.clk)
  s.setChan ch (c.setSub sub { u with
    rq := modAt u.rq i fun r => if due r.since then { r with aged := true } else r
    wq := if i < u.rq.length then u.wq else modAt u.wq (i - u.rq.length) fun w => if due w.since then { w with aged := true } else w })

def execRequestAged (ch sub i : Nat) (s : State) : Host.Outcome State Fault Refusal := .next (s.requestAged ch sub i)

/-- The locations that a subchannel's queued requests name, those of the read-modify-write unit among them. -/
def State.queuedLocs (s : State) (ch sub : Nat) : List Nat :=
  let u := (s.chan ch).sub sub
  u.wq.map (·.loc) ++ (u.rq.filterMap fun r => s.locOf (r.line * 64)) ++
    ((s.chan ch).rmw.filterMap fun o => s.locOf (o.line * 64)).filter fun l => locSub l == sub

/-- R410: an open bank that has had no request for its open row for idle memory clocks is precharged. -/
def State.bankIdle (s : State) (ch sub rank bank : Nat) : State :=
  let c := s.chan ch
  let u := c.sub sub
  let k := 32 * rank + bank
  if (s.queuedLocs ch sub).any (fun l => locRank l == rank && locBank l == bank && some (locRow l) == (if thas u.open_ k then some (tget 0 u.open_ k) else none)) ∨
      s.clk < tget 0 u.usedAt k + c.memClk (c.sched.toNat % 256)
  then s
  else s.setChan ch (c.setSub sub { u with open_ := tdel u.open_ k, usedAt := tdel u.usedAt k })

def execBankIdlePrecharge (ch sub rank bank : Nat) (s : State) : Host.Outcome State Fault Refusal :=
  .next (s.bankIdle ch sub rank bank)

/-- R411: the eight banks of bank index b of a rank, one per bank group. -/
def refBanks (rank b : Nat) : List Nat := (List.range 8).map fun g => 32 * rank + 4 * g + b

/-- R411, R412: a rank's refresh interval in fabric clocks: trefi, halved while the rank shows a doubled rate. -/
def Chan.refi (c : Chan) (rank : Nat) : Nat :=
  let n := bitsOf (c.tim.getD 3 0).toNat 16 16
  c.memClk (if (tget RankS.reset c.ranks rank).doubled then n / 2 else n)

/-- R411: a bank index is due, one tREFI after it was last: the refresh is sent if its banks are closed and idle; otherwise one more
tREFI passes without it. A controller in self-refresh, or retraining, sends none (R413, R416). -/
def State.refreshDue (s : State) (ch sub rank b : Nat) : State :=
  let c := s.chan ch
  let u := c.sub sub
  if c.st ≠ .run ∨ s.clk < tget 0 u.refAt (4 * rank + b) + c.refi rank then s
  else
    let busy := u.catrain || (refBanks rank b).any (thas u.open_) ||
      (s.queuedLocs ch sub).any fun l => (refBanks rank b).contains (32 * locRank l + locBank l)
    s.setChan ch (c.setSub sub
      (let v := { u with
        refAt := tput u.refAt (4 * rank + b) s.clk
        unref := if busy then tput u.unref (4 * rank + b) (tget 0 u.unref (4 * rank + b) + 1) else tdel u.unref (4 * rank + b) }
       if busy then v else v.issued none s.clk))

def execRefreshDue (ch sub rank bank : Nat) (s : State) : Host.Outcome State Fault Refusal :=
  .next (s.refreshDue ch sub rank bank)

/-- R411: a bank index unrefreshed for four tREFI is forced: its banks are closed, it is refreshed, and counted. -/
def State.refreshForced (s : State) (ch sub rank b : Nat) : State :=
  let c := s.chan ch
  let u := c.sub sub
  if c.st = .run ∧ !u.catrain ∧ 4 ≤ tget 0 u.unref (4 * rank + b) then
    s.setChan ch { c.setSub sub ({ u with
        open_ := (refBanks rank b).foldl tdel u.open_
        unref := tdel u.unref (4 * rank + b) }.issued none s.clk) with
      refForced := sat c.refForced
      evstat := setBit c.evstat 3 }
  else s

def execRefreshForced (ch sub rank bank : Nat) (s : State) : Host.Outcome State Fault Refusal :=
  .next (s.refreshForced ch sub rank bank)

/-- R412: mode register 4 of a rank, as read every 1 ms. A read that a replay or a retraining of the command bus meets is repeated after it: the
command then comes again. -/
def execMr4Poll (ch rank : Nat) (doubled : Bool) (s : State) : Host.Outcome State Fault Refusal :=
  let c := s.chan ch
  let r := tget RankS.reset c.ranks rank
  .next (if c.st = .run ∧ !c.catrain ∧ !c.replays 0 s.clk ∧ !c.replays 1 s.clk ∧ 2400000 + r.mr4At ≤ s.clk then
    s.setChan ch { c with ranks := tput c.ranks rank { r with doubled := doubled, mr4At := s.clk } } else s)

/-! ### Alerts and retraining (R415, R416) -/

/-- R430: the limits, 0 acting as 1. -/
def Chan.retryLimit (c : Chan) : Nat := max 1 (c.retryCfg.toNat % 16)
def Chan.catLimit (c : Chan) : Nat := max 1 (bitsOf c.retryCfg.toNat 4 4)

/-- R415: the commands of a retry buffer issued again in their order: each column command after the activate that it needs. -/
def Chan.reissued (c : Chan) (u : SubCh) (clk : Nat) : SubCh :=
  let v := u.retry.foldl (fun v x => match x.1 with
    | none => v
    | some loc => c.opened v loc clk) { u with open_ := [] }
  { v with retry := u.retry.map fun x => (x.1, clk) }

/-- R415, R416: an alert: counted, in a row with those since which no command has retired; every bank precharged, and the unretired commands
issued again. Reissued writes store the same data in the same place. A read's command stands in its queue until its data has returned, and is
read again. -/
def State.dramAlert (s : State) (ch sub : Nat) : State :=
  let c := (s.chan ch).settle sub s.clk
  let u := c.sub sub
  if c.st ≠ .run ∨ u.catrain then s
  else s.setChan ch { c.setSub sub { c.reissued u s.clk with alerts := u.alerts + 1 } with
    alerts := sat c.alerts
    evstat := setBit c.evstat 0
    retrying := true }

def execDramAlert (ch sub : Nat) (s : State) : Host.Outcome State Fault Refusal := .next (s.dramAlert ch sub)

/-- The partitions that have an extent on a channel. -/
def State.partsOn (s : State) (ch : Nat) : List Nat :=
  let l := s.lay.getD Layout.reset
  s.partList.filter fun p => (s.extents p).any fun (b, n) =>
    l.sets.any fun t => t.channels.getLsbD ch && decide (b < t.base + t.size) && decide (t.base < b + n)

/-- R416: a channel becomes FAILED: every request waiting on it is answered UNAVAILABLE, dirty victims for it are
discarded, and it is recorded. -/
def State.channelFailed (s : State) (ch : Nat) : State :=
  let c := s.chan ch
  let ids := ((c.subA.rq ++ c.subB.rq).map (·.txn) ++ (c.rmw ++ c.rmwIn).map (·.txn)).foldl
    (fun acc i => if acc.contains i then acc else acc ++ [i]) []
  let gone (u : SubCh) : SubCh := { u with rq := [], wq := [], retry := [], catrain := false }
  let s1 := s.setChan ch { c with
    st := .failed
    retrying := false
    subA := gone c.subA
    subB := gone c.subB
    rmw := []
    rmwIn := []
    chfails := sat c.chfails
    evstat := setBit c.evstat 2 }
  let gone (l : Nat) : Bool := match s.locOf (l * 64) with | none => false | some k => locChan k == ch
  let s2 : State := { s1 with setts := s1.setts.map fun (n, t) => (n, { t with
      victims := t.victims.filter fun v => !gone v.line }) }
  let s3 := ids.foldl (fun s i => match s.txn i with
    | none => s
    | some t => (s.withdraw i).answer t (Ans.cmp .unavailable)) s2
  let s4 := s3.ledgerAdd 9 (ledgerNums [ch, 0x416])
  let s4 := if (s4.partsOn ch).isEmpty then s4.logEvent 0x02 0x03 (BitVec.ofNat 8 ch) 0 0xFF else s4
  (s4.partsOn ch).foldl (fun s p => s.ringRecord p 0x02 0x03 (BitVec.ofNat 8 ch) 0) s4

/-- R416: one more failed retraining of a subchannel's command bus: the channel fails at the limit. -/
def State.retrainFailed (s : State) (ch sub : Nat) : State × Bool :=
  let c := s.chan ch
  let u := c.sub sub
  let s1 := s.setChan ch (c.setSub sub { u with catFails := u.catFails + 1 })
  if c.catLimit ≤ u.catFails + 1 then (s1.channelFailed ch, true) else (s1, false)

/-- R416: the command bus of a subchannel starts to retrain; its requests are held. -/
def State.retrainStarts (s : State) (ch sub : Nat) : State :=
  let c := s.chan ch
  s.setChan ch { c.setSub sub { c.sub sub with catrain := true, catAt := s.clk, alerts := 0 } with
    catrains := sat c.catrains
    evstat := setBit c.evstat 1 }

/-- R416: retry_limit alerts in a row start a retraining; within 2^24 retired commands of the last one they show that it
failed. -/
def State.caStart (s : State) (ch : Nat) : State :=
  [0, 1].foldl (fun s sub =>
    let c := s.chan ch
    let u := c.sub sub
    if c.st = .run ∧ !u.catrain ∧ c.retryLimit ≤ u.alerts then
      if u.retrained then
        let (s1, dead) := s.retrainFailed ch sub
        if dead then s1 else s1.retrainStarts ch sub
      else s.retrainStarts ch sub
    else s) s

def execCaRetrainStart (ch : Nat) (s : State) : Host.Outcome State Fault Refusal := .next (s.caStart ch)

/-- R416: the subchannel whose retraining ends: the one that started first. -/
def Chan.catSub (c : Chan) : Nat := if c.subA.catrain && (!c.subB.catrain || decide (c.subA.catAt ≤ c.subB.catAt)) then 0 else 1

/-! ### Hold (R413, R430) -/

/-- Every batch of the unit performed, and the queued writes before and after each; `n` bounds the number of batches. -/
def State.drainRmw (s : State) (ch : Nat) : Nat → State
  | 0 => (s.drainWrites ch 0 128).drainWrites ch 1 128
  | n + 1 => match (s.chan ch).rmw with
    | [] => (s.drainWrites ch 0 128).drainWrites ch 1 128
    | r :: _ => (((s.drainWrites ch 0 128).drainWrites ch 1 128).rmwRun r.line []).drainRmw ch n

/-- R413: the controller drains its write queues and its read-modify-write unit, and closes every bank. -/
def State.drainChan (s : State) (ch : Nat) : State :=
  let s1 := s.drainRmw ch (((s.chan ch).rmw ++ (s.chan ch).rmwIn).length)
  let c := s1.chan ch
  s1.setChan ch { c with
    subA := { c.subA with open_ := [], wrMode := false }
    subB := { c.subB with open_ := [], wrMode := false } }

/-- R413, R416, R424: whether a controller can drain its queues and its read-modify-write unit now: no command bus retrains, and nothing in them
waits for a chunk's copy. -/
def State.canDrain (s : State) (ch : Nat) : Bool :=
  let c := s.chan ch
  !c.catrain && !c.halted && !((c.subA.wq ++ c.subB.wq).any fun w => c.inChunk w.loc) &&
    !((c.rmw ++ c.rmwIn).any fun o => (s.locOf (o.line * 64)).any c.inChunk)

/-- R413: a controller under hold enters self-refresh, as soon as it can drain. -/
def State.tryHold (s : State) (ch : Nat) : State :=
  let c := s.chan ch
  if c.hold ∧ c.st = .run ∧ s.canDrain ch then
    let s2 := s.drainChan ch
    (s2.setChan ch { s2.chan ch with st := .held }).scrubPause ch
  else s

/-- R430: a keyed write of hold. -/
def State.drcHold (s : State) (ch : Nat) (v : Bool) : State :=
  let c := s.chan ch
  let s1 := s.setChan ch { c with hold := v }
  if v ∧ c.st = .run then s1.tryHold ch
  else if !v ∧ c.st = .held then (s1.setChan ch { s1.chan ch with st := .run }).scrubResume ch
  else s1

/-- R415, R416: a retraining ends, and the commands that had not retired are issued again; or it does not finish, and the next one starts
unless the channel has failed. -/
def State.caEnd (s : State) (ch : Nat) (ok : Bool) : State :=
  let c := s.chan ch
  let sub := c.catSub
  let u := c.sub sub
  if !u.catrain then s
  else if ok then
    (s.setChan ch (c.setSub sub { c.reissued u s.clk with catrain := false, retrained := true, retired := 0 })).tryHold ch
  else
    let (s1, dead) := s.retrainFailed ch sub
    if dead then s1 else s1.retrainStarts ch sub

def execCaRetrainEnd (ch : Nat) (ok : Bool) (s : State) : Host.Outcome State Fault Refusal := .next (s.caEnd ch ok)

/-- R431: a keyed write of DRC_TIM r takes effect in HELD, and is refused and counted otherwise. -/
def State.drcTiming (s : State) (ch r : Nat) (v : W32) : State :=
  let c := s.chan ch
  if c.st = .held then s.setChan ch { c with tim := modAt c.tim r fun _ => v }
  else s.setChan ch { c with timRefused := sat c.timRefused, evstat := setBit c.evstat 5 }

/-! ### Rank retirement (R422–R426) -/

/-- R423: why a migration of a rank is refused: 3 NO_SPARE, 4 BAD_RANK, 5 BUSY; 1 when it starts. -/
def Chan.spareCheck (c : Chan) (rank : Nat) : Nat :=
  if !c.spareV ∨ c.split.isSome then 3
  else if c.spare.toNat = rank ∨ !c.dimm.present.getLsbD rank ∨ c.out.getLsbD rank then 4
  else if c.migr.isSome then 5 else 1

/-- R422–R424: a migration starts, or is refused with its reason; one refused under auto is logged (R426). -/
def State.startMigration (s : State) (ch rank : Nat) (auto_ : Bool) : State :=
  let c := s.chan ch
  let r := c.spareCheck rank
  if r = 1 then
    s.setChan ch { c with migr := some (rank, 0), spareRes := 1, spareFrom := BitVec.ofNat 2 rank, spareDone := 0 }
  else
    let s1 := s.setChan ch { c with spareRes := BitVec.ofNat 4 r }
    if auto_ then s1.logPlain 0x17 (BitVec.ofNat 8 r) else s1

/-- R430: auto and ce_limit. -/
def Chan.auto_ (c : Chan) : Bool := c.spareCfg.getLsbD 31

/-- R422: a rank's corrected errors reach ce_limit within 2^32 memory clocks. -/
def State.ceLimit (s : State) (ch rank : Nat) : State :=
  let c := s.chan ch
  let r := tget RankS.reset c.ranks rank
  if c.auto_ ∧ c.spareCfg.toNat % 65536 ≤ (c.within s.clk r.ce).length then
    (s.setChan ch { c with ranks := tput c.ranks rank { r with ce := [] } }).startMigration ch rank true
  else s

def execCeLimitReached (ch rank : Nat) (s : State) : Host.Outcome State Fault Refusal := .next (s.ceLimit ch rank)

/-- R437: a device is marked: recorded in the ledger and the log, and a migration starts under auto; a second device of
the rank and subchannel is not marked, which is logged. -/
def State.deviceMark (s : State) (ch rank sub dev : Nat) (byOwl : Bool) : State :=
  let c := s.chan ch
  let r := tget RankS.reset c.ranks rank
  let k := 10 * sub + dev
  if byOwl ∨ 8 ≤ (c.within s.clk (tget [] r.devCor k)).length then
    let r1 := { r with devCor := tdel r.devCor k }
    match (if sub = 0 then r.markA else r.markB) with
    | some d =>
      let s1 := s.setChan ch { c with ranks := tput c.ranks rank r1 }
      if d = dev then s1 else s1.logPlain 0x16 2
    | none =>
      let r2 := if sub = 0 then { r1 with markA := some dev } else { r1 with markB := some dev }
      let s1 := ((s.setChan ch { c with ranks := tput c.ranks rank r2 }).ledgerAdd 3 (ledgerNums [ch, rank, sub, dev])).logPlain 0x16 1
      if c.auto_ then s1.startMigration ch rank true else s1
  else s

def execDeviceMark (ch rank sub dev : Nat) (byOwl : Bool) (s : State) : Host.Outcome State Fault Refusal :=
  .next (s.deviceMark ch rank sub dev byOwl)

/-- The cells, poison marks and key tags of [a, a + n) copied to b; `pa` gives the address of an offset. A line keeps the tag
that a fill of its segment gave it. -/
def State.copyDram (s : State) (a b n : Nat) (pa : Nat → Option Nat) : State :=
  let cells := s.dram.filter fun c => decide (a ≤ c.1) && decide (c.1 < a + n)
  let inR (l : Nat) : Bool := decide (a / 64 ≤ l) && decide (l < (a + n) / 64)
  let out (l : Nat) : Bool := !(decide (b / 64 ≤ l) && decide (l < (b + n) / 64))
  { s with
    dram := cells.foldl (fun m c => cput m (c.1 - a + b) c.2) (czero s.dram b n)
    dramPois := (s.dramPois.filter out) ++ (s.dramPois.filter inR).map fun l => l - a / 64 + b / 64
    dramKey :=
      let kept := s.dramKey.filter fun e => out e.1
      if s.fills.any fun f => f.1.isSome then
        (List.range (n / 64)).foldl (fun t i => tput t (b / 64 + i) (s.storedKey (a + 64 * i) ((pa (64 * i)).getD (2 ^ 48)))) kept
      else (s.dramKey.filter fun e => inR e.1).foldl (fun t e => tput t (e.1 - a / 64 + b / 64) e.2) kept }

/-- R424: an uncorrectable line of the chunk: poisoned on the spare, with bytes the manual does not state, and
recorded. -/
def State.chunkLost (s : State) (ch q : Nat) : State :=
  let spare := (s.chan ch).spare.toNat
  let (x, s1) := s.drawBits 512
  let v : LineVal := ⟨toLe 64 x.toNat, true⟩
  match s1.paOf ch spare q with
  | none =>
    let loc := locKey ch spare q
    ({ s1 with dramPois := loc / 64 :: without s1.dramPois (loc / 64) } : State).logEvent 0x15 0x02 0x01 0 0xFF
  | some pa =>
    ((s1.dramStore (locKey ch spare q) pa v).poisonRecord pa 0x04).logEvent 0x15 0x02 0x01 (BitVec.ofNat 64 pa)
      (partByte (s1.extPart pa))

/-- R424: queued writes of the copied chunk follow it to the spare. -/
def SubCh.moveWrites (u : SubCh) (a b n : Nat) : SubCh :=
  { u with wq := u.wq.map fun w => if a ≤ w.loc ∧ w.loc < a + n then { w with loc := w.loc - a + b } else w }

/-- R425: a migration ends. -/
def State.migrationEnds (s : State) (ch f : Nat) : State :=
  let c := s.chan ch
  (s.setChan ch { c with
    migr := none
    served := tput c.served f c.spare.toNat
    out := setBit c.out f
    spareV := false
    spareRes := 2
    migrations := sat c.migrations
    evstat := setBit c.evstat 4 }).ledgerAdd 4 (ledgerNums [ch, f, 2])

/-- R424, R442: a line of the chunk, read with the error pattern `e`: one that is uncorrectable is lost, and a correction counts as on any read
(R451). -/
def State.chunkLine (s : State) (ch f l : Nat) (errs : List (Nat × Byte)) : State :=
  let e := errs.map fun (p, v) => (p, v.toNat)
  let loc := locKey ch f (64 * l)
  match dramCheck (s.markAt loc) (s.dramPois.contains (loc / 64)) e with
  | (_, .uncorrectable) => s.chunkLost ch (64 * l)
  | (false, .corrected _ dev _) => s.countCorrected loc (s.paOf ch f (64 * l)) e dev
  | _ => s

/-- R424–R426: a 16 KiB chunk has been copied to the spare, or a write of the spare has failed its check. `errs` gives the errors found in
lines of the rank, by line number. -/
def State.chunkDone (s : State) (ch : Nat) (errs : List (Nat × List (Nat × Byte))) (writeFail : Bool) : State :=
  let c := s.chan ch
  match c.migr with
  | none => s
  | some (f, n) =>
    if c.st ≠ .run ∨ c.migPaused ∨ c.catrain ∨ c.replays 0 s.clk ∨ c.replays 1 s.clk then s
    else if writeFail then
      (s.setChan ch { c with
        migr := none
        split := some (f, n)
        spareV := false
        spareRes := 6
        migrations := sat c.migrations
        evstat := setBit c.evstat 4 }).logPlain 0x17 6
    else
      let a := locKey ch f (16384 * n)
      let b := locKey ch c.spare.toNat (16384 * n)
      let c1 := { c with
        migr := some (f, n + 1)
        spareDone := BitVec.ofNat 20 ((n + 1) / 64)
        subA := c.subA.moveWrites a b 16384
        subB := c.subB.moveWrites a b 16384 }
      let s1 := (s.copyDram a b 16384 fun o => s.paOf ch f (16384 * n + o)).setChan ch c1
      let s2 := (errs.filter fun x => decide (256 * n ≤ x.1) && decide (x.1 < 256 * (n + 1))).foldl
        (fun s x => s.chunkLine ch f x.1 x.2) s1
      (if 65536 * c.dimm.rankGib.toNat ≤ n + 1 then s2.migrationEnds ch f else s2).tryHold ch

def execMigrationChunkDone (ch : Nat) (errs : List (Nat × List (Nat × Byte))) (writeFail : Bool) (s : State) : Host.Outcome State Fault Refusal :=
  .next (s.chunkDone ch errs writeFail)

/-! ### The scrubbers (R450–R452) -/

/-- R450: the ranks a channel's scrubber walks. -/
def Chan.scrubRanks (c : Chan) : List Nat :=
  (List.range 4).filter fun r => c.dimm.present.getLsbD r && !c.out.getLsbD r &&
    !(match c.migr with | some (f, _) => f == r | none => false)

/-- R452: a scrubber has read a line at subchannel or die d: it goes on at position `next`, or the lap is recorded and the next begins. -/
def State.scrubStep (s : State) (u d next : Nat) (lap : Bool) : State :=
  let x0 := s.scrub u
  let x := { x0 with readAt := tput x0.readAt d s.clk, idleAt := s.clk }
  if !lap then s.setScrub u { x with pos := next }
  else s.setScrub u { x with
    pos := 0
    laps := sat x.laps
    lapMs := BitVec.ofNat 32 (min (2 ^ 32 - 1) ((s.clk - x.lapAt) / 2400000))
    lapAt := s.clk
    lapLogged := false }

/-- R450, R470: whether a GATE slot owned by 0x3E is in force. -/
def State.scrubSlot (s : State) : Bool :=
  !s.gateSlots.isEmpty && slotOwner s.gateSlots s.qos.gate == 0x3E

/-- R408: the queued writes of a location performed, oldest first; `n` bounds their number. -/
def State.performWritesOf (s : State) (loc : Nat) : Nat → State
  | 0 => s
  | n + 1 => match ((s.chan (locChan loc)).sub (locSub loc)).wq.findIdx? fun w => w.loc / 64 == loc / 64 with
    | none => s
    | some i => (s.performWrite (locChan loc) (locSub loc) i).performWritesOf loc n

/-- R451, R442: the outcome of a scrubber's read of a DRAM line. The cached copy that replaces a bad line lands after the writes of the line
that are queued, and stays dirty while an older victim of the line is still to land. -/
def State.scrubLine (s : State) (u loc : Nat) (pa : Option Nat) (errs : List (Nat × Byte)) : State :=
  let e := errs.map fun (p, v) => (p, v.toNat)
  let stored := s.dramPois.contains (loc / 64)
  let x := s.scrub u
  match dramCheck (s.markAt loc) stored e with
  | (_, .good) => s
  | (true, .corrected _ _ _) => s
  | (false, .corrected _ dev _) => (s.setScrub u { x with corrected := sat x.corrected }).countCorrected loc pa e dev
  | (_, .uncorrectable) =>
    let s1 := s.setScrub u { x with uncorr := sat x.uncorr }
    match pa with
    | none =>
      ({ s1 with dramPois := loc / 64 :: without s1.dramPois (loc / 64) } : State).logEvent 0x15 0x02 0x01 0 0xFF
    | some a => match s1.cached a with
      | some c =>
        let s1 := (s1.performWritesOf loc 128).logEvent 0x15 0x02 0x01 (BitVec.ofNat 64 a) (partByte (s.extPart a))
        if (s1.keyAt a).isNone then s1
        else
          let t := s1.sett (settOf a)
          let older := t.victims.any fun v => v.line == a / 64
          let s2 := s1.setSett (settOf a) { t with cache := tput t.cache (a / 64) { c with dirty := c.dirty && older } }
          let y := s2.scrub u
          (s2.dramStore loc a ⟨c.data, c.poison⟩).setScrub u { y with healed := sat y.healed }
      | none => (s1.dramLost loc a e 0x04).1

/-- R450: whether a scrubber's interval has passed since it last read at subchannel or die d. -/
def Scrub.due (x : Scrub) (d n clk : Nat) : Bool := !thas x.readAt d || decide (tget 0 x.readAt d + n ≤ clk)

/-- R450: the next rank that a channel's scrubber walks, from rank r on, and where it is in that rank: positions count the lines of the four
ranks in order, and skip one that is not walked. -/
def Chan.scrubAt (c : Chan) (pos lpr : Nat) : Option (Nat × Nat) :=
  (c.scrubRanks.find? fun r => decide (pos / lpr ≤ r)).map fun r => (r, if r = pos / lpr then pos % lpr else 0)

/-- R450, R451: a DRAM scrubber reads its next line, an interval after the last of its subchannel: one with no queued request, or in a 0x3E
slot. -/
def State.scrubDram (s : State) (ch : Nat) (errs : List (Nat × Byte)) : State :=
  let c := s.chan ch
  let lpr := gib * c.dimm.rankGib.toNat / 64
  let x := s.scrub ch
  match c.scrubAt x.pos lpr with
  | none => s.setScrub ch { x with pos := 0 }
  | some (r, k) =>
    let loc := locKey ch r (64 * k)
    let u := c.sub (locSub loc)
    if !s.top.ready ∨ c.st ≠ .run ∨ u.catrain ∨ !((u.rq.isEmpty && u.wq.isEmpty) || s.scrubSlot) ∨
        !x.due (locSub loc) (c.memClk s.owl.scrubInt.toNat) s.clk then s
    else
      let next := r * lpr + k + 1
      (s.scrubLine ch loc (s.paOf ch r (64 * k)) errs).scrubStep ch (locSub loc) next (c.scrubAt next lpr).isNone

/-- R388: the cached line in way w of set k of a sett. -/
def State.lineInWay (s : State) (n k w : Nat) : Option Nat :=
  ((s.sett n).cache.find? fun (l, c) => s.cacheSet (64 * l) == k && c.way == w).map (·.1)

/-- R209: the directory entry in way w of set k of a sett; entries of a set take its ways in the order of their blocks
(log 3). -/
def State.entryInWay (s : State) (n k w : Nat) : Option Nat :=
  (((s.sett n).dir.filter fun (b, _) => s.dirSet b == k)[w]?).map (·.1)

/-- R401: the queue-table cache's entry of queue q is dropped, and read again from pool memory, here at once (DESIGN CHOICE, log 40). -/
def State.rereadQueue (s : State) (q : Nat) : State :=
  let x := s.queue q
  match x.cfg, s.qEntry q with
  | some _, some a => match s.devRead a 64 with
    | (l, .ok) => ((s.setQueue q { x with cfg := some (qCfgOf l) }).touchLine a).clearEntry q
    | _ => s.queueError q 7
  | _, _ => s

/-- R443, R451: what a Burrow scrubber's word check does, by the structure that holds Burrow address `a`. The queue-table
cache and the overflow cache hold copies, whose entries are dropped and read again (R401); the overflow cache's entries lie in the order in
which they were filled, 32 bytes each (log 40). A line that is poisoned already is left, and counts nowhere. -/
def State.scrubBurrow (s : State) (a : Nat) (err : BitVec 80) : State :=
  let l := s.lay.getD Layout.reset
  let mb := 67108864
  let x := s.scrub 32
  let corr (s : State) : State := s.setScrub 32 { x with corrected := sat x.corrected }
  let bad (s : State) : State := s.setScrub 32 { x with uncorr := sat x.uncorr }
  let oc := sramCheck err
  let tally (s : State) : State :=
    match oc with | .good => s | .corrected => corr s | .uncorrectable => bad s
  let lineTally (s : State) (pa : Nat) : State :=
    match sramPoisonCheck (s.isPoisoned pa) err with
    | (_, .good, _) => s
    | (true, .corrected, _) => s
    | (false, .corrected, _) => corr s
    | (_, .uncorrectable, _) => bad s
  if err = 0 then s
  else if a < l.dirU * mb then
    let sl := l.dirU * mb / 16
    let n := a / sl
    let o := a % sl
    match s.entryInWay n (o / 512) (o % 512 / 32) with
    | some b => if oc = .uncorrectable then (bad s).dirLost (lineAddr n b 0) else tally s
    | none => tally s
  else if a < (l.dirU + l.cacheU) * mb then
    let sl := l.cacheU * mb / 16
    let o := a - l.dirU * mb
    let n := o / sl
    let r := o % sl
    match s.lineInWay n (r / 1152) (r % 1152 / 64) with
    | some ln => (lineTally s (ln * 64)).lineNoise (ln * 64) err
    | none => tally s
  else if a < (l.dirU + l.cacheU + l.scrU) * mb then
    let o := a - (l.dirU + l.cacheU) * mb
    match (List.range 32).find? fun p => decide (s.scrBase p ≤ o) && decide (o < s.scrBase p + s.scrQuota p) with
    | some p =>
      let pa := scratchBase p + (o - s.scrBase p)
      (lineTally s pa).lineNoise pa err
    | none => tally s
  else
    let o := a - (l.dirU + l.cacheU + l.scrU) * mb
    if oc ≠ .uncorrectable then tally s
    else if o < 0x1000000 then
      match s.dedup[o / 64]? with
      | some d => ((bad s).dedBlock d.src d.gen d.tag).sramLost
      | none => bad s
    else if o < 0x3000000 then
      ({ bad s with xlt := { s.xlt with oc := dropAt s.xlt.oc ((o - 0x1000000) / 32) } } : State).sramLost
    else if o < 0x3400000 then ((bad s).nodeWordLost (BitVec.ofNat 21 (o % 0x1000000 / 2))).sramLost
    else if o < 0x3480000 then ((bad s).rereadQueue ((o - 0x3400000) / 128)).sramLost
    else (bad s).sramLost

/-- R450, R451: the scrubber of unit u reads its next line; that of the Burrow an interval after the last of the line's die (R15). Which word of
the Burrow line the disturbance `sram` is in is a free choice (log 10). -/
def execScrubRead (unit : Nat) (errs : List (Nat × Byte)) (sram : BitVec 80) (s : State) : Host.Outcome State Fault Refusal :=
  if unit < 32 then .next (s.scrubDram unit errs)
  else
    let x := s.scrub 32
    if unit = 32 ∧ s.top.ready ∧ x.due (x.pos % 4) s.owl.burInt.toNat s.clk then
      let (k, s1) := if sram = 0 then (0, s) else s.drawNat 8
      .next ((s1.scrubBurrow (x.pos * 64 + 8 * k) sram).scrubStep 32 (x.pos % 4) (x.pos + 1) (decide (67108864 ≤ x.pos + 1)))
    else .next s

/-- R453: the state of a scrubber: 0 RUN, 1 PAUSED, 2 OFF. -/
def State.scrubState (s : State) (u : Nat) : Nat :=
  if u = 32 then 0
  else match (s.chan u).st with
    | .absent => 2
    | .failed => 2
    | .run => 0
    | .training => 0
    | _ => 1

/-- R452: a period of 1 ms, since its last read or the last such period, in which the scrubber read nothing for want of an idle cycle; time
in self-refresh does not count. -/
def execScrubStarvedInterval (unit : Nat) (s : State) : Host.Outcome State Fault Refusal :=
  let x := s.scrub unit
  .next (if s.top.ready ∧ s.scrubState unit = 0 ∧ 2400000 + x.idleAt ≤ s.clk then
    s.setScrub unit { x with starved := sat x.starved, idleAt := s.clk } else s)

/-- R452: a lap longer than lap_limit is logged, once per lap. -/
def execScrubLapLimit (unit : Nat) (s : State) : Host.Outcome State Fault Refusal :=
  let x := s.scrub unit
  .next (if s.owl.lapLimit ≠ 0 ∧ !x.lapLogged ∧ 2400000000 * s.owl.lapLimit.toNat + x.lapAt < x.pausedAt.getD s.clk then
    (s.setScrub unit { x with lapLogged := true }).logPlain 0x18 (BitVec.ofNat 8 unit) else s)

end Sys2Proof.Machine
end

