-- ==== Sys2Proof/Machine/BurrowMem.lean ====
section
/-! DEFINITION. The Burrow by its addresses (R384, R400): what a read or a write of its bytes finds there, by DEBUG_HALT (R526) and by
Owl's input-queue descriptors through the device-table class (R130). -/

namespace Sys2Proof.Machine
open Sys2Proof

/-! ### Tables by their bytes -/

/-- Bytes of a unit whose contents' form the manual does not state: those that DEBUG_HALT wrote, and free bytes elsewhere
(log 40). -/
def State.rawRead (s : State) (raw : Tab Byte) (a n : Nat) : Bytes × State :=
  let (x, s1) := s.drawBits (8 * n)
  ((List.range n).map fun k => if thas raw (a + k) then tget 0 raw (a + k) else BitVec.ofNat 8 (bitsOf x.toNat (8 * k) 8), s1)

/-- Bytes put in a raw table. -/
def rawPut (raw : Tab Byte) (a : Nat) (bs : Bytes) : Tab Byte := bs.zipIdx.foldl (fun t (b, k) => tput t (a + k) b) raw

/-- Bytes of a cleared table, which read zero but for those that DEBUG_HALT wrote. -/
def rawZero (raw : Tab Byte) (a n : Nat) : Bytes := (List.range n).map fun k => tget 0 raw (a + k)

/-- R20: whether nothing has used the sett tables since the core was reset: no request has reached a home. -/
def State.untouched (s : State) : Bool := s.nextTxn == s.txn0

/-- R386: the scratch area of the Burrow: its base and length. -/
def State.scrArea (s : State) : Nat × Nat :=
  let l := s.lay.getD Layout.reset
  (67108864 * (l.dirU + l.cacheU), 67108864 * l.scrU)

/-- R206: the 32 bytes of the directory entry of block b at sett n. -/
def State.entryBytes (s : State) (n b : Nat) : Bytes :=
  let e := tget DirEnt.reset (s.sett n).dir b
  let busy := s.busyLines
  let line := (List.range 4).map fun k =>
    ((e.at k).1.toNat + 4 * b2n (busy.contains (lineAddr n b k / 64))) * 2 ^ (4 * k) + (e.at k).2.toNat * 2 ^ (108 + 21 * k)
  let ptrs := e.ptrs.zipIdx.map fun (d, j) => d.toNat * 2 ^ (24 + 21 * j)
  toLe 32 ((line ++ ptrs).foldl (· + ·) 0 + e.ptrs.length * 2 ^ 16 + b2n (e.coarse != 0) * 2 ^ 19 + e.coarse.toNat * 2 ^ 192)

/-- R206: a directory entry as 32 bytes spell it; BUSY stays with the open transactions. -/
def DirEnt.parse (e : DirEnt) (bs : Bytes) : DirEnt :=
  let v := fld bs 0 32
  { e with
    line := (List.range 4).map fun k => (BitVec.ofNat 2 (bitsOf v (4 * k) 2), BitVec.ofNat 21 (bitsOf v (108 + 21 * k) 21))
    ptrs := (List.range (min 4 (bitsOf v 16 3))).map fun j => BitVec.ofNat 21 (bitsOf v (24 + 21 * j) 21)
    coarse := BitVec.ofNat 64 (bitsOf v 192 64) }

/-- What holds 32 bytes of the Burrow (R384). -/
inductive BurPart where
  | scratch (o : Nat)
  | entry (n b : Nat)
  | line (n l o : Nat)
  | nodes (d : Nat)
  | queue (q o : Nat)
  | table
  | empty
deriving DecidableEq, Repr

/-- R206, R384, R388, R400: what stands at 32 aligned bytes of the Burrow. A sett's sixteenth of the directory and of the line cache, and the
order of sets and ways in it, are the model's (log 40). -/
def State.burPart (s : State) (a : Nat) : BurPart :=
  let l := s.lay.getD Layout.reset
  let (b, m) := s.scrArea
  let dirSize := 67108864 * l.dirU
  let cacheSl := 67108864 * l.cacheU / 16
  if b ≤ a ∧ a < b + m then .scratch (a - b)
  else if a < dirSize then
    let n := a / (dirSize / 16)
    let o := a % (dirSize / 16)
    match s.entryInWay n (o / 512) (o % 512 / 32) with
    | some x => .entry n x
    | none => .empty
  else if a < b then
    let n := (a - dirSize) / cacheSl
    let o := (a - dirSize) % cacheSl
    if 1024 ≤ o % 1152 then
      (if (List.range 16).any fun w => (s.lineInWay n (o / 1152) w).isSome then .table else .empty)
    else match s.lineInWay n (o / 1152) (o % 1152 / 64) with
      | some x => .line n x (o % 64)
      | none => .empty
  else
    let o := a - b - m
    if o < 0x1000000 then (if s.dedup.isEmpty then .empty else .table)
    else if o < 0x3000000 then (if s.xlt.oc.isEmpty then .empty else .table)
    else if o < 0x3400000 then .nodes ((o - 0x3000000) / 2)
    else if o < 0x3480000 then
      let q := (o - 0x3400000) / 128
      if (s.queue q).cfg.isSome then .queue q (o % 128) else .empty
    else .empty

/-- R400, R445: the two bytes of a node's recorded generation. -/
def NodeG.word (n : NodeG) (known : Bool) : Nat :=
  if n.relearn then 2 ^ 10 else if known then n.gen.toNat + 2 ^ 8 + 2 ^ 9 * b2n n.dead else 0

/-- R400: a node's recorded generation as two bytes spell it; none where it is neither recorded nor relearn. -/
def nodeOf (v : Nat) : Option NodeG :=
  if v.testBit 8 ∨ v.testBit 10 then some ⟨BitVec.ofNat 8 v, v.testBit 9, v.testBit 10, false, 0⟩ else none

/-- R321, R400: bytes o … o + n of the cached entry of queue q: the copy of its bytes in pool memory, and those that a write to the Burrow
has changed since the entry was read from there, which stand at Burrow address a. -/
def State.entryCopy (s : State) (a q o n : Nat) : Option Bytes :=
  ((s.qEntry q).bind fun x => (s.view ((x + o) / 64 * 64)).map fun v => slice v.data ((x + o) % 64) n).map fun bs =>
    bs.zipIdx.map fun (b, k) => if thas s.bur.raw (a + k) then tget 0 s.bur.raw (a + k) else b

/-- The 32 bytes, where the manual says what they are. -/
def State.burBytes (s : State) (a : Nat) : Option Bytes :=
  match s.burPart a with
  | .scratch o => some (cgets s.scr o 32)
  | .entry n b => some (s.entryBytes n b)
  | .line n l o => some (slice (tget CLine.reset (s.sett n).cache l).data o 32)
  | .empty => some (rawZero s.bur.raw a 32)
  | .nodes d => some ((List.range 16).flatMap fun i =>
    let n : Node := BitVec.ofNat 21 (d + i)
    toLe 2 ((s.node n).word (s.nodeKnown n)))
  | .queue q o => s.entryCopy a q o 32
  | .table => none

/-- R526: bytes of the Burrow. -/
def State.burPeek (s : State) (a n : Nat) : Bytes × State :=
  let a0 := a / 32 * 32
  let known := (List.range ((a % 32 + n + 31) / 32)).flatMap fun i => match s.burBytes (a0 + 32 * i) with
    | some bs => bs.map some
    | none => List.replicate 32 none
  let (raw, s1) := s.rawRead s.bur.raw a n
  ((((known.drop (a % 32)).take n).zip raw).map fun (k, r) => k.getD r, s1)

/-- R526: bytes written within 32 aligned bytes of the Burrow, at offset o of them: they change the directory entry, the cached line, the
scratch or the nodes that stand there; other bytes are held as they were written. -/
def State.burWrite32 (s : State) (a o : Nat) (bs : Bytes) : State :=
  match s.burPart a with
  | .scratch x => { s with scr := cputs s.scr (x + o) bs }
  | .entry n b => s.setDirEnt (lineAddr n b 0) ((tget DirEnt.reset (s.sett n).dir b).parse (overlay (s.entryBytes n b) o bs))
  | .line n l x =>
    let c := tget CLine.reset (s.sett n).cache l
    s.setSett n { s.sett n with cache := tput (s.sett n).cache l { c with data := overlay c.data (x + o) bs } }
  | .nodes d =>
    let new := overlay ((List.range 16).flatMap fun i =>
      let n : Node := BitVec.ofNat 21 (d + i)
      toLe 2 ((s.node n).word (s.nodeKnown n))) o bs
    (List.range 16).foldl (fun s i =>
      let n : Node := BitVec.ofNat 21 (d + i)
      if fld new (2 * i) 2 = (s.node n).word (s.nodeKnown n) then s
      else match nodeOf (fld new (2 * i) 2) with
        | some g => s.setNode n g
        | none => { s with nodes := tdel s.nodes n.toNat }) s
  | _ => { s with bur := { s.bur with raw := rawPut s.bur.raw (a + o) bs } }

/-- R526, R445: bytes written to the Burrow; a scratch line written as a whole loses its poison. -/
def State.burPoke (s : State) (a : Nat) (bs : Bytes) : State :=
  let b := s.scrArea.1
  let s1 := (List.range ((a % 32 + bs.length + 31) / 32)).foldl (fun s i =>
    let g := a / 32 * 32 + 32 * i
    let lo := max a g
    s.burWrite32 g (lo - g) (slice bs (lo - a) (min (a + bs.length) (g + 32) - lo))) s
  { s1 with scrPois := s1.scrPois.filter fun l => !(decide (a ≤ b + 64 * l) && decide (b + 64 * l + 64 ≤ a + bs.length)) }

/-! ### The device-table class (R130, R400) -/

/-- R400: the Burrow address of an offset of the tables area; none beyond its size. -/
def State.tableAt (s : State) (o : Nat) : Option Nat :=
  let l := s.lay.getD Layout.reset
  let (b, m) := s.scrArea
  if o < 67108864 * l.tabU then some (b + m + o) else none

/-- R400: the line at an offset of the device-table class: zero beyond the tables area. -/
def State.tableLine (s : State) (o : Nat) : Bytes × State :=
  match s.tableAt o with
  | none => (List.replicate 64 0, s)
  | some a => s.burPeek a 64

/-- R354, R400: a transfer of an input-queue descriptor to the device-table class, and its answer. -/
def State.tableAccess (s : State) (t : Txn) (o : Nat) : State × Ans :=
  let (old, s1) := s.tableLine (o / 64 * 64)
  let put (s : State) (new : Bytes) : State := match s.tableAt (o / 64 * 64) with
    | none => s
    | some a => s.burPoke a new
  if t.ty.isRead then (s1, { ty := tyDataU, data := old })
  else match t.ty with
    | .atomic => let (v, a) := s1.atomOn t t.va ⟨old, false⟩; (put s1 v.data, a)
    | .accWr => let (v, a, _) := accOn t ⟨old, false⟩; (put s1 v.data, a)
    | _ =>
      let mask := if t.ty = .wrPart then t.mask else BitVec.allOnes 64
      (put s1 ((List.range 64).map fun i => if mask.getLsbD i then t.data.getD i 0 else old.getD i 0), { st := .ok })

end Sys2Proof.Machine
end

