-- ==== Sys2Proof/Machine/QueuePairs.lean ====
section
/-! DEFINITION. Queue-pair contexts (R563) and the discarding of requests that have not been performed (R565, R567). -/

namespace Sys2Proof.Machine
open Sys2Proof

def QP.byte (x : QP) (i : Nat) : Byte := tget 0 x.b i
/-- n bytes of a context from byte i, little-endian. -/
def QP.num (x : QP) (i n : Nat) : Nat := leNat ((List.range n).map fun k => x.byte (i + k))
/-- The context with bytes from i on replaced. -/
def QP.put (x : QP) (i : Nat) (bs : Bytes) : QP := { x with b := (bs.zipIdx.foldl (fun t (v, k) => tput t (i + k) v) x.b) }

def QP.ready (x : QP) : Bool := x.byte 0 == 1
def QP.error (x : QP) : Bool := x.byte 0 == 2
def QP.part (x : QP) : Nat := (x.byte 1).toNat
def QP.rqpn (x : QP) : BitVec 24 := BitVec.ofNat 24 (x.num 4 4)
def QP.epsn (x : QP) : BitVec 24 := BitVec.ofNat 24 (x.num 8 4)
def QP.setEpsn (x : QP) (v : BitVec 24) : QP := x.put 8 (toLe 4 v.toNat)
/-- R563: the path MTU; codes that are not listed act as 256 bytes (log 38). -/
def QP.mtu (x : QP) : Nat := if 1 ≤ (x.byte 12).toNat ∧ (x.byte 12).toNat ≤ 5 then 128 * 2 ^ (x.byte 12).toNat else 256

/-- R564: a context set to RESET: its responder resources and packets in progress are discarded. -/
def QP.clear (x : QP) (v : Byte) : QP := ({ QP.reset with b := x.b } : QP).put 0 [v]

/-- Whether every line of a request has been performed. -/
def Pend.done (p : Pend) : Bool := p.txns.isEmpty && p.left.isEmpty

/-- R565, R567: a request and all later ones discarded without an answer: the next expected PSN names it, and an RDMA WRITE in
progress stands where it stood before it. -/
def QP.backTo (x : QP) (before : List Pend) (p : Pend) : QP :=
  { x.setEpsn p.psn with pend := before, wrOn := p.wo, wrVa := p.wva, wrLeft := p.wleft, wrKey := p.wkey, nakSent := false }

/-- R565: the requests that have not been performed discarded, from the first such on. -/
def QP.rollback (x : QP) : QP :=
  match x.pend.find? fun p => !p.done && !p.dup with
  | none => { x with pend := x.pend.filter Pend.done }
  | some p => x.backTo ((x.pend.takeWhile fun p => p.done || p.dup).filter Pend.done) p

end Sys2Proof.Machine
end

