-- ==== Sys2Proof/Machine/Layout.lean ====
section
/-! DEFINITION. The layout image (R51–R89): its form and signature, its records and the checks of R83, the built-in
layouts (R98–R100), and what a layout's loading sets (R75, R76). -/

namespace Sys2Proof.Machine
open Sys2Proof

/-- R84: a failed check: its number, the section (0 global, 1 + p) and the byte offset of the failing record. -/
structure LayErr where
  check : Nat
  sect : Nat
  off : Nat
deriving DecidableEq, Repr

/-- R54: a record: type, offset in its section, and its bytes, header included. -/
structure Rec where
  ty : Nat
  off : Nat
  bs : Bytes
deriving DecidableEq, Repr

/-- Field of n bytes at offset i of a record (R60). -/
def Rec.f (r : Rec) (i n : Nat) : Nat := fld r.bs i n

/-- The entries of a record, of w bytes from byte `first` on. -/
def Rec.entries (r : Rec) (first w : Nat) : List Bytes :=
  (List.range ((r.bs.length - first) / w)).map fun k => slice r.bs (first + k * w) w

/-! ### Form (R51–R54) -/

/-- R53: offset and length of section-table entry i. -/
def secEntry (img : Bytes) (i : Nat) : Nat × Nat := (fld img (64 + 8 * i) 4, fld img (68 + 8 * i) 4)

/-- Header and section table: 64 + 33 × 8 bytes. -/
def headLen : Nat := 328

/-- R51, R53: check 0x03. -/
def tableOk (img : Bytes) : Bool :=
  let total := fld img 8 4
  let es := (List.range 33).map (secEntry img)
  let used := es.filter fun (_, n) => n != 0
  let ok (i : Nat) : Bool :=
    let (o, n) := secEntry img i
    n == 0 || (o % 8 == 0 && decide (headLen ≤ o) && decide (o + n ≤ total) && decide (136 ≤ n) &&
      decide (n ≤ if i = 0 then 1048576 else 262144))
  let apart := used.zipIdx.all fun ((o, n), i) => used.zipIdx.all fun ((p, m), j) => i == j || decide (o + n ≤ p) || decide (p + m ≤ o)
  decide (headLen ≤ total) && decide (total ≤ 8388608) && total == img.length && (secEntry img 0).2 != 0 && (List.range 33).all ok && apart

/-- The bytes of section i, trailer included. -/
def sectionOf (img : Bytes) (i : Nat) : Bytes := slice img (secEntry img i).1 (secEntry img i).2

/-- R56: a section's trailer and its covered part. -/
def trailerOf (sec : Bytes) : Bytes := sec.drop (sec.length - 128)
def bodyOf (sec : Bytes) : Bytes := sec.take (sec.length - 128)

/-- R57: the layout-verification key that a key_index names: in BLANK only Chesamund's manufacturing key. -/
def State.layKey (s : State) (i : Nat) : Option Bytes :=
  if s.life = 0 then some (Config.chesamundKey 0)
  else if thas s.flash.layKeys i then some (tget [] s.flash.layKeys i) else none

/-- R57: whether a trailer names a key that Owl holds, and its signature verifies the covered bytes. -/
def State.signOk (s : State) (tr covered : Bytes) : Bool :=
  match s.layKey (fld tr 0 1) with
  | none => false
  | some k => sm2Verify sigLayout k covered (slice tr 64 64)

/-- R56, R57: whether a trailer signs the covered bytes and holds their digest. -/
def State.trailerOk (s : State) (tr covered : Bytes) : Bool := slice tr 32 32 == sm3 covered && s.signOk tr covered

/-- R83: checks 0x01–0x05, of form, signature and rollback level. -/
def State.imageForm (s : State) (img : Bytes) : Option LayErr :=
  let err (c : Nat) : Option LayErr := some ⟨c, 0, 0⟩
  let sec := sectionOf img 0
  if fld img 0 4 ≠ 0x72001A70 ∨ fld img 4 2 ≠ 1 ∨ fld img 6 2 ≠ 64 then err 0x01
  else if fld img 18 2 ≠ 0x7200 ∨ 0x10 < fld img 20 1 then err 0x02
  else if !tableOk img then err 0x03
  else if !s.trailerOk (trailerOf sec) (slice img 0 headLen ++ bodyOf sec) then err 0x04
  else if fld img 16 2 < s.fuse.layCnt then err 0x05
  else none

/-- R54: the records of a section's covered part before END; none when check 0x06 fails, at the offset given. -/
def walkRecs : Nat → Nat → Bytes → Except Nat (List Rec)
  | 0, o, _ => .error o
  | n + 1, o, bs =>
    let ty := fld bs 0 2
    let len := fld bs 2 2
    if len < 8 ∨ len % 8 ≠ 0 ∨ bs.length < len then .error o
    else if ty = 0xFFFF then (if len = 8 ∧ bs.length = 8 then .ok [] else .error o)
    else match walkRecs n (o + len) (bs.drop len) with
      | .error e => .error e
      | .ok l => .ok (⟨ty, o, bs.take len⟩ :: l)

/-- R54: whether the reserved bytes of a section's END record are 0. -/
def endReserved (sec : Bytes) : Bool := fld (bodyOf sec) ((bodyOf sec).length - 4) 4 == 0

def recsOf (sec : Bytes) : Except Nat (List Rec) := walkRecs (bodyOf sec).length 0 (bodyOf sec)

/-- R55: check 0x07 of a section: the offset of the failing record. -/
def typesBad (global : Bool) (rs : List Rec) : Option Nat :=
  let known (t : Nat) : Bool := if global then decide (1 ≤ t ∧ t ≤ 10) else decide (0x101 ≤ t ∧ t ≤ 0x105)
  match rs.zipIdx.find? fun (r, i) => !known r.ty || (r.ty != 8 && (rs.take i).any fun q => q.ty == r.ty) with
  | some (r, _) => some r.off
  | none =>
    if global then
      (if rs.any (·.ty == 1) && rs.any (·.ty == 2) && rs.any (·.ty == 8) then none else some 0)
    else match rs with
      | r :: _ => if r.ty = 0x101 then none else some 0
      | [] => some 0

/-! ### Check 0x08: reserved fields and encodings -/

/-- Whether the record's length is `first` plus a number of entries of w bytes, at most `max`, each passing. R55 gives an array record as
many entries as its length allows, and says nothing of bytes left over: here they fail check 0x08 (DESIGN CHOICE, log 55). -/
def Rec.each (r : Rec) (first w max : Nat) (ok : Bytes → Bool) : Bool :=
  decide (first ≤ r.bs.length) && (r.bs.length - first) % w == 0 && decide ((r.bs.length - first) / w ≤ max) && (r.entries first w).all ok

/-- A range of node identifiers as R62 and R65 pack it: base and size_log2. -/
def rangeOf (e : Nat) : Nat × Nat := (e % 2 ^ 21, bitsOf e 21 5)

/-- Whether a range holds a node. -/
def inRange (b lg d : Nat) : Bool := d / 2 ^ lg == b / 2 ^ lg

def mcEntOk (e : Bytes) : Bool := fld e 0 8 / 2 ^ 52 == 0

/-- R60–R74, R109, R120, R124: check 0x08 of one record. -/
def Rec.fieldsOk (r : Rec) : Bool :=
  let z (i n : Nat) : Bool := r.f i n == 0
  r.f 4 4 == 0 &&
  match r.ty with
  | 1 => r.bs.length == 16 && z 9 3 && decide (r.f 8 1 ≤ 3) && (r.f 12 4 == 0xFFFFFFFF || decide (r.f 12 4 < 0x1FFFFF))
  | 2 => r.bs.length == 16
  | 3 => r.each 8 8 64 fun e => fld e 0 8 / 2 ^ 38 == 0 && decide ((rangeOf (fld e 0 8)).2 ≤ 21)
  | 4 => r.each 8 24 64 fun e => decide (fld e 20 1 ≤ 2) && fld e 21 3 == 0
  | 5 => r.bs.length == 40 && (List.range 32).all fun n => decide (r.f (8 + n) 1 ≤ 3) || r.f (8 + n) 1 == 0xFF
  | 6 => r.each 8 8 2048 fun e =>
      let (b, lg) := rangeOf (fld e 0 8)
      fld e 0 8 / 2 ^ 34 == 0 && decide (lg ≤ 21) && !inRange b lg 0x1FFFFF
  | 7 | 0x105 => r.each 8 8 4096 mcEntOk
  | 8 =>
    r.bs.length == 64 && decide (r.f 8 1 ≤ 31) && decide (r.f 9 1 ≤ 1) && decide (r.f 10 1 ≤ 31) && decide (r.f 11 1 ≤ 1) &&
      z 14 2 && z 58 6 && decide (1 ≤ r.f 36 4) && decide (r.f 32 4 + r.f 36 4 ≤ 65536) && decide (1 ≤ r.f 42 2) &&
      decide (r.f 40 2 + r.f 42 2 ≤ 4096) && decide (r.f 44 2 + r.f 46 2 ≤ 4096) &&
      (if r.f 9 1 = 1 then r.f 24 4 != 0 && r.f 12 2 != 0 else z 24 4 && z 12 2 && z 11 1)
  | 9 => r.each 8 16 65536 fun e => fld e 1 3 == 0 && fld e 12 4 == 0 && decide (fld e 0 1 ≤ 31)
  | 10 => z 12 4 && r.each 16 8 64 fun e => fld e 1 3 == 0 && (decide (fld e 0 1 ≤ 31) || fld e 0 1 == 0x3E || fld e 0 1 == 0x3F)
  | 0x101 => r.bs.length == 56 && z 9 3 && z 20 4 && decide (r.f 8 1 ≤ 31)
  | 0x102 => r.each 8 24 4096 fun e => decide (fld e 0 1 ≤ 9) && decide (fld e 1 1 ≤ 1) && fld e 2 2 == 0 && fld e 20 4 == 0
  | 0x103 => r.each 8 16 4096 fun e => decide (fld e 0 1 ≤ 9) && fld e 1 3 == 0 && fld e 12 4 == 0
  | 0x104 => r.each 8 16 4096 fun e => fld e 4 4 == 0
  | _ => true

/-- Reserved fields of the header and of a trailer. -/
def headReserved (img : Bytes) : Bool := fld img 21 43 == 0 && decide (fld img 16 2 ≤ 128)
def trailerReserved (tr : Bytes) : Bool := fld tr 1 31 == 0

/-! ### Records to a layout -/

def groupOf (e : Bytes) : SGroup :=
  let x := fld e 0 8
  ⟨BitVec.ofNat 21 x, bitsOf x 21 5, bitsOf x 26 12⟩
def ilvOf (e : Bytes) : Ilv := ⟨fld e 0 8, fld e 8 8, BitVec.ofNat 32 (fld e 16 4), BitVec.ofNat 8 (fld e 20 1)⟩
def routeEntOf (e : Bytes) : RouteEnt :=
  let x := fld e 0 8
  ⟨BitVec.ofNat 21 x, bitsOf x 21 5, BitVec.ofNat 8 (bitsOf x 26 8)⟩
def mcEntOf (e : Bytes) : McEnt :=
  let x := fld e 0 8
  ⟨bitsOf x 0 12, BitVec.ofNat 8 (bitsOf x 12 8), BitVec.ofNat 32 (bitsOf x 20 32)⟩
def extentOf (e : Bytes) : Extent := ⟨fld e 0 1, fld e 4 4, fld e 8 4⟩

def partRecOf (r : Rec) : PartRec where
  part := r.f 8 1
  fenced := r.f 9 1 == 1
  keySlot := r.f 10 1
  compat := r.f 11 1 == 1
  ways := BitVec.ofNat 16 (r.f 12 2)
  engines := BitVec.ofNat 64 (r.f 16 8)
  fencedCh := BitVec.ofNat 32 (r.f 24 4)
  scratch := r.f 28 4
  asidBase := r.f 32 4
  asidCount := r.f 36 4
  queueBase := r.f 40 2
  queueCount := r.f 42 2
  mcastBase := r.f 44 2
  mcastCount := r.f 46 2
  fabShare := BitVec.ofNat 64 (r.f 48 8)
  hstShare := BitVec.ofNat 16 (r.f 56 2)

/-- The entries of the record of a type, none when it is absent. -/
def entriesOf (rs : List Rec) (ty first w : Nat) : List Bytes :=
  match rs.find? (·.ty == ty) with
  | none => []
  | some r => r.entries first w

/-- The global section's records as a layout. -/
def globalOf (img : Bytes) (rs : List Rec) : Layout :=
  let info := (rs.find? (·.ty == 1)).getD ⟨1, 0, []⟩
  let split := (rs.find? (·.ty == 2)).getD ⟨2, 0, []⟩
  { builtin := false
    gen := BitVec.ofNat 32 (fld img 12 4)
    rollback := fld img 16 2
    digest := slice (trailerOf (sectionOf img 0)) 32 32
    dramSpeed := BitVec.ofNat 2 (info.f 8 1)
    nodeId := BitVec.ofNat 32 (info.f 12 4)
    dirU := split.f 8 2
    cacheU := split.f 10 2
    scrU := split.f 12 2
    tabU := split.f 14 2
    groups := (entriesOf rs 3 8 8).map groupOf
    sets := (entriesOf rs 4 8 24).map ilvOf
    spare := match rs.find? (·.ty == 5) with
      | none => List.replicate 32 0xFF
      | some r => (List.range 32).map fun n => r.f (8 + n) 1
    routes := (entriesOf rs 6 8 8).map routeEntOf
    mcast := (entriesOf rs 7 8 8).map mcEntOf
    parts := (rs.filter (·.ty == 8)).map partRecOf
    extents := (entriesOf rs 9 8 16).map extentOf
    gateLen := match rs.find? (·.ty == 10) with
      | none => 0
      | some r => r.f 8 4
    gate := (entriesOf rs 10 16 8).map fun e => (fld e 0 1, fld e 4 4)
    secs := [] }

/-- A partition section's records. -/
def partSecOf (sec : Bytes) (rs : List Rec) : PartSec :=
  let info := (rs.find? (·.ty == 0x101)).getD ⟨0x101, 0, []⟩
  { part := info.f 8 1
    tenant := BitVec.ofNat 32 (info.f 12 4)
    rev := BitVec.ofNat 32 (info.f 16 4)
    gdigest := slice info.bs 24 32
    sdigest := slice (trailerOf sec) 32 32
    policers := (entriesOf rs 0x102 8 24).map fun e =>
      ⟨fld e 0 1, fld e 1 1 == 1, BitVec.ofNat 32 (fld e 4 4), BitVec.ofNat 32 (fld e 8 4), BitVec.ofNat 32 (fld e 12 4),
        BitVec.ofNat 32 (fld e 16 4)⟩
    shapers := (entriesOf rs 0x103 8 16).map fun e => ⟨fld e 0 1, BitVec.ofNat 32 (fld e 4 4), BitVec.ofNat 32 (fld e 8 4)⟩
    affin := (entriesOf rs 0x104 8 16).map fun e => ⟨fld e 0 2, fld e 2 2, BitVec.ofNat 64 (fld e 8 8)⟩
    mcast := (entriesOf rs 0x105 8 8).map mcEntOf }

/-! ### Content checks (R83) -/

/-- Whether no two elements of a list clash. -/
def apart {α : Type} (l : List α) (clash : α → α → Bool) : Bool :=
  l.zipIdx.all fun (a, i) => (l.drop (i + 1)).all fun b => !clash a b

/-- Whether two ranges [a, a + n) and [b, b + m) meet: an empty range meets none. -/
def meets (a n b m : Nat) : Bool := decide (0 < n) && decide (0 < m) && decide (a < b + m) && decide (b < a + n)

/-- Whether two aligned node ranges meet. -/
def nodesMeet (b1 l1 b2 l2 : Nat) : Bool := if l1 ≤ l2 then inRange b2 l2 b1 else inRange b1 l1 b2

/-- Channels of an interleave set. -/
def Ilv.chans (t : Ilv) : List Nat := lowBits 32 t.channels.toNat

/-- R61: check 0x10. -/
def Layout.check10 (l : Layout) : Bool :=
  l.dirU + l.cacheU + l.scrU + l.tabU == 64 && l.dirU % 4 == 0 && decide (4 ≤ l.dirU) && decide (l.dirU ≤ 32) &&
    decide (8 ≤ l.cacheU) && decide (2 ≤ l.tabU) && decide (l.tabU ≤ 8)

/-- R68: whether two PARTITION records own something in common. -/
def PartRec.clash (a b : PartRec) : Bool :=
  a.part == b.part || a.keySlot == b.keySlot || a.engines &&& b.engines != 0 || a.fencedCh &&& b.fencedCh != 0 || a.ways &&& b.ways != 0 ||
    meets a.asidBase a.asidCount b.asidBase b.asidCount || meets a.queueBase a.queueCount b.queueBase b.queueCount ||
    meets a.mcastBase a.mcastCount b.mcastBase b.mcastCount

/-- R68, R389: check 0x11. -/
def Layout.check11 (l : Layout) : Bool :=
  !((l.parts.any fun r => !r.fenced) && l.parts.foldl (fun m r => m ||| r.ways) (0 : BitVec 16) == 0xFFFF) && apart l.parts PartRec.clash

/-- R68: checks 0x12 and 0x13. -/
def Layout.check12 (l : Layout) : Bool :=
  (List.range 10).all fun k => decide ((l.parts.map fun r =>
    if k < 8 then bitsOf r.fabShare.toNat (8 * k) 8 else bitsOf r.hstShare.toNat (8 * (k - 8)) 8).foldl (· + ·) 0 ≤ 128)
def Layout.check13 (l : Layout) : Bool := decide ((l.parts.map (·.scratch)).foldl (· + ·) 0 ≤ l.scrU * 64)

/-- R63: check 0x14. -/
def Layout.check14 (l : Layout) : Bool :=
  (l.sets.all fun t =>
    let n := t.chans.length
    [1, 2, 4, 8, 16, 32].contains n && t.base % gib == 0 && t.size % (gib * n) == 0 && decide (t.base + t.size ≤ 0x100000000000)) &&
  apart l.sets fun a b => meets a.base a.size b.base b.size

/-- R403: whether a DIMM meets the requirements of a channel. -/
def dimmUsable (d : Dimm) : Bool :=
  (d.kind == 1 || d.kind == 2) && d.x4 && [1, 2, 4].contains (lowBits 4 d.present.toNat).length &&
    decide ((lowBits 4 d.present.toNat).length * d.rankGib.toNat ≤ 512)

/-- R403: whether a DIMM supports a speed code 0–2. -/
def dimmSupports (d : Dimm) (sp : Nat) : Bool :=
  decide (d.grade.toNat ≤ sp) && (if sp < 2 then d.kind == 2 else d.kind == 1)

/-- R95: the code of the highest speed that every installed DIMM supports, by its SPD; none when there is no such speed. -/
def spdSpeed (l : List Spd) : Option Nat :=
  (List.range 3).find? fun sp => l.all fun x => x.kind == 0 || (decide (x.grade.toNat ≤ sp) && (if sp < 2 then x.kind == 2 else x.kind == 1))

/-- R60, R95: the speed that a code asks for: code 3 asks for that which Owl read from SPD. -/
def State.speedOf (s : State) (code : Nat) : Nat := if code = 3 then s.owl.spd.toNat else code

/-- R103: the ranks that hold logical positions of a channel whose spare is named, as training left it. -/
def dimmPositions (d : Dimm) (spare : Nat) : Nat :=
  let good := (lowBits 4 d.present.toNat).filter fun r => !d.failed.getLsbD r
  let bad := (lowBits 4 d.present.toNat).filter fun r => d.failed.getLsbD r && r != spare
  if good.contains spare then (if bad.isEmpty then good.length - 1 else good.length) else good.length

/-- R83: check 0x15. -/
def State.check15 (s : State) (l : Layout) : Bool :=
  (List.range 32).all fun c =>
    let placed := ((l.sets.filter fun t => t.channels.getLsbD c).map fun t => t.size / t.chans.length).foldl (· + ·) 0
    let d := (s.chan c).dimm
    decide (placed ≤ gib * (dimmPositions d (l.spare.getD c 0xFF) * d.rankGib.toNat))

/-- R83: check 0x16 of the spare ranks: those that the layout names are installed. -/
def State.sparesOk (s : State) (l : Layout) : Bool :=
  (List.range 32).all fun c => l.spare.getD c 0xFF == 0xFF || (s.chan c).dimm.present.getLsbD (l.spare.getD c 0xFF)

/-- R83, R403: check 0x16 of the DIMMs: those of the channels that the layout uses meet R403 and support dram_speed. -/
def State.speedsOk (s : State) (l : Layout) : Bool :=
  (List.range 32).all fun c => !(l.sets.any fun t => t.channels.getLsbD c) ||
    (dimmUsable (s.chan c).dimm && dimmSupports (s.chan c).dimm (s.speedOf l.dramSpeed.toNat))

/-- R83: check 0x16. -/
def State.check16 (s : State) (l : Layout) : Bool := s.sparesOk l && s.speedsOk l

/-- R68, R69: check 0x17. -/
def Layout.check17 (l : Layout) : Bool :=
  let fencedCh (p : Nat) : W32 := match l.parts.find? fun r => r.part == p with
    | none => 0
    | some r => r.fencedCh
  let allFenced : W32 := l.parts.foldl (fun m r => m ||| r.fencedCh) 0
  (l.extents.all fun e => (l.parts.any fun r => r.part == e.part) && l.sets.any fun t =>
    decide (t.base ≤ mib2 * e.base) && decide (mib2 * (e.base + e.count) ≤ t.base + t.size) &&
      (t.channels &&& (allFenced &&& ~~~fencedCh e.part)) == 0) &&
  (apart l.extents fun a b => a.part != b.part && meets a.base a.count b.base b.count) &&
  l.parts.all fun r => l.sets.all fun t => t.channels &&& r.fencedCh == 0 || t.channels &&& ~~~r.fencedCh == 0

/-- R65: check 0x18. -/
def Layout.check18 (l : Layout) (own : Nat) : Bool :=
  (l.routes.all fun r => r.base.toNat % 2 ^ r.log2 == 0 && r.mask != 0 && !inRange r.base.toNat r.log2 own) &&
  apart l.routes fun a b => nodesMeet a.base.toNat a.log2 b.base.toNat b.log2

/-- R62: check 0x19 of the sharer groups. -/
def Layout.groupsOk (l : Layout) : Bool :=
  (l.groups.all fun g => g.base.toNat % 2 ^ g.log2 == 0 && l.mcast.any fun m => m.group == g.mcast) &&
  apart l.groups fun a b => nodesMeet a.base.toNat a.log2 b.base.toNat b.log2

/-- R66: check 0x19 of the global section's multicast groups. -/
def Layout.mcastOk (l : Layout) : Bool :=
  (apart l.mcast fun a b => a.group == b.group) &&
  l.mcast.all fun m => l.parts.all fun r => !(decide (r.mcastBase ≤ m.group) && decide (m.group < r.mcastBase + r.mcastCount))

/-- R70, R471: check 0x1A, of a layout with a GATE record or without. A slot owned by a partition that no PARTITION record defines fails
it: no rule says what such a slot does (DESIGN CHOICE, log 55). -/
def Layout.check1A (l : Layout) (hasGate : Bool) : Bool :=
  (!hasGate ||
    (decide (64 ≤ l.gateLen) && decide (l.gateLen ≤ 262144) && (l.gate.map (·.2)).foldl (· + ·) 0 == l.gateLen)) &&
  (l.parts.all fun r => !r.fenced || l.gate.any fun (o, _) => o == r.part) &&
  l.gate.all fun (o, n) => decide (32 ≤ o) || (decide (64 ≤ n) && l.parts.any fun r => r.part == o)

/-- R67: a share ceiling of a record, in Mb/s. -/
def PartRec.ceiling (r : PartRec) (k : Nat) : Nat :=
  if k < 8 then 93750 * bitsOf r.fabShare.toNat (8 * k) 8 else 6250 * bitsOf r.hstShare.toNat (8 * (k - 8)) 8

/-- R66: check 0x19 of a partition section. -/
def PartSec.check19 (c : PartSec) (r : PartRec) (l : Layout) : Bool :=
  (apart c.mcast fun a b => a.group == b.group) &&
    c.mcast.all fun m => decide (r.mcastBase ≤ m.group) && decide (m.group < r.mcastBase + r.mcastCount) &&
      !(l.mcast.any fun g => g.group == m.group)

/-- R72–R74: check 0x1B of the three records, each of which it names by its type. -/
def PartSec.check1B (c : PartSec) (r : PartRec) : List (Nat × Bool) :=
  [(0x102, c.policers.all fun p => decide (p.cir.toNat ≤ p.pir.toNat) && decide (p.pir.toNat ≤ r.ceiling p.port) && r.ceiling p.port != 0),
   (0x103, c.shapers.all fun h => decide (h.rate.toNat ≤ r.ceiling h.port)),
   (0x104, c.affin.all fun a => decide (r.queueBase ≤ a.first) && decide (a.first + a.count ≤ r.queueBase + r.queueCount) &&
      a.engines &&& ~~~r.engines == 0)]

/-- The offset of the record of a type in a section; 0 when it has none. -/
def recAt (rs : List Rec) (ty : Nat) : Nat := match rs.find? (·.ty == ty) with
  | none => 0
  | some r => r.off

/-- R84: the offset of the PARTITION record with which a check of those records first fails: the later one of two that clash, or the one
that takes a sum past its bound. -/
def partAt (rs : List Rec) (l : Layout) (ok : Layout → Bool) : Nat :=
  match (List.range l.parts.length).find? fun k => !ok { l with parts := l.parts.take (k + 1) } with
  | none => recAt rs 8
  | some k => ((rs.filter (·.ty == 8)).map (·.off)).getD k 0

/-- R83, R508: checks 0x06–0x09, 0x19 and 0x1B of section 1 + p of an image, against the layout whose global section is `l`. -/
def State.partSection (s : State) (l : Layout) (p : Nat) (sec : Bytes) : Except LayErr PartSec :=
  let err {α : Type} (c o : Nat) : Except LayErr α := .error ⟨c, 1 + p, o⟩
  match recsOf sec with
  | .error o => err 0x06 o
  | .ok rs =>
    match typesBad false rs with
    | some o => err 0x07 o
    | none => match rs.find? fun r => !r.fieldsOk with
      | some r => err 0x08 r.off
      | none =>
        if !endReserved sec then err 0x08 ((bodyOf sec).length - 8)
        else if !trailerReserved (trailerOf sec) then err 0x08 (sec.length - 128)
        else
          let c := partSecOf sec rs
          if c.tenant ≠ 0 ∧ s.life ≠ 2 then err 0x08 (recAt rs 0x101) else
          match l.parts.find? fun r => r.part == p with
          | none => err 0x09 0
          | some r =>
            if c.part ≠ p ∨ c.gdigest ≠ l.digest ∨ !s.trailerOk (trailerOf sec) (bodyOf sec) then err 0x09 0
            else if !c.check19 r l then err 0x19 (recAt rs 0x105)
            else match (c.check1B r).find? fun x => !x.2 with
              | some (ty, _) => err 0x1B (recAt rs ty)
              | none => .ok c

/-- R83: the content checks of an image that has passed 0x01–0x05: its layout with the partition sections that pass, and
the failures of the others (R84). R83 orders the checks of one section by number and does not say how those of two sections interleave:
a partition section is checked once the global section has passed all of its own, since 0x09, 0x19 and 0x1B judge it by that section
(DESIGN CHOICE, log 55). A failure of 0x16 is reported at SPARE when a named rank is missing, else at GLOBAL_INFO, whose dram_speed the
DIMMs do not support. -/
def State.imageContent (s : State) (img : Bytes) : Except LayErr (Layout × List LayErr) :=
  let err {α : Type} (c o : Nat) : Except LayErr α := .error ⟨c, 0, o⟩
  let sec := sectionOf img 0
  match recsOf sec with
  | .error o => err 0x06 o
  | .ok rs =>
    match typesBad true rs with
    | some o => err 0x07 o
    | none => match rs.find? fun r => !r.fieldsOk with
      | some r => err 0x08 r.off
      | none =>
        let l := globalOf img rs
        let at_ := recAt rs
        let own := if l.nodeId = 0xFFFFFFFF then 0x1FFF00 + bitsOf s.top.straps.toNat 11 6 else l.nodeId.toNat
        if !endReserved sec then err 0x08 ((bodyOf sec).length - 8)
        else if !headReserved img ∨ !trailerReserved (trailerOf sec) then err 0x08 0
        else if !l.check10 then err 0x10 (at_ 2)
        else if !l.check11 then err 0x11 (partAt rs l Layout.check11)
        else if !l.check12 then err 0x12 (partAt rs l Layout.check12)
        else if !l.check13 then err 0x13 (partAt rs l Layout.check13)
        else if !l.check14 then err 0x14 (at_ 4)
        else if !s.check15 l then err 0x15 (at_ 4)
        else if !s.check16 l then err 0x16 (if s.sparesOk l then at_ 1 else at_ 5)
        else if !l.check17 then err 0x17 (at_ 9)
        else if !l.check18 own then err 0x18 (at_ 6)
        else if !l.groupsOk then err 0x19 (at_ 3)
        else if !l.mcastOk then err 0x19 (at_ 7)
        else if !l.check1A (rs.any fun r => r.ty == 10) then err 0x1A (at_ 10)
        else
          let res := ((List.range 32).filter fun p => (secEntry img (1 + p)).2 != 0).map fun p => s.partSection l p (sectionOf img (1 + p))
          let good := res.filterMap fun x => match x with
            | .ok c => some c
            | .error _ => none
          let bad := res.filterMap fun x => match x with
            | .ok _ => none
            | .error e => some e
          .ok ({ l with secs := good }, bad)

/-- R84, R551: a rejection's event record. -/
def State.layoutRejected (s : State) (e : LayErr) : State :=
  s.logEvent 0x12 0 (BitVec.ofNat 8 e.check) (BitVec.ofNat 64 (2 ^ 32 * e.sect + e.off)) (if e.sect = 0 then 0xFF else BitVec.ofNat 8 (e.sect - 1))

/-! ### Built-in layouts (R98–R100) -/

/-- R99: aligned ranges that cover every node of [b, b + 2^lg) but the excluded ones. -/
def coverNodes : Nat → Nat → List Nat → List (Nat × Nat)
  | 0, b, ex => if ex.contains b then [] else [(b, 0)]
  | lg + 1, b, ex =>
    if ex.any fun d => inRange b (lg + 1) d then coverNodes lg b ex ++ coverNodes lg (b + 2 ^ lg) ex else [(b, lg + 1)]

/-- R98: number of partitions, fenced, engines each, channels each (0 all shared), compat, share. -/
def builtinShape (n : Nat) : Option (Nat × Bool × Nat × Nat × Bool × Nat) :=
  match n with
  | 0 => some (1, false, 64, 0, false, 128)
  | 1 => some (2, true, 32, 16, false, 64)
  | 2 => some (4, true, 16, 8, false, 32)
  | 3 => some (8, true, 8, 4, false, 16)
  | 4 => some (32, false, 2, 0, false, 4)
  | 5 => some (8, true, 8, 4, true, 16)
  | 6 => some (1, false, 8, 0, false, 128)
  | _ => none

/-- The block of n bits that the p-th of equal blocks holds. -/
def block (n p : Nat) : Nat := (2 ^ n - 1) * 2 ^ (n * p)

/-- R98, R99, R100: the built-in layout that a STRAP_LAYOUT value selects, with the capacities of the DIMMs found. -/
def State.builtinLayout (s : State) (n : Nat) : Option Layout :=
  match builtinShape n with
  | none => none
  | some (k, fenced, engs, chs, compat, share) =>
    let used := if n = 6 then [0] else List.range 32
    let capOf (c : Nat) : Nat :=
      let d := (s.chan c).dimm
      ((lowBits 4 d.present.toNat).filter fun r => !d.failed.getLsbD r).length * d.rankGib.toNat
    let cap := used.foldl (fun (a : Option Nat) c => some (match a with | none => capOf c | some b => min b (capOf c))) none
    let unit := gib * cap.getD 0
    let part (p : Nat) : PartRec :=
      { part := p, fenced := fenced, keySlot := p, compat := compat
        ways := if fenced then BitVec.ofNat 16 (block (16 / k) p) else 0
        engines := BitVec.ofNat 64 (block engs p)
        fencedCh := if fenced then BitVec.ofNat 32 (block chs p) else 0
        scratch := 768 / k
        asidBase := 65536 / k * p, asidCount := 65536 / k
        queueBase := 4096 / k * p, queueCount := 4096 / k
        mcastBase := 4096 / k * p, mcastCount := 4096 / k
        fabShare := if n = 6 then BitVec.ofNat 64 share else BitVec.ofNat 64 (share * 0x0101010101010101)
        hstShare := if n = 6 then BitVec.ofNat 16 share else BitVec.ofNat 16 (share * 0x0101) }
    let sets : List Ilv :=
      if fenced then (List.range k).map fun p => ⟨p * chs * unit, chs * unit, BitVec.ofNat 32 (block chs p), 0⟩
      else [⟨0, used.length * unit, BitVec.ofNat 32 (block used.length 0), 0⟩]
    let extents : List Extent :=
      if fenced then (List.range k).map fun p => ⟨p, p * chs * unit / mib2, chs * unit / mib2⟩
      else
        let e := used.length * unit / k / mib2
        (List.range k).map fun p => ⟨p, p * e, e⟩
    let own := 0x1FFF00 + bitsOf s.top.straps.toNat 11 6
    some {
      builtin := true, gen := 0, digest := List.replicate 32 0
      dramSpeed := BitVec.ofNat 2 (bitsOf s.top.straps.toNat 5 2), nodeId := 0xFFFFFFFF
      spare := List.replicate 32 0xFF, sets := sets, extents := extents
      routes := (coverNodes 21 0 [own, 0x1FFFFF]).map fun (b, lg) => ⟨BitVec.ofNat 21 b, lg, if n = 6 then 0x01 else 0xFF⟩
      parts := (List.range k).map part
      gateLen := 4096
      gate := if fenced then (List.range k).map fun p => (p, 4096 / k) else [(0x3F, 4096)] }

/-- R100: the check that the DIMMs found make a built-in layout fail: 0x15 when a channel that it uses holds none, or when
the capacity is not there, 0x16 when a channel is ABSENT for its DIMM, or types are mixed, or a DIMM does not support the
speed. -/
def State.builtinBad (s : State) (l : Layout) : Option Nat :=
  let used := (List.range 32).filter fun c => l.sets.any fun t => t.channels.getLsbD c
  let kinds := used.map fun c => (s.chan c).dimm.kind
  if used.any fun c => (s.chan c).dimm.kind == 0 then some 0x15
  else if !s.check15 l then some 0x15
  else if (used.all fun c => decide ((s.chan c).st ≠ .absent) && dimmUsable (s.chan c).dimm &&
      dimmSupports (s.chan c).dimm (s.speedOf l.dramSpeed.toNat)) && (match kinds with | [] => true | k :: t => t.all (· == k)) then none
  else some 0x16

/-! ### What loading sets (R75, R76, R85) -/

/-- R76: the traffic settings of partition p rewritten from the layout in force; buckets start full. -/
def State.loadTraffic (s : State) (p : Nat) : State := (List.range 10).foldl (fun s k => s.loadPq p k) s

/-- A layout in force: the RWT fields take its values (R36, R128), traffic settings its contracts, and controllers its spare
ranks (R64). -/
def State.enforce (s : State) (l : Layout) : State :=
  let s1 : State := { s with lay := some l, rwt := s.rwt.filter fun (k, _) => k == rwtKey .secState }
  let s2 := (s1.partList).foldl State.loadTraffic s1
  (List.range 32).foldl (fun s c =>
    let x := s.chan c
    let sp := l.spare.getD c 0xFF
    let v := decide (sp < 4) && x.dimm.present.getLsbD sp && !x.dimm.failed.getLsbD sp && !(x.served.any fun (_, r) => r == sp)
    if x.migr.isSome ∨ x.split.isSome then s
    else if x.spareV = v ∧ (!v ∨ x.spare.toNat = sp) then s
    else s.setChan c { x with spareV := v, spare := if sp < 4 then BitVec.ofNat 2 sp else x.spare }) s2

/-- R85 step 5: a partition's new section in force, in one fabric clock; its generation increments. -/
def State.enforceSection (s : State) (p : Nat) (c : PartSec) : State :=
  let l := s.lay.getD Layout.reset
  let s1 : State := { s with
    lay := some { l with secs := (l.secs.filter fun x => x.part != p) ++ [c] }
    rwt := s.rwt.filter fun (k, _) => !(decide (rwtKey (.mcast 0) ≤ k) && decide (k < rwtKey (.route 0))) }
  (s1.setPart p { s1.part p with gen := (s1.part p).gen + 1 }).loadTraffic p

end Sys2Proof.Machine
end

