-- ==== Sys2Proof/Machine/Messages.lean ====
section
/-! DEFINITION. The messages that arrive at a transaction unit: the receive checks (R176, R180, R198), refusals before
the home (R102, R116, R182, R463), requests, writebacks, snoop answers (R214, R225) and fabric-management messages
(R199). -/

namespace Sys2Proof.Machine
open Sys2Proof

/-- R198: whether an FMG message's source is accepted on port k. -/
def State.fmgOk (s : State) (k : Nat) (src : Node) : Bool :=
  let p := s.port k
  src == p.pnode ||
    (p.fmgBase != 0x1FFFFF && src.toNat / 2 ^ p.fmgLog2.toNat * 2 ^ p.fmgLog2.toNat == p.fmgBase.toNat)

/-- R176 checks 3 and 4. -/
def State.routeChecks (s : State) (ty : BitVec 6) (m : Msg) : Bool :=
  m.dst == s.nodeId && m.dst != 0x1FFFFF && m.src != 0x1FFFFF &&
    (!(tyClass ty == 0 || tyClass ty == 4) || (s.routeOf m.src).isSome || s.routeFails m.src)

/-- R176 check 6, after a disturbance of the node-generation word (R445): whether the message passes, and the table
after it. -/
def State.genCheck (s : State) (ty : BitVec 6) (m : Msg) (gen : BitVec 80) : Bool × State :=
  let s := if sramCheck gen = .uncorrectable then (s.nodeWordLost m.src).sramLost else s
  if tyClass ty = 0 ∨ tyClass ty = 4 then s.srcCheck m.src m.srcGen
  else if tyClass ty = 2 ∨ tyClass ty = 3 then
    (!(s.nodeKnown m.src && ((s.node m.src).dead || (s.node m.src).blocked)), s)
  else (true, s)

/-- The types the device receives (R176), FM_ECHO_RSP among those it does not. -/
def received (ty : BitVec 6) : Bool :=
  tyClass ty == 0 || ty == tySnpAck || ty == tySnpData || ty == tyWbDirty || ty == tyWbClean || ty == tyFmDown ||
    ty == tyFmUp || ty == tyFmEcho

/-- R188: the stamp of a message, and what its answer needs. -/
def State.stamp (s : State) (k : Nat) (m : Msg) : OrigFab :=
  ⟨k, (s.port k).gen, m.src, m.srcGen, m.tag, BitVec.ofNat 16 m.crc.toNat, m.body.length + 1⟩

/-- The slots of a message leave the port's receive buffer, which frees their credits (R155). -/
def State.takeMsg (s : State) (k : Nat) (ty : BitVec 6) (m : Msg) : State :=
  let p := s.port k
  let n := m.body.length + 1
  let c := tyClass ty
  let h := hdrSlot ty m.len m.src m.dst m.tag m.srcGen m.info m.poison m.resend m.mcast m.rsv m.crc
  let i := (p.rxSlots.findIdx? fun x => x == h).getD p.rxSlots.length
  s.setPort k { p with
    rxFreed := tput p.rxFreed c (tget 0 p.rxFreed c + n)
    rxSlots := (p.rxSlots.take i ++ p.rxSlots.drop (i + n)).dropWhile fun x => x == 0 }

/-- R116, R37, R82, R528: whether partition p's requests are answered FENCED. -/
def State.partFenced (s : State) (p : Nat) : Bool :=
  decide ((s.part p).st ≠ .run) || s.ownFails p || s.owl.scrubs.contains p || s.life == 4

/-- R37: whether a message depends on a field whose vote fails: the ownership of its ASID, or the routing entry of its source. -/
def State.msgFails (s : State) (m : Msg) : Bool := s.asidFails m.asid.toNat || s.routeFails m.src

/-- R110, R524: a request of a partition that is refused is counted and traced as any other. -/
def State.d1Refused (s : State) (k p : Nat) (ty : Byte) (m : Msg) (st : Status) : State :=
  (s.d1Count p fun d => { d with reqs := sat d.reqs }).d1Trace p ty st.code m.asid m.addr (BitVec.ofNat 8 k)

/-- R176: the receive checks in their order, on a port whose link is ACTIVE; `act` is what the message does once it has
passed them all. -/
def State.receive (s : State) (k : Nat) (ty : BitVec 6) (m : Msg) (gen : BitVec 80) (act : State → State) : State :=
  let a := s
  let s := s.takeMsg k ty m
  if (a.port k).st ≠ .active then a
  else if !crcOk ty m then s.e2eErr k
  else if malformed ty m then
    let s1 := s.countMalformed k
    if tyClass ty = 0 ∧ !(tySlots ty).isEmpty ∧ s.routeChecks ty m then
      let (ok, s2) := s1.genCheck ty m gen
      let p := s.asidPart m.asid.toNat
      let st := if s.life = 4 ∨ p.any s.partFenced ∨ s.msgFails m then Status.fenced else .badDescriptor
      if ok then (match p with
        | none => s2
        | some p => s2.d1Refused k p (ty.setWidth 8) m st).respond (s.stamp k m) p (cmpMsg st (if ty = tyPublish then some 0 else none))
      else s2
    else s1
  else if !s.routeChecks ty m then s.countUnroute k
  else if tyClass ty = 5 ∧ !s.fmgOk k m.src then s.countMalformed k
  else
    let (ok, s1) := s.genCheck ty m gen
    if !ok then s1.countStale k
    else if !received ty then s1.countUnexpect k
    else if (ty = tySnpAck ∨ ty = tySnpData) ∧
        !((s1.sett (m.tag.toNat / 4096)).snoops.any fun x => x.tag == m.tag && x.wait.contains m.src) then s1.countUnexpect k
    else act s1

/-- R173, R279: the conditions on an address as it is named. -/
def addrStatus (m : Msg) : Status :=
  Status.first [if m.addr < 2 ^ 57 then .ok else .xlateFault, if m.phys then .permFault else .ok]

/-- R249: whether the region of a PUBLISH is one of its partition. -/
def State.regionOk (s : State) (m : Msg) : Bool :=
  match regionOf m.arg with
  | none => false
  | some (p, _) => decide (s.asidPart m.asid.toNat = some p) && (s.regionPage p).isSome

/-- The request a message makes (R173, R174). -/
def State.txnOf (s : State) (k : Nat) (ty : ReqTy) (m : Msg) (n : Noise) (p : Nat) : Txn :=
  { kind := .fab
    fab := s.stamp k m
    ty := ty
    asid := m.asid
    va := m.addr
    op := m.op
    arg := m.arg
    epoch := m.info
    poisonIn := m.poison
    data := match ty with | .wrPart => m.bytes 3 4 | _ => m.bytes 2 4
    mask := match ty with | .wrPart => BitVec.ofNat 64 (m.slot 2) | _ => BitVec.allOnes 64
    opnd := m.body.drop 1
    noise := n
    part := p
    xst := addrStatus m }

/-- R49: the conditions on a request that need no translation. A PUBLISH of a region of its partition is judged with its descriptor
(R249). -/
def State.earlyStatus (s : State) (ty : ReqTy) (m : Msg) : Status :=
  let sett := if ty = .publish then 0 else settOf m.addr
  let known := ty == .publish && s.regionOk m
  let align := if ty = .atomic then atomSize m.op.toNat else if ty = .publish then mib2 else 64
  Status.first [
    if (s.sett sett).pair = .lost then .unavailable else .ok,
    if ty = .atomic ∧ 10 < m.op.toNat then .badDescriptor else .ok,
    if ty = .atomic ∧ m.body.length + 1 ≠ (if m.op.toNat = 10 then 4 else 3) then .badDescriptor else .ok,
    if ty = .accWr ∧ 4 < m.op.toNat then .badDescriptor else .ok,
    if known ∨ m.addr % align = 0 then .ok else .alignFault,
    if ty = .publish ∧ !known then .badRegion else .ok,
    if known then .ok else addrStatus m]

/-- R37, R49, R102, R528: what every request of a partition, or of none, is answered with where the conditions that rank above give nothing:
FENCED, or RETRY_LATER until ready is 1. -/
def State.unitStatus (s : State) (p : Option Nat) (m : Msg) : Status :=
  Status.first [if s.life = 4 ∨ p.any s.partFenced ∨ s.msgFails m then .fenced else .ok, if s.top.ready then .ok else .retryLater]

/-- R281: a fault of an address is counted. -/
def State.countIf (s : State) (asid : BitVec 16) (st : Status) : State :=
  if st = .xlateFault ∨ st = .permFault then s.countFault asid else s

/-- The answer to a request that was refused or judged without a translation. -/
def refusal (ty : ReqTy) (st : Status) : Msgs := cmpMsg st (if ty = .publish then some 0 else none)

/-- R182: what a lookup of the deduplication cache finds for a message. -/
inductive Look where
  | none_
  | open_ (d : Ded)
  | done (d : Ded)
  | clash
  | blocked
deriving DecidableEq, Repr

def State.dedLook (s : State) (m : Msg) : Look :=
  if s.dedBlocked m.src m.srcGen m.tag then .blocked
  else match s.ded m.src m.srcGen m.tag with
  | none => .none_
  | some d =>
    if d.sig = BitVec.ofNat 16 m.crc.toNat then (if d.st = .done then .done d else .open_ d)
    else if d.st = .done then .none_ else .clash

/-- R182, R184: a non-idempotent message that the cache lets pass gets its open entry; the answer when it does not. -/
def State.dedEnter (s : State) (m : Msg) (ty : ReqTy) (p : Nat) : Option State :=
  let s1 := s.dedDrop m.src m.srcGen m.tag
  s1.dedOpen ⟨m.src, m.srcGen, m.tag, BitVec.ofNat 16 m.crc.toNat, p, ty == .atomic || ty == .publish || ty == .rdOwn || ty == .upgrade, .opened, Msgs.reset,
    s.clk, s.nextTxn⟩

/-- R182, R188: one more answer for a copy that hit an open entry, under the stamp of the port that the copy came by. -/
def State.addCopy (s : State) (d : Ded) (k : Nat) : State :=
  { s with txns := s.txns.map fun t =>
      if t.kind = .fab ∧ d.isKey t.fab.src t.fab.srcGen t.fab.tag then { t with copies := t.copies ++ [(k, (s.port k).gen)] } else t }

/-- A request of partition p that is refused: its fault counted (R281), seen by D1 (R524), and answered. -/
def State.refuse (s : State) (k : Nat) (ty : ReqTy) (m : Msg) (p : Nat) (st : Status) : State :=
  ((s.countIf m.asid st).d1Refused k p ty.code m st).respond (s.stamp k m) (some p) (refusal ty st)

/-- R182, R184, R49: a message that the cache lets no entry: RETRY_LATER, counted, where no condition of the request ranks above. -/
def State.dedRefuse (s : State) (k : Nat) (m : Msg) (p : Nat) (ty : ReqTy) (early : Status) : State :=
  let st := early.worst .retryLater
  (if st = .retryLater then s.countDedupFull k else s).refuse k ty m p st

/-- R182, R186: whether the operation of an open entry still runs: a warm reset may have ended it. -/
def State.openRuns (s : State) (d : Ded) : Bool :=
  !s.inWarm || s.txns.any fun t => decide (t.kind = .fab) && d.isKey t.fab.src t.fab.srcGen t.fab.tag

/-- A message's request past the refusals: its status without translation, its entry, and its way to the home. -/
def State.enter (s : State) (k : Nat) (ty : ReqTy) (m : Msg) (n : Noise) (p : Nat) (early : Status) : State :=
  let f := s.stamp k m
  let go (s : State) : State :=
    if early = .ok then (s.countIf m.asid (addrStatus m)).request (s.txnOf k ty m n p)
    else
      let a := refusal ty (if ty = .wbClean ∧ (early = .xlateFault ∨ early = .permFault) then .ok else early)
      let s1 := (s.countIf m.asid early).d1Refused k p ty.code m early
      (if ty.nonIdem then s1.dedDone f a else s1).respond f (some p) a
  if !ty.nonIdem then go s
  else match s.dedLook m with
    | .done d => (s.countDedupHit k).respond f (some p) d.ans
    | .open_ d =>
      if s.openRuns d then (s.countDedupHit k).addCopy d k else s.respond f (some p) (refusal ty .retryLater)
    | .clash => s.dedRefuse k m p ty early
    | .blocked => if m.resend then s.respond f (some p) (refusal ty .poisoned) else s.dedRefuse k m p ty early
    | .none_ => match s.dedEnter m ty p with
      | none => (s.dedDrop m.src m.srcGen m.tag).dedRefuse k m p ty early
      | some s1 => go s1

/-- R443, R444: a disturbance of the deduplication entry that a message looks up; without an entry there is nothing to lose. -/
def State.dedNoise (s : State) (m : Msg) (err : BitVec 80) : State :=
  if sramCheck err = .uncorrectable ∧ !(s.dedEntry m.src m.srcGen m.tag).isEmpty then (s.dedBlock m.src m.srcGen m.tag).sramLost else s

/-- A REQ message that passed the receive checks (R49, R102, R110, R116, R182, R463, R464). A red one is not applied, and so is never
translated (R463): the conditions beside its colour are those that need no translation. -/
def State.reqIn (s : State) (k : Nat) (ty : ReqTy) (m : Msg) (n : Noise) : State :=
  let f := s.stamp k m
  match s.asidPart m.asid.toNat with
  | none =>
    let st := Status.first [s.unitStatus none m, if s.top.ready ∨ s.lay.isSome then .xlateFault else .ok, s.earlyStatus ty m]
    (s.countIf m.asid st).respond f none (refusal ty st)
  | some p =>
    let s := if ty.nonIdem then s.dedNoise m n.dedup else s
    let hit := ty.nonIdem && m.resend && (match s.dedLook m with
      | .done _ => true
      | .open_ _ => true
      | .blocked => true
      | _ => false)
    let early := s.earlyStatus ty m
    let policed := s.police p k (16 * (m.body.length + 1)) 0 m.resend
    if hit then policed.2.enter k ty m n p .ok
    else if s.unitStatus (some p) m ≠ .ok then s.refuse k ty m p ((s.unitStatus (some p) m).worst early)
    else if policed.1 = 2 ∧ !m.resend then policed.2.refuse k ty m p (early.worst .quota)
    else policed.2.enter k ty m n p early

/-- A WBK message that passed the receive checks (R102, R182, R216, R232, R593). -/
def State.wbIn (s : State) (k : Nat) (ty : ReqTy) (m : Msg) (n : Noise) : State :=
  let f := s.stamp k m
  match s.asidPart m.asid.toNat with
  | none =>
    if s.asidFails m.asid.toNat then s.respond f none (cmpMsg .fenced none)
    else if !s.top.ready then s.respond f none (cmpMsg .epochLost none)
    else (s.countFault m.asid).respond f none (cmpMsg (if ty = .wbClean then .ok else .xlateFault) none)
  | some p =>
    let s := s.dedNoise m n.dedup
    let hit := m.resend && (match s.dedLook m with
      | .done _ => true
      | .open_ _ => true
      | .blocked => true
      | _ => false)
    if hit then s.enter k ty m n p .ok
    else if !s.top.ready then
      let s1 := if s.inWarm then s.countEpochLost (settOf m.addr) else s
      s1.respond f (some p) (cmpMsg .epochLost none)
    else if s.owl.swept then { s with owl := { s.owl with hibWbk := s.owl.hibWbk ++ [(k, m, BitVec.ofNat 6 ty.code.toNat)] } }
    else s.enter k ty m n p (s.earlyStatus ty m)

def execRdShared (port : Nat) (m : Msg) (n : Noise) (s : State) : Host.Outcome State Fault Refusal :=
  .next (s.receive port tyRdShared m n.gen fun s => s.reqIn port .rdShared m n)
def execRdOwn (port : Nat) (m : Msg) (n : Noise) (s : State) : Host.Outcome State Fault Refusal :=
  .next (s.receive port tyRdOwn m n.gen fun s => s.reqIn port .rdOwn m n)
def execUpgrade (port : Nat) (m : Msg) (n : Noise) (s : State) : Host.Outcome State Fault Refusal :=
  .next (s.receive port tyUpgrade m n.gen fun s => s.reqIn port .upgrade m n)
def execRdOnce (port : Nat) (m : Msg) (n : Noise) (s : State) : Host.Outcome State Fault Refusal :=
  .next (s.receive port tyRdOnce m n.gen fun s => s.reqIn port .rdOnce m n)
def execWrLine (port : Nat) (m : Msg) (n : Noise) (s : State) : Host.Outcome State Fault Refusal :=
  .next (s.receive port tyWrLine m n.gen fun s => s.reqIn port .wrLine m n)
def execWrPart (port : Nat) (m : Msg) (n : Noise) (s : State) : Host.Outcome State Fault Refusal :=
  .next (s.receive port tyWrPart m n.gen fun s => s.reqIn port .wrPart m n)
def execAtomic (port : Nat) (m : Msg) (n : Noise) (s : State) : Host.Outcome State Fault Refusal :=
  .next (s.receive port tyAtomic m n.gen fun s => s.reqIn port .atomic m n)
def execAccWr (port : Nat) (m : Msg) (n : Noise) (s : State) : Host.Outcome State Fault Refusal :=
  .next (s.receive port tyAccWr m n.gen fun s => s.reqIn port .accWr m n)
def execPublish (port : Nat) (m : Msg) (n : Noise) (s : State) : Host.Outcome State Fault Refusal :=
  .next (s.receive port tyPublish m n.gen fun s => s.reqIn port .publish m n)
def execWbDirty (port : Nat) (m : Msg) (n : Noise) (s : State) : Host.Outcome State Fault Refusal :=
  .next (s.receive port tyWbDirty m n.gen fun s => s.wbIn port .wbDirty m n)
def execWbClean (port : Nat) (m : Msg) (n : Noise) (s : State) : Host.Outcome State Fault Refusal :=
  .next (s.receive port tyWbClean m n.gen fun s => s.wbIn port .wbClean m n)

/-! ### Snoop answers -/

def execSnpAck (port : Nat) (m : Msg) (s : State) : Host.Outcome State Fault Refusal :=
  .next (s.receive port tySnpAck m 0 fun s => s.snoopAnswer m.tag m.src none)
def execSnpData (port : Nat) (m : Msg) (s : State) : Host.Outcome State Fault Refusal :=
  .next (s.receive port tySnpData m 0 fun s => s.snoopAnswer m.tag m.src (some (m.bytes 1 4, m.poison)))

/-! ### Fabric management (R199) and node death (R227) -/

def execFmNodeDown (port : Nat) (m : Msg) (s : State) : Host.Outcome State Fault Refusal :=
  .next (s.receive port tyFmDown m 0 fun s =>
    let d : Node := BitVec.ofNat 21 (m.slot 1)
    let g : Byte := BitVec.ofNat 8 (bitsOf (m.slot 1) 21 8)
    let n := s.node d
    if s.nodeKnown d ∧ !n.dead ∧ (n.relearn ∨ n.gen = g) then s.death d else s)
def execFmNodeUp (port : Nat) (m : Msg) (s : State) : Host.Outcome State Fault Refusal :=
  .next (s.receive port tyFmUp m 0 fun s =>
    let d : Node := BitVec.ofNat 21 (m.slot 1)
    s.setNode d { s.node d with gen := BitVec.ofNat 8 (bitsOf (m.slot 1) 21 8), dead := false, relearn := false })
def execFmEcho (port : Nat) (m : Msg) (s : State) : Host.Outcome State Fault Refusal :=
  .next (s.receive port tyFmEcho m 0 fun s =>
    s.offerPort port { ty := tyFmEchoRsp, dst := m.src, tag := m.tag, srcGen := s.srcGen, body := m.body.take 1 })
def execFmEchoRsp (port : Nat) (m : Msg) (s : State) : Host.Outcome State Fault Refusal :=
  .next (s.receive port tyFmEchoRsp m 0 id)
def execUnexpectedMessage (port : Nat) (ty : BitVec 6) (m : Msg) (s : State) : Host.Outcome State Fault Refusal :=
  .next (if received ty then s else s.receive port ty m 0 id)

/-! ### Commands of the home -/

/-- R217, R218, R220: a line has neither a started request nor a minimum hold: its parked requests compete, in the order of R217, and so do
those that another line of their set, free snoop tags or the GATE slot let go on. Lines that wait to be installed come first (R391). -/
def execRequestWake (sett : Nat) (line : Nat) (s : State) : Host.Outcome State Fault Refusal :=
  let s1 := s.installWaiting sett s.busyLines
  let parked := s1.parkedIn sett
  let mine := parked.filter fun t => t.line == line || (s1.txnLines t).contains (line * 64)
  .next (((if mine.isEmpty then parked.filter fun t => s1.gateAdmits t.part else mine).foldl (fun s t => s.retry t.id) s1).admitRing sett)

/-- R219: the minimum hold of a line ends once its fabric clocks have passed. -/
def execMinHoldEnd (sett : Nat) (line : Nat) (s : State) : Host.Outcome State Fault Refusal :=
  let t := s.sett sett
  .next (s.setSett sett { t with holds := t.holds.filter fun (l, at_, n) => !(l == line && decide (at_ + n ≤ s.clk)) })

/-- R220: P. -/
def Sett.starveP (t : Sett) : Nat := max t.hold.toNat 32

def execRequestStarved (sett : Nat) (id : Nat) (s : State) : Host.Outcome State Fault Refusal :=
  match s.txn id with
  | none => .next s
  | some t =>
    if t.phase = .parked ∧ t.sett = sett ∧ t.parkAt + 4 * (s.sett sett).starveP < s.clk then .next (s.setTxn { t with starved := true })
    else .next s

def execStarveCount (sett : Nat) (id : Nat) (s : State) : Host.Outcome State Fault Refusal :=
  match s.txn id with
  | none => .next s
  | some t =>
    if t.phase = .parked ∧ t.sett = sett ∧ !t.counted ∧ t.parkAt + 64 * (s.sett sett).starveP ≤ s.clk then
      .next ((s.setTxn { t with starved := true, counted := true }).settEv sett 2 fun x => { x with starves := sat x.starves })
    else .next s

/-- R221: a request parked for 512 µs is answered TIMEOUT, unapplied: of a scheduler, its record is not written, or its counter not advanced. An
access of the device to a region or counter line is no request, and goes on waiting (log 48). -/
def execParkTimeout (sett : Nat) (id : Nat) (s : State) : Host.Outcome State Fault Refusal :=
  match s.txn id with
  | none => .next s
  | some t =>
    if t.phase = .parked ∧ t.charged ∧ t.sett = sett ∧ 1228800 + t.parkAt ≤ s.clk then
      let s1 := s.settEv sett 8 fun x => { x with parkTo := sat x.parkTo }
      .next ((if t.kind = .dev then s1.schedTimeout t
        else s1.answer t { st := .timeout, ver := if t.ty = .publish then some 0 else none }).admitRing sett)
    else .next s

/-- R225: a snoop's timer expires with answers missing. The silent nodes of the request's unicast snoops whose timers have
expired with it are declared dead. -/
def execSnoopTimeout (tag : BitVec 16) (s : State) : Host.Outcome State Fault Refusal :=
  let n := tag.toNat / 4096
  match (s.sett n).snoops.find? fun x => x.tag == tag with
  | none => .next s
  | some x =>
    if x.lim * Config.usClk + x.since ≤ s.clk then
      let late := (s.sett n).snoops.filter fun y => y.txn == x.txn && y.line == x.line &&
        decide (y.lim * Config.usClk + y.since ≤ s.clk)
      let silent := (late.filter fun y => !y.mc).flatMap (·.wait)
      let s1 := (((s.timeoutSnoop tag false late.length).recallLine x.txn x.line)).snoopsDone n x.txn
      .next (silent.foldl State.death s1)
    else .next s

/-- R227: the sweep of a sett ends: every line OWNED by the node that no request holds is poisoned and UNCACHED, and the
node's pointers are freed; a queued death's sweep follows. -/
def State.sweepLines (s : State) (n : Nat) (d : Node) : State :=
  let busy := s.busyLines
  let s1 := (s.sett n).dir.foldl (fun s (b, _) =>
    (List.range 4).foldl (fun s k =>
      let a := lineAddr n b k
      if (s.dirEnt a).at k = (2, d) ∧ !busy.contains (a / 64) then s.poisonTracked a 0x02 else s) s) s
  let t := s1.sett n
  s1.setSett n { t with dir := t.dir.map fun (b, e) => (b, { e with ptrs := without e.ptrs d }) }

def execDeathSweepEnd (sett : Nat) (s : State) : Host.Outcome State Fault Refusal :=
  match (s.sett sett).sweep with
  | none => .next s
  | some d =>
    if s.owl.swept then .next s
    else
    let s1 := s.sweepLines sett d
    let t := s1.sett sett
    .next (s1.setSett sett (match t.sweepQ with
      | [] => { t with sweep := none }
      | x :: xs => { t with sweep := some x, sweepQ := xs }))

/-- R183: a completed entry past its retention is discarded; an open one never is. -/
def execDedupEntryExpiry (src : Node) (gen : Byte) (tag : BitVec 16) (s : State) : Host.Outcome State Fault Refusal :=
  match s.ded src gen tag with
  | none => .next s
  | some d => if d.old s.clk then .next (s.dedDrop src gen tag) else .next s

/-- R444: a blocked entry is freed after 128 µs, with all that it holds. -/
def execDedupBlockEnd (src : Node) (gen : Byte) (tag : BitVec 16) (s : State) : Host.Outcome State Fault Refusal :=
  match s.ded src gen tag with
  | none => .next s
  | some d =>
    if d.st = .blocked ∧ 307200 + d.at_ ≤ s.clk then
      .next { s with dedup := s.dedup.filter fun x => !(decide (x.st = .blocked) && (x.shares d || x.isKey src gen tag)) }
    else .next s

/-- R445: the block of a word's four nodes ends after 128 µs: they are relearn, and nothing else; one declared dead meanwhile counts as live
again. -/
def execNodeGenBlockEnd (w : Nat) (s : State) : Host.Outcome State Fault Refusal :=
  .next ((List.range 4).foldl (fun s i =>
    let d : Node := BitVec.ofNat 21 (4 * w + i)
    let n := s.node d
    if n.blocked ∧ 307200 + n.blockAt ≤ s.clk then s.setNode d { NodeG.reset with relearn := true }
    else s) s)

end Sys2Proof.Machine
end

