-- ==== Sys2Proof/Machine/Link.lean ====
section
/-! DEFINITION. The Dreriorn link layer (R134–R168): lane control blocks and training, flow units with sequence,
acknowledgement, replay and credits, the lane plan, link states and their triggers, and what a link-down does to messages
(R197). A flow unit that arrives stands for the stream blocks that carried it, and names those that did not check as good; the
blocks that leave are `State.laneBlocks`. -/

namespace Sys2Proof.Machine
open Sys2Proof

/-! ### Lanes and plans -/

def Port.lane (p : Port) (l : Nat) : LaneS := tget LaneS.reset p.lanes l
def Port.setLane (p : Port) (l : Nat) (x : LaneS) : Port := { p with lanes := tput p.lanes l x }

/-- The lanes of a mask, and the mask of lanes. -/
def lanesIn (m : W32) : List Nat := lowBits 32 m.toNat
def maskOf (l : List Nat) : W32 := l.foldl (fun m k => m ||| BitVec.ofNat 32 (2 ^ k)) 0

/-- R140: whether a lane is powered: its power bit is 1 and it is not FAILED. -/
def Port.powered (p : Port) (l : Nat) : Bool := (p.lane l).power && decide ((p.lane l).st ≠ .failed)

/-- R157: the legal populations. -/
def planSizes : List Nat := [32, 24, 16, 8, 4]

/-- R162: good lanes cut down to the next legal population by clearing the highest-numbered, or made up to four from
standby lanes in ascending number; none when no legal plan exists. -/
def cutPlan (good standby : List Nat) : Option W32 :=
  match planSizes.find? (· ≤ good.length) with
  | some c => some (maskOf (good.take c))
  | none =>
    let l := good ++ (standby.filter fun k => !good.contains k).take (4 - good.length)
    if l.length = 4 then some (maskOf l) else none

/-- R157, R158: whether every lane of a mask is ready at this end. -/
def Port.lanesReady (p : Port) (m : W32) : Bool :=
  (lanesIn m).all fun l => decide ((p.lane l).st = .standby) || decide ((p.lane l).st = .inPlan)

/-- R162: the STANDBY lanes of a port. -/
def Port.standbys (p : Port) : List Nat := (List.range 32).filter fun l => decide ((p.lane l).st = .standby) && p.powered l

/-- R162: the plan in force less every FAILED lane. -/
def Port.lessFailed (p : Port) : Option W32 :=
  cutPlan ((lanesIn p.plan).filter fun l => decide ((p.lane l).st ≠ .failed)) p.standbys

/-- R140, R141: whether a lane can take part: every powered lane in TRAIN, after phase 1 only those that it identified, and in
RETRAIN a lane of the plan that is not FAILED, or a STANDBY lane. -/
def Port.usable (p : Port) (l : Nat) : Bool :=
  let x := p.lane l
  (if p.st = .train then p.powered l && (decide (p.phase ≤ 1) || x.ident)
    else if p.plan.getLsbD l then decide (x.st ≠ .failed) else decide (x.st = .standby) && p.powered l) && !x.excl

/-- R140: the lanes that take part in a training or retrain. -/
def Port.trainees (p : Port) : List Nat :=
  (List.range 32).filter fun l => p.usable l && (decide (p.st = .train) || p.plan.getLsbD l || p.prop.getLsbD l)

/-- R140, R165: the plan_mask that a side proposes. -/
def Port.propose (p : Port) : Option W32 :=
  cutPlan ((lanesIn p.goPlan).filter p.usable)
    ((List.range 32).filter fun l => p.usable l && (decide (p.st = .train) || decide ((p.lane l).st = .standby)))

/-- R158, R160: lane states once a mask is in force. -/
def Port.settle (p : Port) (m : W32) : Port :=
  (List.range 32).foldl (fun p l =>
    let x := p.lane l
    let st : LaneState :=
      if x.st = .failed then .failed
      else if m.getLsbD l then .inPlan
      else if !x.power then .off
      else if x.st = .off ∧ !x.ident then .off else .standby
    if st = x.st then p else p.setLane l { x with st := st }) { p with plan := m }

/-- R140, R157: the plan of both directions once a training or retrain has ended; the blocks of its lanes begin with index 0 (R135). The
last plan for which GO was accepted stays (R159). -/
def Port.settleBoth (p : Port) (m : W32) : Port := { p.settle m with txPlan := m, upAt := p.sent.length }

/-! ### Lane control blocks (R135–R139) -/

def LaneState.code : LaneState → Nat
  | .off => 0 | .standby => 1 | .inPlan => 2 | .failed => 3

def LaneState.ofCode (n : Nat) : LaneState := [LaneState.off, .standby, .inPlan, .failed].getD n .off

/-- R139: the lane control block types. -/
def lcbTsId : Byte := 1
def lcbTsEq : Byte := 2
def lcbTsDone : Byte := 3
def lcbTsGo : Byte := 4
def lcbRetrain : Byte := 5
def lcbDown : Byte := 6
def lcbStandby : Byte := 7
def lcbLaneTrain : Byte := 8

/-- R138: the main tap: 64 less the other taps' magnitudes. -/
def LaneS.mainTap (x : LaneS) : Int := 64 - (x.taps.map fun t => (t.natAbs : Int)).foldl (· + ·) 0

/-- R138: the control word that a port sends first on a lane; count is 1. -/
def State.lcbWord (s : State) (k l : Nat) (ty : Byte) : BitVec 128 :=
  let p := s.port k
  let x := p.lane l
  BitVec.ofNat 128 (1 + (if ty = lcbTsGo then p.prop.toNat else 0) * 2 ^ 8 + (if ty = lcbDown then p.reason.toNat else 0) * 2 ^ 40 +
    (if ty = lcbTsEq then 2 ^ 48 * x.echo.toNat + 2 ^ 56 * x.stat.toNat + 0xF * 2 ^ 76 else 0) + 2 ^ 81 * x.st.code + 2 ^ 83 * l +
    2 ^ 88 * p.gen.toNat + 2 ^ 96 * k + 2 ^ 99 * s.nodeId.toNat + 2 ^ 120 * ty.toNat)

/-- A port begins to send blocks of a type on lanes. -/
def State.sendLcbs (s : State) (k : Nat) (ls : List Nat) (ty : Byte) : State :=
  s.setPort k { s.port k with lcbs := (s.port k).lcbs ++ ls.map fun l => (l, s.lcbWord k l ty) }

/-- R136, R138: the n-th lane control block (n counts from 1) of a run that begins with a control word, under a block index:
the sync header, the word and its complement, the check bits and the index; count saturates at 255. -/
def lcbBlock (w : BitVec 128) (n : Nat) (ix : BitVec 4) : BitVec 272 :=
  let cw := w.toNat / 256 * 256 + min n 255
  let x := (2 ^ 128 - 1 - cw) * 2 ^ 128 + cw
  BitVec.ofNat 272 (2 * 2 ^ 270 + x * 2 ^ 14 + checkBits x * 2 ^ 4 + ix.toNat)

/-- R139, R141: a port as it becomes; each lane that is newly in STANDBY sends STANDBY blocks. -/
def State.putLanes (s : State) (k : Nat) (p : Port) : State :=
  let old := s.port k
  (s.setPort k p).sendLcbs k ((List.range 32).filter fun l => decide ((p.lane l).st = .standby) && decide ((old.lane l).st ≠ .standby))
    lcbStandby

/-- R136, R138: a lane control block as received: whether its check corrected a bit, and its control word; none when it
is uncorrectable or its halves are not complements. -/
def lcbOf (blk : BitVec 272) : Option (Bool × Nat) :=
  let halves (c : Bool) (x : Nat) : Option (Bool × Nat) :=
    if x / 2 ^ 128 + x % 2 ^ 128 = 2 ^ 128 - 1 then some (c, x % 2 ^ 128) else none
  match hdecode (bitsOf blk.toNat 14 256) (bitsOf blk.toNat 4 10) with
  | .good x => halves false x
  | .corrected x => halves true x
  | .uncorrectable => none

/-- The fields of a control word. -/
def cwType (w : Nat) : Byte := BitVec.ofNat 8 (bitsOf w 120 8)
def cwNode (w : Nat) : Node := BitVec.ofNat 21 (bitsOf w 99 21)
def cwPort (w : Nat) : BitVec 3 := BitVec.ofNat 3 (bitsOf w 96 3)
def cwGen (w : Nat) : Byte := BitVec.ofNat 8 (bitsOf w 88 8)

/-- R134, R161: 2^24 blocks of a lane, of 272 bits at 425 Gb/s, in fabric clocks. -/
def winClk : Nat := 25769804

/-- R136, R161: a block of a lane that was not good is counted: corrected, or uncorrectable and in the window. -/
def LaneS.badBlock (x : LaneS) (corrected : Bool) (clk : Nat) : LaneS :=
  if corrected then { x with corr := sat x.corr }
  else { x with uncorr := sat x.uncorr, win := (x.win.filter fun t => decide (clk < winClk + t)) ++ [clk] }

/-- A block arrives on a lane: lanes are in electrical idle in DOWN and DISABLED; a stream block is none of these; a block
that is not accepted counts as an uncorrectable block of its lane, and one of another type only ends a run of consecutive blocks
(R140). -/
def State.lcbIn (s : State) (k l : Nat) (blk : BitVec 272) (ty : Byte) (act : State → Nat → State) : State :=
  let p := s.port k
  let x := p.lane l
  if p.st = .down ∨ p.st = .disabled ∨ bitsOf blk.toNat 270 2 ≠ 2 then s
  else match lcbOf blk with
    | none => s.setPort k (p.setLane l { x.badBlock false s.clk with cnt := 0 })
    | some (c, w) =>
      let y := if c then x.badBlock true s.clk else x
      let z := if cwType w = y.cntTy ∨ y.cnt = 0 then y else { y with cnt := 0 }
      let s1 := if z = x then s else s.setPort k (p.setLane l z)
      if cwType w = ty then act s1 w else s1

/-- One more block of a type in a row on a lane; a block of another type has ended the run before (`State.lcbIn`). -/
def LaneS.bump (x : LaneS) (ty : Byte) : LaneS :=
  { x with cnt := if x.cntTy = ty then min 16 (x.cnt + 1) else 1, cntTy := ty }

/-! ### Flow units: sequence, acknowledgement, replay (R142–R156) -/

/-- R145: the CRC-64 of a flow unit under a prefix. -/
def unitCrc (pre : Nat) (u : FlowUnit) : W64 := crc64 (toLe 2 pre ++ toLe 8 u.hdr.toNat ++ (u.slots.flatMap slotBytes))

def fuType (u : FlowUnit) : Nat := bitsOf u.hdr.toNat 60 4

/-- R142, R145, R152, R158: the unit that a port has sent: its header, its slots (a message's, a PLAN unit's
payload, the resume point of a REPLAY, else zeros) and its CRC-64. -/
def Sent.unit (x : Sent) : FlowUnit :=
  let pay : List Slot := match x.plan, x.msg with
    | some (op, id, m, r), _ => [BitVec.ofNat 128 (op.toNat + 2 ^ 8 * id.toNat + 2 ^ 32 * m.toNat + 2 ^ 64 * r.toNat)]
    | none, some m => m.slots
    | none, none => if x.kind = 2 then [BitVec.ofNat 128 x.seq.toNat] else []
  let hdr : W64 := BitVec.ofNat 64 (2 ^ 60 * x.kind.toNat + 2 ^ 58 * x.ackKind.toNat + 2 ^ 46 * x.ackSeq.toNat +
    2 ^ 43 * x.crClass.toNat + 2 ^ 26 * x.crTotal.toNat + 2 ^ 22 * (if x.msg.isSome then 0 else 0xF) + 2 ^ 21 * b2n x.pb +
    2 ^ 20 * b2n x.replayed)
  let u : FlowUnit := ⟨hdr, (pay ++ List.replicate 15 0).take 15, 0, []⟩
  { u with crc := unitCrc (if x.kind = 0 ∨ x.kind = 3 then x.seq.toNat else 0xF000) u }

/-- R142: the units that port k has sent, oldest first. -/
def State.sentUnits (s : State) (k : Nat) : List FlowUnit := (s.port k).sent.map Sent.unit

/-- R142: the 256 bytes of a flow unit. -/
def unitBytes (u : FlowUnit) : Bytes := toLe 8 u.hdr.toNat ++ u.slots.flatMap slotBytes ++ toLe 8 u.crc.toNat

/-- R137: the bytes that lane l carries of a stream of units, each with its lane mask, and each byte with its row: the bytes sent
together on the lanes of the plan. `n` counts the stream's bytes before them, `w` is the width of the plan before, and `r` the row;
a plan that is switched to begins a row (log 17). With it the row that comes next. -/
def laneBytes (l : Nat) : Nat → Nat → Nat → List (W32 × Bytes) → List (Nat × Byte) × Nat
  | _, _, r, [] => ([], r)
  | n, w, r, (m, bs) :: rest =>
    let ls := lanesIn m
    let c := ls.length
    let r0 := if c = w ∨ n % w = 0 then r else r + 1
    let row (i : Nat) : Nat := r0 + (n + i) / c - n / c
    let (xs, e) := laneBytes l (n + bs.length) c (row bs.length) rest
    (((bs.zipIdx.filter fun (_, i) => ls.getD ((n + i) % c) 32 == l).map fun (b, i) => (row i, b)) ++ xs, e)

/-- R135: the self-synchronous scrambler 1 + x^39 + x^58: bits in the order sent, and the 58 bits sent before them. -/
def scramble : Nat → List Bool → List Bool × Nat
  | st, [] => ([], st)
  | st, b :: t =>
    let y := (b != st.testBit 38) != st.testBit 57
    let (ys, e) := scramble ((2 * st + b2n y) % 2 ^ 58) t
    (y :: ys, e)

/-- R135, R136: the lane blocks of a lane that carry 32 bytes each, with their block indices, from a scrambler state on: the first
byte in the highest bits (log 17); the check bits are over the bits before they are scrambled. -/
def streamBlocks : Nat → List (Nat × Bytes) → List (BitVec 272)
  | _, [] => []
  | st, (ix, bs) :: rest =>
    let x := bs.foldl (fun a b => 256 * a + b.toNat) 0
    let (ys, st1) := scramble st ((List.range 256).map fun i => x.testBit (255 - i))
    let y := ys.foldl (fun a b => 2 * a + b2n b) 0
    BitVec.ofNat 272 (2 ^ 270 + y * 2 ^ 14 + checkBits x * 2 ^ 4 + ix % 16) :: streamBlocks st1 rest

/-- R135–R137, R140: the whole stream blocks that port k has sent on lane l since the link last entered ACTIVE, from a scrambler state
that the manual leaves open. A block carries 32 rows, so that its index, which counts from 0, is the same on every lane for blocks sent
together; a place of it in which no unit puts a byte (the lane joined the plan within it) is free (log 17). -/
def State.laneBlocks (s : State) (k l st : Nat) : List (BitVec 272) :=
  let p := s.port k
  let us := (p.sent.drop p.upAt).map fun x => (x.lanes, unitBytes x.unit)
  let (bs, e) := laneBytes l 0 1 0 us
  streamBlocks st ((List.range (e / 32)).filterMap fun j =>
    let mine := bs.filter fun (r, _) => r / 32 == j
    if mine.isEmpty then none
    else some (j, (List.range 32).map fun i => match mine.find? fun (r, _) => r == 32 * j + i with
      | some (_, b) => b
      | none => BitVec.ofNat 8 (Config.freeNat (32 * j + i))))

/-- R151–R153: a replay event from a sequence: REPLAY, then every stored unit from there. A NAK in the fabric clock of the timer's
event makes one event with it: what that one sent again is sent from the NAK's sequence in its place. Every replay event starts the
timer anew, one that advances nothing among them (DESIGN CHOICE, log 18). -/
def Port.replayFrom (p : Port) (r : BitVec 12) (clk : Nat) : Port :=
  let same : Option Nat := match p.timerAt with
    | some (t, n) => if t = clk then some n else none
    | none => none
  let again := same.isSome && decide (p.sameCnt ≠ 0)
  let p0 : Port := { p with
    sent := match same with
      | some n => p.sent.take n ++ (p.sent.drop n).filter fun (x : Sent) => x.kind != 2 && !x.replayed
      | none => p.sent
    replays := if same.isSome then p.replays else sat p.replays
    evstat := setBit p.evstat 0
    sameCnt := if p.buf.isEmpty || again then p.sameCnt else p.sameCnt + 1
    winAt := if same.isSome then p.winAt else (p.winAt.filter fun n => decide (p.winUnits < 2 ^ 24 + n)) ++ [p.winUnits]
    timerAt := none
    ackAt := clk }
  let p1 := p0.sendPlain 2 r
  let from_ := p.buf.dropWhile fun u => u.seq != r
  from_.foldl (fun (p : Port) u => p.emit (if u.plan.isSome then 3 else 0) u.seq true u.pb u.plan u.msg) p1

/-- An exchange of PLAN units ends (R168). -/
def Port.planEnds (p : Port) : Port := { p with plans := sat p.plans, evstat := setBit p.evstat 4 }

/-- R158, R168: this side's exchange ends with a result. -/
def Port.outEnds (p : Port) (res : BitVec 4) : Port :=
  { p with planOut := none, goWait := false, cmdPlan := false, planRes := res }.planEnds

/-- The oldest unacknowledged sequence. -/
def Port.oldest (p : Port) : BitVec 12 := match p.buf with | [] => p.txSeq | u :: _ => u.seq

/-- R147, R149: units before sequence n are acknowledged, where n lies between the oldest and the next to send. With the GO of this
side's exchange the exchange is done (R158, R159). -/
def Port.ackTo (p : Port) (n : BitVec 12) (clk : Nat) : Port :=
  let d := (n - p.oldest).toNat
  if d = 0 then p
  else
    let q := { p with buf := p.buf.drop d, sameCnt := 0, ackAt := clk }
    let go := (p.buf.take d).any fun u => match u.plan with
      | some (op, id, _, _) => op == 4 && id == p.planId
      | none => false
    if p.goWait ∧ go then { q with goPlan := p.planOut.getD p.goPlan }.outEnds 2 else q

/-- R149–R151, R155: the acknowledgement and credit fields of a unit's header. -/
def Port.takeHdr (p : Port) (h : W64) (clk : Nat) : Port :=
  let kind := bitsOf h.toNat 58 2
  let q : BitVec 12 := BitVec.ofNat 12 (bitsOf h.toNat 46 12)
  let c := bitsOf h.toNat 43 3
  let p1 := if 1 ≤ c ∧ c ≤ 6 then { p with crTot := tput p.crTot (c - 1) (bitsOf h.toNat 26 17) } else p
  let inRange (n : BitVec 12) : Bool := decide ((n - p1.oldest).toNat ≤ p1.buf.length)
  if kind = 1 then (if inRange (q + 1) then p1.ackTo (q + 1) clk else p1)
  else if kind = 2 then
    if inRange q then (p1.ackTo q clk).replayFrom q clk
    else { p1 with staleNak := sat p1.staleNak, evstat := setBit p1.evstat 6 }
  else p1

/-- R147: what a port sends next: queued messages, and an IDLE unit when nothing else carries its acknowledgement. -/
def Port.sendOn (p : Port) (clk : Nat) : Port :=
  let q := p.flush clk
  if q.sent.length = p.sent.length then q.sendPlain 1 0 else q

/-- R148, R150: a unit fails its CRC. -/
def Port.crcFail (p : Port) (clk : Nat) : Port :=
  let p1 := { p with crcErr := sat p.crcErr }
  if p.waitReplay then p1 else ({ p1 with nakSent := sat p1.nakSent, nakDue := true, waitReplay := true }).sendOn clk

/-- R136: the blocks of a received unit that were not good are counted on their lanes of the plan. -/
def Port.unitBlocks (p : Port) (u : FlowUnit) (clk : Nat) : Port :=
  (u.blocks.filter fun (l, _) => p.plan.getLsbD l).foldl (fun p (l, c) => p.setLane l ((p.lane l).badBlock c clk)) p

/-- R136, R142, R145: whether a received unit passes: no block of it was uncorrectable, its CRC is right under the prefix, and its
type is the one that names it. -/
def unitGood (pre : Nat) (u : FlowUnit) (ty : Nat) : Bool :=
  u.blocks.all (·.2) && unitCrc pre u == u.crc && fuType u == ty

/-! ### Link states (R163–R166) -/

/-- R159: a retrain or link-down abandons an exchange of PLAN units. -/
def Port.abandonPlan (p : Port) : Port :=
  let p1 := if p.planOut.isSome then p.outEnds 6 else if p.planIn.isSome then p.planEnds else p
  { p1 with planIn := none, planq := [] }

/-- The number of messages in a port's receive buffer, by the lengths in their headers; the zero slots after a unit's last message
are none. -/
def countMsgs : Nat → List Slot → Nat
  | 0, _ => 0
  | _ + 1, [] => 0
  | n + 1, h :: t => if h = 0 then countMsgs n t else 1 + countMsgs n (t.drop (bitsOf h.toNat 118 4))

/-- The lane's training state cleared. -/
def LaneS.fresh (x : LaneS) : LaneS :=
  { x with excl := false, ident := false, rnds := 0, cnt := 0, cntTy := 0, downCnt := 0, training := false, clearFail := false
           eqDone := false, skewDone := false, stat := 0, echo := 0 }

def Port.freshLanes (p : Port) : Port := (List.range 32).foldl (fun p l => p.setLane l (p.lane l).fresh) p

/-- R156, R146: the counters of the flow-unit layer as they stand when a link enters ACTIVE from TRAIN. -/
def Port.freshUnits (p : Port) : Port :=
  { p with txSeq := 0, rxSeq := 0, rxAny := false, waitReplay := false, dupUntil := 0, nakDue := false, buf := [], sameCnt := 0, timerAt := none
           winUnits := 0, winAt := [], crUsed := [], crTot := [], rxFreed := [], rxSlots := [] }

/-- R187, R197: the port by which a queued snoop or note leaves: among the ACTIVE ports of its node's entry, or of its group's port
mask. -/
def State.reroute (s : State) (m : Msgs) : Option Nat :=
  if m.mcast then s.pickPort (s.mcastOf (m.dst.toNat % 4096)).1 m.dst m.tag else s.portFor m.dst m.tag

/-- R187: where such a message without a port is counted: the lowest-numbered port of the mask, or FAB0. -/
def State.reroutePort (s : State) (m : Msgs) : Nat :=
  if m.mcast then (lowBits 8 (s.mcastOf (m.dst.toNat % 4096)).1.toNat).headD 0 else s.unroutePort m.dst

/-- R197: a message queued on a port that goes down: a response is discarded and counted on its arrival port; a snoop or note is
routed again, keeping its tag; without a port a snoop is unanswered and a note is dropped. -/
def State.requeue (s : State) (e : EgMsg) : State :=
  let c := tyClass e.m.ty
  if c = 2 ∨ c = 3 then s.countRspDrop e.arrPort
  else if c ≠ 1 then s
  else match s.reroute e.m with
    | some j => s.offerPort j e.m
    | none =>
      if e.m.ty = tySnpInv ∨ e.m.ty = tySnpShr then
        let n := e.m.tag.toNat / 4096
        match (s.sett n).snoops.find? fun x => x.tag == e.m.tag with
        | none => s
        | some x => ((s.countUnroute (s.reroutePort e.m)).unanswered State.death [x.tag]).snoopsDone n x.txn
      else s.countUnroute (s.reroutePort e.m)

/-- R163, R166, R197: the entry to DOWN with a reason; from DISABLED and DOWN there is none. -/
def State.goDown (s : State) (k : Nat) (reason : Byte) : State :=
  let p := s.port k
  if p.st = .down ∨ p.st = .disabled then s
  else
    let lost := countMsgs p.rxSlots.length p.rxSlots
    let p1 := p.abandonPlan.freshLanes.freshUnits
    let p2 := { p1 with
      st := .down
      gen := if p.beenActive then p.gen + 1 else p.gen
      beenActive := false
      since := s.clk
      holdoffDone := false
      phase := 0
      reason := reason
      cmdRetrain := false
      cmdDown := false
      downs := sat p.downs
      staleGen := satAdd p.staleGen lost
      evstat := setBit (if lost = 0 then p1.evstat else setBit p1.evstat 5) 2
      txq := [] }
    let egress := (List.range 32).flatMap fun q => (s.pqos q k).egress.map fun e => (q, e)
    let s1 := (s.setPort k p2).sendLcbs k ((List.range 32).filter p2.powered) lcbDown
    let s2 := (List.range 32).foldl (fun s q =>
      if (s.pqos q k).egress.isEmpty then s else s.setPqos q k { s.pqos q k with egress := [], deficit := 0, waited := false }) s1
    let s3 := egress.foldl (fun s (_, e) => s.requeue e) s2
    p.txq.foldl State.requeue s3

/-- R140: TRAIN begins. -/
def State.startTrain (s : State) (k : Nat) : State :=
  let p := (s.port k).freshLanes
  let s1 := s.setPort k { p with st := .train, since := s.clk, phase := 1, prop := 0 }
  if (s1.port k).trainees.length < 4 then s1.goDown k 5 else s1.sendLcbs k (s1.port k).trainees lcbTsId

/-- R163: a link in DOWN enters TRAIN once its hold-off has ended and auto_up is 1; ports train from step 6 of R101 on. -/
def State.tryTrain (s : State) (k : Nat) : State :=
  let p := s.port k
  if p.st = .down ∧ p.holdoffDone ∧ p.autoUp ∧ p.enable ∧ s.top.layoutOk then s.startTrain k else s

/-- R164: retrains that started within the last 2^32 fabric clocks. -/
def Port.recent (p : Port) (clk : Nat) : List Nat := p.recentRetrains.filter fun t => decide (clk < 2 ^ 32 + t)

/-- R164: whether the next retrain would be the retrain_limit-th. -/
def Port.lastRetrain (p : Port) (clk : Nat) : Bool := decide (max 1 p.retrainLimit.toNat ≤ (p.recent clk).length + 1)

/-- R141, R164, R165: a retrain trigger in ACTIVE: RETRAIN, or DOWN when it would start the retrain_limit-th retrain or
no legal plan can be formed. -/
def State.retrain (s : State) (k : Nat) : State :=
  let p := s.port k
  if p.st ≠ .active then s
  else if p.lastRetrain s.clk then s.goDown k 1
  else
    let p1 := p.abandonPlan.freshLanes
    let p2 := { p1 with
      st := .retrain
      since := s.clk
      phase := 2
      retrains := sat p.retrains
      evstat := setBit p1.evstat 1
      recentRetrains := p.recent s.clk ++ [s.clk] }
    match p2.propose with
    | none => (s.setPort k p2).goDown k 5
    | some m =>
      let s1 := (s.setPort k { p2 with prop := m }).sendLcbs k (lanesIn p.plan) lcbRetrain
      s1.sendLcbs k (s1.port k).trainees lcbTsEq

/-- R553: the LANE_MARGIN entry of a port, at most one per hour. -/
def State.laneMargins (s : State) (k : Nat) : State :=
  let p := s.port k
  if thas s.owl.marginAt k ∧ s.clk < 8640000000000 + tget 0 s.owl.marginAt k then s
  else
    let body := ledgerNums ([k, p.plan.toNat] ++ (List.range 32).flatMap fun l =>
      [(p.lane l).margin.toNat, (p.lane l).corr.toNat, (p.lane l).uncorr.toNat])
    ({ s with owl := { s.owl with marginAt := tput s.owl.marginAt k s.clk } } : State).ledgerAdd 5 body

/-! ### PLAN units (R157–R159, R162) -/

/-- R147: a PLAN unit sent, or held until there is replay space for it. -/
def Port.sendPlan (p : Port) (clk : Nat) (op id : Byte) (m : W32) (reason : Byte) : Port :=
  if p.planq.isEmpty ∧ p.buf.length < 4095 then p.sendPlanNow clk (op, id, m, reason)
  else { p with planq := p.planq ++ [(op, id, m, reason)] }

/-- R158: this side starts an exchange for a legal mask; ignored while one is pending or the link is not ACTIVE. Its plan_id is that of
this side's last exchange plus 1, from 1 on (DESIGN CHOICE, log 18). -/
def Port.startPlan (p : Port) (clk : Nat) (m : W32) : Port :=
  if p.st ≠ .active ∨ p.planOut.isSome ∨ p.planIn.isSome then p
  else if !planSizes.contains (lanesIn m).length || !p.lanesReady m then p.outEnds 3
  else { p with planId := p.planId + 1, planRes := 1, planReason := 0, planOut := some m }.sendPlan clk 1 (p.planId + 1) m 0

/-- R162: a FAILED lane in the plan in force while auto_drop is 1 and no exchange is pending: the device starts a plan change,
or the link goes DOWN when no legal plan exists. With auto_drop 0 a FAILED lane waits for the next retrain, also where it leaves no legal
plan, which R164 lists without auto_drop and R162 leaves to the retrain (DESIGN CHOICE, log 18). -/
def State.dropFailed (s : State) (k : Nat) : State :=
  let p := s.port k
  if p.st = .active ∧ p.autoDrop ∧ (lanesIn p.plan).any fun l => decide ((p.lane l).st = .failed) then
    match p.lessFailed with
    | none => s.goDown k 5
    | some m => s.setPort k (p.startPlan s.clk m)
  else s

/-- R140, R146, R162: the link enters ACTIVE from TRAIN on the agreed plan. -/
def State.linkActive (s : State) (k : Nat) : State :=
  let p := s.port k
  let first : Option LaneS := (p.trainees.map p.lane).head?
  let p1 := (p.settleBoth p.prop).freshUnits
  let p2 := { p1 with
    st := .active
    phase := 0
    since := s.clk
    beenActive := true
    pnode := match first with | none => p.pnode | some x => x.node
    pport := match first with | none => p.pport | some x => x.nport
    ackAt := s.clk
    cmdRetrain := false }
  let s1 := (s.setPort k (p2.flush s.clk)).sendLcbs k p2.standbys lcbStandby
  (s1.laneMargins k).dropFailed k

/-- R148, R162: a unit's header has been taken: when its ACK ends this side's exchange, a FAILED lane in the plan is looked at
again. -/
def State.unitHdr (s : State) (k : Nat) (p : Port) : State :=
  let s1 := s.setPort k p
  if (s.port k).goWait ∧ !p.goWait then s1.dropFailed k else s1

/-- A unit whose header has been taken needs nothing more: its answer goes out. -/
def State.unitTaken (s : State) (k : Nat) (p : Port) : State :=
  let s1 := s.unitHdr k p
  if (s1.port k).st = .active then s1.setPort k ((s1.port k).sendOn s1.clk) else s1

/-- R146, R148, R150: a sequenced unit of type `ty` arrives; `act` delivers it. -/
def State.seqIn (s : State) (k : Nat) (u : FlowUnit) (ty : Nat) (act : State → State) : State :=
  if (s.port k).st ≠ .active then s
  else
    let p := (s.port k).unitBlocks u s.clk
    if !unitGood p.rxSeq.toNat u ty then s.setPort k (p.crcFail s.clk)
    else if p.waitReplay then s.setPort k p
    else
      let p1 := { p with rxSeq := p.rxSeq + 1, rxAny := true }
      if p.rxSeq ≠ p.dupUntil then
        s.unitTaken k ({ p1 with dupDrop := sat p1.dupDrop }.takeHdr u.hdr s.clk)
      else
        let s1 := act (s.unitHdr k ({ p1 with dupUntil := p1.rxSeq }.takeHdr u.hdr s.clk))
        if (s1.port k).st = .active then s1.setPort k ((s1.port k).sendOn s1.clk) else s1

/-- R148: an unsequenced unit of type `ty` arrives. -/
def State.plainIn (s : State) (k : Nat) (u : FlowUnit) (ty : Nat) (act : Port → Port) : State :=
  if (s.port k).st ≠ .active then s
  else
    let p := (s.port k).unitBlocks u s.clk
    if !unitGood 0xF000 u ty then s.setPort k (p.crcFail s.clk)
    else s.unitTaken k (act (p.takeHdr u.hdr s.clk))

/-- The fields of a PLAN unit's payload: op, plan_id, mask and reason. -/
def planFields (u : FlowUnit) : Nat × Byte × W32 × Byte :=
  let x := (u.slots.getD 0 0).toNat
  (x % 256, BitVec.ofNat 8 (bitsOf x 8 8), BitVec.ofNat 32 (bitsOf x 32 32), BitVec.ofNat 8 (bitsOf x 64 8))

/-- R158, R159: a REQ: a collision is resolved for the end with the lower node identifier; the mask is accepted or
rejected. A rejected exchange has ended here too (R168); where this side's own had collided with it, a FAILED lane in the plan is
looked at again (R162). -/
def State.planReq (s : State) (k : Nat) (id : Byte) (m : W32) : State :=
  let p := s.port k
  if p.planOut.isSome ∧ s.nodeId.toNat < p.pnode.toNat then s.setPort k (p.planEnds.sendPlan s.clk 3 id m 3)
  else
    let p1 := if p.planOut.isSome then p.outEnds 5 else p
    let no : Option Byte := if !planSizes.contains (lanesIn m).length then some 1 else if !p1.lanesReady m then some 2 else none
    match no with
    | some r =>
      let s1 := s.setPort k (p1.planEnds.sendPlan s.clk 3 id m r)
      if p.planOut.isSome then s1.dropFailed k else s1
    | none => s.setPort k ({ p1 with planIn := some (id, m) }.sendPlan s.clk 2 id m 0)

/-- R158: ACC: the receiver applies the mask, and GO goes out; the exchange is done once GO is acknowledged. -/
def State.planAcc (s : State) (k : Nat) (id : Byte) : State :=
  let p := s.port k
  match p.planOut with
  | none => s
  | some m =>
    if id ≠ p.planId ∨ p.goWait then s
    else s.putLanes k ({ p.settle m with goWait := true }.sendPlan s.clk 4 id m 0)

/-- R158: REJ. -/
def State.planRej (s : State) (k : Nat) (id reason : Byte) : State :=
  let p := s.port k
  if p.planOut.isNone ∨ id ≠ p.planId ∨ p.goWait then s
  else
    let s1 := s.setPort k ({ p with planReason := reason }.outEnds 4)
    if p.planOut = p.lessFailed then s1 else s1.dropFailed k

/-- R158: GO of the exchange that this side accepted: the receiver applies the mask. -/
def State.planAccepted (s : State) (k : Nat) (id : Byte) (m : W32) : State :=
  let p := s.port k
  if p.planIn = some (id, m) then (s.putLanes k { ({ p with planIn := none }.planEnds).settle m with goPlan := m }).dropFailed k else s

def execPlanUnitReq (port : Nat) (u : FlowUnit) (s : State) : Host.Outcome State Fault Refusal :=
  .next (s.seqIn port u 3 fun s =>
    let (op, id, m, _) := planFields u
    if op = 1 then s.planReq port id m else s)
def execPlanUnitAcc (port : Nat) (u : FlowUnit) (s : State) : Host.Outcome State Fault Refusal :=
  .next (s.seqIn port u 3 fun s =>
    let (op, id, _, _) := planFields u
    if op = 2 then s.planAcc port id else s)
def execPlanUnitRej (port : Nat) (u : FlowUnit) (s : State) : Host.Outcome State Fault Refusal :=
  .next (s.seqIn port u 3 fun s =>
    let (op, id, _, r) := planFields u
    if op = 3 then s.planRej port id r else s)
def execPlanUnitGo (port : Nat) (u : FlowUnit) (s : State) : Host.Outcome State Fault Refusal :=
  .next (s.seqIn port u 3 fun s =>
    let (op, id, m, _) := planFields u
    if op = 4 then s.planAccepted port id m else s)

/-! ### Flow units that arrive -/

/-- R148: DATA: its slots enter the receive buffer. -/
def execDataUnit (port : Nat) (u : FlowUnit) (s : State) : Host.Outcome State Fault Refusal :=
  .next (s.seqIn port u 0 fun s => s.setPort port { s.port port with rxSlots := (s.port port).rxSlots ++ u.slots })

def execIdleUnit (port : Nat) (u : FlowUnit) (s : State) : Host.Outcome State Fault Refusal :=
  .next (s.plainIn port u 1 id)

/-- R150: REPLAY naming r. -/
def execReplayUnit (port : Nat) (u : FlowUnit) (s : State) : Host.Outcome State Fault Refusal :=
  .next (s.plainIn port u 2 fun p =>
    { p with waitReplay := false, rxSeq := BitVec.ofNat 12 ((u.slots.getD 0 0).toNat % 4096) })

/-- R151: the replay timer. -/
def execReplayTimer (port : Nat) (s : State) : Host.Outcome State Fault Refusal :=
  let p := s.port port
  if p.st = .active ∧ p.buf ≠ [] ∧ p.ackAt + max 240 p.replayCfg.toNat ≤ s.clk then
    .next (s.setPort port { p.replayFrom p.oldest s.clk with timerAt := some (s.clk, p.sent.length) })
  else .next s

def execSameLimitReached (port : Nat) (s : State) : Host.Outcome State Fault Refusal :=
  if max 1 (s.port port).sameLimit.toNat ≤ (s.port port).sameCnt then .next (s.retrain port) else .next s

def execWinLimitReached (port : Nat) (s : State) : Host.Outcome State Fault Refusal :=
  let p := s.port port
  if p.winLimit.toNat < (p.winAt.filter fun n => decide (p.winUnits < 2 ^ 24 + n)).length then .next (s.retrain port) else .next s

/-- R164: a trigger that would start the retrain_limit-th retrain. -/
def execRetrainLimitReached (port : Nat) (s : State) : Host.Outcome State Fault Refusal :=
  if (s.port port).st = .active ∧ (s.port port).lastRetrain s.clk then .next (s.goDown port 1) else .next s

/-! ### Training (R140, R141) -/

/-- R161: a lane becomes FAILED. -/
def Port.failLane (p : Port) (l : Nat) : Port :=
  if (p.lane l).st = .failed then p
  else { p.setLane l { p.lane l with st := .failed, training := false } with
    laneFails := sat p.laneFails, evstat := setBit p.evstat 3 }

/-- R140: a lane excluded from this training: to STANDBY after phase 1, else FAILED. -/
def Port.exclude (p : Port) (l : Nat) : Port :=
  let x := p.lane l
  if x.ident ∨ p.st = .retrain then p.setLane l { x with excl := true, st := .standby }
  else (p.setLane l { x with excl := true }).failLane l

/-- R139, R140: a lane excluded; in STANDBY it sends STANDBY blocks. -/
def State.excludeLane (s : State) (k l : Nat) : State :=
  let p := (s.port k).exclude l
  let s1 := s.setPort k p
  if (p.lane l).st = .standby then s1.sendLcbs k [l] lcbStandby else s1

/-- R140, R165: fewer than four lanes remain, those that a retrain can take from STANDBY among them, so no legal plan: DOWN with
reason 0x05. -/
def State.checkFour (s : State) (k : Nat) : State :=
  let p := s.port k
  if (p.st = .train ∨ p.st = .retrain) ∧ p.propose.isNone then s.goDown k 5 else s

/-- R140: phase 1 ends once every lane that takes part is identified: lanes that disagree with most others are not, and go to
FAILED. LNK_PARTNER takes node and port, the first time once TRAIN succeeds (log 17). -/
def State.phase1Check (s : State) (k : Nat) : State :=
  let p := s.port k
  let ls := p.trainees
  if p.st ≠ .train ∨ p.phase ≠ 1 ∨ ls.any fun l => !(p.lane l).ident then s
  else
    let key (l : Nat) := ((p.lane l).node, (p.lane l).nport, (p.lane l).ngen)
    let votes (l : Nat) : Nat := (ls.filter fun j => key j == key l).length
    let best := ls.foldl (fun (a : Option Nat) l => match a with
      | none => some l
      | some b => if votes b < votes l then some l else a) none
    let p1 := match best with
      | none => p
      | some b =>
        let q := ls.foldl (fun (p : Port) l => if key l = key b then p else (p.setLane l { p.lane l with ident := false }).exclude l) p
        if p.pnode = 0x1FFFFF then q else { q with pnode := (p.lane b).node, pport := (p.lane b).nport }
    let s1 := (s.setPort k { p1 with phase := 2 }).checkFour k
    if (s1.port k).st = .train then s1.sendLcbs k (s1.port k).trainees lcbTsEq else s1

/-- R138: the presets. -/
def presetTaps (n : Nat) : Option (List Int) :=
  ([[0, 0, 0, 0, 0], [0, -4, 0, 0, 0], [0, -8, 0, 0, 0], [0, 0, -4, 0, 0], [0, 0, -8, 0, 0], [0, -4, -4, 0, 0], [0, -8, -8, 0, 0],
    [2, -8, -4, 0, 0], [2, -10, -8, 2, 0], [2, -12, -10, 2, -1]] : List (List Int))[n]?

/-- R138: one tap under a request: its new value and status. -/
def tapStep (lim v : Int) (req : Nat) : Int × Nat :=
  match req with
  | 1 => if v < lim then (v + 1, 1) else (v, 3)
  | 2 => if -lim < v then (v - 1, 1) else (v, 2)
  | _ => (v, 0)

/-- R138, R140: a request of one round applied to a lane's transmitter. -/
def LaneS.equalise (x : LaneS) (w : Nat) : LaneS :=
  let preset := bitsOf w 76 4
  let round : Byte := BitVec.ofNat 8 (bitsOf w 48 8)
  let res : List Int × Nat := match presetTaps preset with
    | some t => (t, 0x155)
    | none =>
      let r : List (Int × Nat) := (List.zip [(4 : Int), 16, 16, 4, 4] x.taps).zipIdx.map fun ((lim, v), i) => tapStep lim v (bitsOf w (74 - 2 * i) 2)
      (r.map (·.1), r.foldl (fun a t => a * 4 + t.2) 0)
  { x with taps := res.1, stat := BitVec.ofNat 10 res.2, echo := round, rnds := x.rnds + 1, cnt := 0 }

/-- R141: a block of RETRAIN that names another partner. -/
def Port.stranger (p : Port) (w : Nat) : Bool := decide (p.st = .retrain) && !(cwNode w == p.pnode && cwPort w == p.pport)

/-- R140, R141: a side goes on with a plan mask once the lanes that took part so far are done with their phase: lanes of it that have
not equalised, a STANDBY lane that made it up among them, run phase 2 first, and those not deskewed phase 3; with none, GO. -/
def State.takeProp (s : State) (k : Nat) (m : W32) : State :=
  let p := s.port k
  let p1 := { p with prop := m }
  let ls := lanesIn m
  if ls.any fun l => !(p.lane l).eqDone then
    (s.setPort k { p1 with phase := 2 }).sendLcbs k (ls.filter fun l => !(p.lane l).eqDone && !(p.phase == 2 && p.trainees.contains l)) lcbTsEq
  else if ls.any fun l => !(p.lane l).skewDone then
    (s.setPort k { p1 with phase := 3 }).sendLcbs k
      ((if p.phase = 2 then p1.trainees else ls).filter fun l => !(p.lane l).skewDone && !(p.phase == 3 && p.trainees.contains l)) lcbTsDone
  else (s.setPort k { p1 with phase := 4 }).sendLcbs k ls lcbTsGo

/-- R140: phase 2 ends once every lane that takes part has equalised. -/
def State.phase2Check (s : State) (k : Nat) : State :=
  let p := s.port k
  if (p.st ≠ .train ∧ p.st ≠ .retrain) ∨ p.phase ≠ 2 ∨ p.trainees.any fun l => !(p.lane l).eqDone then s
  else match p.propose with
    | none => s.goDown k 5
    | some m => s.takeProp k m

/-- R140: whether a lane's deskew and margin admit it. -/
def laneFit (skew : Nat) (margin : BitVec 16) : Bool :=
  decide (skew ≤ 7) && decide (16 ≤ margin.toNat / 256) && decide (10 ≤ margin.toNat % 256)

/-- R140: phase 3 ends once every lane of the proposed plan is deskewed. -/
def State.phase3Check (s : State) (k : Nat) : State :=
  let p := s.port k
  if (p.st ≠ .train ∧ p.st ≠ .retrain) ∨ p.phase ≠ 3 ∨ (lanesIn p.prop).any fun l => !(p.lane l).skewDone then s
  else s.takeProp k p.prop

/-- R140: a side in phase 4 takes the AND of two plan masks, cut down under R162, and sends TS_GO again with it. -/
def State.cutMask (s : State) (k : Nat) (m : W32) : State :=
  let p := s.port k
  let both := (lanesIn (m &&& p.prop)).filter p.usable
  match cutPlan both ((List.range 32).filter fun l => p.usable l && decide ((p.lane l).st = .standby)) with
  | none => s.goDown k 5
  | some n =>
    if n = p.prop then s
    else (s.setPort k ((List.range 32).foldl (fun p l => p.setLane l { p.lane l with cnt := 0 }) p)).takeProp k n

/-- R140, R165: a lane has left a training or retrain: DOWN where too few remain; else what the phase waits for is looked at again
without it. -/
def State.lostLane (s : State) (k : Nat) : State :=
  let s1 := s.checkFour k
  let p := s1.port k
  if p.st ≠ .train ∧ p.st ≠ .retrain then s1
  else match p.phase with
    | 1 => s1.phase1Check k
    | 2 => s1.phase2Check k
    | 3 => match p.propose with
      | none => s1.goDown k 5
      | some m => s1.takeProp k m
    | 4 => s1.cutMask k p.prop
    | _ => s1

def execTsId (port lane : Nat) (blk : BitVec 272) (s : State) : Host.Outcome State Fault Refusal :=
  .next (s.lcbIn port lane blk lcbTsId fun s w =>
    let p := s.port port
    let x := (p.lane lane).bump lcbTsId
    if p.st ≠ .train ∨ p.phase ≠ 1 ∨ !p.trainees.contains lane ∨ x.ident then s
    else if x.cnt < 16 then s.setPort port (p.setLane lane x)
    else if bitsOf w 83 5 ≠ lane then (s.excludeLane port lane).lostLane port
    else
      let x1 := { x with ident := true, node := cwNode w, nport := cwPort w, ngen := cwGen w, cnt := 0 }
      (s.setPort port (p.setLane lane x1)).phase1Check port)

def execTsEq (port lane : Nat) (blk : BitVec 272) (s : State) : Host.Outcome State Fault Refusal :=
  .next (s.lcbIn port lane blk lcbTsEq fun s w =>
    let p := s.port port
    let x := p.lane lane
    if p.stranger w then s.goDown port 4
    else if !(x.training || (p.phase == 2 && p.trainees.contains lane)) then s
    else if bitsOf w 76 4 = 0xF ∧ bitsOf w 66 10 = 0 then
      let y := x.bump lcbTsEq
      if y.cnt < 16 then s.setPort port (p.setLane lane y)
      else
        let s1 := s.setPort port (p.setLane lane { y with eqDone := true })
        if x.training then (if x.eqDone then s1 else s1.sendLcbs port [lane] lcbTsDone) else s1.phase2Check port
    else if x.rnds < 256 ∧ (x.rnds = 0 ∨ BitVec.ofNat 8 (bitsOf w 48 8) ≠ x.echo) then
      (s.setPort port (p.setLane lane (x.equalise w))).sendLcbs port [lane] lcbTsEq
    else s.setPort port (p.setLane lane { x with cnt := 0 }))

def execTsDone (port lane : Nat) (blk : BitVec 272) (skew : Nat) (margin : BitVec 16) (s : State) : Host.Outcome State Fault Refusal :=
  .next (s.lcbIn port lane blk lcbTsDone fun s _ =>
    let p := s.port port
    let x := (p.lane lane).bump lcbTsDone
    if x.training then
      if !x.eqDone ∨ x.cnt < 16 then s.setPort port (p.setLane lane x)
      else
        let y := { x with training := false, clearFail := false, margin := margin }
        if laneFit skew margin then
          (s.setPort port (p.setLane lane { y with st := .standby, win := [] })).sendLcbs port [lane] lcbStandby
        else s.setPort port (p.setLane lane y)
    else if p.phase ≠ 3 ∨ !p.trainees.contains lane then s
    else if x.cnt < 16 then s.setPort port (p.setLane lane x)
    else if laneFit skew margin then
      (s.setPort port (p.setLane lane { x with skewDone := true, margin := margin })).phase3Check port
    else ((s.setPort port (p.setLane lane { x with margin := margin })).excludeLane port lane).lostLane port)

def execTsGo (port lane : Nat) (blk : BitVec 272) (s : State) : Host.Outcome State Fault Refusal :=
  .next (s.lcbIn port lane blk lcbTsGo fun s w =>
    let p := s.port port
    let m : W32 := BitVec.ofNat 32 (bitsOf w 8 32)
    if p.stranger w then s.goDown port 4
    else if (p.st ≠ .train ∧ p.st ≠ .retrain) ∨ p.phase ≠ 4 ∨ !p.prop.getLsbD lane then s
    else if m ≠ p.prop then (s.setPort port (p.setLane lane { p.lane lane with cnt := 0 })).cutMask port m
    else
      let p1 := p.setLane lane ((p.lane lane).bump lcbTsGo)
      let s1 := s.setPort port p1
      if (lanesIn p.prop).all fun l => decide ((p1.lane l).cntTy = lcbTsGo) && decide (16 ≤ (p1.lane l).cnt) then
        if p.st = .train then s1.linkActive port else s1.setPort port { p1 with phase := 5 }
      else s1)

/-- R151, R162, R163, R165: a retrain whose phases have ended returns to ACTIVE and starts a replay event. -/
def execRetrainComplete (port : Nat) (s : State) : Host.Outcome State Fault Refusal :=
  let p := s.port port
  if p.st = .retrain ∧ p.phase = 5 then
    let p1 := { p.settleBoth p.prop with st := .active, phase := 0, since := s.clk, cmdRetrain := false, timerAt := none }
    .next (((s.putLanes port ((p1.replayFrom p1.oldest s.clk).flush s.clk)).laneMargins port).dropFailed port)
  else .next s

def execRetrainLcb (port lane : Nat) (blk : BitVec 272) (s : State) : Host.Outcome State Fault Refusal :=
  .next (s.lcbIn port lane blk lcbRetrain fun s _ => if (s.port port).plan.getLsbD lane then s.retrain port else s)

/-- R141: the second DOWN block accepted. -/
def execDownLcb (port lane : Nat) (blk : BitVec 272) (s : State) : Host.Outcome State Fault Refusal :=
  .next (s.lcbIn port lane blk lcbDown fun s w =>
    let p := s.port port
    let seen := ((List.range 32).map fun l => (p.lane l).downCnt).foldl (· + ·) 0
    if 1 ≤ seen then s.goDown port (BitVec.ofNat 8 (bitsOf w 40 8))
    else s.setPort port (p.setLane lane { p.lane lane with downCnt := 1 }))

def execStandbyLcb (port lane : Nat) (blk : BitVec 272) (s : State) : Host.Outcome State Fault Refusal :=
  .next (s.lcbIn port lane blk lcbStandby fun s w =>
    s.setPort port ((s.port port).setLane lane { (s.port port).lane lane with peer := LaneState.ofCode (bitsOf w 81 2) }))

/-- R160: this side's lane training of one lane begins. -/
def State.laneTrain (s : State) (k l : Nat) : State :=
  let p := s.port k
  (s.setPort k (p.setLane l { (p.lane l).fresh with training := true, clearFail := (p.lane l).clearFail })).sendLcbs k [l] lcbLaneTrain

/-- R141: LANE_TRAIN blocks: the answer to this side's, or the partner's that start lane training. -/
def execLaneTrainLcb (port lane : Nat) (blk : BitVec 272) (s : State) : Host.Outcome State Fault Refusal :=
  .next (s.lcbIn port lane blk lcbLaneTrain fun s _ =>
    let p := s.port port
    let x := (p.lane lane).bump lcbLaneTrain
    if x.st = .inPlan ∨ !x.power then s
    else if x.cnt < 16 then s.setPort port (p.setLane lane x)
    else
      let s1 := s.setPort port (p.setLane lane { x with cnt := 0 })
      (if x.training then s1 else s1.laneTrain port lane).sendLcbs port [lane] lcbTsEq)

def execDownHoldoffEnd (port : Nat) (s : State) : Host.Outcome State Fault Refusal :=
  let p := s.port port
  if p.st = .down ∧ !p.holdoffDone ∧ s.top.layoutOk ∧ p.downCfg.toNat * Config.usClk + p.since ≤ s.clk then
    .next ((s.setPort port { p with holdoffDone := true }).tryTrain port)
  else .next s

def execTrainTimeout (port : Nat) (s : State) : Host.Outcome State Fault Refusal :=
  if (s.port port).st = .train ∧ 2000 * Config.usClk + (s.port port).since ≤ s.clk then .next (s.goDown port 1) else .next s

def execRetrainTimeout (port : Nat) (s : State) : Host.Outcome State Fault Refusal :=
  if (s.port port).st = .retrain ∧ 1000 * Config.usClk + (s.port port).since ≤ s.clk then .next (s.goDown port 4) else .next s

def execLaneLockLoss (port lane : Nat) (s : State) : Host.Outcome State Fault Refusal :=
  if (s.port port).plan.getLsbD lane then .next (s.retrain port) else .next s

def execPlanLockLoss (port : Nat) (s : State) : Host.Outcome State Fault Refusal :=
  if (s.port port).st = .active then .next (s.goDown port 1) else .next s

/-- R161: whether a lane's uncorrectable blocks of its last 2^24 blocks reach lane_fail_limit. -/
def Port.atLimit (p : Port) (l clk : Nat) : Bool :=
  decide (p.failLimit.toNat ≤ ((p.lane l).win.filter fun t => decide (clk < winClk + t)).length)

/-- R161, R162, R165: a lane whose uncorrectable blocks reach its limit becomes FAILED: a plan change, or the training without it. -/
def execLaneFail (port lane : Nat) (s : State) : Host.Outcome State Fault Refusal :=
  let p := s.port port
  if (p.lane lane).st = .failed ∨ !p.atLimit lane s.clk then .next s
  else
    let s1 := s.setPort port ((p.setLane lane { p.lane lane with win := [] }).failLane lane)
    .next (if p.st = .active then (if p.plan.getLsbD lane then s1.dropFailed port else s1) else s1.lostLane port)

/-! ### What the link registers' keyed writes do (R163, R164, R168) -/

def State.lnkEnable (s : State) (k : Nat) (v : Bool) : State :=
  let p := s.port k
  if v then
    if p.st = .disabled then s.setPort k { p with enable := true, st := .down, since := s.clk, holdoffDone := false }
    else s.setPort k { p with enable := true }
  else
    let s1 := s.goDown k 3
    s1.setPort k { s1.port k with enable := false, st := .disabled }

def State.lnkAutoUp (s : State) (k : Nat) (v : Bool) : State := (s.setPort k { s.port k with autoUp := v }).tryTrain k

/-- R162: a FAILED lane in the plan when auto_drop becomes 1 starts a plan change. -/
def State.lnkAutoDrop (s : State) (k : Nat) (v : Bool) : State :=
  let p := { s.port k with autoDrop := v }
  let s1 := s.setPort k p
  if v ∧ !(s.port k).autoDrop then s1.dropFailed k else s1

def State.lnkTakeDown (s : State) (k : Nat) : State := s.goDown k 2

def State.lnkRetrain (s : State) (k : Nat) : State :=
  let s1 := s.retrain k
  if (s.port k).st = .active ∧ (s1.port k).st = .retrain then s1.setPort k { s1.port k with cmdRetrain := true } else s1

def State.lnkPlanGo (s : State) (k : Nat) : State :=
  let p := (s.port k).startPlan s.clk (s.port k).planMask
  s.setPort k { p with cmdPlan := p.planOut.isSome }

/-- R140, R160: a lane's power bit; a training goes on without a lane that loses its power. -/
def State.lnkLanePower (s : State) (k l : Nat) (v : Bool) : State :=
  let p := s.port k
  let x := { p.lane l with power := v }
  if !v then
    (s.setPort k (p.setLane l { x with st := if x.st = .standby then .off else x.st, training := false, clearFail := false })).lostLane k
  else
    let s1 := s.setPort k (p.setLane l x)
    if x.st = .off ∧ !x.training ∧ (p.st = .active ∨ p.st = .retrain) then s1.laneTrain k l else s1

/-- R160, R168: clear_fail takes a FAILED lane to lane training. -/
def State.lnkClearFail (s : State) (k l : Nat) : State :=
  let p := s.port k
  if (p.lane l).st = .failed ∧ !(p.lane l).training then
    (s.setPort k (p.setLane l { p.lane l with clearFail := true })).laneTrain k l
  else s

end Sys2Proof.Machine
end

