-- ==== Sys2Proof/Machine/Records.lean ====
section
/-! DEFINITION. What a scheduler does beside its rings: reads under a queue's asid (R324), the records of descriptors that never
ran (R340, R351), and the outcome of a lost engine's descriptors (R349). -/

namespace Sys2Proof.Machine
open Sys2Proof

/-- What a scheduler's read of one line gives: its data, a failure, or the Tracked line that its owner must first give up
(R214). -/
inductive SchedRd where
  | data (bs : Bytes)
  | fail (e : Status × Bool)
  | owned (pa : Nat)
deriving DecidableEq, Repr

/-- A scheduler's read of one line under an asid. -/
def State.schedRead (s : State) (asid : BitVec 16) (va : Nat) : SchedRd :=
  match s.schedXl asid va .rdOnce with
  | .error e => .fail e
  | .ok x =>
    match x.leaf.cls, (s.storedLines x.leaf x.base va).head? with
    | .tracked, some pa =>
      if s.owned pa then .owned pa
      else
        let (bs, pois) := s.readStored x.leaf x.base va
        if pois then .fail (.poisoned, false) else .data (readView x.leaf.stor.toNat x.leaf.view.toNat bs)
    | _, _ =>
      let (bs, pois) := s.readStored x.leaf x.base va
      if pois then .fail (.poisoned, false) else .data (readView x.leaf.stor.toNat x.leaf.view.toNat bs)

/-- A record of a descriptor that never ran: no progress, engine 0xFF, no advance. -/
def State.endUnstarted (s : State) (q : Nat) (st : Status) (d : Desc) : State :=
  s.writeRecord q ⟨st, false, 0, 0⟩ d 0xFF Status.cancelled.code

/-- R351: a pending hand-over that was not read: its record carries the chain address. -/
def State.endHandOver (s : State) (q : Nat) (st : Status) (chain : Nat) : State :=
  s.writeRecord q ⟨st, false, 0, chain⟩ { bytes := List.replicate 64 0, chained := true } 0xFF Status.cancelled.code

/-- R345: a descriptor placed among others in the order in which they were fetched or read. -/
def putInOrder (d : Desc) (l : List Desc) : List Desc :=
  l.takeWhile (fun x => decide (x.no < d.no)) ++ d :: l.dropWhile fun x => decide (x.no < d.no)

/-- R349: a descriptor returned to its queue, ahead of later ones. -/
def State.giveBack (s : State) (q : Nat) (d : Desc) : State :=
  let x := s.queue q
  let x1 := { x with open_ := x.open_ - 1 }
  s.setQueue q (if d.chained then { x1 with chainRd := putInOrder d x1.chainRd } else { x1 with ready := putInOrder d x1.ready })

/-- R318, R351: the staged descriptors of queue q, which have not started, return to it. -/
def State.unstageQueue (s : State) (q : Nat) : State :=
  s.engines.foldl (fun s (e, _) =>
    match (s.eng e).staged with
    | none => s
    | some (q', d) => if q' = q then (s.setEng e { s.eng e with staged := none }).giveBack q d else s) s

/-- R351, R497: every fetched descriptor that has not started and every pending hand-over of a queue completes with a
status. A descriptor whose read is outstanding stays in the ring, as head shows. -/
def State.cancelFetched (s : State) (q : Nat) (st : Status) : State :=
  let s := s.unstageQueue q
  let x := s.queue q
  let s1 := s.setQueue q { x with toRead := [], ready := [], hand := [], chainRd := [] }
  let s2 := x.chainRd.foldl (fun s d => s.endUnstarted q st d) s1
  let s3 := x.hand.foldl (fun s c => s.endHandOver q st c) s2
  x.ready.foldl (fun s d => s.endUnstarted q st d) s3

/-! ### Engines in service -/

/-- R348: the engines of partition p in service. -/
def State.liveEngines (s : State) (p : Nat) : List Nat :=
  match s.prec p with
  | none => []
  | some r => (List.range 64).filter fun e => r.engines.getLsbD e && s.top.engLive.getLsbD e

/-- R43: words that arrive on a receive side: a drop that waits for a mark discards them up to it. -/
def Fifo.deliver (f : Fifo) (ws : List FWord) : Fifo :=
  if !f.dropping then { f with recv := f.recv ++ ws }
  else match ws.findIdx? (·.eop) with
    | none => f
    | some i => { f with recv := f.recv ++ ws.drop (i + 1), dropping := false }

/-- R354: the oldest packet of a send side, and the words after it. -/
def takePacket (l : List FWord) : Option (List FWord × List FWord) :=
  match l.findIdx? (·.eop) with
  | none => none
  | some i => some (l.take (i + 1), l.drop (i + 1))

/-- R354: an input-queue descriptor's record, returned as an 8-word packet. -/
def State.inqRecord (s : State) (e : Nat) (r : EndRec) (d : Desc) : State :=
  let bs := recordBytes 0 63 r d (BitVec.ofNat 8 e) Status.cancelled.code
  let ws : List FWord := (List.range 8).map fun i => ⟨BitVec.ofNat 32 (fld bs (4 * i) 4), i == 7⟩
  s.setInq e ((s.inqOf e).deliver ws)

/-- R353: a descriptor has ended on an engine. -/
def State.countEnd (s : State) (e : Nat) (st : Status) : State :=
  let x := s.eng e
  s.setEng e { x with
    descs := sat x.descs
    faults := if st = .ok then x.faults else sat x.faults
    evstat := if st = .ok then x.evstat else setBit x.evstat 0 }

/-- Bytes of `n` elements of a format code (R298): MX blocks are packed contiguously. -/
def fmtSize (code n : Nat) : Nat := if isElemCode code then n * fmtBytes code else n / 32 * mxBytes code

/-- R298: the elements of a format that lie wholly in the first n bytes. -/
def fmtElems (code n : Nat) : Nat := if isElemCode code then n / fmtBytes code else n / mxBytes code * 32

/-- R335: the lines of a COMPACT's index list, which it checks before its first move. -/
def Desc.idxLines (d : Desc) : Nat := (4 * fld d.bytes 32 8 + 63) / 64

/-- R332: a COPY whose destination lies above its source and overlaps it: it is done from the top down. -/
def Desc.copyDown (d : Desc) : Bool :=
  decide (fld d.bytes 16 8 < fld d.bytes 24 8) && decide (fld d.bytes 24 8 < fld d.bytes 16 8 + fld d.bytes 32 8)

/-- R341: the units done of a run, by its descriptor's operation and its unit counter; of a CONVERT, also the elements of the unit in hand whose
writes have been answered. -/
def Run.done (r : Run) : Nat :=
  let b := r.d.bytes
  match fld b 0 1 with
  | 1 => if r.d.copyDown then 0 else 64 * r.pos
  | 2 => 64 * r.pos
  | 3 =>
    let l := (fld b 24 8 + fmtSize (fld b 41 1) (2048 * r.pos)) / 64
    let n := ((List.range r.wrote.length).takeWhile fun k => r.wrote.contains (l + k)).length
    min (fld b 32 8) (2048 * r.pos + fmtElems (fld b 41 1) (64 * n))
  | 4 | 5 => r.pos / 2 ^ (fld b 40 1 - 6)
  | 9 => (r.pos - r.d.idxLines) / 2 ^ (fld b 40 1 - 6)
  | 6 => r.pos * (if fld b 50 1 = 0 ∨ fld b 50 1 = 3 then 16 else if fld b 50 1 = 4 then 8 else 32)
  | 7 => match r.prog with
    | none => 0
    | some p => if p.twoPass && !p.passB then 0 else p.tile
  | _ => 0

/-- R349: the outcomes of the descriptors of an engine that is lost or reset: the staged one goes back; a running one
that is idempotent goes back to run again on another engine, any other ends ENGINE_LOST, or UNAVAILABLE when no engine is left. -/
def State.loseDescriptors (s : State) (e : Nat) : State :=
  let x := s.eng e
  let s0 := s.setEng e { x with run := none, staged := none }
  let s1 := match x.staged with
    | none => s0
    | some (q, d) => s0.giveBack q d
  match x.run with
  | none => s1
  | some r =>
    let lost : EndRec := ⟨.engineLost, true, r.done, 0⟩
    if r.inq then (s1.inqRecord e lost r.d).countEnd e .engineLost
    else
      let left := match s1.queuePart r.q with | none => [] | some p => without (s1.liveEngines p) e ++
        (if (s1.eng e).fencing then [] else [e])
      if left.isEmpty then (s1.endStarted r.q ⟨.unavailable, true, r.done, 0⟩ r.d (BitVec.ofNat 8 e) Status.cancelled.code).countEnd e .unavailable
      else if (fld r.d.bytes 1 1).testBit 0 ∧ fld r.d.bytes 0 1 ≠ 9 then s1.giveBack r.q { r.d with rerun := true, avoid := some e }
      else (s1.endStarted r.q lost r.d (BitVec.ofNat 8 e) Status.cancelled.code).countEnd e .engineLost

/-- R497: the descriptor of engine e that a warm reset has stopped completes, once no started transfer of it is open, so that its record
follows its last write. -/
def State.stopEnds (s : State) (e : Nat) : State :=
  let x := s.eng e
  match x.run with
  | none => s
  | some r => match r.res with
    | none => s
    | some w =>
      if s.txns.any fun t => t.kind == .eng && t.unit == e then s
      else
        let s1 := s.setEng e { x with run := none, out := [], ans := [], sbuf := [] }
        let s2 := if r.inq then s1.inqRecord e w r.d else s1.endStarted r.q w r.d (BitVec.ofNat 8 e) Status.cancelled.code
        s2.countEnd e w.status

end Sys2Proof.Machine
end

