-- ==== Sys2Proof/Machine/Invalidate.lean ====
section
/-! DEFINITION. The invalidation of an ASID's entries or of a region's resolutions, and its drain (R253, R287–R292). An
invalidation is a `Drain` that 85 units receive and report; it completes once all have reported. -/

namespace Sys2Proof.Machine
open Sys2Proof

/-- R288: the 85 units. -/
def invUnits : List InvUnit :=
  (List.range 16).map .sett ++ (List.range 64).map .engine ++ (List.range 4).map .walkers ++ [.overflow]

def State.drain (s : State) (id : Nat) : Option Drain := s.xlt.drains.find? fun d => d.id == id
def State.setDrain (s : State) (d : Drain) : State :=
  { s with xlt := { s.xlt with drains := s.xlt.drains.map fun x => if x.id = d.id then d else x } }
def State.dropDrain (s : State) (id : Nat) : State :=
  { s with xlt := { s.xlt with drains := s.xlt.drains.filter fun x => x.id != id } }

/-- R287: whether an invalidation concerns a cached translation. -/
def Drain.hits (d : Drain) (asid : BitVec 16) (l : Leaf) : Bool :=
  if d.region then l.cls == .published && l.region.toNat == d.target else asid.toNat == d.target

/-- R288, R289: an open request that runs under a translation that the invalidation withdraws: one that its home has started, or one that an
engine or a queue's scheduler has issued. -/
def Drain.waitsFor (d : Drain) (t : Txn) : Bool :=
  !t.phys && t.charged &&
    (t.started || decide (t.kind = .dev) || (decide (t.kind = .eng) && (decide (t.phase = .parked) || decide (t.phase = .ring)))) &&
    d.hits t.asid t.leaf

/-- Which unit issued a request: its engine, else its home sett. -/
def Txn.issuer (t : Txn) : InvUnit := if t.kind = .eng then .engine t.unit else .sett t.sett

/-- R292: the invalidations of the same ASID or region that came before. -/
def State.earlier (s : State) (d : Drain) : List Drain :=
  (s.xlt.drains.takeWhile fun x => x.id != d.id).filter fun x => x.region == d.region && x.target == d.target

/-- R288 step 2: a unit receives an invalidation, after those of the same ASID before it (R292): it stops using the entries at once, and
notes the transfers it waits
for. The overflow cache's entries go now and its lookups miss until its sweep ends; a walk in progress is marked to
install nothing. -/
def State.invReceive (s : State) (u : InvUnit) (id : Nat) : State :=
  match s.drain id with
  | none => s
  | some d =>
    if d.got.contains u ∨ !invUnits.contains u ∨ (s.earlier d).any (fun x => !x.got.contains u) then s
    else
      let keep (x : Xl) : Bool := !d.hits x.asid x.leaf
      let mine := (s.txns.filter fun t => t.issuer == u && d.waitsFor t).map (·.id)
      let late := match u with
        | .engine e => (s.eng e).ans.map (·.id)
        | _ => []
      let d1 := { d with got := d.got ++ [u], txns := d.txns ++ mine ++ late }
      let s1 := s.setDrain d1
      match u with
      | .sett n => s1.setSett n { s1.sett n with tc := (s1.sett n).tc.filter keep }
      | .engine e =>
        let g := s1.eng e
        s1.setEng e { g with
          tc := g.tc.filter keep
          run := g.run.map fun r =>
            if d.region then { r with pub := r.pub.filter keep, pubOld := r.pubOld ++ r.pub.filter fun x => !keep x }
            else { r with pub := r.pub.filter keep, pubOld := r.pubOld.filter keep } }
      | .walkers g =>
        if d.region then s1
        else { s1 with xlt := { s1.xlt with
          ctx := s1.xlt.ctx.filter fun (g', a, _) => !(g' == g && a == d.target)
          walk := s1.xlt.walk.map fun w =>
            if w.asid.toNat = d.target ∧ walkGroup d.target w.page = g then { w with stale := true } else w } }
      | .overflow => if d.region then s1 else { s1 with xlt := { s1.xlt with oc := s1.xlt.oc.filter keep } }

/-- R289: whether a unit that has received the invalidation has no transfer left under an old translation. -/
def State.drained (s : State) (d : Drain) (u : InvUnit) : Bool :=
  d.got.contains u &&
    (match u with
    | .sett n => decide ((s.sett n).pair = .lost) || !(s.txns.any fun t => d.txns.contains t.id && t.issuer == u)
    | .engine e => !(s.txns.any fun t => d.txns.contains t.id && t.issuer == u) &&
        !((s.eng e).ans.any fun a => d.txns.contains a.id) &&
        !(d.region && ((s.eng e).run.any fun r => r.pubOld.any fun x => d.hits x.asid x.leaf))
    | _ => true)

/-- R291, R292: whether a unit counts as drained: it has reported, is a fenced engine, or a LOST pair. -/
def State.countsDrained (s : State) (d : Drain) (u : InvUnit) : Bool :=
  d.rep.contains u ||
    (match u with
    | .engine e => decide ((s.eng e).st = .fenced)
    | .sett n => decide ((s.sett n).pair = .lost)
    | _ => false)

/-- R288 step 5: whether every unit counts as drained. -/
def State.allDrained (s : State) (d : Drain) : Bool := invUnits.all fun u => s.countsDrained d u

/-- R253, R243: SETT[0] clears draining in the region's descriptor, once no accelerator holds its line. -/
def State.undrain (s : State) (region : BitVec 24) : State :=
  match regionOf region with
  | none => s
  | some (p, i) => match s.regionDesc p i with
    | none => s
    | some da => if (s.sett 0).pair = .lost then s else s.devAccess da true 2

/-- R288 step 5, R291: an invalidation completes: a FENCE gets its record, Owl its status, a publication has draining
cleared. -/
def State.drainEnds (s : State) (d : Drain) : State :=
  let st := if d.timedOut then Status.timeout else .ok
  let x := s.xlt
  let s1 : State := { s with xlt := { x with
    invs := sat x.invs
    drainto := if d.timedOut then sat x.drainto else x.drainto
    evstat := if d.timedOut then setBit x.evstat 2 else x.evstat } }
  let s2 := s1.dropDrain d.id
  match d.init with
  | 0 => match (s2.queue d.queue).fence with
    | none => s2
    | some f =>
      (s2.setQueue d.queue { s2.queue d.queue with fence := none }).finishDesc d.queue ⟨st, false, 0, 0⟩ f 0xFF
  | 1 => { s2 with xlt := { s2.xlt with go := false, done := true, status := st.code } }
  | _ => s2.undrain (BitVec.ofNat 24 d.target)

/-- An invalidation of an ASID, or a publication that has timed out, ends as soon as every unit counts as drained; a
publication's drain otherwise ends at REGION_DRAIN_COMPLETE. None ends before an earlier one of the same ASID or region (R292). -/
def State.drainCheck (s : State) (id : Nat) : State :=
  match s.drain id with
  | none => s
  | some d => if s.allDrained d ∧ (s.earlier d).isEmpty ∧ (d.init ≠ 2 ∨ d.timedOut) then s.drainEnds d else s

/-- Every invalidation in progress checked. -/
def State.drainChecks (s : State) : State := (s.xlt.drains.map (·.id)).foldl (fun s i => s.drainCheck i) s

/-- R288 step 4: a unit reports drained. -/
def State.drainReport (s : State) (u : InvUnit) (id : Nat) : State :=
  match s.drain id with
  | none => s
  | some d =>
    if s.drained d u ∧ !d.rep.contains u ∧ !(s.earlier d).any (fun x => !x.rep.contains u) then
      (s.setDrain { d with rep := d.rep ++ [u] }).drainChecks
    else s

/-- R488: an engine whose reset has settled counts as drained in every invalidation in progress. -/
def State.engineDrained (s : State) (e : Nat) : State :=
  let u := InvUnit.engine e
  let add (l : List InvUnit) : List InvUnit := if l.contains u then l else l ++ [u]
  ({ s with xlt := { s.xlt with drains := s.xlt.drains.map fun d => { d with got := add d.got, rep := add d.rep } } } : State).drainChecks

/-- R288 step 2 at one unit. -/
def execInvalidationReceive (u : InvUnit) (id : Nat) (s : State) : Host.Outcome State Fault Refusal :=
  .next (s.invReceive u id)

/-- R288 step 3: the overflow cache's sweep ends, and it reports. -/
def execOverflowSweepEnd (id : Nat) (s : State) : Host.Outcome State Fault Refusal :=
  .next (s.drainReport .overflow id)

/-- R288 step 4: a unit reports drained. -/
def execDrainReport (u : InvUnit) (id : Nat) (s : State) : Host.Outcome State Fault Refusal :=
  .next (s.drainReport u id)

/-- R253: every cache has reported the region's old resolutions drained, and SETT[0] clears draining. -/
def State.regionDrained (s : State) (region : BitVec 24) : State :=
  match s.xlt.drains.find? fun d => d.region && decide (d.init = 2) && d.target == region.toNat with
  | none => s
  | some d => if s.allDrained d ∧ (s.earlier d).isEmpty then (s.drainEnds d).drainChecks else s

def execRegionDrainComplete (region : BitVec 24) (s : State) : Host.Outcome State Fault Refusal :=
  .next (s.regionDrained region)

/-- R287, R294: Owl's invalidation; ignored while one runs. -/
def State.owlInvalidate (s : State) (region : Bool) (target : BitVec 24) : State :=
  if s.xlt.go then s
  else
    let s1 : State := { s with xlt := { s.xlt with go := true, region := region, target := target, done := false } }
    s1.startDrain region target.toNat 1 0

end Sys2Proof.Machine
end

