-- ==== Sys2Proof/Machine/Recovery.lean ====
section
/-! DEFINITION. Engine resets and fencing (R483–R488) and sett pairs (R490–R494). -/

namespace Sys2Proof.Machine
open Sys2Proof

/-! ### Engine resets -/

/-- R484 steps 1–2: an engine stops, its generation increments, and its purge goes out. A reset in progress is joined; a
fenced engine stays fenced; a warm reset has stopped every engine already (R488, R497). -/
def State.engineReset (s : State) (e : Nat) : State :=
  let x := s.eng e
  if x.st = .resetting ∨ x.st = .fenced ∨ s.inWarm then s
  else s.setEng e { x with
    st := .resetting
    gen := x.gen + 1
    purgeGen := x.gen
    purgeGot := []
    purged := []
    rsSince := s.clk
    fencing := false
    settled := false }

/-- Requests of an engine's old generation at a sett. -/
def Txn.isOld (t : Txn) (sett e : Nat) (g : Byte) : Bool :=
  t.kind == .eng && t.unit == e && t.ugen == g && t.sett == sett

/-- R484 step 2 at one sett: every queued or parked request of the old generation that has not started is discarded. -/
def State.enginePurge (s : State) (sett e : Nat) : State :=
  let x := s.eng e
  if x.st ≠ .resetting ∨ x.purgeGot.contains sett ∨ 16 ≤ sett then s
  else
    let s1 := s.setEng e { x with purgeGot := x.purgeGot ++ [sett] }
    { s1 with txns := s1.txns.filter fun t => !(t.isOld sett e x.purgeGen && !t.started) }

/-- R486 step 4: an engine is fenced: out of service, recorded, and drained for every invalidation. -/
def State.fenceEnds (s : State) (e : Nat) : State :=
  let x := s.eng e
  let s1 := s.setEng e { x with st := .fenced, fencing := false, resetReq := false, gated := true }
  let s2 : State := { s1 with top := { s1.top with engLive := s1.top.engLive &&& ~~~(BitVec.ofNat 64 (2 ^ e)) } }
  let s3 := match s2.engPart e with
    | none => s2.logEvent 0x04 0x04 (BitVec.ofNat 8 e) 0 0xFF
    | some p => s2.ringRecord p 0x04 0x04 (BitVec.ofNat 8 e) 0
  s3.drainChecks

/-- R484 step 3, R486 step 3: every sett has reported purged: the engine's descriptors get their outcomes. -/
def State.resetSettles (s : State) (e : Nat) : State :=
  let s1 := s.loseDescriptors e
  let s2 := (s1.setEng e { s1.eng e with settled := true }).engineDrained e
  if (s2.eng e).fencing then s2.fenceEnds e else s2

/-- R484 step 2: a sett reports purged once it holds no started transaction of the old generation. -/
def State.purgeReport (s : State) (sett e : Nat) : State :=
  let x := s.eng e
  if x.st ≠ .resetting ∨ !x.purgeGot.contains sett ∨ x.purged.contains sett ∨
      s.txns.any (fun t => t.isOld sett e x.purgeGen) then s
  else
    let s1 := s.setEng e { x with purged := x.purged ++ [sett] }
    if (s1.eng e).purged.length = 16 then s1.resetSettles e else s1

/-- R484 steps 4–5: the engine is cleared and IDLE again. -/
def State.engineResetDone (s : State) (e : Nat) : State :=
  let x := s.eng e
  if x.st = .resetting ∧ x.settled ∧ !x.fencing then
    s.setEng e { x with
      st := .idle
      resetReq := false
      settled := false
      sbuf := []
      used := false
      raw := []
      tc := []
      out := []
      ans := []
      run := none
      staged := none }
  else s

/-- R486 steps 1–2: an engine is closed off and its purge sent, or continued. -/
def State.engineFence (s : State) (e : Nat) : State :=
  let s1 := s.engineReset e
  let x := s1.eng e
  if x.st = .fenced ∨ s.inWarm then s1
  else
    let s2 := s1.setEng e { x with fencing := true, gated := true }
    if x.settled then s2.fenceEnds e else s2

/-- R483: 2^20 engine clocks in fabric clocks. -/
def hangClk : Nat := 1310720

/-- R483: a RUNNING engine without progress is hung: counted, and reset. -/
def execEngineHang (e : Nat) (s : State) : Host.Outcome State Fault Refusal :=
  let x := s.eng e
  if x.st = .running ∧ !s.inWarm ∧ !x.halted ∧ !x.gated ∧ x.prog0 + hangClk ≤ s.clk then
    .next ((s.setEng e { x with hangs := sat x.hangs, recov := setBit x.recov 0 }).engineReset e)
  else .next s

/-- R483: a parity checker starts the same reset at once. -/
def execEngineCheckerFault (e : Nat) (s : State) : Host.Outcome State Fault Refusal := .next (s.engineReset e)

/-- R484: the purge of an engine is received at a sett. -/
def execEnginePurge (sett e : Nat) (s : State) : Host.Outcome State Fault Refusal := .next (s.enginePurge sett e)

/-- R484: a sett reports purged. -/
def execPurgeReport (sett e : Nat) (s : State) : Host.Outcome State Fault Refusal := .next (s.purgeReport sett e)

/-- R484: steps 4 and 5 have run. -/
def execEngineResetDone (e : Nat) (s : State) : Host.Outcome State Fault Refusal := .next (s.engineResetDone e)

/-- R485: 50 µs from step 1: the engine is fenced. -/
def execEngineResetTimeout (e : Nat) (s : State) : Host.Outcome State Fault Refusal :=
  let x := s.eng e
  if x.st = .resetting ∧ !x.fencing ∧ 120000 + x.rsSince ≤ s.clk then
    .next ((s.setEng e { x with resetTo := sat x.resetTo, recov := setBit x.recov 1 }).engineFence e)
  else .next s

/-- R291: drain_to in force, in µs. -/
def State.drainTo (s : State) : Nat := max 100 s.xlt.drainTo.toNat

/-- R291: some unit has not reported within drain_to: each engine that has not is fenced, and the invalidation completes
with TIMEOUT once every unit counts as drained. -/
def State.drainTimeout (s : State) (id : Nat) : State :=
  match s.drain id with
  | none => s
  | some d =>
    if d.timedOut ∨ s.clk < s.drainTo * Config.usClk + d.since then s
    else
      let s1 := s.setDrain { d with timedOut := true }
      let s2 := (List.range 64).foldl (fun s e =>
        if s.countsDrained d (.engine e) then s else s.engineFence e) s1
      s2.drainChecks

def execInvalidationDrainTimeout (id : Nat) (s : State) : Host.Outcome State Fault Refusal := .next (s.drainTimeout id)

/-! ### Sett pairs (R490–R494) -/

/-- The state of unit i of a pair, and the pair with it changed. -/
def Sett.unitSt (t : Sett) (i : Bool) : UnitState := if i then t.unit1 else t.unit0
def Sett.setUnit (t : Sett) (i : Bool) (x : UnitState) : Sett := if i then { t with unit1 := x } else { t with unit0 := x }

/-- R494: a pair becomes LOST: every request and writeback at it is answered UNAVAILABLE, its snoops, holds and sweeps
are abandoned. -/
def State.settLost (s : State) (n : Nat) (cause : Byte) : State :=
  let t := s.sett n
  let s1 := s.setSett n { t with
    pair := .lost
    unit0 := .failed
    unit1 := .failed
    cause := cause
    losses := sat t.losses
    foev := setBit t.foev 2
    snoops := []
    holds := []
    sweep := none
    sweepQ := []
    cmdFailover := false
    cmdResync := false }
  let mine := (s1.txns.filter fun u => u.sett == n).map (·.id)
  let s2 := mine.foldl (fun s i => match s.txn i with
    | none => s
    | some u => if u.kind = .dev then s.devThenWith State.death u
      else s.answer u { st := .unavailable, ver := if u.ty = .publish then some 0 else none }) s1
  let s3 : State := { s2 with chans := s2.chans.map fun (k, c) => (k, { c with
    subA := { c.subA with rq := c.subA.rq.filter fun r => !mine.contains r.txn }
    subB := { c.subB with rq := c.subB.rq.filter fun r => !mine.contains r.txn }
    rmw := c.rmw.filter fun r => !mine.contains r.txn
    rmwIn := c.rmwIn.filter fun r => !mine.contains r.txn }) }
  ((s3.logPlain 0x1A 3).ledgerAdd 9 (ledgerNums [n, 0x494])).drainChecks

/-- R491, R494: a cycle of a pair is marked bad. -/
def State.settBad (s : State) (n : Nat) (cause : Byte) : State :=
  let t := s.sett n
  match t.pair with
  | .pair =>
    let t1 := (t.setUnit t.act1 .failed).setUnit (!t.act1) .active
    (s.setSett n { t1 with
      pair := .single
      act1 := !t.act1
      cause := cause
      tries := 0
      failovers := sat t.failovers
      foev := setBit t.foev 0
      cmdFailover := false }).logPlain 0x1A 1
  | .lost => s
  | _ => s.settLost n cause

/-- R491: a bad cycle with its cause. -/
def execSettBadCycle (sett : Nat) (cause : Byte) (s : State) : Host.Outcome State Fault Refusal := .next (s.settBad sett cause)

/-- R490: the active unit sends no copy for 256 fabric clocks. -/
def execSettCopyWatchdog (sett : Nat) (s : State) : Host.Outcome State Fault Refusal := .next (s.settBad sett 3)

/-- R493: an attempt to resynchronise has failed. -/
def State.attemptFails (s : State) (n : Nat) (cause : Option Byte) : State :=
  let t := s.sett n
  let t1 := if t.pair = .lost then t else { t.setUnit (!t.act1) .failed with pair := .single }
  (s.setSett n { t1 with
    tries := t.tries + 1
    cause := cause.getD t.cause
    resyncFails := sat t.resyncFails
    foev := setBit t.foev 1
    cmdResync := false }).logPlain 0x1A 2

/-- R492: the standby, or the copy path, fails: the active unit goes on alone. A unit that is being resynchronised counts
as a failed attempt. The cause of a standby's failure is not stated (log 8). -/
def State.standbyFail (s : State) (n : Nat) (copyPath : Bool) : State :=
  let t := s.sett n
  match t.pair with
  | .pair =>
    let (c, s1) := if copyPath then ((5 : Byte), s) else s.drawBits 8
    s1.setSett n { t.setUnit (!t.act1) .failed with pair := .single, cause := c, tries := 0 }
  | .resync => s.attemptFails n (if copyPath then some 5 else none)
  | _ => s

def execSettStandbyFail (sett : Nat) (copyPath : Bool) (s : State) : Host.Outcome State Fault Refusal :=
  .next (s.standbyFail sett copyPath)

/-- R493: the built-in test of a failed unit ends: after three failed attempts in a row only SETT_PAIRCMD starts one. A LOST
pair has no unit to copy from, so an attempt there fails. -/
def State.selfTestEnd (s : State) (n : Nat) (pass : Bool) : State :=
  let t := s.sett n
  if t.pair = .single ∧ t.unitSt (!t.act1) = .failed ∧ (t.tries < 3 ∨ t.cmdResync) then
    if pass then s.setSett n { t.setUnit (!t.act1) .resync with pair := .resync, rsSince := s.clk }
    else (s.attemptFails n (some 7)).ledgerAdd 9 (ledgerNums [n, 0x493])
  else if t.pair = .lost ∧ t.cmdResync then s.attemptFails n (if pass then none else some 7)
  else s

def execSettSelfTestEnd (sett : Nat) (pass : Bool) (s : State) : Host.Outcome State Fault Refusal :=
  .next (s.selfTestEnd sett pass)

/-- R493 step 3: the full copy is acknowledged. -/
def execSettResyncDone (sett : Nat) (s : State) : Host.Outcome State Fault Refusal :=
  let t := s.sett sett
  if t.pair = .resync then
    .next (s.setSett sett { t.setUnit (!t.act1) .standby with pair := .pair, tries := 0, cmdResync := false })
  else .next s

/-- R493: a copy not acknowledged within 50 µs. -/
def execSettResyncTimeout (sett : Nat) (s : State) : Host.Outcome State Fault Refusal :=
  let t := s.sett sett
  if t.pair = .resync ∧ 120000 + t.rsSince ≤ s.clk then .next (s.attemptFails sett none) else .next s

/-- R502: the failover command: in PAIR the next cycle is bad with cause 0x06; ignored elsewhere. -/
def State.paircmdFailover (s : State) (n : Nat) : State := if (s.sett n).pair = .pair then s.settBad n 6 else s

/-- R502: one attempt under R493 for a failed unit; ignored when no unit is failed. -/
def State.paircmdResync (s : State) (n : Nat) : State :=
  let t := s.sett n
  if t.unit0 = .failed ∨ t.unit1 = .failed then s.setSett n { t with cmdResync := true } else s

end Sys2Proof.Machine
end

