-- ==== Sys2Proof/Machine/Translation.lean ====
section
/-! DEFINITION. Walks that end (R277, R278, R281, R284, R285). -/

namespace Sys2Proof.Machine
open Sys2Proof

/-- Requests that wait for the walk of a page. -/
def State.walkers (s : State) (asid : BitVec 16) (page : Nat) : List Nat :=
  (s.txns.filter fun t => decide (t.phase = .walk) && t.asid == asid && bitsOf t.va 21 36 == page).map (·.id)

/-- The walk of a page leaves the list. -/
def State.dropWalk (s : State) (asid : BitVec 16) (page : Nat) : State :=
  { s with xlt := { s.xlt with walk := s.xlt.walk.filter fun w => !(w.asid == asid && w.page == page) } }

/-- R284: the context that a walk read is kept by its walker group; a direct ASID has none. -/
def State.keepContext (s : State) (asid : BitVec 16) (va : Nat) : State :=
  match s.asidPart asid.toNat with
  | none => s
  | some p => match s.prec p with
    | none => s
    | some r =>
      if asid.toNat = r.asidBase then s
      else
        let g := bitsOf va 21 2 ^^^ asid.toNat % 4
        match s.context p r g asid.toNat with
        | .error _ => s
        | .ok bs =>
          let mine := (s.xlt.ctx.filter fun (g', a, _) => g' == g && a != asid.toNat) ++ [(g, asid.toNat, bs)]
          { s with xlt := { s.xlt with ctx := (s.xlt.ctx.filter fun (g', _, _) => g' != g) ++ lastN 1024 mine } }

/-- R285: whether a walker runs the walk of a page: a group's eight walkers run the first eight of its walks, in arrival order. -/
def State.walking (s : State) (asid : BitVec 16) (page : Nat) : Bool :=
  ((s.xlt.walk.filter fun w => walkGroup w.asid.toNat w.page == walkGroup asid.toNat page).take 8).any
    fun w => w.asid == asid && w.page == page

/-- R288, R290: whether an invalidation has overtaken a walk: its group received one since it began, or one is still on its way there. -/
def State.overtaken (s : State) (w : Walk) : Bool :=
  w.stale || s.xlt.drains.any fun d =>
    !d.region && d.target == w.asid.toNat && !d.got.contains (.walkers (walkGroup w.asid.toNat w.page))

/-- R277, R284, R285: a walk ends, in its partition's GATE slot (R470): the lines that it has read stand in the line cache (R390), its leaf is installed and every request that waited for it proceeds, or fails with the
walk's status. A walk that an invalidation overtook installs nothing and starts again (R288). A walk that needs a region
descriptor from its owner has it snooped, and goes on waiting (R243). -/
def State.walkDone (s : State) (asid : BitVec 16) (page : Nat) : State :=
  match s.xlt.walk.find? fun w => w.asid == asid && w.page == page with
  | none => s
  | some w =>
    let s1 : State := { s with xlt := { s.xlt with walks := sat s.xlt.walks } }
    if !s.walking asid page ∨ (s.asidPart asid.toNat).any (fun p => !s.gateAdmits p) then s
    else match (if s.overtaken w then none else s.walkDesc asid (mib2 * page)) with
    | some da => s.devAccess da false 0
    | none =>
    if s.overtaken w then
      { s1 with xlt := { s1.xlt with walk := s1.xlt.walk.map fun x =>
          if x.asid = asid ∧ x.page = page then { x with stale := false, since := s.clk } else x } }
    else
      let s2 := (s1.walkReads asid (mib2 * page)).foldl State.touchLine (s1.dropWalk asid page)
      let ids := s2.walkers asid page
      match s2.walkFor asid (mib2 * page) with
      | .error st => ids.foldl (fun s i => match s.txn i with
        | none => s
        | some t => s.failTranslation t st) s2
      | .ok x =>
        let s3 := s2.keepContext asid (mib2 * page)
        let s4 : State := { s3 with xlt := { s3.xlt with oc := tcPut 1048576 s3.xlt.oc x } }
        ids.foldl (fun s i => match s.txn i with
          | none => s
          | some t =>
            let y := (s.pubOf t.kind t.unit t.asid t.va).getD x
            (s.tcInstall t.kind t.unit t.sett x).serve { t with leaf := y.leaf, base := y.base, ver := y.ver }) s4

/-- R277: the walk for (asid, page v[56:21]) ends. -/
def execWalkComplete (asid : BitVec 16) (page : Nat) (s : State) : Host.Outcome State Fault Refusal :=
  .next (s.walkDone asid page)

/-- R278: a walk that exceeds walk_to: its requests are answered TIMEOUT. -/
def State.walkExpired (s : State) (asid : BitVec 16) (page : Nat) : State :=
  match s.xlt.walk.find? fun w => w.asid == asid && w.page == page with
  | none => s
  | some w =>
    if max 1 s.xlt.walkTo.toNat * Config.usClk + w.since ≤ s.clk then
      let s1 : State := { s with xlt := { s.xlt with walkto := sat s.xlt.walkto, evstat := setBit s.xlt.evstat 1 } }
      let s2 := s1.dropWalk asid page
      (s2.walkers asid page).foldl (fun s i => match s.txn i with
        | none => s
        | some t => s.failTranslation t .timeout) s2
    else s

def execWalkTimeout (asid : BitVec 16) (page : Nat) (s : State) : Host.Outcome State Fault Refusal :=
  .next (s.walkExpired asid page)

end Sys2Proof.Machine
end

