-- ==== Sys2Proof/Machine/Queues.lean ====
section
/-! DEFINITION. Work queues and their schedulers (R321–R352): enabling, wakes, fetching, hand-overs, dispatch, and the
descriptors that run on the scheduler. -/

namespace Sys2Proof.Machine
open Sys2Proof

/-! ### Fetching -/

/-- R327, R351: fetches asked for while the queue is enabled: from head up to the producer as last read, at most eight ahead of those
started, of which `staged` wait at engines. -/
def Queue.topUp (x : Queue) (staged : Nat) : Queue :=
  if !x.en then x
  else
    let next := x.head + BitVec.ofNat 32 x.toRead.length
    let want := (x.producer - next).toNat
    let n := min want (8 - (x.toRead.length + x.ready.length + staged))
    { x with toRead := x.toRead ++ (List.range n).map fun i => next + BitVec.ofNat 32 i }

/-- R318, R327: the ring descriptors of queue q that are staged at an engine and have not started. -/
def State.stagedRing (s : State) (q : Nat) : Nat :=
  (s.engines.filter fun (_, x) => match x.staged with
    | none => false
    | some (q', d) => q' == q && !d.chained).length

/-- R327: the fetches of queue q asked for. -/
def State.topUp (s : State) (q : Nat) : State := s.setQueue q ((s.queue q).topUp (s.stagedRing q))

/-- Whether a scheduler fetches for a queue: enabled, configured, not in ERROR, its partition in RUN (R329), and no warm reset runs (R497). -/
def State.fetches (s : State) (q : Nat) : Bool :=
  let x := s.queue q
  x.en && x.err == 0 && x.cfg.isSome && !s.inWarm &&
    (match s.queuePart q with
    | none => false
    | some p => decide ((s.part p).st = .run))

/-- R327, R343: the scheduler reads producer and consumer, judges them, and fetches. -/
def State.readProducer (s : State) (q : Nat) : State :=
  let s := s.setQueue q { s.queue q with wake := false }
  if !s.fetches q then s
  else match s.qEntry q, (s.queue q).cfg with
    | some a, some c =>
      match s.devRead (a + 64) 8 with
      | (bs, .ok) =>
        let pr := BitVec.ofNat 32 (fld bs 0 4)
        let co := BitVec.ofNat 32 (fld bs 4 4)
        let x := s.queue q
        if 2 ^ c.descLog2 < (pr - x.head).toNat then s.queueError q 5
        else if 2 ^ c.cmpLog2 < (x.cmpCount - BitVec.ofNat 32 (s.recPending q) - co).toNat then s.queueError q 6
        else (s.setQueue q { x with producer := pr, consumer := co }).topUp q
      | (_, _) => s.queueError q 7
    | _, _ => s

/-- R327: a wake from line 1's home. -/
def execQueueWake (q : Nat) (s : State) : Host.Outcome State Fault Refusal :=
  .next (if (s.queue q).wake then s.readProducer q else s)

/-- R323, R327: line 0 read and checked, and then producer. -/
def State.queueCheckIn (s : State) (q p : Nat) : State :=
  match s.qEntry q with
  | none => s.queueError q 1
  | some a =>
    match s.devRead a 64 with
    | (l, .ok) =>
      let r := s.qCheck p l
      if r ≠ 0 then s.queueError q r
      else
        let x := s.queue q
        (s.setQueue q { x with
          cfg := some (qCfgOf l)
          head := BitVec.ofNat 32 (fld l 24 4)
          cmpCount := BitVec.ofNat 32 (fld l 28 4)
          producer := BitVec.ofNat 32 (fld l 24 4)
          toRead := [] }).clearEntry q |>.readProducer q
    | (_, _) => s.queueError q 7

/-- R323: the enable bit of a queue goes from 0 to 1. Within a warm reset the check waits for its end (R497). -/
def State.queueEnable (s : State) (p o : Nat) : State :=
  match s.prec p with
  | none => s
  | some r =>
    let q := r.queueBase + o
    if r.queueCount ≤ o ∨ (s.queue q).en then s
    else
      let s1 := s.setQueue q { s.queue q with en := true }
      if (s1.queue q).err ≠ 0 ∨ s.inWarm then s1 else s1.queueCheckIn q p

/-- R351: the enable bit of a queue goes to 0. -/
def State.queueDisable (s : State) (p o : Nat) : State :=
  match s.prec p with
  | none => s
  | some r =>
    let q := r.queueBase + o
    if r.queueCount ≤ o ∨ !(s.queue q).en then s
    else
      let s1 := s.setQueue q { s.queue q with en := false, wake := false }
      s1.cancelFetched q .cancelled

/-- R352: a queue reset: only of a disabled queue with no descriptor running. -/
def State.queueReset (s : State) (p o : Nat) : State :=
  match s.prec p with
  | none => s
  | some r =>
    let q := r.queueBase + o
    let x := s.queue q
    if r.queueCount ≤ o ∨ x.en ∨ x.open_ ≠ 0 then s
    else match s.qEntry q with
      | none => s.setQueue q { x with err := 0 }
      | some a =>
        match s.devRead (a + 64) 4 with
        | (bs, .ok) =>
          let pr := BitVec.ofNat 32 (fld bs 0 4)
          (s.setQueue q { x with err := 0, head := pr, producer := pr, toRead := [] }).qWriteBack q 24 pr
        | (_, _) => s.setQueue q { x with err := 7 }

/-- R327, R328: the read of a queue's oldest fetched index returns, and head is written back. While an accelerator owns the line it
is downgraded first (R214), and the read has not returned yet. -/
def State.fetched (s : State) (q : Nat) : State :=
  let x := s.queue q
  match x.toRead, x.cfg with
  | i :: rest, some c =>
    if x.err ≠ 0 then s
    else
      match s.schedRead c.asid (c.descBase + 64 * (i.toNat % 2 ^ c.descLog2)) with
      | .fail e => ((s.setQueue q { x with toRead := [] }).schedFault c.asid e).queueError q 7
      | .owned pa => s.devAccess pa false 0
      | .data bs =>
        (s.setQueue q { x with
          toRead := rest
          head := i + 1
          taken := x.taken + 1
          ready := x.ready ++ [{ bytes := bs, index := i, no := x.taken }] }).qWriteBack q 24 (i + 1)
  | _, _ => s

def execDescriptorFetched (q : Nat) (s : State) : Host.Outcome State Fault Refusal := .next (s.fetched q)

/-! ### Hand-overs (R264, R346, R481) -/

/-- R346: the oldest hand-over on its way to a queue arrives; its status is recorded in the counter line as it stands, which no
accelerator then holds (R243). -/
def State.handArrives (s : State) (q : Nat) : State :=
  let x := s.queue q
  match x.inbox with
  | [] => s
  | (line, chain, g) :: rest =>
    let p := s.queuePart q
    let st : Status := match p with
      | none => .cancelled
      | some p => if (s.part p).gen ≠ g then .cancelled else s.handStatus p q
    let x1 := { x with inbox := rest }
    let s1 := s.setQueue q (if st = .ok then { x1 with hand := x1.hand ++ [chain] } else x1)
    let pa := line * 64
    match s1.view pa with
    | none => s1
    | some v =>
      if fld v.data 26 1 = 2 ∧ fld v.data 27 1 ≠ st.code.toNat then s1.devAccess pa true (BitVec.ofNat 24 (256 + st.code.toNat)) else s1

def execHandOver (q : Nat) (s : State) : Host.Outcome State Fault Refusal := .next (s.handArrives q)

/-! ### Dispatch (R344–R347) -/

/-- R74: the engine mask of the first AFFINITY entry that names a queue, or the partition's. -/
def State.layoutSet (s : State) (p q : Nat) : W64 :=
  let own := match s.prec p with | none => 0 | some r => r.engines
  match s.secOf p with
  | none => own
  | some x => match x.affin.find? fun a => decide (a.first ≤ q) && decide (q < a.first + a.count) with
    | none => own
    | some a => a.engines

/-- R344: a queue's engine set: its layout set in service, or every live engine of the partition. -/
def State.engineSet (s : State) (p q : Nat) : List Nat :=
  let l := (s.liveEngines p).filter fun e => (s.layoutSet p q).getLsbD e
  if l.isEmpty then s.liveEngines p else l

/-- R344: the skulk whose scheduler serves a queue. -/
def State.skulkOf (s : State) (p q : Nat) : Nat := (lowBits 64 (s.layoutSet p q).toNat).headD 0 / 8

/-- The descriptor that a queue starts next: a hand-over that has been read, one that has not, or the oldest from the
ring. -/
inductive NextD where
  | read (d : Desc)
  | chain (a : Nat)
  | ring (d : Desc)
deriving DecidableEq, Repr

def Queue.next (x : Queue) : Option NextD :=
  match x.chainRd, x.hand, x.ready with
  | d :: _, _, _ => some (.read d)
  | [], a :: _, _ => some (.chain a)
  | [], [], d :: _ => some (.ring d)
  | [], [], [] => none

/-- The queue without that descriptor. -/
def Queue.take (x : Queue) : NextD → Queue
  | .read _ => { x with chainRd := x.chainRd.drop 1 }
  | .chain _ => { x with hand := x.hand.drop 1 }
  | .ring _ => { x with ready := x.ready.drop 1 }

/-- R345, R346: whether descriptor a of a queue starts before b: a hand-over before the ring's, else in the order fetched or read. -/
def Desc.before (a b : Desc) : Bool := if a.chained ≠ b.chained then a.chained else decide (a.no < b.no)

/-- R345: of the staged descriptors of queue q, the one that starts first, and its engine; engine e may take it (R349). -/
def State.firstStaged (s : State) (q e : Nat) : Option (Nat × Desc) :=
  s.engines.foldl (fun (a : Option (Nat × Desc)) (k, x) =>
    match x.staged with
    | none => a
    | some (q', d) =>
      if q' ≠ q ∨ d.avoid = some e then a
      else match a with
        | none => some (k, d)
        | some (_, b) => if d.before b then some (k, d) else a) none

/-- R345: whether a descriptor of queue q that starts before d is only staged: a descriptor of the scheduler waits for it. -/
def State.behindStaged (s : State) (q : Nat) (d : Desc) : Bool := match s.firstStaged q 64 with
  | none => false
  | some (_, b) => b.before d

/-- R345: whether a queue may start its next descriptor: under ordered, a queue barrier, R343, in RUN, and not within a
warm reset (R497). -/
def State.mayStart (s : State) (q : Nat) : Bool :=
  let x := s.queue q
  match x.cfg, x.next, s.queuePart q with
  | some c, some n, some p =>
    let barrier := match n with
      | .ring d => d.isBarrier
      | .read d => d.isBarrier
      | .chain _ => false
    let sched := match n with
      | .ring d => d.onScheduler && (x.sched.isSome || s.behindStaged q d)
      | .read d => d.onScheduler && (x.sched.isSome || s.behindStaged q d)
      | .chain _ => false
    x.err == 0 && !s.inWarm && decide ((s.part p).st = .run) && decide ((x.cmpCount - x.consumer).toNat + x.open_ < 2 ^ c.cmpLog2) &&
      !(c.ordered && decide (x.open_ ≠ 0)) && !x.barrier && !(barrier && decide (x.open_ ≠ 0)) &&
      !sched
  | _, _, _ => false

/-- R345: the queues that the scheduler of a skulk may serve now, in ascending number. -/
def State.readyQueues (s : State) (k : Nat) : List Nat :=
  (s.queues.map (·.1)).filter fun q => s.mayStart q && (match s.queuePart q with
    | none => false
    | some p => s.skulkOf p q == k)

/-- R345: the queue whose turn it is. -/
def State.turn (s : State) (k : Nat) : Option Nat :=
  let l := s.readyQueues k
  let from_ := tget 0 s.sched k
  match l.find? fun q => decide (from_ ≤ q) with
  | some q => some q
  | none => l.head?

/-- R587: the schedulers start no descriptor on an engine: GATE is being entered, or engines are gated. -/
def State.engStop (s : State) : Bool :=
  (s.owl.transit && decide (s.owl.target = .gate)) || !(decide (s.owl.pwr = .run))

/-- R345, R354: the engine that takes a descriptor: the lowest-numbered idle one with no packet in its input queue, or the lowest with a
free staged slot. -/
def State.idleEngine (s : State) (l : List Nat) : Option Nat :=
  l.find? fun e => !s.engStop && decide ((s.eng e).st = .idle) && (s.eng e).run.isNone && (s.eng e).staged.isNone &&
    (takePacket (s.inqOf e).send).isNone && !(s.eng e).gated && !(s.eng e).halted
def State.freeSlot (s : State) (l : List Nat) : Option Nat :=
  l.find? fun e => !s.engStop && decide ((s.eng e).st = .running) && (s.eng e).staged.isNone && !(s.eng e).gated

/-- R318: a descriptor starts on an engine. -/
def State.startOn (s : State) (e q : Nat) (d : Desc) : State :=
  let x := s.eng e
  s.setEng e { x with st := .running, run := some { q := q, d := d }, prog0 := s.clk, used := true }

/-- R345: engine e starts a descriptor of queue q: the one given, or an earlier one of the queue that is staged at another engine, whose
slot the one given then takes. -/
def State.startNext (s : State) (e q : Nat) (d : Desc) : State :=
  match s.firstStaged q e with
  | none => s.startOn e q d
  | some (k, d0) => if d0.before d then (s.setEng k { s.eng k with staged := some (q, d) }).startOn e q d0 else s.startOn e q d

/-- R344, R349: the engines that may take a descriptor: its queue's set, without the engine whose loss it survived while there is another. -/
def State.setFor (s : State) (p q : Nat) (d : Desc) : List Nat :=
  let l := s.engineSet p q
  match d.avoid with
  | none => l
  | some e => if (without l e).isEmpty then l else without l e

/-- R49, R328, R330, R338, R345, R349: a descriptor taken from its queue: ended for want of engines, refused, given to the scheduler,
started or staged. The second component tells whether it was taken. -/
def State.place1 (s : State) (p q : Nat) (d : Desc) : State × Bool :=
  let x := s.queue q
  let opened := s.setQueue q { x with open_ := x.open_ + 1 }
  let bad := (!d.chained && fld d.bytes 2 2 != d.index.toNat % 65536) || decide (0x0A < d.op) || (d.op == 0x0A && decide (1 < fld d.bytes 16 1))
  let st := Status.first [if !d.onScheduler ∧ (s.liveEngines p).isEmpty then .unavailable else .ok, if bad then .badDescriptor else .ok]
  if st ≠ .ok then (opened.endStarted q ⟨st, false, 0, 0⟩ d 0xFF Status.cancelled.code, true)
  else if d.onScheduler then
    if x.sched.isSome ∨ s.behindStaged q d ∨ (d.isBarrier ∧ x.open_ ≠ 0) then (s, false)
    else (s.setQueue q { x with open_ := x.open_ + 1, sched := some d, barrier := d.isBarrier }, true)
  else
    match s.idleEngine (s.setFor p q d) with
    | some e => (opened.startNext e q d, true)
    | none => match s.freeSlot (s.setFor p q d) with
      | some e => (opened.setEng e { opened.eng e with staged := some (q, d) }, true)
      | none => (s, false)

/-- R345, R346: a turn of queue q, when it is q's turn at its scheduler. A turn that finds no engine for the descriptor passes. -/
def State.dispatch (s : State) (q : Nat) : State :=
  match s.queuePart q with
  | none => s
  | some p =>
    let k := s.skulkOf p q
    if s.turn k ≠ some q then s
    else
      let x := s.queue q
      match x.next, x.cfg with
      | some n, some c =>
        let s1 := s.setQueue q (x.take n)
        let pass (s : State) : State := { s with sched := tput s.sched k (q + 1) }
        let adv (r : State × Bool) : State := pass (if r.2 then r.1 else s)
        match n with
        | .ring d => (adv (s1.place1 p q d)).topUp q
        | .read d => adv (s1.place1 p q d)
        | .chain a => match s1.schedRead c.asid a with
          | .fail e => (s1.schedFault c.asid e).queueError q 7
          | .owned pa => pass (s.devAccess pa false 0)
          | .data bs =>
            let d : Desc := { bytes := bs, chained := true, no := (s1.queue q).taken }
            let s1 := s1.setQueue q { s1.queue q with taken := (s1.queue q).taken + 1 }
            let r := s1.place1 p q d
            if r.2 then adv r
            else pass (s1.setQueue q { s1.queue q with chainRd := (s1.queue q).chainRd ++ [d] })
      | _, _ => s

def execDescriptorDispatch (q : Nat) (s : State) : Host.Outcome State Fault Refusal := .next (s.dispatch q)

/-! ### Descriptors of the scheduler (R330, R338) -/

/-- R331: the status of a descriptor of the scheduler by its one address, the counter's. -/
def Desc.ctrStatus (d : Desc) : Status := if (fld d.bytes 1 1).testBit 1 ∧ fld d.bytes 8 8 % 64 ≠ 0 then .alignFault else .ok

/-- A NOP completes OK. -/
def State.nopDone (s : State) (q : Nat) : State :=
  let x := s.queue q
  match x.sched with
  | none => s
  | some d =>
    if d.op = 0 then (s.setQueue q { x with sched := none }).finishDesc q ⟨d.ctrStatus, false, 0, 0⟩ d 0xFF
    else s

def execNop (q : Nat) (s : State) : Host.Outcome State Fault Refusal := .next (s.nopDone q)

/-- A queue barrier, started after every earlier descriptor has completed, completes and releases the later ones. -/
def State.barrierDone (s : State) (q : Nat) : State :=
  let x := s.queue q
  match x.sched with
  | none => s
  | some d =>
    if d.isBarrier then
      (s.setQueue q { x with sched := none }).finishDesc q ⟨d.ctrStatus, false, 0, 0⟩ d 0xFF
    else s

def execFenceBarrier (q : Nat) (s : State) : Host.Outcome State Fault Refusal := .next (s.barrierDone q)

/-- An ASID invalidation starts; one that names an ASID outside the queue's partition completes PERM_FAULT. -/
def State.fenceStart (s : State) (q : Nat) : State :=
  let x := s.queue q
  match x.sched with
  | none => s
  | some d =>
    if d.op = 0x0A ∧ fld d.bytes 16 1 = 1 ∧ x.fence.isNone then
      let asid := fld d.bytes 18 2
      let st := Status.first [d.ctrStatus, if s.asidPart asid = s.queuePart q then .ok else .permFault]
      if st ≠ .ok then
        (s.setQueue q { x with sched := none }).endStarted q ⟨st, false, 0, 0⟩ d 0xFF Status.cancelled.code
      else (s.setQueue q { x with sched := none, fence := some d }).startDrain false asid 0 q
    else s

def execFenceInvalidate (q : Nat) (s : State) : Host.Outcome State Fault Refusal := .next (s.fenceStart q)

end Sys2Proof.Machine
end

