-- ==== Sys2Proof/Machine/Engines.lean ====
section
/-! DEFINITION. Fox engines: transfers (R318–R320), the descriptors of R332–R336, input-queue descriptors (R354) and the
end of a descriptor (R340–R342). A descriptor is a sequence of units; the engine works through them in order: it reads a
unit's lines, issues its writes and goes on once they are answered, as far as the answers at hand allow (R341). -/

namespace Sys2Proof.Machine
open Sys2Proof

/-! ### Transfers -/

/-- R319: an answer at an engine: read data enters the stream buffer, a write is acknowledged; a fault is kept under R49;
poison is noted (R339). -/
def State.deliver (s : State) (e : Nat) (a : Answer) (noise : Bool) : State :=
  let x := s.eng e
  if a.gen ≠ x.gen then s
  else
    let x1 := { x with out := x.out.erase a.va, prog0 := s.clk }
    match x1.run with
    | none => s.setEng e x1
    | some r =>
      let pois := a.poison || noise || a.status == .poisoned
      if a.status = .ok ∨ a.status = .poisoned then
        let r1 := { r with
          pois := r.pois || pois
          wrote := if a.data.isEmpty ∧ r.d.op = 3 then r.wrote ++ [a.va / 64] else r.wrote }
        let x2 := if a.data.isEmpty then x1 else { x1 with sbuf := tput x1.sbuf (a.va / 64) { a with poison := pois } }
        s.setEng e { x2 with run := some r1 }
      else
        let f := match r.flt with
          | none => (a.status, a.va)
          | some (st, v) => if (st.worst a.status) = st then (st, v) else (a.status, a.va)
        s.setEng e { x1 with run := some { r with flt := some f } }

/-- The answers at the engine's stop taken in: `n` bounds their number. -/
def State.absorb (s : State) (e : Nat) : Nat → State
  | 0 => s
  | n + 1 => match (s.eng e).ans with
    | [] => s
    | a :: rest => ((s.setEng e { s.eng e with ans := rest }).deliver e a false).absorb e n

/-- R442, R443: a disturbance of the stream-buffer word that an answer's data enters: corrected and counted for the
engine's partition, or poisoned input. -/
def State.sbufNoise (s : State) (e : Nat) (err : BitVec 80) : State × Bool :=
  match sramCheck err with
  | .good => (s, false)
  | .corrected => (match s.engPart e with | none => s | some p => s.countCeSram p, false)
  | .uncorrectable => (s.sramLost, true)

/-- R319: the oldest answer at the engine's stop arrives. -/
def State.transferAnswer (s : State) (e : Nat) (err : BitVec 80) : State :=
  match (s.eng e).ans with
  | [] => s
  | a :: rest =>
    let s1 := s.setEng e { s.eng e with ans := rest }
    let (s2, bad) := if a.data.isEmpty ∨ a.gen ≠ (s1.eng e).gen then (s1, false) else s1.sbufNoise e err
    s2.deliver e a bad

def execEngineTransferAnswer (e : Nat) (sbuf : BitVec 80) (s : State) : Host.Outcome State Fault Refusal :=
  .next (s.transferAnswer e sbuf)

/-- A transfer fault found before the transfer leaves the engine. -/
def State.engFault (s : State) (e : Nat) (st : Status) (va : Nat) : State :=
  let x := s.eng e
  match x.run with
  | none => s
  | some r => if r.flt.isSome then s else s.setEng e { x with run := some { r with flt := some (st, va) } }

/-- R110, R354: an untranslated transfer of an input-queue descriptor, at a pool physical address, for the partition that owns the engine;
one of the device-table class is answered there (R130, R400). -/
def State.physRequest (s : State) (t : Txn) : State :=
  let lost := decide ((s.sett (settOf t.va)).pair = .lost)
  match paClass t.va, s.whereIs t.va with
  | .tables o, _ =>
    if lost then s.engFault t.unit .unavailable t.va else
    let (s1, a) := s.tableAccess t o
    ({ s1 with nextTxn := s1.nextTxn + 1 } : State).engAnswer { t with id := s1.nextTxn } a
  | _, none => s.engFault t.unit (if lost then .unavailable else .xlateFault) t.va
  | _, some _ =>
    let l := directLeaf (t.va / mib2) 32
    let t1 := { t with id := s.nextTxn, since := s.clk, sett := settOf t.va, part := (s.engPart t.unit).getD 0xFF, phase := .walk, leaf := l, phys := true,
                       base := mib2 * (t.va / mib2) }
    (s.openTxn t1).serve t1

/-- R319, R320: an engine issues a line transfer under its descriptor, with the format rule that `arg` and `op` name
(`Txn.rawOk`); an input-queue descriptor's pages have no formats. -/
def State.issue (s : State) (e : Nat) (ty : ReqTy) (va : Nat) (data : Bytes) (mask : W64) (pois : Bool) (arg op : Nat) : State :=
  let x := s.eng e
  match x.run with
  | none => s
  | some r =>
    let t0 : Txn := { kind := .eng, unit := e, ugen := x.gen, ty := ty, va := va, data := data, mask := mask,
                      poisonIn := pois, arg := BitVec.ofNat 24 (if r.inq then 0 else arg), op := BitVec.ofNat 4 op }
    let s1 := s.setEng e { x with out := x.out ++ [va], prog0 := s.clk }
    if r.inq then
      let s2 := s1.physRequest t0
      if s2.nextTxn = s1.nextTxn then s2.setEng e { s2.eng e with out := (s2.eng e).out.erase va } else s2
    else match (s.queue r.q).cfg, s.queuePart r.q with
      | some c, some p =>
        if 2 ^ 57 ≤ va then (s.countFault c.asid).engFault e .xlateFault va
        else s1.request { t0 with asid := c.asid, part := p }
      | _, _ => s.engFault e .xlateFault va

/-! ### Units -/

/-- What a unit asks for next: lines to read, its writes (address, mask, data, poison), or the end of the descriptor. -/
inductive Plan where
  | need (l : List Nat)
  | write (l : List (Nat × W64 × Bytes × Bool))
  | stop (st : Status)
deriving DecidableEq, Repr

/-- The lines of `n` bytes from `a` (a multiple of 64). -/
def linesOf (a n : Nat) : List Nat := (List.range ((n + 63) / 64)).map fun k => a + 64 * k

/-- The lines of a list that are not in the stream buffer. -/
def lacking (sb : Tab Answer) (l : List Nat) : List Nat := l.filter fun a => !thas sb (a / 64)

/-- The bytes and poison of lines in the stream buffer. -/
def gathered (sb : Tab Answer) (l : List Nat) : Bytes × Bool :=
  (l.flatMap fun a => slice (tget Answer.reset sb (a / 64)).data 0 64, l.any fun a => (tget Answer.reset sb (a / 64)).poison)

/-- Whole-line writes of bytes from `a` on. -/
def wholeWrites (a : Nat) (bs : Bytes) (pois : Bool) : List (Nat × W64 × Bytes × Bool) :=
  (List.range (bs.length / 64)).map fun k => (a + 64 * k, BitVec.allOnes 64, slice bs (64 * k) 64, pois)

/-- R333: elements decoded and encoded. -/
def convertBytes (src dst n : Nat) (rnd : Rnd) (base : Nat) (bs : Bytes) : Bytes :=
  let vals := if isElemCode src then (elems (fmtBytes src) n bs).map (elemFmt src).decode
    else (List.range (n / 32)).flatMap fun k => mxDecode src (slice bs (k * mxBytes src) (mxBytes src))
  if isElemCode dst then (vals.zipIdx.map fun (v, i) => toLe (fmtBytes dst) ((elemFmt dst).encode (rmode rnd base i) v)).flatten
  else ((List.range (n / 32)).map fun k =>
    mxEncode dst (fun i => rmode rnd base (32 * k + i)) ((vals.drop (32 * k)).take 32)).flatten

/-- R336: an order of the contributions: each once, those that the environment names first in its order. -/
def arrivalOrder (n : Nat) (order : List Nat) : List Nat :=
  let l := (order.filter (· < n)).dedup
  l ++ (List.range n).filter fun k => !l.contains k

/-- R336: a value in FP32 after a sum rounded to nearest even. -/
def fp32 (x : Num) : Num := fFP32.decode (fFP32.encode .rne x)

/-- R336: one element: the contributions in arrival order, then the target's value when it is added into. -/
def reduceElem (fmt : Nat) (cs : List Nat) (old : Option Nat) : Nat :=
  if fmt = 3 ∨ fmt = 4 then
    (cs.foldl (· + ·) (old.getD 0)) % 2 ^ (8 * accBytes fmt)
  else
    let d := (elemFmt fmt).decode
    let sum := match cs with
      | [] => Num.fin false 0 0
      | c :: rest => rest.foldl (fun a x => fp32 (a.add (d x))) (d c)
    let tot := match old with
      | none => sum
      | some o => fp32 (sum.add (d o))
    (elemFmt fmt).encode .rne tot

/-- R336: a target line summed. -/
def reduceLine (fmt : Nat) (lines : List Bytes) (old : Option Bytes) : Bytes :=
  let w := accBytes fmt
  unelems w ((List.range (64 / w)).map fun i =>
    reduceElem fmt (lines.map fun l => fld l (w * i) w) (old.map fun l => fld l (w * i) w))

/-- R331–R336: the first check that a descriptor fails, by its operation. -/
def Desc.check (d : Desc) : Status :=
  let f (i n : Nat) := fld d.bytes i n
  let al (l : List Nat) : Status := if l.all fun a => a % 64 == 0 then .ok else .alignFault
  let ctr : Status := if (f 1 1).testBit 1 then al [f 8 8] else .ok
  let lim : Status := if f 32 8 ≤ 2 ^ 40 then .ok else .badDescriptor
  match d.op with
  | 1 => Status.first [ctr, al [f 16 8, f 24 8, f 32 8], lim]
  | 2 => Status.first [ctr, al [f 24 8, f 32 8], lim]
  | 3 =>
    let s := f 40 1
    let t := f 41 1
    let known := (isElemCode s || isMxCode s) && (isElemCode t || isMxCode t)
    Status.first [ctr, al [f 16 8, f 24 8],
      if known then .ok else .formatFault,
      if f 42 1 ≤ 2 then .ok else .badDescriptor,
      if (isMxCode s || isMxCode t) && f 32 8 % 32 != 0 then .badDescriptor else .ok,
      if known then al [fmtSize s (f 32 8), fmtSize t (f 32 8)] else .ok]
  | 4 | 5 => Status.first [ctr, al [f 16 8, f 24 8, f 48 8],
      if f 32 8 ≤ 2 ^ 32 ∧ 6 ≤ f 40 1 ∧ f 40 1 ≤ 21 then .ok else .badDescriptor]
  | 9 => Status.first [ctr, al [f 16 8, f 48 8],
      if f 32 8 ≤ 2 ^ 32 ∧ 6 ≤ f 40 1 ∧ f 40 1 ≤ 21 then .ok else .badDescriptor]
  | 6 => Status.first [ctr, al [f 16 8, f 24 8, f 40 8, f 32 8 * accBytes (f 50 1)],
      if 1 ≤ f 48 2 ∧ f 48 2 ≤ 256 ∧ f 50 1 ≤ 4 then .ok else .badDescriptor]
  | 7 => Status.first [ctr, al [f 16 8, f 24 8]]
  | 8 => Status.first [ctr, al [f 16 8, f 24 8, f 32 8], lim]
  | _ => .badDescriptor

/-- The number of units of a descriptor. -/
def Desc.units (d : Desc) : Nat :=
  let f (i n : Nat) := fld d.bytes i n
  match d.op with
  | 1 | 2 => f 32 8 / 64
  | 3 => (f 32 8 + 2047) / 2048
  | 4 | 5 => f 32 8 * 2 ^ (f 40 1 - 6)
  | 9 => if f 32 8 = 0 then 0 else d.idxLines + f 32 8 * 2 ^ (f 40 1 - 6)
  | 6 => f 32 8 * accBytes (f 50 1) / 64
  | 8 => if f 32 8 = 0 then 0 else f 32 8 / 64 + 1
  | _ => 0

/-- The index at place i of an index list in the stream buffer. -/
def indexAt (sb : Tab Answer) (idx i : Nat) : Nat :=
  fld (tget Answer.reset sb ((idx + 4 * i) / 64)).data ((idx + 4 * i) % 64) 4

/-- One line of an element copy: the index line first, then the source line, then the write. -/
def elemPlan (sb : Tab Answer) (idx i : Nat) (src dst : Nat → Nat) : Plan :=
  let ln := (idx + 4 * i) / 64 * 64
  if !(lacking sb [ln]).isEmpty then .need [ln]
  else
    let j := indexAt sb idx i
    let ip := (tget Answer.reset sb (ln / 64)).poison
    if !(lacking sb [src j]).isEmpty then .need [src j]
    else
      let (b, p) := gathered sb [src j]
      .write (wholeWrites (dst j) b (p || ip))

/-- R332: whether a line of a COPY's destination lies in its source range, where the result is undefined. -/
def Desc.copyOverlap (d : Desc) (a : Nat) : Bool :=
  decide (fld d.bytes 16 8 ≤ a) && decide (a < fld d.bytes 16 8 + fld d.bytes 32 8)

/-- The free draws that a unit of a descriptor uses: a stochastic conversion's, an overlapped line's bytes (R332), the
copy that lands where SCATTER names an index twice (R334). -/
def Desc.draws (d : Desc) : Nat :=
  match d.op with
  | 1 => 1
  | 3 => if fld d.bytes 42 1 = 2 then 2048 else 0
  | 5 => 1
  | _ => 0

/-- The lines that meet bytes [a, b). -/
def linesMeeting (a b : Nat) : List Nat := (List.range ((b + 63) / 64 - a / 64)).map fun k => 64 * (a / 64 + k)

/-- R333, R339: the lines of a unit of a CONVERT, from `a` on, that bytes [o, o + 64) of its output are computed from: the elements that the bytes
belong to, and for an MX format their blocks. -/
def convertFrom (src dst a o : Nat) : List Nat :=
  let lo := if isElemCode dst then o / fmtBytes dst else o / mxBytes dst * 32
  let hi := if isElemCode dst then (o + 63) / fmtBytes dst + 1 else ((o + 63) / mxBytes dst + 1) * 32
  if isElemCode src then linesMeeting (a + lo * fmtBytes src) (a + hi * fmtBytes src)
  else linesMeeting (a + lo / 32 * mxBytes src) (a + (hi + 31) / 32 * mxBytes src)

/-- R333: the writes of a unit of a CONVERT: its output `out` from `b` on, each line poisoned by the input lines it is computed from. -/
def convertWrites (src dst a b : Nat) (sb : Tab Answer) (l : List Nat) (out : Bytes) : List (Nat × W64 × Bytes × Bool) :=
  (List.range (out.length / 64)).map fun k =>
    (b + 64 * k, BitVec.allOnes 64, slice out (64 * k) 64,
      (convertFrom src dst a (64 * k)).any fun x => l.contains x && (tget Answer.reset sb (x / 64)).poison)

/-- R335: the places and indices that line k of an index list in the stream buffer gives. -/
def Desc.indices (d : Desc) (k : Nat) (sb : Tab Answer) : List (Nat × Nat) :=
  (List.range (min 16 (fld d.bytes 32 8 - 16 * k))).map fun i => (16 * k + i, indexAt sb (fld d.bytes 16 8) (16 * k + i))

/-- R335: whether indices are strictly ascending after the last one before them, and none lies below its place. -/
def ascending : Option Nat → List (Nat × Nat) → Bool
  | _, [] => true
  | last, (i, j) :: t => decide (i ≤ j) && (match last with | none => true | some x => decide (x < j)) && ascending (some j) t

/-- R332–R336: what the unit in hand of a run asks for, from the lines in the stream buffer; `free` is the first free draw. A COPY whose
destination overlaps its source from above goes from the top down. A DIGEST takes in a line a unit and writes in its last. A COMPACT checks its index list
a line a unit before its first move. Where SCATTER names an index again, the free draw tells whether the later copy lands. -/
def Run.plan (r : Run) (sb : Tab Answer) (order : List Nat) (free : Nat) : Plan :=
  let d := r.d
  let k := r.pos
  let f (i n : Nat) := fld d.bytes i n
  let w := 2 ^ (f 40 1 - 6)
  let elem (i j : Nat) : Nat := i + j * 2 ^ f 40 1
  match d.op with
  | 1 =>
    let i := if d.copyDown then f 32 8 / 64 - 1 - k else k
    let a := f 16 8 + 64 * i
    let b := f 24 8 + 64 * i
    if !(lacking sb [a]).isEmpty then .need [a]
    else
      let (x, p) := gathered sb [a]
      .write (wholeWrites b (if d.copyOverlap b then toLe 64 (Config.freeBits 512 free).toNat else x) p)
  | 2 => .write (wholeWrites (f 24 8 + 64 * k) (List.replicate 8 (slice d.bytes 40 8)).flatten false)
  | 3 =>
    let n := min 2048 (f 32 8 - 2048 * k)
    let a := f 16 8 + fmtSize (f 40 1) (2048 * k)
    let l := linesOf a (fmtSize (f 40 1) n)
    if !(lacking sb l).isEmpty then .need (lacking sb l)
    else
      let rnd := if f 42 1 = 0 then Rnd.rne else if f 42 1 = 1 then Rnd.rtz else Rnd.stoch
      .write (convertWrites (f 40 1) (f 41 1) a (f 24 8 + fmtSize (f 41 1) (2048 * k)) sb l
        (convertBytes (f 40 1) (f 41 1) n rnd free (gathered sb l).1))
  | 4 => elemPlan sb (f 16 8) (k / w) (fun j => elem (f 48 8) j + 64 * (k % w)) (fun _ => elem (f 24 8) (k / w) + 64 * (k % w))
  | 5 =>
    match elemPlan sb (f 16 8) (k / w) (fun _ => elem (f 24 8) (k / w) + 64 * (k % w)) (fun j => elem (f 48 8) j + 64 * (k % w)) with
    | .write l => if r.seen.contains (indexAt sb (f 16 8) (k / w)) ∧ Config.freeNat free % 2 = 0 then .write [] else .write l
    | x => x
  | 9 =>
    if k < d.idxLines then
      let ln := f 16 8 + 64 * k
      if !(lacking sb [ln]).isEmpty then .need [ln]
      else if ascending r.seen.head? (d.indices k sb) then .write [] else .stop .badDescriptor
    else
      let m := k - d.idxLines
      let i := m / w
      let ln := (f 16 8 + 4 * i) / 64 * 64
      if !(lacking sb [ln]).isEmpty then .need [ln]
      else if indexAt sb (f 16 8) i = i then .write []
      else elemPlan sb (f 16 8) i (fun j => elem (f 48 8) j + 64 * (m % w)) (fun _ => elem (f 48 8) i + 64 * (m % w))
  | 6 =>
    let n := f 48 2
    let src := (List.range n).map fun c => f 16 8 + c * f 40 8 + 64 * k
    let dst := f 24 8 + 64 * k
    let l := if (f 51 1).testBit 0 then src ++ [dst] else src
    if !(lacking sb l).isEmpty then .need (lacking sb l)
    else
      let cs := (arrivalOrder n order).map fun c => (gathered sb [f 16 8 + c * f 40 8 + 64 * k]).1
      let old := if (f 51 1).testBit 0 then some (gathered sb [dst]).1 else none
      .write (wholeWrites dst (reduceLine (f 50 1) cs old) (gathered sb l).2)
  | 8 =>
    let ln := f 16 8 + 64 * k
    if k < f 32 8 / 64 then (if !(lacking sb [ln]).isEmpty then .need [ln] else .write [])
    else .write [(f 24 8, lineMask 0 32, sm3Last r.dig (f 32 8) ++ List.replicate 32 0, r.pois)]
  | _ => .stop .badDescriptor

/-- A run after the unit in hand, whose lines are in the stream buffer: the digest so far (R332), the indices that a SCATTER has used (R334), the last
one that a COMPACT has checked (R335). -/
def Run.next (r : Run) (sb : Tab Answer) : Run :=
  let d := r.d
  let w := 2 ^ (fld d.bytes 40 1 - 6)
  { r with
    pos := r.pos + 1
    issued := false
    wrote := []
    dig := if d.op = 8 ∧ r.pos < fld d.bytes 32 8 / 64 then sm3Next r.dig (gathered sb [fld d.bytes 16 8 + 64 * r.pos]).1 else r.dig
    seen :=
      if d.op = 5 ∧ r.pos % w + 1 = w then r.seen ++ [indexAt sb (fld d.bytes 16 8) (r.pos / w)]
      else if d.op = 9 ∧ r.pos < d.idxLines then ((d.indices r.pos sb).getLast?.map (·.2)).toList
      else r.seen }

/-- The transfer rule of an operation: `arg` and `op` of its requests. -/
def Desc.rule (d : Desc) : Nat × Nat :=
  match d.op with
  | 3 => (1, 0)
  | 6 => (2, fld d.bytes 50 1)
  | _ => (0, 0)

/-! ### Running -/

/-- A run of an engine changed. -/
def State.setRun (s : State) (e : Nat) (r : Run) : State := s.setEng e { s.eng e with run := some r }

/-- R340: whether a run has come to where its outputs are written: not in pass A of a program, nor in the check of a COMPACT's list. -/
def Run.writes (r : Run) : Bool :=
  match r.d.op with
  | 7 => r.prog.any fun p => p.passB
  | 9 => decide (r.d.idxLines ≤ r.pos)
  | _ => true

/-- R339–R341: the run of an engine ends with a status and fault address, once nothing it issued is outstanding; POISONED ends a run all of whose
writes have been answered. -/
def State.endRun (s : State) (e : Nat) (st : Status) (va : Nat) : State :=
  match (s.eng e).run with
  | none => s
  | some r =>
    let full := if r.d.op = 7 then (fld r.d.bytes 32 8 + 255) / 256 else fld r.d.bytes 32 8
    let done := if st = .ok ∨ st = .poisoned then full else r.done
    s.setRun e { r with res := some ⟨st, r.writes && decide (done < full), done, va⟩ }

/-- R340, R341: the run of an engine ends by a check of its descriptor, before any output was written. -/
def State.endEarly (s : State) (e : Nat) (st : Status) (va : Nat) : State :=
  match (s.eng e).run with
  | none => s
  | some r => s.setRun e { r with res := some ⟨st, false, 0, va⟩ }

/-- R339: whether a fault has stopped the run of an engine. -/
def State.faulted (s : State) (e : Nat) : Bool := (s.eng e).run.any fun r => r.flt.isSome

/-- Requests for lines, one after the other, with the answers at hand taken in, up to a fault. -/
def State.readLines (s : State) (e : Nat) (arg op : Nat) (l : List Nat) : State :=
  l.foldl (fun s a =>
    if s.faulted e || (s.eng e).out.contains a then s
    else (s.issue e .rdOnce a [] 0 false arg op).absorb e ((s.eng e).ans.length + 1)) s

/-- The writes of a unit issued, up to a fault: a whole line as WR_LINE, else WR_PART. -/
def State.writeLines (s : State) (e : Nat) (arg op : Nat) (l : List (Nat × W64 × Bytes × Bool)) : State :=
  l.foldl (fun s (a, m, b, p) =>
    if s.faulted e then s
    else (s.issue e (if m = BitVec.allOnes 64 then .wrLine else .wrPart) a b m p arg op).absorb e ((s.eng e).ans.length + 1)) s

/-- The stream-buffer lines of finished unit k leave it; the line of the index list that the next unit uses stays (R318: the list itself may be
longer than the buffer). -/
def Desc.drop (d : Desc) (k : Nat) (sb : Tab Answer) : Tab Answer :=
  let keep (m : Nat) : Tab Answer :=
    sb.filter fun (a, _) => a == (fld d.bytes 16 8 + 4 * (m / 2 ^ (fld d.bytes 40 1 - 6))) / 64
  match d.op with
  | 4 | 5 => keep (k + 1)
  | 9 => if d.idxLines ≤ k then keep (k + 1 - d.idxLines) else []
  | _ => []

/-- One unit taken as far as the answers at hand allow; the second component tells whether it has ended. -/
def State.runUnit (s : State) (e : Nat) (order : List Nat) : State × Bool :=
  match (s.eng e).run with
  | none => (s, false)
  | some r =>
    let (arg, op) := r.d.rule
    let issueNow (s : State) : State :=
      match (s.eng e).run with
      | none => s
      | some r => match r.plan (s.eng e).sbuf order s.free with
        | .write ws =>
          (({ s with free := s.free + r.d.draws } : State).setRun e { r with issued := true }).writeLines e arg op ws
        | _ => s
    let rec reads (n : Nat) (s : State) : State :=
      match n with
      | 0 => s
      | n + 1 => match (s.eng e).run with
        | none => s
        | some r =>
          if r.flt.isSome then s
          else match r.plan (s.eng e).sbuf order s.free with
            | .need l =>
              let s1 := s.readLines e arg op l
              if (lacking (s1.eng e).sbuf l).isEmpty then reads n s1 else s1
            | _ => s
    let s1 := if r.issued then s else issueNow (reads 3 s)
    match (s1.eng e).run with
    | none => (s1, false)
    | some r1 =>
      if r1.flt.isSome then (s1, false)
      else match r1.issued, r1.plan (s1.eng e).sbuf order s1.free with
        | false, .stop st => (s1.endEarly e st 0, false)
        | false, _ => (s1, false)
        | true, _ =>
          if (s1.eng e).out.isEmpty then
            let x := s1.eng e
            (s1.setEng e { x with sbuf := r1.d.drop r1.pos x.sbuf, run := some (r1.next x.sbuf) }, true)
          else (s1, false)

/-- Units one after the other; `n` bounds their number. -/
def State.runUnits (s : State) (e : Nat) (order : List Nat) : Nat → State
  | 0 => s
  | n + 1 =>
    let (s1, more) := s.runUnit e order
    if more then s1.runUnits e order n else s1

/-- The descriptor of an engine worked on as far as the answers at hand allow, and ended when it has ended. -/
def State.runDesc (s : State) (e op : Nat) (order : List Nat) : State :=
  let x := s.eng e
  match x.run with
  | none => s
  | some r =>
    if x.st ≠ .running ∨ x.halted ∨ x.gated ∨ r.res.isSome ∨ r.d.op ≠ op then s
    else
      let early : Status :=
        if r.inq ∧ (fld r.d.bytes 1 1).testBit 1 then .badDescriptor else r.d.check
      if early ≠ .ok then s.endEarly e early 0
      else
        let s1 := s.runUnits e order (r.d.units - r.pos)
        match (s1.eng e).run with
        | none => s1
        | some r1 =>
          if r1.res.isSome then s1
          else match r1.flt with
            | some (st, va) => if (s1.eng e).out.isEmpty then s1.endRun e st va else s1
            | none => if r1.d.units ≤ r1.pos then s1.endRun e (if r1.pois then .poisoned else .ok) 0 else s1

/-- R332: COPY. -/
def execCopy (e : Nat) (s : State) : Host.Outcome State Fault Refusal := .next (s.runDesc e 1 [])
/-- R332: FILL. -/
def execFill (e : Nat) (s : State) : Host.Outcome State Fault Refusal := .next (s.runDesc e 2 [])
/-- R333: CONVERT. -/
def execConvert (e : Nat) (s : State) : Host.Outcome State Fault Refusal := .next (s.runDesc e 3 [])
/-- R334: GATHER. -/
def execGather (e : Nat) (s : State) : Host.Outcome State Fault Refusal := .next (s.runDesc e 4 [])
/-- R334: SCATTER. -/
def execScatter (e : Nat) (s : State) : Host.Outcome State Fault Refusal := .next (s.runDesc e 5 [])
/-- R336: REDUCE. -/
def execReduce (e : Nat) (order : List Nat) (s : State) : Host.Outcome State Fault Refusal := .next (s.runDesc e 6 order)
/-- R332: DIGEST. -/
def execDigest (e : Nat) (s : State) : Host.Outcome State Fault Refusal := .next (s.runDesc e 8 [])
/-- R335: COMPACT. -/
def execCompact (e : Nat) (s : State) : Host.Outcome State Fault Refusal := .next (s.runDesc e 9 [])

/-! ### The input queue (R354) -/

/-- R353, R354: an input-queue error. -/
def State.inqError (s : State) (e : Nat) : State :=
  let x := s.eng e
  s.setEng e { x with inqErr := sat x.inqErr, evstat := setBit x.evstat 1 }

/-- R318: what an engine does after a descriptor: it stays idle for a packet of its input queue, else it starts its staged
descriptor while that queue's partition is in RUN, or an earlier one of that queue which another engine has staged (R345). -/
def State.nextOn (s : State) (e : Nat) : State :=
  let x := s.eng e
  let idle := s.setEng e { x with st := .idle, run := none, sbuf := [], out := [] }
  if (takePacket (s.inqOf e).send).isSome then idle
  else match x.staged with
    | none => idle
    | some (q, d) =>
      let inRun : Bool := match s.queuePart q with | none => false | some p => decide ((s.part p).st = .run)
      let clear := s.setEng e { x with st := .idle, run := none, sbuf := [], out := [], staged := none }
      if inRun ∧ !s.engStop then (clear.startNext e q d).topUp q else clear.giveBack q d

/-- R354: the engine, its current descriptor ended, takes the oldest packet of its input queue: 16 words are a descriptor
that it runs; NOP and FENCE are refused; a packet of another length is dropped and counted; after either the engine goes on as after a
descriptor. The packet waits until the
receive side has room for its record (log 37). -/
def State.inqStart (s : State) (e : Nat) : State :=
  let x := s.eng e
  if s.inWarm ∨ x.run.isSome ∨ (x.st ≠ .idle ∧ x.st ≠ .running) ∨ x.gated ∨ x.halted ∨ 24 < (s.inqOf e).recv.length then s
  else match takePacket (s.inqOf e).send with
    | none => s
    | some (pk, rest) =>
      let s1 := s.setInq e { s.inqOf e with send := rest }
      if pk.length ≠ 16 then (s1.inqError e).nextOn e
      else
        let d : Desc := { bytes := pk.flatMap fun w => toLe 4 w.w.toNat }
        if d.op = 0 ∨ 0x0A ≤ d.op ∨ (fld d.bytes 1 1).testBit 1 then
          ((s1.inqRecord e ⟨.badDescriptor, false, 0, 0⟩ d).countEnd e .badDescriptor).nextOn e
        else s1.setEng e { x with st := .running, run := some { inq := true, d := d }, prog0 := s.clk, used := true }

def execInqDescriptorStart (e : Nat) (s : State) : Host.Outcome State Fault Refusal := .next (s.inqStart e)

end Sys2Proof.Machine
end

