-- ==== Sys2Proof/Machine/Programs.lean ====
section
/-! DEFINITION. Fox element-wise programs (R355–R382): the image, the argument block and their checks, the instruction
set, tiles and passes, and the end of a descriptor (R340–R343). -/

namespace Sys2Proof.Machine
open Sys2Proof

/-! ### Instruction words (R365–R368) -/

/-- R365: an instruction word's fields. -/
structure Ins where
  op : Nat
  d : Nat
  a : Nat
  b : Nat
  c : Nat
  sa : Bool
  sb : Bool
  sc : Bool
  fn : Nat
deriving DecidableEq, Repr

def insOf (w : W32) : Ins :=
  let n := w.toNat
  ⟨bitsOf n 26 6, bitsOf n 21 5, bitsOf n 16 5, bitsOf n 11 5, bitsOf n 6 5, n.testBit 5, n.testBit 4, n.testBit 3, n % 8⟩

/-- R368: how many of A, B, C an operation uses, whether it writes a register, and the values of fn it allows; none for a
reserved op. -/
def opShape (op : Nat) : Option (Nat × Bool × Nat) :=
  match op with
  | 0x01 | 0x02 | 0x08 | 0x10 | 0x11 => some (2, true, 1)
  | 0x03 => some (2, true, 5)
  | 0x04 => some (3, true, 5)
  | 0x09 | 0x0A | 0x0B | 0x0C | 0x12 | 0x13 => some (1, true, 1)
  | 0x14 => some (2, true, 6)
  | 0x15 | 0x16 => some (3, true, 1)
  | 0x18 | 0x19 => some (1, true, 5)
  | 0x1C | 0x1D | 0x1E => some (1, false, 4)
  | _ => none

/-- R366, R367: whether a source's field and sc bit are legal. -/
def srcOk (used passA : Bool) (x : Nat) (sc : Bool) : Bool :=
  if !used then x == 0 && !sc
  else if !sc then true
  else decide (x ≤ 0x18) && !(passA && decide (0x10 ≤ x) && decide (x ≤ 0x13))

/-- R366–R368, R380: whether an instruction word passes the load check in its pass. -/
def insOk (passA : Bool) (w : W32) : Bool :=
  let i := insOf w
  match opShape i.op with
  | none => false
  | some (n, wr, fns) =>
    srcOk (decide (1 ≤ n)) passA i.a i.sa && srcOk (decide (2 ≤ n)) passA i.b i.sb && srcOk (decide (3 ≤ n)) passA i.c i.sc &&
      (wr || i.d == 0) && decide (i.fn < fns)

/-! ### The image, the arguments and their checks (R359–R363, R381) -/

/-- R360: stream entries 0–7 of the inputs, 8–11 of the outputs, 12 of acc_out. -/
def argEntry (args : Bytes) (k : Nat) : Nat := fld args (8 * k) 8
def entAddr (n : Nat) : Nat := bitsOf n 6 51 * 64
def entRnd (n : Nat) : Nat := bitsOf n 4 2
def entValid (n : Nat) : Bool := n.testBit 3
def entFmt (n : Nat) : Nat := n % 8

/-- R362: whether the stream entries of an argument block match an image header's masks. -/
def argsMatch (args : Bytes) (inA inB outM : Byte) : Bool :=
  ((List.range 8).all fun i => entValid (argEntry args i) == (inA ||| inB).getLsbD i) &&
    (List.range 4).all fun j => entValid (argEntry args (8 + j)) == outM.getLsbD j

/-- R360, R361: whether an argument block is in order whatever the image. -/
def argsOk (args : Bytes) : Bool :=
  let z (i n : Nat) : Bool := fld args i n == 0
  let ent (k : Nat) : Bool := argEntry args k / 2 ^ 57 == 0
  let inOk (i : Nat) : Bool :=
    let n := argEntry args i
    !entValid n || (decide (entFmt n ≤ 4) && entRnd n == 0)
  let outOk (j : Nat) : Bool :=
    let n := argEntry args (8 + j)
    !entValid n || (decide (entFmt n ≤ 4) && decide (entRnd n ≤ 2))
  let accOk : Bool :=
    let n := argEntry args 12
    !entValid n || (entFmt n == 0 && entRnd n == 0)
  z 104 24 && z 192 64 && (List.range 13).all ent && (List.range 8).all inOk && (List.range 4).all outOk && accOk

/-- R359, R380: whether an image header is in order. -/
def headerOk (h : Bytes) (twoPass : Bool) : Bool :=
  let a := fld h 5 1
  let b := fld h 6 1
  fld h 0 4 == 0xF0C57213 && fld h 4 1 == 1 && decide (a ≤ 63) && decide (1 ≤ b) && decide (b ≤ 64) &&
    decide (a + b ≤ 64) && fld h 9 1 / 16 == 0 && fld h 10 54 == 0 && !(twoPass && a == 0)

/-- R337: the fields of a PROGRAM descriptor. -/
def Desc.prog (d : Desc) : Nat := fld d.bytes 16 8
def Desc.args (d : Desc) : Nat := fld d.bytes 24 8
def Desc.count (d : Desc) : Nat := fld d.bytes 32 8
def Desc.pflags (d : Desc) : Nat := fld d.bytes 40 8

/-- R363, R381: the checks of the descriptor's own fields. -/
def Desc.progCheck (d : Desc) : Status :=
  Status.first [d.ctrStatus,
    if d.prog % 64 = 0 ∧ d.args % 64 = 0 ∧ d.count % 64 = 0 then .ok else .alignFault,
    if d.count ≤ 2 ^ 38 ∧ d.pflags < 2 then .ok else .badDescriptor]

/-- R49: of two failures with their addresses, the one that is reported. -/
def worseAt (a b : Status × Nat) : Status × Nat := if a.1.rank ≤ b.1.rank then a else b

/-- R361: bytes of a stream of `count` elements. -/
def streamBytes (n count : Nat) : Nat := count * fmtBytes (entFmt n)

/-- R359, R364, R377, R381: what the page that holds an address gives a stream or the acc_out line. -/
def State.pageFor (s : State) (asid : BitVec 16) (ty : ReqTy) (ok : Leaf → Bool) (va : Nat) : Status × Nat :=
  if 2 ^ 57 ≤ va then (.xlateFault, va)
  else match s.walkFor asid va with
    | .error e => (e, va)
    | .ok x =>
      match s.leafStatus .eng ty 0 x.leaf [] with
      | .ok => (if ok x.leaf then .ok else .formatFault, va)
      | st => (st, va)

/-- The addresses at which a range meets its 2 MiB pages. -/
def pagesOf (a n : Nat) : List Nat :=
  if n = 0 then [] else (List.range ((a + n - 1) / mib2 - a / mib2 + 1)).map fun k => max a (mib2 * (a / mib2 + k))

/-- R381: the failures of the pages of streams and acc_out. -/
def State.pageFaults (s : State) (asid : BitVec 16) (args : Bytes) (count : Nat) : Status × Nat :=
  let one (k : Nat) (ty : ReqTy) : List (Status × Nat) :=
    let n := argEntry args k
    if entValid n then
      (pagesOf (entAddr n) (streamBytes n count)).map (s.pageFor asid ty fun l => l.view.toNat == entFmt n)
    else []
  let acc : List (Status × Nat) :=
    let n := argEntry args 12
    if entValid n then [s.pageFor asid .wrLine (fun l => l.view == 0 && l.stor == 0) (entAddr n)] else []
  (((List.range 8).flatMap fun i => one i .rdOnce) ++ ((List.range 4).flatMap fun j => one (8 + j) .wrLine) ++ acc).foldl
    worseAt (.ok, 0)

/-- The image words. -/
def imageWords (img : Bytes) : List W32 := (List.range 64).map fun k => BitVec.ofNat 32 (fld img (64 + 4 * k) 4)

/-- R381: the failures of an image: its header, or its first offending word. -/
def imageFault (base : Nat) (img : Bytes) (twoPass : Bool) : Status × Nat :=
  if !headerOk img twoPass then (.programFault, base)
  else
    let a := fld img 5 1
    let n := a + fld img 6 1
    match (List.range n).find? fun k => !insOk (decide (k < a)) ((imageWords img).getD k 0) with
    | none => (.ok, 0)
    | some k => (.programFault, base + 64 + 4 * k)

/-- R356, R357, R380: the program state before its first tile. -/
def Prog.load (d : Desc) (img args : Bytes) : Prog where
  passB := !d.pflags.testBit 0
  lenA := fld img 5 1
  lenB := fld img 6 1
  inA := BitVec.ofNat 8 (fld img 7 1)
  inB := BitVec.ofNat 8 (fld img 8 1)
  outM := BitVec.ofNat 8 (fld img 9 1)
  twoPass := d.pflags.testBit 0
  count := d.count
  store := imageWords img
  args := args

/-- Whether an engine works on a PROGRAM descriptor that has not ended. -/
def Engine.onProgram (x : Engine) (r : Run) : Bool :=
  x.st == .running && !x.halted && !x.gated && r.res.isNone && r.d.op == 7

/-- R339: a run that a fault has stopped ends once its issued transfers are answered. -/
def State.faultEnds (s : State) (e : Nat) (extra : Status × Nat) : State :=
  match (s.eng e).run with
  | none => s
  | some r => match r.flt with
    | none => s
    | some (st, va) =>
      if (s.eng e).out.isEmpty then
        let (w, a) := worseAt extra (st, va)
        if r.prog.isNone then s.endEarly e w a else s.endRun e w a
      else s

/-- R49, R381: what the checks of a PROGRAM descriptor give for as much of the argument block and the image as the engine has read: the
descriptor's own fields, the argument block, the pages of its streams and the image, the first of them under R49. -/
def State.progChecks (s : State) (e : Nat) (r : Run) : Status × Nat :=
  let d := r.d
  let sb := (s.eng e).sbuf
  let got (al : Bool) (l : List Nat) : Bool := al && (lacking sb l).isEmpty
  let h := (gathered sb [d.prog]).1
  let hdr := got (d.prog % 64 == 0) [d.prog]
  let rest := linesOf (d.prog + 64) (4 * min 64 (fld h 5 1 + fld h 6 1))
  let args := (gathered sb (linesOf d.args 256)).1
  let read := got (d.args % 64 == 0) (linesOf d.args 256)
  let masks := argsMatch args (BitVec.ofNat 8 (fld h 7 1)) (BitVec.ofNat 8 (fld h 8 1)) (BitVec.ofNat 8 (fld h 9 1))
  let argSt : Status := if read && !(argsOk args && (!hdr || masks)) then .badDescriptor else .ok
  let pages : Status × Nat :=
    if !read || r.inq then (.ok, 0)
    else match (s.queue r.q).cfg with
      | none => (.ok, 0)
      | some c => s.pageFaults c.asid args (min (2 ^ 38) d.count)
  let image := if hdr && got true rest then imageFault d.prog (gathered sb (d.prog :: rest)).1 (d.pflags.testBit 0) else (.ok, 0)
  worseAt (worseAt (d.progCheck, 0) (argSt, 0)) (worseAt pages image)

/-- R359, R381: an engine loads and checks its program: the header and the argument block, then the rest of the image,
then the checks; where prog or args is not aligned it reads the other one alone. A count of zero completes with no transfer (R331).
Poisoned words or arguments poison every output (R339). -/
def State.loadProgram (s : State) (e : Nat) : State :=
  match (s.eng e).run with
  | none => s
  | some r =>
    if !(s.eng e).onProgram r || r.prog.isSome then s
    else if r.d.progCheck = .ok ∧ r.d.count = 0 then s.endEarly e .ok 0
    else
      let d := r.d
      let first := (if d.prog % 64 = 0 then [d.prog] else []) ++ (if d.args % 64 = 0 then linesOf d.args 256 else [])
      let s1 := if r.flt.isSome then s else s.readLines e 1 0 (lacking (s.eng e).sbuf first)
      let sb1 := (s1.eng e).sbuf
      if !(lacking sb1 first).isEmpty then s1.faultEnds e (s1.progChecks e r)
      else
        let h := (gathered sb1 [d.prog]).1
        let rest := if d.prog % 64 = 0 then linesOf (d.prog + 64) (4 * min 64 (fld h 5 1 + fld h 6 1)) else []
        let s2 := s1.readLines e 1 0 (lacking sb1 rest)
        let sb2 := (s2.eng e).sbuf
        if !(lacking sb2 rest).isEmpty then s2.faultEnds e (s2.progChecks e r)
        else match (s2.eng e).run with
          | none => s2
          | some r2 =>
            let img := (gathered sb2 (d.prog :: rest)).1
            let args := (gathered sb2 (linesOf d.args 256)).1
            let pois := (gathered sb2 (d.prog :: rest ++ linesOf d.args 256)).2
            let (st, va) := s2.progChecks e r2
            if st ≠ .ok then s2.endEarly e st va
            else s2.setEng e { s2.eng e with
              sbuf := [], prog0 := s.clk, run := some { r2 with prog := some { Prog.load d img args with rPois := pois }, issued := false } }

/-- R337, R381: PROGRAM. -/
def execProgram (e : Nat) (s : State) : Host.Outcome State Fault Refusal := .next (s.loadProgram e)

/-! ### Tiles (R355–R358) -/

def Prog.tiles (p : Prog) : Nat := (p.count + 255) / 256
def Prog.inMask (p : Prog) : Byte := if p.passB then p.inB else p.inA
def Prog.lanes (p : Prog) : Nat := min 256 (p.count - 256 * p.tile)
def Prog.len (p : Prog) : Nat := if p.passB then p.lenB else p.lenA

/-- The lines of the tile of stream entry k. -/
def Prog.linesAt (p : Prog) (k : Nat) : List Nat :=
  let n := argEntry p.args k
  let w := fmtBytes (entFmt n)
  linesOf (entAddr n + 256 * p.tile * w) (p.lanes * w)

/-- R357, R377: a vector register loaded from a tile's bytes. -/
def loadReg (fmt n : Nat) (bs : Bytes) : List W32 :=
  (elems (fmtBytes fmt) n bs).map (fun x =>
    BitVec.ofNat 32 (if fmt = 0 then x else fFP32.encode .rne ((elemFmt fmt).decode x))) ++ List.replicate (256 - n) 0

/-- R357: a tile starts: the masked inputs are loaded, every other register holds +0.0. -/
def State.tileStart (s : State) (e : Nat) : State :=
  match (s.eng e).run with
  | none => s
  | some r => match r.prog with
    | none => s
    | some p =>
      if !(s.eng e).onProgram r || p.inTile || decide (p.tiles ≤ p.tile) then s
      else if r.flt.isSome then s.faultEnds e (.ok, 0)
      else
        let ins := lowBits 8 p.inMask.toNat
        let s1 := ins.foldl (fun s i => s.readLines e 3 (entFmt (argEntry p.args i)) (lacking (s.eng e).sbuf (p.linesAt i))) s
        let sb := (s1.eng e).sbuf
        if ins.any fun i => !(lacking sb (p.linesAt i)).isEmpty then s1.faultEnds e (.ok, 0)
        else match (s1.eng e).run with
          | none => s1
          | some r1 =>
            let regs : Tab (List W32) :=
              ins.map fun i => (i, loadReg (entFmt (argEntry p.args i)) p.lanes (gathered sb (p.linesAt i)).1)
            let pois := ins.any fun i => (gathered sb (p.linesAt i)).2
            s1.setRun e { r1 with prog := some { p with v := regs, pc := 0, inTile := true, tilePois := pois } }

def execTileStart (e : Nat) (s : State) : Host.Outcome State Fault Refusal := .next (s.tileStart e)

/-- R378: whether a line of stream entry k (12: acc_out) lies in an overlap that gives an undefined result: with another
stream that is not an input of the same address and format, or with acc_out. -/
def Prog.overlapped (p : Prog) (k a : Nat) : Bool :=
  let me := argEntry p.args k
  (List.range 13).any fun j =>
    let n := argEntry p.args j
    let len := if j = 12 then 64 else streamBytes n p.count
    let same := decide (j < 8) && decide (k < 12) && entAddr n == entAddr me && entFmt n == entFmt me
    j != k && entValid n && !same && decide (entAddr n < a + 64) && decide (a < entAddr n + len)

/-- A line as written: free where R378 leaves it undefined. -/
def Prog.written (p : Prog) (k a free : Nat) (bs : Bytes) : Bytes :=
  if p.overlapped k a then toLe 64 (Config.freeBits 512 free).toNat else bs

/-- R357, R377, R382: the writes of output j of a tile. -/
def Prog.outWrites (p : Prog) (j free : Nat) : List (Nat × W64 × Bytes × Bool) :=
  let n := argEntry p.args (8 + j)
  let f := entFmt n
  let rnd := if entRnd n = 0 then Rnd.rne else if entRnd n = 1 then Rnd.rtz else Rnd.stoch
  let bs := (((tget [] p.v (28 + j)).take p.lanes).zipIdx.map fun (x, i) =>
    toLe (fmtBytes f) ((elemFmt f).encode (rmode rnd (free + 256 * j) i) (fFP32.decode x.toNat))).flatten
  let full := slice bs 0 (p.lanes * fmtBytes f)
  (wholeWrites (entAddr n + 256 * p.tile * fmtBytes f) full (p.tilePois || p.rPois)).zipIdx.map fun ((a, m, b, q), i) =>
    (a, m, p.written (8 + j) a (free + 1024 + 16 * j + i) b, q)

/-- R355, R380: the pass moves to its next tile, and after the last tile of pass A to pass B. -/
def Prog.nextTile (p : Prog) : Prog :=
  let q := { p with tile := p.tile + 1, pc := 0, inTile := false, v := [], tilePois := false }
  if p.passB ∨ p.tile + 1 < p.tiles then q
  else { q with passB := true, tile := 0, rr := p.acc, acc := [0, 0, 0, 0], rPois := p.rPois || p.accPois.any id
                accPois := [false, false, false, false] }

/-- R357: a tile ends: in pass B its outputs are written; once they are answered the pass goes on. -/
def State.tileEnd (s : State) (e : Nat) : State :=
  match (s.eng e).run with
  | none => s
  | some r => match r.prog with
    | none => s
    | some p =>
      if !(s.eng e).onProgram r || !p.inTile || decide (p.pc < p.len) then s
      else
        let outs := if p.passB then lowBits 4 p.outM.toNat else []
        let s1 : State :=
          if r.issued ∨ r.flt.isSome then s
          else
            let s0 := ({ s with free := if outs.isEmpty then s.free else s.free + 2048 } : State).setRun e { r with issued := true }
            outs.foldl (fun x j => x.writeLines e 3 (entFmt (argEntry p.args (8 + j))) (p.outWrites j s.free)) s0
        match (s1.eng e).run with
        | none => s1
        | some r1 =>
          if r1.flt.isSome then s1.faultEnds e (.ok, 0)
          else if (s1.eng e).out.isEmpty then
            s1.setEng e { s1.eng e with sbuf := [], prog0 := s.clk, run := some { r1 with prog := some p.nextTile, issued := false } }
          else s1

def execTileEnd (e : Nat) (s : State) : Host.Outcome State Fault Refusal := .next (s.tileEnd e)

/-! ### Arithmetic (R369–R374); operands and results are FP32 codes -/

def num (x : Nat) : Num := fFP32.decode x
def cod (n : Num) : Nat := fFP32.encode .rne n
/-- R369: the default NaN. -/
def fNaN : Nat := 0x7FC00000
/-- R369: every NaN result is the default NaN. -/
def canon (x : Nat) : Nat := if (num x).isNan then fNaN else x

def fAdd (a b : Nat) : Nat := cod ((num a).add (num b))
def fSub (a b : Nat) : Nat := cod ((num a).add (num b).neg)
/-- R370: an operand rounded into the narrow mode's format. -/
def narrow (fn x : Nat) : Num := if fn = 0 then num x else (elemFmt fn).decode ((elemFmt fn).encode .rne (num x))
def fMul (fn a b : Nat) : Nat := cod ((narrow fn a).mul (narrow fn b))
def fFma (fn a b c : Nat) : Nat := cod (((narrow fn a).mul (narrow fn b)).add (num c))

/-- The value of a magnitude code as if the exponent range had no upper limit: mantissa and exponent. -/
def magVal (n : Nat) : Nat × Int :=
  if n < 2 ^ 23 then (n, -149) else (2 ^ 23 + n % 2 ^ 23, (n / 2 ^ 23 : Int) - 150)

/-- R371: an approximation of (−1)^neg × m × 2^e (m not 0): the code `off` steps from the nearest one where that lies
within k units in the last place, else the nearest. Below 2^-126 it is a zero, beyond the range an infinity. -/
def approx (k : Nat) (off : Int) (neg : Bool) (m : Nat) (e : Int) : Nat :=
  let c := (fFP32.magCode .rne m e).1
  let n := ((c : Int) + off).toNat
  let (nm, ne) := magVal n
  let u := max ((Nat.log2 m : Int) + e - 23) (-149)
  let q := min (min ne e) u
  let dist : Int := (nm * 2 ^ (ne - q).toNat : Nat) - (m * 2 ^ (e - q).toNat : Nat)
  let r := if 0 ≤ (c : Int) + off ∧ dist.natAbs ≤ k * 2 ^ (u - q).toNat then n else c
  let sgn := if neg then 2 ^ 31 else 0
  if r < 2 ^ 23 then sgn else if fFP32.maxCode < r then 0x7F800000 + sgn else sgn + r

/-- R371: a zero in place of a result below 2^-126. -/
def flush (x : Nat) : Nat := if x % 2 ^ 31 < 2 ^ 23 then x / 2 ^ 31 * 2 ^ 31 else x

/-- R371: DIV. The quotient of an infinity and a zero, which the table leaves out, is free, but a NaN is the default NaN (R369) and a result
below 2^-126 a zero of its sign. -/
def fDiv (a b : Nat) : Nat :=
  let off := Config.ulpOff 0 (BitVec.ofNat 32 a) (BitVec.ofNat 32 b)
  match num a, num b with
  | .nan, _ => fNaN
  | _, .nan => fNaN
  | .inf _, .inf _ => fNaN
  | .inf x, .fin y m _ => if m = 0 then flush (canon (Config.divOpen (BitVec.ofNat 32 a) (BitVec.ofNat 32 b)).toNat) else fFP32.infCode (x != y)
  | .fin x _ _, .inf y => fFP32.signCode (x != y)
  | .fin x m e, .fin y n f =>
    if n = 0 then (if m = 0 then fNaN else fFP32.infCode (x != y))
    else if m = 0 then fFP32.signCode (x != y)
    else
      let t := 2 ^ 64 * m
      approx 2 off (x != y) (2 * (t / n) + (if t % n = 0 then 0 else 1)) (e - f - 65)

/-- The square root of m × 2^e: mantissa with a lowest bit that tells an inexact one, and exponent. -/
def rootOf (m : Nat) (e : Int) : Nat × Int :=
  let odd := e % 2 != 0
  let t := m * 2 ^ (if odd then 81 else 80)
  let r := Nat.sqrt t
  (2 * r + (if r * r = t then 0 else 1), (if odd then e - 81 else e - 80) / 2 - 1)

/-- R371: SQRT. -/
def fSqrt (a : Nat) : Nat :=
  match num a with
  | .nan => fNaN
  | .inf x => if x then fNaN else 0x7F800000
  | .fin x m e =>
    if m = 0 then fFP32.signCode x
    else if x then fNaN
    else
      let (r, f) := rootOf m e
      approx 1 (Config.ulpOff 2 (BitVec.ofNat 32 a) 0) false r f

/-- R371: RSQRT: the square root of a quotient of 1 taken to 128 places, which is inexact unless the quotient is exact. -/
def fRsqrt (a : Nat) : Nat :=
  match num a with
  | .nan => fNaN
  | .inf x => if x then fNaN else 0
  | .fin x m e =>
    if m = 0 then fFP32.infCode x
    else if x then fNaN
    else
      let (r, f) := rootOf (2 ^ 128 / m) (-e - 128)
      approx 2 (Config.ulpOff 1 (BitVec.ofNat 32 a) 0) false (if 2 ^ 128 % m = 0 then r else 2 * (r / 2) + 1) f

/-- Fixed-point numbers of 128 fraction bits: the product of `y` and of 2^(2^-k) over the bits of `f`, of which bit n − 1 is
worth one half; `c` is 2^(2^-1), and each next factor is the square root of the last. -/
def powFrac : Nat → Nat → Nat → Nat → Nat
  | 0, _, _, y => y
  | n + 1, c, f, y => powFrac n (Nat.sqrt (2 ^ 128 * c)) f (if f.testBit n then y * c / 2 ^ 128 else y)

/-- 2 to the power (−1)^neg × m × 2^e, with a lowest bit that tells an inexact one, and its exponent (R371). -/
def powOf (neg : Bool) (m : Nat) (e : Int) : Nat × Int :=
  let t := m * 2 ^ (e + 149).toNat
  let x : Int := if neg then -(t : Int) else (t : Int)
  let n := x / 2 ^ 149
  let f := (x % 2 ^ 149).toNat
  if f = 0 then (1, n) else (2 * powFrac 149 (Nat.sqrt (2 ^ 257)) f (2 ^ 128) + 1, n - 129)

/-- R371: EXP2. -/
def fExp2 (a : Nat) : Nat :=
  match num a with
  | .nan => fNaN
  | .inf x => if x then 0 else 0x7F800000
  | .fin x m e =>
    if !(num a).lt (.fin false 128 0) then 0x7F800000
    else if (num a).lt (.fin true 126 0) then 0
    else
      let (r, f) := powOf x m e
      approx 2 (Config.ulpOff 3 (BitVec.ofNat 32 a) 0) false r f

/-- The first n binary digits of the logarithm to base 2 of y, from 1 up to 2 in fixed point of 256 fraction bits. -/
def logFrac : Nat → Nat → Nat → Nat
  | 0, _, r => r
  | n + 1, y, r =>
    let z := y * y / 2 ^ 256
    if 2 ^ 257 ≤ z then logFrac n (z / 2) (2 * r + 1) else logFrac n z (2 * r)

/-- The logarithm to base 2 of m × 2^e (m not 0), in steps of 2^-97: exact for a power of two, else the odd number of steps
between the two neighbours it lies between (R371). -/
def logOf (m : Nat) (e : Int) : Int :=
  let k := Nat.log2 m
  let l : Int := 2 * (((k : Int) + e) * 2 ^ 96 + (logFrac 96 (2 ^ 256 * m / 2 ^ k) 0 : Nat))
  if m = 2 ^ k then l else l + 1

/-- Whether a code lies within 2^-22 of v × 2^-97. -/
def nearLog (r : Nat) (v : Int) : Bool :=
  match num r with
  | .fin x m e =>
    let t : Int := m * 2 ^ (e + 149).toNat
    decide (((if x then -t else t) - v * 2 ^ 52).natAbs ≤ 2 ^ 127)
  | _ => false

/-- R371: LOG2: from 0.5 to 2 any value within 2^-22, elsewhere within 2 units in the last place. -/
def fLog2 (a : Nat) : Nat :=
  match num a with
  | .nan => fNaN
  | .inf x => if x then fNaN else 0x7F800000
  | .fin x m e =>
    if m = 0 then 0xFF800000
    else if x then fNaN
    else if a = 0x3F800000 then 0
    else
      let v := logOf m e
      let near := approx 0 0 (decide (v < 0)) v.natAbs (-97)
      if 0x3F000000 ≤ a ∧ a ≤ 0x40000000 then
        let r := (Config.log2 (BitVec.ofNat 32 a)).toNat
        if nearLog r v then flush r else near
      else approx 2 (Config.ulpOff 4 (BitVec.ofNat 32 a) 0) (decide (v < 0)) v.natAbs (-97)

/-- R372: the order of MIN and MAX, with −0.0 below +0.0: whether a is below b, neither a NaN. -/
def below (a b : Nat) : Bool :=
  if (num a).isZero && (num b).isZero then a.testBit 31 && !b.testBit 31 else (num a).lt (num b)

/-- R372: MIN and MAX. -/
def fMin (a b : Nat) : Nat :=
  if (num a).isNan then canon b else if (num b).isNan then a else if below b a then b else a
def fMax (a b : Nat) : Nat :=
  if (num a).isNan then canon b else if (num b).isNan then a else if below a b then b else a
/-- R368, R372: ABS, SIGN, CLAMP and SEL. -/
def fAbs (a : Nat) : Nat := canon (a % 2 ^ 31)
def fSign (a : Nat) : Nat :=
  if (num a).isNan then fNaN else if (num a).isZero then 0 else if a.testBit 31 then 0xBF800000 else 0x3F800000
def fClamp (a b c : Nat) : Nat := fMin (fMax a b) c
def fSel (a b c : Nat) : Nat := if (num a).isZero then canon c else canon b

/-- R373: the relation that fn selects. -/
def relHolds (fn a b : Nat) : Bool :=
  let x := num a
  let y := num b
  if x.isNan || y.isNan then fn == 1
  else
    let lt := x.lt y
    let gt := y.lt x
    match fn with
    | 0 => !lt && !gt
    | 1 => lt || gt
    | 2 => lt
    | 3 => !gt
    | 4 => gt
    | _ => !lt
def fCmp (fn a b : Nat) : Nat := if relHolds fn a b then 0x3F800000 else 0

/-- R374: A rounded into a format and returned in FP32. -/
def fCvt (fn : Nat) (md : RMode) (a : Nat) : Nat :=
  if fn = 0 then canon a else cod ((elemFmt fn).decode ((elemFmt fn).encode md (num a)))

/-! ### Instructions -/

/-- R366: the value of a scalar selector. -/
def Prog.scalar (p : Prog) (x : Nat) : Nat :=
  if x < 0x10 then fld p.args (128 + 4 * x) 4
  else if x < 0x14 then (p.rr.getD (x - 0x10) 0).toNat
  else match x with
    | 0x15 => 0x3F800000
    | 0x16 => 0xBF800000
    | 0x17 => 0x3F000000
    | 0x18 => 0x40000000
    | _ => 0

/-- R366: lane k of a source. -/
def Prog.src (p : Prog) (x : Nat) (sc : Bool) (k : Nat) : Nat :=
  if sc then p.scalar x else ((tget [] p.v x).getD k 0).toNat

/-- The next instruction of the pass. -/
def Prog.next (p : Prog) : Ins := insOf (p.store.getD (if p.passB then p.lenA + p.pc else p.pc) 0)

/-- The program of an engine whose next instruction is an `op`. -/
def State.atIns (s : State) (e op : Nat) : Option (Run × Prog) :=
  match (s.eng e).run with
  | none => none
  | some r => match r.prog with
    | none => none
    | some p =>
      if (s.eng e).onProgram r && p.inTile && decide (p.pc < p.len) && p.next.op == op then some (r, p) else none

/-- R358: a lane-wise instruction: `f` gives a lane's result from fn, A, B, C and the lane; it takes `draws` free values. -/
def State.laneIns (s : State) (e op draws : Nat) (f : Nat → Nat → Nat → Nat → Nat → Nat) : State :=
  match s.atIns e op with
  | none => s
  | some (r, p) =>
    let i := p.next
    let res := (List.range 256).map fun k => BitVec.ofNat 32 (f i.fn (p.src i.a i.sa k) (p.src i.b i.sb k) (p.src i.c i.sc k) k)
    ({ s with free := s.free + draws } : State).setRun e { r with prog := some { p with v := tput p.v i.d res, pc := p.pc + 1 } }

/-- R376, R382: a reduction: `f` gives the accumulator's new value from its old one and the active lanes of A. -/
def State.accIns (s : State) (e op : Nat) (f : Nat → List Nat → Nat) : State :=
  match s.atIns e op with
  | none => s
  | some (r, p) =>
    let i := p.next
    let ls := (List.range p.lanes).map fun k => p.src i.a i.sa k
    let n := i.fn % 4
    let old := (p.acc.getD n 0).toNat
    let new := if ls.any fun x => (num x).isNan then fNaN else f old ls
    s.setRun e { r with prog := some { p with
      acc := p.acc.set n (BitVec.ofNat 32 new), pc := p.pc + 1
      accPois := if p.tilePois || p.rPois then p.accPois.set n true else p.accPois } }

/-- R376: one level of the pairwise tree. -/
def pairUp : List Nat → List Nat
  | a :: b :: t => fAdd a b :: pairUp t
  | l => l

/-- R376: the fixed pairwise tree; its order is free (log 9). -/
def treeSum (ls : List Nat) : Nat :=
  let l := (arrivalOrder ls.length (Config.treeOrder ls.length)).map fun k => ls.getD k 0
  ((List.range 8).foldl (fun l _ => pairUp l) l).headD 0

/-- R376: RMAXA, exact; a NaN stays. -/
def maxMag (old : Nat) (ls : List Nat) : Nat :=
  if (num old).isNan then old else ls.foldl (fun a x => fMax a (fAbs x)) old

def execAdd (e : Nat) (s : State) : Host.Outcome State Fault Refusal :=
  .next (s.laneIns e 0x01 0 fun _ a b _ _ => fAdd a b)
def execSub (e : Nat) (s : State) : Host.Outcome State Fault Refusal :=
  .next (s.laneIns e 0x02 0 fun _ a b _ _ => fSub a b)
def execMul (e : Nat) (s : State) : Host.Outcome State Fault Refusal :=
  .next (s.laneIns e 0x03 0 fun fn a b _ _ => fMul fn a b)
def execFma (e : Nat) (s : State) : Host.Outcome State Fault Refusal :=
  .next (s.laneIns e 0x04 0 fun fn a b c _ => fFma fn a b c)
def execDiv (e : Nat) (s : State) : Host.Outcome State Fault Refusal :=
  .next (s.laneIns e 0x08 0 fun _ a b _ _ => fDiv a b)
def execRsqrt (e : Nat) (s : State) : Host.Outcome State Fault Refusal :=
  .next (s.laneIns e 0x09 0 fun _ a _ _ _ => fRsqrt a)
def execSqrt (e : Nat) (s : State) : Host.Outcome State Fault Refusal :=
  .next (s.laneIns e 0x0A 0 fun _ a _ _ _ => fSqrt a)
def execExp2 (e : Nat) (s : State) : Host.Outcome State Fault Refusal :=
  .next (s.laneIns e 0x0B 0 fun _ a _ _ _ => fExp2 a)
def execLog2 (e : Nat) (s : State) : Host.Outcome State Fault Refusal :=
  .next (s.laneIns e 0x0C 0 fun _ a _ _ _ => fLog2 a)
def execMin (e : Nat) (s : State) : Host.Outcome State Fault Refusal :=
  .next (s.laneIns e 0x10 0 fun _ a b _ _ => fMin a b)
def execMax (e : Nat) (s : State) : Host.Outcome State Fault Refusal :=
  .next (s.laneIns e 0x11 0 fun _ a b _ _ => fMax a b)
def execAbs (e : Nat) (s : State) : Host.Outcome State Fault Refusal :=
  .next (s.laneIns e 0x12 0 fun _ a _ _ _ => fAbs a)
def execSign (e : Nat) (s : State) : Host.Outcome State Fault Refusal :=
  .next (s.laneIns e 0x13 0 fun _ a _ _ _ => fSign a)
def execCmp (e : Nat) (s : State) : Host.Outcome State Fault Refusal :=
  .next (s.laneIns e 0x14 0 fun fn a b _ _ => fCmp fn a b)
def execSel (e : Nat) (s : State) : Host.Outcome State Fault Refusal :=
  .next (s.laneIns e 0x15 0 fun _ a b c _ => fSel a b c)
def execClamp (e : Nat) (s : State) : Host.Outcome State Fault Refusal :=
  .next (s.laneIns e 0x16 0 fun _ a b c _ => fClamp a b c)
def execCvt (e : Nat) (s : State) : Host.Outcome State Fault Refusal :=
  .next (s.laneIns e 0x18 0 fun fn a _ _ _ => fCvt fn .rne a)
/-- R374, R375: each lane takes a fresh draw. -/
def execSrnd (e : Nat) (s : State) : Host.Outcome State Fault Refusal :=
  .next (s.laneIns e 0x19 256 fun fn a _ _ k => fCvt fn (rmode .stoch s.free k) a)
def execRsum (e : Nat) (s : State) : Host.Outcome State Fault Refusal :=
  .next (s.accIns e 0x1C fun old ls => fAdd old (treeSum ls))
def execRssq (e : Nat) (s : State) : Host.Outcome State Fault Refusal :=
  .next (s.accIns e 0x1D fun old ls => fAdd old (treeSum (ls.map fun x => fMul 0 x x)))
def execRmaxa (e : Nat) (s : State) : Host.Outcome State Fault Refusal := .next (s.accIns e 0x1E maxMag)

/-! ### The end of a descriptor -/

/-- R364, R382: the acc_out line of a program that has run its last tile. -/
def Prog.accLine (p : Prog) (free : Nat) : Nat × W64 × Bytes × Bool :=
  let a := entAddr (argEntry p.args 12)
  (a, BitVec.allOnes 64, p.written 12 a free ((p.acc ++ p.rr).flatMap (fun w => toLe 4 w.toNat) ++ List.replicate 32 0),
    p.rPois || p.accPois.any id)

/-- R355, R380: whether a program has run every tile of its passes. -/
def Prog.over (p : Prog) : Bool := !p.inTile && decide (p.tiles ≤ p.tile) && (p.passB || p.tiles == 0)

/-- R364: a program that has run its last tile writes acc_out, when its entry is valid, and ends once that is answered. -/
def State.progEnds (s : State) (e : Nat) : State :=
  match (s.eng e).run with
  | none => s
  | some r => match r.prog with
    | none => s
    | some p =>
      if !(s.eng e).onProgram r || !p.over || !(s.eng e).out.isEmpty && !r.issued then s
      else
        let s1 : State :=
          if r.issued ∨ r.flt.isSome ∨ !entValid (argEntry p.args 12) then s
          else (({ s with free := s.free + 1 } : State).setRun e { r with issued := true }).writeLines e 4 0 [p.accLine s.free]
        match (s1.eng e).run with
        | none => s1
        | some r1 =>
          if r1.flt.isSome then s1.faultEnds e (.ok, 0)
          else if (s1.eng e).out.isEmpty then s1.endRun e (if r1.pois || p.rPois then .poisoned else .ok) 0
          else s1

/-- R340–R343, R354: a descriptor that has ended: the counter advance, its record, the counts of R353, and what the
engine does next (R318). -/
def State.descComplete (s : State) (e : Nat) : State :=
  let s1 := s.progEnds e
  match (s1.eng e).run with
  | none => s1
  | some r => match r.res with
    | none => s1
    | some w =>
      if s1.inWarm then s1.stopEnds e
      else if (s1.eng e).st ≠ .running ∨ (s1.eng e).gated ∨ (s1.eng e).halted then s1
      else
        let s2 := if r.inq then s1.inqRecord e w r.d else s1.finishDesc r.q w r.d (BitVec.ofNat 8 e)
        (s2.countEnd e w.status).nextOn e

def execDescriptorComplete (e : Nat) (s : State) : Host.Outcome State Fault Refusal := .next (s.descComplete e)

end Sys2Proof.Machine
end

