-- ==== Sys2Proof/Machine/Partitions.lean ====
section
/-! DEFINITION. Partitions: holds and quiescing (R116–R119, R489), the return to RUN with the hand-over of HELD counters
(R264), the compatibility-mode partition reset (R121, R122, R495), the Burrow extension (R398) and the event ring's settings
(R457, R459). -/

namespace Sys2Proof.Machine
open Sys2Proof

/-! ### Back to RUN -/

/-- The queues of partition p. -/
def State.queuesOf (s : State) (p : Nat) : List Nat :=
  match s.prec p with
  | none => []
  | some r => (List.range r.queueCount).map fun o => r.queueBase + o

/-- R264, R329, R487: partition p returns to RUN: its schedulers read producer again, and its HELD counters are handed over. -/
def State.toRun (s : State) (p : Nat) : State :=
  let s1 := s.setPart p { s.part p with st := .run }
  let s2 := ((s1.queuesOf p).filter fun q => thas s1.queues q).foldl State.readProducer s1
  let mine (l : Nat) : Bool := s2.counterOf (l * 64) == some p
  (s2.owl.held.filter mine).foldl (fun s l => s.devAccess (l * 64) true 1) s2

/-! ### Holds -/

/-- R85, R88: whether the scrub of a replacement runs on partition p, for the first time or again after a warm reset. -/
def State.scrubbing (s : State) (p : Nat) : Bool := s.owl.reScrub.contains p || (s.owl.repl.map (·.part)) == some p

/-- R116, R117: the holds of partition p take these values: a first hold starts DRAINING, and with both holds 0 a DRAINING
or QUIESCED partition returns to RUN, in the step of the write (95_what_each_step_holds.md lists R117 and the hand-over of HELD counters
under PART_OP_HOLD). While its section has failed op_hold stays 1 (R84, R119); while the scrub of a replacement runs the partition stays
QUIESCED whatever its holds, and returns to RUN at the scrub's end (R85, R88). -/
def State.setHolds (s : State) (p : Nat) (op0 tenant : Bool) : State :=
  let op := op0 || (s.part p).secBad
  let s1 := s.setPart p { s.part p with opHold := op, tenantHold := tenant }
  let x := s1.part p
  if (op ∨ tenant) ∧ x.st = .run then
    s1.setPart p { x with st := .draining, drainAt := s.clk, rec10 := false, rec100 := false }
  else if !(op ∨ tenant) ∧ (x.st = .draining ∨ x.st = .quiesced) ∧ !s.scrubbing p then s1.toRun p
  else s1

/-- R85, R88, R117: the scrub of partition p has ended: with both holds 0 it returns to RUN. -/
def State.unscrubbed (s : State) (p : Nat) : State :=
  let x := s.part p
  if x.st = .quiesced ∧ !x.opHold ∧ !x.tenantHold then s.toRun p else s

/-- R116: Owl sets or clears op_hold. -/
def State.opHold (s : State) (p : Nat) (v : Bool) : State := s.setHolds p v (s.part p).tenantHold

/-- R117: whether a descriptor of partition p runs: on an engine of the partition or on its queues' schedulers. -/
def State.running (s : State) (p : Nat) : Bool :=
  (s.engines.any fun (e, x) => x.run.isSome && s.engPart e == some p) ||
    s.queues.any fun (q, x) => (x.sched.isSome || x.fence.isSome) && s.queuePart q == some p

/-- R318: the staged descriptors of partition p go back to their queues. -/
def State.unstage (s : State) (p : Nat) : State :=
  (s.engines.filter fun (e, _) => s.engPart e == some p).foldl (fun s (e, _) =>
    match (s.eng e).staged with
    | none => s
    | some (q, d) => (s.setEng e { s.eng e with staged := none }).giveBack q d) s

/-- R117: a DRAINING partition with no running descriptor and no open transaction becomes QUIESCED. -/
def State.quiesce (s : State) (p : Nat) : State :=
  if (s.part p).st = .draining ∧ !s.running p ∧ !(s.txns.any fun t => t.part == p) then
    let s1 := s.unstage p
    s1.setPart p { s1.part p with st := .quiesced }
  else s

/-- R118: 10 ms in DRAINING: Owl writes one PART_DRAINING record. -/
def execPartDraining10ms (p : Nat) (s : State) : Host.Outcome State Fault Refusal :=
  let x := s.part p
  if x.st = .draining ∧ !x.rec10 ∧ Config.ms10Clk + x.drainAt < s.clk then
    .next ((s.setPart p { x with rec10 := true }).logEvent 0x14 0 1 0 (BitVec.ofNat 8 p))
  else .next s

/-- R489: 100 ms in DRAINING: each RUNNING engine of the partition is reset, and a second record is written. -/
def execPartDraining100ms (p : Nat) (s : State) : Host.Outcome State Fault Refusal :=
  let x := s.part p
  if x.st = .draining ∧ !x.rec100 ∧ 10 * Config.ms10Clk + x.drainAt ≤ s.clk then
    let s1 := s.setPart p { x with rec100 := true }
    let es := s1.engines.filter fun (e, g) => decide (g.st = .running) && s1.engPart e == some p
    .next ((es.foldl (fun s (e, _) => s.engineReset e) s1).logEvent 0x14 0 2 0 (BitVec.ofNat 8 p))
  else .next s

/-! ### Partition reset -/

/-- R121, R495 steps 1 and 2: a write of 1 to reset_req: refused with a record, FENCED before UNSUPPORTED where both apply (R49), or every queue is disabled and every engine
reset while state reads RESETTING. -/
def State.partReset (s : State) (p : Nat) : State :=
  let compat := match s.prec p with | none => false | some r => r.compat
  if (s.part p).st ≠ .quiesced then s.ringRecord p 0x03 Status.fenced.code 0 0
  else if !compat then s.ringRecord p 0x03 Status.unsupported.code 0 0
  else
    let s1 := s.setPart p { s.part p with st := .resetting, resetReq := true }
    let n := match s1.prec p with | none => 0 | some r => r.queueCount
    let s2 := (List.range n).foldl (fun s o => s.queueDisable p o) s1
    let es := match s2.prec p with | none => [] | some r => (List.range 64).filter fun e => r.engines.getLsbD e
    es.foldl State.engineReset s2

/-- R495 step 4: a controller's queues drained, and its retry buffers and scheduler state empty. -/
def State.resetChan (s : State) (ch : Nat) : State :=
  let s1 := s.drainChan ch
  let c := s1.chan ch
  let fresh (u : SubCh) : SubCh := { SubCh.reset with
    unref := u.unref, refAt := u.refAt, catrain := u.catrain, catAt := u.catAt, catFails := u.catFails, retired := u.retired, retrained := u.retrained }
  s1.setChan ch { c with subA := fresh c.subA, subB := fresh c.subB, rmw := [], rmwIn := [], retrying := false }

/-- R495 step 5: every cached translation and context of partition p's ASIDs is dropped. -/
def State.dropAsids (s : State) (p : Nat) : State :=
  let keep (x : Xl) : Bool := s.asidPart x.asid.toNat != some p
  let n := match s.prec p with | none => 0 | some r => r.asidCount
  { s with
    setts := s.setts.map fun (i, t) => (i, { t with tc := t.tc.filter keep })
    engines := s.engines.map fun (i, t) => (i, { t with tc := t.tc.filter keep })
    xlt := { s.xlt with
      oc := s.xlt.oc.filter keep
      ctx := s.xlt.ctx.filter fun (_, a, _) => s.asidPart a != some p
      invs := satAdd s.xlt.invs n } }

/-- Zero-fill of the Burrow scratch quota of partition p. -/
def State.zeroScratch (s : State) (p : Nat) : State :=
  let b := s.scrBase p
  let n := s.scrQuota p
  { s with scr := czero s.scr b n, scrPois := s.scrPois.filter fun l => !(decide (b ≤ 64 * l) && decide (64 * l < b + n)) }

/-- R122, R495 steps 3–7: once every engine of the partition has been reset or fenced, the reset ends. -/
def State.partResetDone (s : State) (p : Nat) : State :=
  match s.prec p with
  | none => s
  | some r =>
    if (s.part p).st ≠ .resetting ∨ (List.range 64).any (fun e => r.engines.getLsbD e && decide ((s.eng e).st = .resetting)) then s
    else
      let s1 := s.zeroScratch p
      let chs := if r.fenced then (lowBits 32 r.fencedCh.toNat).filter fun c => decide ((s1.chan c).st ≠ .failed) && decide ((s1.chan c).st ≠ .absent) else []
      let s2 := (chs.foldl State.resetChan s1).dropAsids p
      let s3 := (List.range r.queueCount).foldl (fun s o => s.queueReset p o) s2
      let x := s3.part p
      let s4 := s3.setPart p { x with st := .quiesced, resetReq := false, gen := x.gen + 1 }
      if x.opHold ∨ x.tenantHold then s4 else s4.toRun p

def execPartitionResetDone (p : Nat) (s : State) : Host.Outcome State Fault Refusal := .next (s.partResetDone p)

/-! ### Extension (R396–R399) -/

/-- R400: why an extension is refused: 2 NOT_QUIESCED, 3 OUTSIDE, 4 OVERLAP, 5 TOO_LARGE; 1 APPLIED. -/
def State.extResult (s : State) (p : Nat) : Nat :=
  let x := (s.part p).ext
  let base := mib2 * x.stBase.toNat
  let n := mib2 * x.stSize.toNat
  let q2 := mib2 * (s.scrQuota p / mib2)
  if (s.part p).st ≠ .quiesced then 2
  else if n = 0 then 1
  else if !s.inOneExtent p base n then 3
  else if s.meetsSpecial p base n then 4
  else if 0x1000000000 < q2 + n then 5 else 1

/-- R398: the staged base and size take effect together, or the refusal is recorded. -/
def State.extApply (s : State) (p : Nat) : State :=
  let x := (s.part p).ext
  let r := s.extResult p
  if r = 1 then s.setExt p { x with base := x.stBase.toNat, size := x.stSize.toNat, result := 1 }
  else
    let s1 := s.setExt p { x with result := BitVec.ofNat 4 r }
    { s1 with bur := { s1.bur with extRefused := sat s1.bur.extRefused, evstat := setBit s1.bur.evstat 2 } }

/-! ### The event ring (R457–R459) -/

/-- A refused ring setting or consumer write. -/
def EvRing.refuse (r : EvRing) : EvRing := { r with refused := sat r.refused, evstat := setBit r.evstat 4 }

/-- R459: a write of PART_EVCFG: 0 turns the ring off; 4–16 applies the staged base if it passes R454. -/
def State.evCfg (s : State) (p : Nat) (v : W32) : State :=
  let r := (s.part p).ring
  let n := v.toNat % 32
  let base := r.baseLo.toNat + 2 ^ 32 * r.baseHi.toNat
  let bytes := 32 * 2 ^ n
  if n = 0 then s.setRing p { r with on := false, log2 := 0 }
  else if 4 ≤ n ∧ n ≤ 16 ∧ base % bytes = 0 ∧ s.inOneExtent p base bytes ∧ !s.meetsSpecial p base bytes then
    s.setRing p { r with on := true, log2 := BitVec.ofNat 5 n, base := base, prod := 0, cons := 0 }
  else s.setRing p r.refuse

/-- R457: a write of PART_EVCONS: a value further than the ring's size behind PART_EVPROD, or ahead of it, is refused. -/
def State.evCons (s : State) (p : Nat) (v : W32) : State :=
  let r := (s.part p).ring
  if r.on ∧ 2 ^ r.log2.toNat < (r.prod - v).toNat then s.setRing p r.refuse else s.setRing p { r with cons := v }

/-! ### GATE -/

/-- R469–R471: the counter has entered a slot: its owner's lookups are taken again, and requests that the gate held
compete. -/
def execGateSlotStart (s : State) : Host.Outcome State Fault Refusal :=
  if s.lay.isNone ∨ slotOwner s.gateSlots s.qos.gate < 32 ∧ slotLeft s.gateSlots s.qos.gate ≤ 32 then .next s
  else
    let s1 : State := { s with qos := { s.qos with gateOpen := true } }
    .next (((s1.txns.filter fun t => decide (t.phase = .parked)).map (·.id)).foldl State.retry s1)

end Sys2Proof.Machine
end

