-- ==== Sys2Proof/Machine/Session.lean ====
section
/-! DEFINITION. Owl's sessions and replies (R533–R539), which commands Owl accepts (R537), the event log in flash (R550)
and the device identifier (R509). Session 4 is the Owl mailbox (R556). -/

namespace Sys2Proof.Machine
open Sys2Proof

/-! ### Identity and lifecycle -/

/-- R509: the first 16 bytes of the SM3 digest of the identity public key. -/
def State.deviceId (s : State) : Bytes := slice (sm3 (identityKey s.sec.ones)) 0 16

/-- A signature with the identity key (R509). -/
def State.signId (s : State) (signer : Bytes) (msg : Bytes) : Bytes := sm2Sign signer (b2n s.sec.ones) msg

/-- R37: the lifecycle state that registers show: the last that passed a vote. -/
def State.lifeShow (s : State) : Nat := s.rwtShow .secState

/-- R524, R528: whether D1 holds for partition p; never in BLANK or SCRAPPED. -/
def State.d1On (s : State) (p : Nat) : Bool :=
  (match (s.part p).dbg.token with | none => false | some t => decide (s.top.tick.toNat < t.limit))
    && s.sec.d1req.getLsbD p && !s.sec.d2 && s.life % 4 != 0

/-- TOP_SECSTATE (R503). -/
def State.secState (s : State) : Nat :=
  let dbg := if s.sec.d2 then 2 else if (List.range 32).any s.d1On then 1 else 0
  s.lifeShow + 8 * b2n (decide (s.lifeShow = 3) && s.flash.wiped) + 16 * dbg

/-- SEC_LCCOUNT (R530). -/
def State.lcCountReg (s : State) : Nat := lcCount s.sec.life + (if s.lifeShow = 4 then 2 ^ 31 else 0)

/-- TOP_READY (R46). -/
def State.readyReg (s : State) : Nat :=
  b2n s.top.owlUp + 2 * b2n s.top.layoutOk + 4 * b2n s.top.fillDone + 8 * b2n s.top.ready

/-- R585: the encoding of the power states. -/
def PwrState.code : PwrState → Nat
  | .run => 0 | .gate => 1 | .drowse => 2 | .hibernate => 3 | .off => 4

/-- OWL_PWRSTAT (R596). -/
def State.pwrReg (s : State) : Nat := s.owl.pwr.code + 8 * b2n s.owl.transit

/-- R46, R37: TOP_LAYOUT_GEN. -/
def State.layoutGen (s : State) : Nat := s.rwtShow .layoutGen

/-! ### Sessions -/

/-- The mailbox of R556 as a session. -/
def mboxSess : Nat := 4

/-- The session of a reply that is discarded: no command asked for it, or its session has closed. -/
def noSess : Nat := 5

/-- Whether a command can come from a session: it is open, or it is the mailbox while D2 is open. -/
def State.sessOpen (s : State) (i : Nat) : Bool :=
  if i = mboxSess then s.sec.d2 else thas s.owl.sessions i

def State.sess (s : State) (i : Nat) : Sess := tget Sess.reset s.owl.sessions i
def State.setSess (s : State) (i : Nat) (x : Sess) : State :=
  { s with owl := { s.owl with sessions := tput s.owl.sessions i x } }

/-- R536: a message as words: the 16-byte header and the body, padded with zeros to whole words. -/
def replyWords (r : Reply) : List FWord :=
  let bs := toLe 4 0x72000C3D ++ toLe 2 r.code.toNat ++ [0, r.status.code] ++ toLe 4 r.body.length ++ toLe 4 r.tag.toNat ++ r.body
  let n := (bs.length + 3) / 4
  (List.range n).map fun i => ⟨BitVec.ofNat 32 (fld bs (4 * i) 4), i + 1 == n⟩

/-- R536, R538: a reply: sent in its session's stream, or as a packet of the mailbox; that of a closed session is
discarded, and so is one for which the mailbox has no room (R45, log 34). -/
def State.reply (s : State) (sess : Nat) (code : BitVec 16) (tag : W32) (st : Status) (body : Bytes) : State :=
  if !s.sessOpen sess then s
  else
    let r : Reply := ⟨sess, code, tag, st, body⟩
    let s1 : State := { s with owl := { s.owl with replies := s.owl.replies ++ [r] } }
    if sess ≠ mboxSess then s1
    else
      let f := s1.owl.fifo.deliver (replyWords r)
      if f.recv.length ≤ 1028 then { s1 with owl := { s1.owl with fifo := f } }
      else { s1 with owl := { s1.owl with mboxErr := sat s1.owl.mboxErr, evstat := setBit s1.owl.evstat 0 } }

/-! ### Key slots, and the end of a scrub (R82, R85, R512) -/

/-- R512: a fresh key drawn for a slot. -/
def State.drawKey (s : State) (slot : Nat) : State :=
  { s with sec := { s.sec with slots := tput s.sec.slots slot s.sec.keySer, keySer := s.sec.keySer + 1 } }

/-- R513: a slot destroyed. -/
def State.dropKey (s : State) (slot : Nat) : State := { s with sec := { s.sec with slots := tdel s.sec.slots slot } }

/-- R512: exactly the slots that a partition of the layout owns hold keys; those already loaded keep theirs. -/
def State.loadSlots (s : State) (l : Layout) : State :=
  let own (k : Nat) : Bool := l.parts.any fun r => r.keySlot == k
  let s1 : State := { s with sec := { s.sec with slots := s.sec.slots.filter fun e => own e.1 } }
  if s.sec.d2 then s1
  else ((List.range 32).filter fun k => own k && !thas s1.sec.slots k).foldl State.drawKey s1

/-- R537: the code of LAYOUT_LOAD. -/
def cLayoutLoad : BitVec 16 := 0x0020

/-- R541: a LAYOUT_LOAD reply's body: check, part_rev in force, global digest in force. -/
def State.loadBody (s : State) (check p : Nat) : Bytes :=
  toLe 1 check ++ toLe 3 0 ++ toLe 4 (match s.secOf p with | none => 0 | some c => c.rev.toNat) ++
    slice (s.lay.getD Layout.reset).digest 0 32

/-- R85 step 5: the section takes effect; a partition that a failed section held is released (R119). -/
def State.replaceSection (s : State) (p : Nat) (c : PartSec) : State :=
  let s2 := s.enforceSection p c
  let x := s2.part p
  if x.secBad then (s2.setPart p { x with secBad := false }).setHolds p false x.tenantHold else s2

/-- R525: what D1 has collected is discarded. -/
def Dbg.discard (d : Dbg) : Dbg := { d with reqs := 0, parks := 0, holdWaits := 0, snptos := 0, trace := [], sample := 0 }

/-- R525: the installed token is removed. -/
def Dbg.dropToken (d : Dbg) : Dbg := { d.discard with token := none }

/-- R514, R525, R526: the consent key and the token are cleared. -/
def State.clearConsent (s : State) (p : Nat) : State := s.setDbg p { (s.part p).dbg.dropToken with key := none }

/-- R473: the counters of R475 at 0. -/
def PortQos.clearCounts (q : PortQos) : PortQos :=
  { q with
    green := 0, yellow := 0, red := 0, refused := 0, shpWaits := 0, shpBytes := 0, depthSum := 0, samples := 0, depthMax := 0
    delayMax := 0, delaySum := 0, delayCnt := 0 }

/-- R457, R473, R525, R529: a new tenant takes the partition over: what the old one had set up goes, its event ring, counters and consent. -/
def State.newTenant (s : State) (p : Nat) : State :=
  let s1 := (s.setRing p EvRing.reset).clearConsent p
  let s2 := s1.setDbg p { Dbg.reset with fifo := (s1.part p).dbg.fifo }
  (List.range 10).foldl (fun s k => s.setPqos p k (s.pqos p k).clearCounts)
    { s2 with owl := { s2.owl with capMs := tdel s2.owl.capMs p } }

/-- R85 steps 5 and 6: the section is in force and the command is answered. -/
def State.loaded (s : State) (r : Repl) : State :=
  let s0 := if r.sec.tenant = s.tenant r.part then s else s.newTenant r.part
  let s1 := s0.replaceSection r.part r.sec
  s1.reply r.sess cLayoutLoad r.tag .ok (s1.loadBody 0 r.part)

/-- R82, R85, R88, R512: the scrubs that run have finished: fresh keys are loaded, and then a replacement's settings. -/
def State.scrubEnd (s : State) : State :=
  if s.owl.scrubs.isEmpty ∧ s.owl.repl.isNone then s
  else
    let s1 := ({ s with owl := { s.owl with scrubs := [], repl := none, reScrub := [] } } : State).loadSlots (s.lay.getD Layout.reset)
    let s2 := match s.owl.repl with
      | none => s1
      | some r => s1.loaded r
    (s.owl.reScrub ++ (s.owl.repl.map (·.part)).toList).foldl State.unscrubbed s2

/-! ### Commands -/

/-- R538: the commands that run alone, across all sessions; OWL_RESTART and POWER_STATE are judged while a layout load runs (R546,
R586). -/
def runsAlone (code : BitVec 16) : Bool :=
  !([0x0001, 0x0002, 0x0010, 0x0011, 0x0012, 0x0051, 0x0060, 0x0032, 0x0041] : List (BitVec 16)).contains code

/-- R538: a command that runs alone is acted on once the LAYOUT_LOAD before it has ended (log 22). -/
def State.afterLoad (s : State) (code : BitVec 16) : State := if runsAlone code ∧ s.owl.repl.isSome then s.scrubEnd else s

/-- R537: the commands that are accepted in SCRAPPED: INFO, EVENT_READ, LEDGER_READ and SPDM; and POWER_STATE, whose targets
R528 judges (log 33). -/
def scrappedOk (code : BitVec 16) : Bool :=
  code == 0x0001 || code == 0x0010 || code == 0x0011 || code == 0x0051 || code == 0x0041

/-- A command in an open session while Owl runs: the session's idle time starts again; in SCRAPPED most are FENCED. -/
def State.command (s : State) (sess : Nat) (code : BitVec 16) (tag : W32) (act : State → State) : State :=
  if !s.sessOpen sess ∨ s.owl.st ≠ .run then s
  else
    let s1 := (s.setSess sess { s.sess sess with lastCmd := s.clk }).afterLoad code
    if s1.life = 4 ∧ !scrappedOk code then s1.reply sess code tag .fenced [] else act s1

/-- R538: a command that still runs as its session closes completes, and its reply is discarded. -/
def OwlS.orphan (o : OwlS) (i : Nat) : OwlS :=
  { o with
    pwSess := if o.pwSess = i then noSess else o.pwSess
    stSess := if o.stSess = i then noSess else o.stSess
    repl := o.repl.map fun r => if r.sess = i then { r with sess := noSess } else r }

/-- R535: a session's end, recorded. -/
def State.dropSession (s : State) (i : Nat) : State :=
  if thas s.owl.sessions i ∧ i < mboxSess then
    ({ s with owl := { s.owl with sessions := tdel s.owl.sessions i }.orphan i } : State).logPlain 0x1F 3
  else s

/-- R537: MGT settings that wait take effect once every session has closed. -/
def State.mgtSettle (s : State) : State :=
  match s.owl.mgtNew with
  | some m => if (s.owl.sessions.filter fun e => decide (e.1 < mboxSess)).isEmpty then
      { s with owl := { s.owl with mgt := m, mgtNew := none, lease := none, slaac := none }, flash := { s.flash with mgt := m } }
    else s
  | none => s

/-- Every session closed. -/
def State.closeAll (s : State) : State := ((List.range mboxSess).foldl State.dropSession s).mgtSettle

/-! ### The event log -/

/-- R550: the queued records written to the log, which keeps its last 32,768. -/
def State.flushLog (s : State) : State :=
  let n := s.owl.evq.length
  { s with
    owl := { s.owl with evq := [] }
    flash := { s.flash with
      log := lastN 32768 (s.flash.log ++ s.owl.evq)
      logSeq := s.flash.logSeq + BitVec.ofNat 32 n } }

def execEventLogFlush (s : State) : Host.Outcome State Fault Refusal :=
  .next (if s.owl.st = .run then s.flushLog else s)

/-- R537: the command codes of Owl. -/
def cInfo : BitVec 16 := 0x0001
def cRegRead : BitVec 16 := 0x0002
def cRegWrite : BitVec 16 := 0x0003
def cEventRead : BitVec 16 := 0x0010
def cLedgerRead : BitVec 16 := 0x0011
def cScrubStatus : BitVec 16 := 0x0012
def cScrubConfig : BitVec 16 := 0x0013
def cLayoutStage : BitVec 16 := 0x0021
def cLayoutFlash : BitVec 16 := 0x0022
def cRollback : BitVec 16 := 0x0023
def cKeyInstall : BitVec 16 := 0x0024
def cFwWrite : BitVec 16 := 0x0030
def cFwSelect : BitVec 16 := 0x0031
def cOwlRestart : BitVec 16 := 0x0032
def cWarmReset : BitVec 16 := 0x0040
def cPower : BitVec 16 := 0x0041
def cPowerCap : BitVec 16 := 0x0042
def cLifecycle : BitVec 16 := 0x0050
def cSpdm : BitVec 16 := 0x0051
def cDebugRead : BitVec 16 := 0x0060
def cDebugHalt : BitVec 16 := 0x0061
def cPmbus : BitVec 16 := 0x0070
def cMgtConfig : BitVec 16 := 0x0071

end Sys2Proof.Machine
end

