-- ==== Sys2Proof/Machine/Power.lean ====
section
/-! DEFINITION. Cold and warm resets (R90–R107, R497–R499, R580, R615): the sequences' steps, what each keeps and loses
(R20), and the layout they bring into force (R77–R82). -/

namespace Sys2Proof.Machine
open Sys2Proof

/-! ### Every unit held in reset (R90) -/

/-- R486, R494: the units that are out of service: engines in bits 63:0, sett units in bits 95:64. -/
def State.outNow (s : State) : BitVec 96 :=
  BitVec.ofNat 96 ((List.range 64).foldl (fun a e => a + b2n (decide ((s.eng e).st = .fenced)) * 2 ^ e) 0 +
    (List.range 16).foldl (fun a n =>
      a + b2n (decide ((s.sett n).unit0 = .failed)) * 2 ^ (64 + 2 * n) + b2n (decide ((s.sett n).unit1 = .failed)) * 2 ^ (65 + 2 * n)) 0)

/-- R90: every unit in reset: only the flash, the fuses and the level of WRST_N are kept, and which units were out of service, whose
built-in tests run at the next cold reset (R486, R494). -/
def State.allHeld (s : State) : State :=
  { State.reset with
    unitsOut := s.unitsOut ||| s.outNow
    wrstN := s.wrstN, clk := s.clk, flash := s.flash, fuse := s.fuse, free := s.free, pending := s.pending
    cadence := (List.range 48).map fun k => (k, s.clk) }

/-- R503: the security engine reads the lifecycle fuses. -/
def State.readFuses (s : State) : State := { s with sec := { s.sec with life := s.fuse.life } }

/-- R509: at an Owl boot the identity is derived from the secret that the fuses hold. -/
def State.deriveId (s : State) : State := { s with sec := { s.sec with ones := s.fuse.ones } }

/-- R97: the plan of each fabric port from STRAP_FABW. -/
def strapPlan (x : Straps) : W32 := BitVec.ofNat 32 (2 ^ ([32, 16, 8, 4].getD x.fabw.toNat 32) - 1)

/-- TOP_STRAP (R46). -/
def strapReg (x : Straps) : BitVec 17 :=
  BitVec.ofNat 17 (x.boot.toNat + 4 * x.layout.toNat + 32 * x.dram.toNat + 128 * x.mgt.toNat + 512 * x.fabw.toNat + 2048 * x.id.toNat)

def State.bootStrap (s : State) : Nat := bitsOf s.top.straps.toNat 0 2
def State.layoutStrap (s : State) : Nat := bitsOf s.top.straps.toNat 2 3
def State.dramStrap (s : State) : Nat := bitsOf s.top.straps.toNat 5 2
def State.mgtStrap (s : State) : Nat := bitsOf s.top.straps.toNat 7 2

/-- The fabric ports at their strap plan. -/
def State.strapPorts (s : State) : State :=
  let m : W32 := BitVec.ofNat 32 (2 ^ ([32, 16, 8, 4].getD (bitsOf s.top.straps.toNat 9 2) 32) - 1)
  (List.range 8).foldl (fun s k =>
    s.setPort k { (s.port k).settleBoth m with planMask := m, goPlan := m }) s

/-- R486: the built-in test of an engine that was out of service has run: it is in service, or fenced. -/
def State.testEngine (s : State) (e : Nat) (pass : Bool) : State :=
  let x := s.eng e
  let live := s.top.engLive
  if pass then ({ s with top := { s.top with engLive := setBit live e } } : State).setEng e { x with st := .idle, gated := false }
  else
    (({ s with top := { s.top with engLive := live &&& ~~~(BitVec.ofNat 64 (2 ^ e)) } } : State).setEng e
      { x with st := .fenced, gated := true }).ledgerAdd 9 (ledgerNums [e, 0x486])

/-- R493, R494: a pair after the built-in tests of its two units: one that works keeps its place, so that a repaired unit becomes no active
one while the other works. -/
def Sett.tested (t : Sett) (u0 u1 : Bool) : Sett :=
  let act :=
    if t.unit0 = .failed ∧ t.unit1 = .failed then !u0 && u1
    else if t.act1 then u1 || !u0 else !u0 && u1
  { t with
    pair := if u0 ∧ u1 then .pair else if u0 ∨ u1 then .single else .lost
    unit0 := if !u0 then .failed else if act then .standby else .active
    unit1 := if !u1 then .failed else if act then .active else .standby
    act1 := act
    tries := 0 }

/-- R486, R494: at a cold reset the units that were out of service run their built-in tests. Nothing states how these end: a free value
(log 8). -/
def State.coldTests (s : State) (out : BitVec 96) : State :=
  if out = 0 then s
  else
    let (x, s1) := s.drawBits 96
    let s2 := ((List.range 64).filter fun e => out.getLsbD e).foldl (fun s e => s.testEngine e (x.getLsbD e)) s1
    ((List.range 16).filter fun n => out.getLsbD (64 + 2 * n) || out.getLsbD (65 + 2 * n)).foldl (fun s n =>
      s.setSett n ({ s.sett n with
        unit0 := if out.getLsbD (64 + 2 * n) then .failed else .active
        unit1 := if out.getLsbD (65 + 2 * n) then .failed else .standby
        act1 := out.getLsbD (64 + 2 * n) && !out.getLsbD (65 + 2 * n) }.tested (x.getLsbD (64 + 2 * n)) (x.getLsbD (65 + 2 * n)))) s2

/-- R92, R101 step 1: PWRGOOD rises: a cold reset with the straps sampled. -/
def execPwrgoodRise (straps : Straps) (wrstN : Bool) (s : State) : Host.Outcome State Fault Refusal :=
  if s.pwrgood then .next s
  else
    let h := s.allHeld.readFuses
    .next (({ h with
      pwrgood := true, wrstN := wrstN, phase := .waitPll, unitsOut := 0
      top := { h.top with straps := strapReg straps } } : State).strapPorts.coldTests h.unitsOut)

/-- R532: whether a fall of PWRGOOD now finds a configuration copy half written: one was begun in this fabric clock, and the
free choice says that it was not finished (log 59). -/
def State.fallTears (s : State) : Bool := decide (s.flash.cfgAt = some s.clk) && Config.freeNat s.free % 2 == 1

/-- R90: PWRGOOD falls. A configuration copy that it tears fails its SM3 check, and the other one acts at the next boot
(R532). -/
def execPwrgoodFall (s : State) : Host.Outcome State Fault Refusal :=
  .next (if s.pwrgood then
      { s.allHeld with flash := if s.fallTears then s.flash.tear else s.flash, free := s.free + 1 }
    else s)

/-- R580: the reference stops or the PLL loses lock: every unit is held, and the straps stay. -/
def execClockLoss (refStopped : Bool) (s : State) : Host.Outcome State Fault Refusal :=
  if s.pwrgood ∧ !s.thermtrip then
    let h := s.allHeld.readFuses
    .next (({ h with
      pwrgood := true, phase := .waitPll, clkLost := if refStopped then 1 else 2, unitsOut := 0
      top := { h.top with straps := s.top.straps } } : State).strapPorts.coldTests h.unitsOut)
  else .next s

/-- R615: a trip: THERMTRIP_N goes low, and every unit is held in reset until PWRGOOD falls. -/
def execThermtrip (s : State) : Host.Outcome State Fault Refusal :=
  if s.pwrgood ∧ !s.thermtrip then
    .next { s.allHeld with pwrgood := true, thermtrip := true, top := { TopS.reset with straps := s.top.straps } }
  else .next s

/-- R101 step 2, R580: the root PLL locks. After a clock loss TOP_TICK restarts here. -/
def execPllLock (s : State) : Host.Outcome State Fault Refusal :=
  if s.phase = .waitPll then
    .next { s with pll := true, phase := .waitOwl, top := { s.top with tick := if s.clkLost = 0 then s.top.tick else 0 } }
  else .next s

/-! ### Owl boots (R101 step 3, R543, R544) -/

/-- R93, R94: the boot source that acts: MANUFACTURING outside BLANK, and MGMT_LOAD with SIDEBAND, act as AUTO. -/
def State.bootMode (s : State) : Nat :=
  if s.bootStrap = 3 ∧ s.life ≠ 0 then 0
  else if s.bootStrap = 2 ∧ s.mgtStrap = 3 then 0 else s.bootStrap

/-- R544: the bank that the boot ROM tries next; none when every bank it may boot has failed. -/
def State.bootBank (s : State) : Option Bool :=
  let failed (b : Bool) : Bool := if b then s.owl.failB else s.owl.failA
  if s.bootMode = 1 then (if failed false then none else some false)
  else if !failed s.flash.preferB then some s.flash.preferB
  else if !failed (!s.flash.preferB) then some (!s.flash.preferB) else none

def State.bank (s : State) (b : Bool) : FwBank := if b then s.flash.b else s.flash.a

/-- R543: whether the boot ROM accepts a bank's image; under MANUFACTURING the firmware comes over MGT. -/
def State.bankOk (s : State) (b : Bool) : Bool :=
  s.bootMode == 3 || (match (s.bank b).fw with
    | none => false
    | some (v, _) => decide (s.fuse.fwCnt ≤ v))

/-- The images that R79 still tries in turn: those of the boot source but the ones that this boot has given up; an empty
area holds none. -/
def State.flashImages (s : State) : List Bytes :=
  let l := match s.bootMode with
    | 0 => [s.flash.a.lay, s.flash.b.lay]
    | 1 => [s.flash.a.lay]
    | _ => []
  (l.filter fun i => !i.isEmpty).drop s.owl.tried

/-- The first image of a list that passes the form checks, with those after it, and the failures of those before it. -/
def State.firstFormed (s : State) : List Bytes → Option (Bytes × List Bytes) × List LayErr
  | [] => (none, [])
  | i :: t => match s.imageForm i with
    | none => (some (i, t), [])
    | some e =>
      let (r, es) := State.firstFormed s t
      (r, e :: es)

/-- The layout that training and the key slots follow until the content checks: that of the first image that passes the
form checks, else the built-in one. -/
def State.candidate (s : State) : Option Layout :=
  let img := match s.owl.staged with
    | some i => some i
    | none => (s.firstFormed s.flashImages).1.map (·.1)
  match img with
  | some i => match recsOf (sectionOf i 0) with
    | .ok rs => some (globalOf i rs)
    | .error _ => none
  | none => if s.bootMode < 2 then s.builtinLayout s.layoutStrap else none

/-- R60, R95, R579: the speed code at which the channels train: the candidate's, or STRAP_DRAM's. -/
def State.trainSpeed (s : State) : Nat :=
  s.speedOf (match s.candidate with
    | some l => if l.builtin then s.dramStrap else l.dramSpeed.toNat
    | none => s.dramStrap)

/-- R101 step 5, R620: the channels start training, and DRC_STATUS speed reads the speed at which they train. -/
def State.startTraining (s : State) : State :=
  let sp := s.trainSpeed
  let s1 := (List.range 32).foldl (fun s c => s.setChan c { s.chan c with st := .training, speed := BitVec.ofNat 2 sp }) s
  { s1 with phase := .training }

/-- R93, R101 steps 3–5, R509 after a cold reset: in a MANUFACTURING boot the firmware and the identity certificate come over MGT; TOP_BOOTCNT and the epoch offset advance, keys load, the form checks run, and
training begins. -/
def State.owlFirst (s : State) (boot : OwlBoot) : State :=
  let (spd, s) := match spdSpeed boot.spd with
    | some sp => (sp, s)
    | none => s.drawNat 3
  let made := decide (s.bootMode = 3)
  let s0 := s.writeCfg fun f => { f with
    bootcnt := f.bootcnt + 1, epochOfs := f.epochOfs + 1, cert := if made ∧ !boot.cert.isEmpty then boot.cert else f.cert }
  let s1 : State := { s0 with
    fuse := { s.fuse with secret := s.fuse.secret || s.life == 0 }
    top := { s.top with owlUp := true }
    owl := { s.owl with
      st := .run, bankB := boot.bankB, mgt := s.flash.mgt, spd := BitVec.ofNat 2 spd, spds := boot.spd
      mgtFw := if made then some boot.fw else none }
    clkLost := 0 }
  let s2 := if s.clkLost = 0 then s1 else s1.logPlain 0x21 (BitVec.ofNat 8 s.clkLost)
  let s3 := if s2.bootMode = s2.bootStrap then s2 else s2.logPlain 0x11 (BitVec.ofNat 8 s2.bootStrap)
  let s4 := (s3.firstFormed s3.flashImages).2.foldl State.layoutRejected s3
  let s5 := match s4.candidate with
    | some l => s4.loadSlots l
    | none => s4
  s5.startTraining

/-- The periodic actions of Owl's firmware: the sensors, the cap and the regulators (R547–R549). -/
def owlCycles : List Nat := [2, 3] ++ (List.range 32).map (· + 16)

/-- R101 step 3, R546: firmware of a bank sets owl_up: the first time after a cold reset, or at the end of an Owl restart. -/
def execOwlUp (boot : OwlBoot) (s : State) : Host.Outcome State Fault Refusal :=
  let turn := s.bootMode == 3 || s.bootBank == some boot.bankB
  if turn ∧ s.bankOk boot.bankB then
    if s.phase = .waitOwl then .next ((s.deriveId.owlFirst boot).restartCadence owlCycles)
    else if s.owl.st = .restarting then
      .next { s.deriveId.restartCadence owlCycles with
        top := { s.top with owlUp := true }
        owl := { s.owl with
          st := .run, bankB := boot.bankB, failA := false, failB := false, mgtFw := if s.bootMode = 3 then some boot.fw else none } }
    else .next s
  else .next s

/-- R544: the bank being tried is refused or does not come up: recorded, and the other bank is tried. -/
def execBankBootFail (bankB : Bool) (s : State) : Host.Outcome State Fault Refusal :=
  if (s.phase = .waitOwl ∨ s.owl.st = .restarting) ∧ s.bootBank = some bankB then
    let o := s.owl
    .next (({ s with owl := if bankB then { o with failB := true } else { o with failA := true } } : State).logPlain 0x1C 3)
  else .next s

/-! ### DRAM training (R103) -/

/-- R103: the spare of a channel, when it is usable, takes the place of its lowest failed rank. -/
def Chan.placeSpare (c : Chan) (sp : Nat) : Chan :=
  let good := decide (sp < 4) && c.dimm.present.getLsbD sp && !c.dimm.failed.getLsbD sp
  let bad := (lowBits 4 c.dimm.present.toNat).find? fun r => c.dimm.failed.getLsbD r && r != sp
  match good, bad with
  | true, some r => { c with served := [(r, sp)] }
  | _, _ => { c with served := [] }

/-- R403: a channel's DIMM as training reports it, of the type, the grade and the segment capability that its SPD showed in step 4. -/
def State.asSpd (s : State) (ch : Nat) (d : Dimm) : Dimm := match s.owl.spds.find? fun x => x.ch == ch with
  | none => d
  | some x => { d with kind := x.kind, grade := x.grade, segs := x.segs }

/-- R552, R553: the numbers in the bodies of the ledger's entries of a type. -/
def State.ledgerBodies (s : State) (ty : BitVec 16) : List (List Nat) :=
  (s.flash.ledger.filter fun e => e.ty == ty).map fun e => (List.range 4).map fun i => fld e.bytes (56 + 4 * i) 4

/-- R425: the ranks of a channel that the service ledger holds as retired by a migration. -/
def State.retiredRanks (s : State) (ch : Nat) : BitVec 4 :=
  (s.ledgerBodies 4).foldl (fun m b => match b with
    | c :: r :: 2 :: _ => if c = ch then setBit m r else m
    | _ => m) 0

/-- R437: the marks of a channel's devices that the service ledger holds, applied to its ranks. -/
def State.ledgerMarks (s : State) (ch : Nat) (ranks : Tab RankS) : Tab RankS :=
  (s.ledgerBodies 3).foldl (fun t b => match b with
    | [c, r, sub, dev] =>
      let x := tget RankS.reset t r
      if c ≠ ch then t
      else if sub = 0 then tput t r { x with markA := some (x.markA.getD dev) }
      else tput t r { x with markB := some (x.markB.getD dev) }
    | _ => t) ranks

/-- R103, R403, R425, R437, R620: training of a channel ends: its Training fields take their values, failed ranks are out and
recorded, and the spare takes a failed rank's place. The ranks that the service ledger holds as retired are out as failed ones are, and
its marks are applied again. A controller under hold then enters self-refresh (R413). -/
def State.trained (s : State) (ch : Nat) (d0 : Dimm) : State :=
  let c := s.chan ch
  let d := s.asSpd ch d0
  if s.phase ≠ .training ∨ c.st ≠ .training ∨ 32 ≤ ch then s
  else
    let sp := s.trainSpeed
    let ok := dimmUsable d && dimmSupports d sp
    let none_ : Bool := d.kind == 0
    let d1 : Dimm := if none_ then ⟨0, 0, 0, 0, 0, false, 0, 0, 0, 0, false⟩ else { d with failed := d.failed ||| (s.retiredRanks ch &&& d.present) }
    let bad := (lowBits 4 d.present.toNat).filter fun r => d.failed.getLsbD r
    let spare := match s.candidate with | none => 0xFF | some l => l.spare.getD ch 0xFF
    let c1 := { c with
      st := if ok then .run else .absent
      dimm := d1
      out := d1.failed
      ranks := s.ledgerMarks ch c.ranks
      tim := if none_ then [0, 0, 0, 0] else [d.tim0, d.tim1, d.tim2, d.tim3] }
    let s1 := (s.setChan ch (if ok then c1.placeSpare spare else c1)).tryHold ch
    let s2 := bad.foldl (fun s r => s.ledgerAdd 4 (ledgerNums [ch, r, 1])) s1
    if (List.range 32).any fun k => decide ((s2.chan k).st = .training) then s2 else { s2 with phase := .content }

def execChannelTrainingEnd (ch : Nat) (d : Dimm) (s : State) : Host.Outcome State Fault Refusal := .next (s.trained ch d)

/-! ### The layout comes into force (R101 step 6) -/

/-- R424, R426: how many bytes of a rank's place the spare serves: the copied chunks of a migration, or of the split that a failed spare
leaves. -/
def Chan.moved (c : Chan) (r : Nat) : Nat :=
  match c.migr, c.split with
  | some (f, n), _ => if f = r then 16384 * n else 0
  | none, some (f, n) => if f = r then 16384 * n else 0
  | none, none => 0

/-- R427: the segments of a channel that hold some byte of an extent, 8 × rank + segment. A segment of a rank's place that the spare serves
in part counts for both ranks. -/
def State.keptSegments (s : State) (ch : Nat) : W32 :=
  let l := s.lay.getD Layout.reset
  let c := s.chan ch
  let cap := gib * c.dimm.rankGib.toNat
  let ranges := l.sets.flatMap fun t =>
    if !t.channels.getLsbD ch then []
    else
      let (cb, n, g, k) := setOnChan l t ch
      l.extents.filterMap fun e =>
        let lo := max (mib2 * e.base) t.base
        let hi := min (mib2 * (e.base + e.count)) (t.base + t.size)
        if hi ≤ lo then none
        else
          let u0 := (lo - t.base) / g
          let u1 := (hi - t.base - 1) / g
          let f := u0 + (k + n - u0 % n) % n
          let z := u1 - (u1 % n + n - k) % n
          if f ≤ u1 ∧ f ≤ z then some (cb + f / n * g, cb + z / n * g + g) else none
  maskOf ((c.logical.zipIdx).flatMap fun (r, i) => (List.range 8).flatMap fun sg =>
    let a := sg * (cap / 8)
    let b := a + cap / 8
    let m := min b (max a (c.moved r))
    [(a, m), (m, b)].filterMap fun (u, v) =>
      if decide (u < v) && ranges.any fun (x, y) => decide (x < i * cap + v) && decide (i * cap + u < y) then some (8 * c.rankAt r u + sg)
      else none)

/-- R84, R119: a partition whose section failed starts held by the operator. -/
def State.sectionFailed (s : State) (e : LayErr) : State :=
  let s1 := s.layoutRejected e
  if e.sect = 0 then s1
  else
    let p := e.sect - 1
    let x := s1.part p
    s1.setPart p { x with opHold := true, secBad := true, st := if x.st = .run then .quiesced else x.st }

/-- R119: op_hold that a failed section set is cleared when a layout comes in whose section passes. -/
def State.sectionPassed (s : State) (p : Nat) : State :=
  let x := s.part p
  if x.secBad then s.setPart p { x with secBad := false, opHold := false, st := if x.tenantHold then x.st else .run } else s

/-- A layout in force, with its segments kept, and the partitions held whose sections failed. -/
def State.takeLayout (s : State) (l : Layout) (bad : List LayErr) : State :=
  let s1 := s.enforce l
  let s2 := (List.range 32).foldl (fun s c => s.setChan c { s.chan c with pasr := s.keptSegments c }) s1
  let s3 : State := { s2 with qos := { s2.qos with gate := 0, gateOpen := true } }
  bad.foldl State.sectionFailed (s3.partList.foldl State.sectionPassed s3)

/-- R101 step 6: a layout comes into force after a cold reset, from an image or built in: the ports start to train, and the
fill begins. -/
def State.bringIn (s : State) (img : Option Bytes) (l : Layout) (bad : List LayErr) : State :=
  let s1 := (List.range 32).foldl (fun s c =>
    if (s.chan c).st = .run then s.setChan c ((s.chan c).placeSpare (l.spare.getD c 0xFF)) else s) s
  let s2 := (s1.loadSlots l).takeLayout l bad
  let s3 : State := { s2 with top := { s2.top with layoutOk := true }, phase := .filling, owl := { s2.owl with staged := none, image := img } }
  (List.range 8).foldl State.tryTrain s3

/-- R60, R95: what comes next acts at another speed than the channels trained at: they train again. -/
def State.speedDiffers (s : State) : Bool := s.trainSpeed != (s.chan 0).speed.toNat

/-- The images of the boot source that come before the first that passes the checks of form, and that one, given up. -/
def State.giveUp (s : State) : State :=
  { s with owl := { s.owl with tried := s.owl.tried + 1 + (s.firstFormed s.flashImages).2.length } }

/-- R541: a LAYOUT_STAGE reply's body: check, section and offset. -/
def layBody (e : Option LayErr) : Bytes :=
  match e with
  | none => toLe 8 0
  | some e => toLe 1 e.check ++ [0] ++ toLe 2 e.sect ++ toLe 4 e.off

/-- R80: an image delivered while the device waits: its content checks, its effect and the reply. -/
def State.imageDelivered (s : State) (img : Bytes) (sess : Nat) (tag : W32) : State :=
  match s.imageContent img with
  | .ok (l, bad) => (s.bringIn (some img) l bad).reply sess cLayoutStage tag .ok (layBody none)
  | .error e =>
    let s1 : State := { s with phase := .waitImage, owl := { s.owl with staged := none } }
    (s1.layoutRejected e).reply sess cLayoutStage tag .badDescriptor (layBody (some e))

/-- R98, R100: no image passes: the built-in layout comes into force, or the device waits. -/
def State.tryBuiltin (s : State) : State :=
  let wait : State := { s with phase := .waitImage }
  if s.bootMode < 2 then
    match s.builtinLayout s.layoutStrap with
    | none => wait
    | some l => match s.builtinBad l with
      | none => s.bringIn none l []
      | some c => wait.layoutRejected ⟨c, 0, 0⟩
  else wait

/-- R79, R84: the content checks of the boot source's images in turn: the first that passes comes into force. After one that
fails, what is tried next may ask for another speed: then the channels train again before it is checked. -/
def State.tryImages : Nat → State → State
  | 0, s => s.tryBuiltin
  | n + 1, s => match (s.firstFormed s.flashImages).1 with
    | none => s.tryBuiltin
    | some (i, _) => match s.imageContent i with
      | .ok (l, bad) => s.bringIn (some i) l bad
      | .error e =>
        let s1 := (s.layoutRejected e).giveUp
        let s2 := (s1.firstFormed s1.flashImages).2.foldl State.layoutRejected s1
        if s2.speedDiffers then s2.startTraining else State.tryImages n s2

/-- R78–R80, R100: the content checks have run: an image or the built-in layout comes into force, or the device waits. -/
def State.contentChecks (s : State) : State :=
  match s.owl.staged with
  | some i => s.imageDelivered i s.owl.stSess s.owl.stTag
  | none => State.tryImages 2 s

def execLayoutOk (s : State) : Host.Outcome State Fault Refusal := .next (if s.phase = .content then s.contentChecks else s)

/-! ### The fill and the release (R101 steps 7 and 8) -/

/-- R104: the pool ranges of the layout in force with the key each is written under. -/
def State.extentKeys (s : State) : List (Nat × Nat × Nat) :=
  (s.lay.getD Layout.reset).extents.map fun e =>
    (e.base, e.count, match s.prec e.part with
      | none => 0
      | some r => tget 0 s.sec.slots r.keySlot)

/-- R104: every DRAM byte that can be written and the whole Burrow read zero, each extent under its owner's key. -/
def State.fillAll (s : State) (keep : Nat → Bool) : State :=
  { s with
    dram := s.dram.filter fun c => keep c.1
    dramPois := s.dramPois.filter fun l => keep (64 * l)
    dramKey := s.dramKey.filter fun e => keep (64 * e.1)
    fills := [(none, s.extentKeys)]
    scr := []
    scrPois := [] }

def execFillDone (s : State) : Host.Outcome State Fault Refusal :=
  if s.phase = .filling then
    let s1 := s.fillAll fun _ => false
    .next { s1 with top := { s1.top with fillDone := true }, phase := .releasing }
  else .next s

/-- R181: FM_NODE_UP naming the device on every ACTIVE port. -/
def State.announce (s : State) : State :=
  ((List.range 8).filter fun k => decide ((s.port k).st = .active)).foldl (fun s k =>
    let body := [BitVec.ofNat 128 (s.nodeId.toNat + 2 ^ 21 * s.srcGen.toNat)]
    s.offerPort k { ty := tyFmUp, dst := (s.port k).pnode, srcGen := s.srcGen, body := body }) s

/-- R174, R233: EPOCH_NOTE, with TOP_BOOTCNT and the amount of the change, once to each multicast group that a
SHARER_GROUPS entry names. -/
def State.epochNotes (s : State) (warm : Bool) : State :=
  ((s.lay.getD Layout.reset).groups.map (·.mcast)).eraseDups.foldl (fun s g =>
    let body := [BitVec.ofNat 128 (s.flash.bootcnt.toNat + 2 ^ 32 * b2n warm)]
    s.multicast g { ty := tyEpochNote, srcGen := s.srcGen, body := body }) s

/-- R497: the schedulers treat every enabled queue that is not in ERROR as newly enabled. -/
def State.recheckQueues (s : State) : State :=
  ((s.queues.filter fun (_, x) => x.en && x.err == 0).map (·.1)).foldl (fun s q =>
    match s.queuePart q with
    | none => s
    | some p => s.queueCheckIn q p) s

/-- R450, R452: every scrubber starts from the beginning; that of a channel still in self-refresh (R413) counts no time until it leaves it. -/
def State.restartScrubs (s : State) : State :=
  (List.range 33).foldl (fun s u =>
    let still := decide (u < 32) && (decide ((s.chan u).st = .held) || decide ((s.chan u).st = .selfRefresh))
    s.setScrub u { s.scrub u with
      pos := 0, lapAt := s.clk, lapLogged := false, readAt := [], idleAt := s.clk
      pausedAt := if still then some s.clk else none }) s

/-- Whether every partition reads QUIESCED. -/
def State.allQuiesced (s : State) : Bool := s.partList.all fun p => decide ((s.part p).st = .quiesced)

/-- R514 steps 2–4: once every partition reads QUIESCED: every key slot destroyed; consent, tokens, sections and the event
log cleared; fresh keys loaded. The fill runs. -/
def State.wipeAdvance (s : State) : State :=
  if s.sec.wipeRun ∧ !s.sec.wipeKeys ∧ s.allQuiesced then
    let l := s.lay.getD Layout.reset
    let s1 : State := { s with sec := { s.sec with slots := [], wipeKeys := true, wipeSlots := maskOf (s.sec.slots.map (·.1)) } }
    let s2 := (List.range 32).foldl State.clearConsent s1
    let s3 : State := { s2 with
      lay := s2.lay.map fun l => { l with secs := [] }
      rwt := s2.rwt.filter fun (k, _) => !(decide (rwtKey (.mcast 0) ≤ k) && decide (k < rwtKey (.route 0)))
      flash := { s2.flash with log := [] }
      owl := { s2.owl with evq := [] } }
    (s3.partList.foldl State.loadTraffic s3).loadSlots l
  else s

/-- R514 step 1: the wipe starts: op_hold in every partition. -/
def State.startWipe (s : State) : State :=
  let s1 : State := { s with
    flash := { s.flash with wiped := false }
    sec := { s.sec with wipeRun := true, wipeDone := false, wipeKeys := false, wipeAt := s.top.tick } }
  (s1.partList.foldl (fun s p => s.opHold p true) s1).wipeAdvance

/-- R264: the HELD counters of partitions that a warm reset has brought back to RUN are handed over. -/
def State.handKept (s : State) : State :=
  let kept (p : Nat) : Bool := decide ((s.part p).st = .run) && s.owl.held.any fun l => s.counterOf (l * 64) == some p
  (s.partList.filter kept).foldl State.toRun s

/-- R101 step 8, R106 step 8: the core is released. In SCRAPPED ready never rises (R528); in REFURBISH before the wipe has
completed, the wipe runs again (R516). -/
def execReadyRise (s : State) : Host.Outcome State Fault Refusal :=
  let warm := decide (s.phase = .warmRelease)
  if (s.phase = .releasing ∨ warm) ∧ s.life ≠ 4 then
    let x := s.xlt
    let s1 : State := { s with
      top := { s.top with ready := true }
      phase := .running
      owl := { s.owl with warmTries := 0 }
      xlt := if warm ∧ x.go then { x with go := false, done := true, status := 0 } else x }
    let s2 := ((s1.announce.epochNotes warm).restartScrubs)
    let s3 := if warm then s2.recheckQueues.handKept else s2
    .next (if !warm ∧ s3.life = 3 ∧ !s3.flash.wiped then s3.startWipe else s3)
  else .next s

/-! ### Warm reset: step 1 (R106, R497) -/

/-- R488, R497: an engine stops: its requests that have not started are discarded, a staged descriptor goes back to its queue, and a running
one ends ENGINE_LOST with partial set once its started transfers have ended. A reset of the engine is abandoned. -/
def State.stopEngine (s : State) (e : Nat) : State :=
  let x := s.eng e
  let lost (r : Run) : Run := { r with res := some ⟨.engineLost, true, r.done, 0⟩ }
  let s0 := s.setEng e { x with
    st := if x.st = .fenced then .fenced else .idle
    run := x.run.map lost, staged := none, resetReq := false, purgeGot := [], purged := [], fencing := false, settled := false }
  let s1 : State := { s0 with
    txns := s.txns.filter fun t => !(t.kind == .eng && t.unit == e && !t.started) }
  let s2 := match x.staged with
    | none => s1
    | some (q, d) => s1.giveBack q d
  s2.stopEnds e

/-- R497: a scheduler stops: its NOP or barrier, fetched descriptors and pending hand-overs complete CANCELLED. An invalidation
in progress writes no record (R292). -/
def State.stopQueue (s : State) (q : Nat) : State :=
  let x := s.queue q
  let s1 := match x.sched with
    | none => s
    | some d => (s.setQueue q { x with sched := none, barrier := false }).endStarted q ⟨.cancelled, false, 0, 0⟩ d 0xFF Status.cancelled.code
  let s2 := s1.cancelFetched q .cancelled
  let y := s2.queue q
  let s3 := y.inbox.foldl (fun s (_, c, _) => s.endHandOver q .cancelled c) s2
  s3.setQueue q { s3.queue q with inbox := [], fence := none, wake := false, open_ := 0 }

/-- R86, R88: a warm reset abandons a replacement whose scrub runs: the old section stays, and the scrub runs again. -/
def State.abandonLoad (s : State) : State :=
  match s.owl.repl with
  | none => s
  | some r => ({ s with owl := { s.owl with repl := none, scrubs := r.part :: s.owl.scrubs, reScrub := r.part :: s.owl.reScrub } } : State).reply r.sess cLayoutLoad r.tag
      .retryLater (s.loadBody 0 r.part)

/-- R106 step 1, R34, R88, R497, R496, R565: ready falls; descriptors end; armings are cancelled; a partition reset is
abandoned; host requests not performed are discarded. -/
def State.warmStep1 (s : State) (tries : Nat) : State :=
  let s1 := (s.flushRecords.engines.map (·.1)).foldl State.stopEngine s.flushRecords
  let s2 := ((s1.queues.map (·.1)).foldl State.stopQueue s1).flushRecords
  let s3 := s2.parts.foldl (fun s (p, x) =>
    if x.st = .resetting then s.setPart p { s.part p with
      st := if x.opHold ∨ x.tenantHold ∨ s.scrubbing p then .quiesced else .run, resetReq := false } else s) s2
  let s3 := s3.abandonLoad
  { s3 with
    arms := []
    top := { s3.top with ready := false }
    phase := .warmFlush
    chans := s3.chans.map fun (i, c) => (i, if c.st = .selfRefresh then { c with st := .run } else c)
    hst := { s3.hst with qps := s3.hst.qps.map fun (i, q) => (i, q.rollback) }
    owl := { s3.owl with warmTries := tries, warmAt := s.clk } }

/-! ### Steps 2–5 -/

/-- The dirty lines that no victim buffer holds: those that wait for their place in the line cache, and those in it. -/
def State.dirtyCached (s : State) : List (Nat × CLine) :=
  s.setts.flatMap fun (_, t) => ((t.insQ.filter fun v => v.c.dirty).map fun v => (v.line, v.c)) ++ t.cache.filter fun (_, c) => c.dirty

/-- The lines that step 2 writes: dirty lines of the line cache and the victim buffers. -/
def State.dirtyLines (s : State) : List (Nat × CLine) :=
  ((s.setts.flatMap fun (_, t) => t.victims).map fun v => (v.line, v.c)) ++ s.dirtyCached

/-- Whether the channel of a line does not accept writes: neither running, nor already failed or absent. -/
def State.stuckLine (s : State) (line : Nat) : Bool :=
  match s.locOf (line * 64) with
  | none => false
  | some k =>
    let c := s.chan (locChan k)
    !(decide (c.st = .run) && !c.halted && !(c.sub (locSub k)).catrain) && !decide (c.st = .failed) && !decide (c.st = .absent)

/-- R498: whether a dirty line can be written: its key is there, and its channel runs. -/
def State.flushes (s : State) (line : Nat) : Bool :=
  match s.locOf (line * 64), s.keyAt (line * 64) with
  | some k, some _ => decide ((s.chan (locChan k)).st = .run)
  | _, _ => false

/-- R106 step 2, R498, R392: one dirty line written to DRAM, or discarded: its key is gone, or its channel has failed. -/
def State.flushLine (s : State) (e : Nat × CLine) : State :=
  match s.locOf (e.1 * 64) with
  | some k => if s.flushes e.1 then s.dramStore k (e.1 * 64) ⟨e.2.data, e.2.poison⟩ else s
  | none => s

/-- R392, R402: every dirty line written, those of the victim buffers first, which BUR_VICTIMS counts. -/
def State.flushAll (s : State) : State :=
  let s1 := (s.setts.flatMap fun (_, t) => t.victims).foldl (fun s v =>
    let s1 := s.flushLine (v.line, v.c)
    if s.flushes v.line then { s1 with bur := { s1.bur with victims := sat s1.bur.victims } } else s1) s
  s.dirtyCached.foldl State.flushLine s1

/-- R413: a controller drained and in self-refresh. -/
def State.selfRefresh (s : State) (ch : Nat) : State :=
  if (s.chan ch).st = .run ∨ (s.chan ch).st = .held then
    let s1 := s.drainChan ch
    (s1.setChan ch { s1.chan ch with st := .selfRefresh }).scrubPause ch
  else s

/-- R106 step 4: a sett after the reset of the core: tables and copies empty; registers and counters kept. -/
def Sett.coreReset (t : Sett) : Sett :=
  { t with
    sweep := none, sweepQ := [], holds := [], snoops := [], dir := [], cache := [], victims := [], insQ := [], tc := []
    cmdFailover := false, cmdResync := false, halted := false, raw := [], rr := 0, nextSnp := 0
    pair := if t.pair = .resync then .single else t.pair }

/-- R106 step 4, R20: an engine: its generation increments; a fenced one stays so until its test. -/
def Engine.coreReset (x : Engine) : Engine :=
  { x with
    st := if x.st = .fenced then .fenced else .idle
    gen := x.gen + 1
    resetReq := false, run := none, staged := none, sbuf := [], used := false, raw := [], tc := [], out := [], ans := []
    purgeGot := [], purged := [], fencing := false, settled := false, halted := false
    gated := decide (x.st = .fenced) }

/-- R106 step 4: a queue's scheduler: enables, ERROR and indices kept. -/
def Queue.coreReset (x : Queue) : Queue :=
  { x with toRead := [], ready := [], hand := [], inbox := [], chainRd := [], open_ := 0, barrier := false, sched := none, fence := none, wake := false }

/-- R106 step 4, R20, R473, R525: a partition: its generation increments, buckets are full, egress queues are empty and the
token is void; holds, the ring and counters are kept, and so are the SPDM mailbox and exchange, which are Owl's state. -/
def State.partCore (s : State) (p : Nat) : State :=
  let x := s.part p
  let d := x.dbg
  let s1 := s.setPart p { x with
    gen := x.gen + 1
    resetReq := false
    dbg := { d with token := none, reqs := 0, parks := 0, holdWaits := 0, snptos := 0, trace := [], sample := 0 }
    ext := { x.ext with stBase := BitVec.ofNat 27 x.ext.base, stSize := BitVec.ofNat 16 x.ext.size } }
  (List.range 10).foldl (fun s k =>
    let q := s.pqos p k
    let pol := s.policer p k
    s.setPqos p k { q with
      egress := [], deficit := 0, waited := false
      committed := (pol.map (·.cbs)).getD 0 * 1200
      peak := (pol.map (·.pbs)).getD 0 * 1200
      shaper := (s.shaperOf p k).2 * 1200 }) s1

/-- R106 step 4: the core units reset, other than Owl, the link state and the triplicated fields. -/
def State.coreReset (s : State) : State :=
  let s1 : State := { s with
    top := { s.top with fillDone := false }
    setts := s.setts.map fun (i, t) => (i, t.coreReset)
    engines := (List.range 64).map fun e => (e, (s.eng e).coreReset)
    inq := []
    queues := s.queues.map fun (i, x) => (i, x.coreReset)
    txns := []
    nodes := []
    xlt := { s.xlt with walk := [], ctx := [], oc := [], drains := [] }
    ports := s.ports.map fun (k, p) => (k, { p with txq := [] })
    bur := { s.bur with halted := false, raw := [] }
    txn0 := s.nextTxn }
  (List.range 32).foldl State.partCore s1

/-! ### A staged image at a warm reset (R81, R82) -/

/-- A stored location lies in a range of 2 MiB units of the pool. -/
def State.locIn (s : State) (loc base count : Nat) : Bool :=
  match s.paOf (locChan loc) (locRank loc) (locQ loc) with
  | none => false
  | some pa => decide (base ≤ pa / mib2) && decide (pa / mib2 < base + count)

/-- A range of the pool zero-filled under the keys in force, with every copy of its lines dropped. -/
def State.zeroPool (s : State) (base count : Nat) : State :=
  let inR (line : Nat) : Bool := decide (base ≤ line * 64 / mib2) && decide (line * 64 / mib2 < base + count)
  let fresh (u : SubCh) : SubCh := { u with wq := u.wq.filter fun w => !inR w.line }
  let ks := s.extentKeys.filterMap fun (b, n, k) =>
    let lo := max b base
    let hi := min (b + n) (base + count)
    if lo < hi then some (lo, hi - lo, k) else none
  { s with
    dram := s.dram.filter fun c => !s.locIn (c.1 / 64 * 64) base count
    dramPois := s.dramPois.filter fun l => !s.locIn (64 * l) base count
    dramKey := s.dramKey.filter fun e => !s.locIn (64 * e.1) base count
    fills := (none, ks) :: s.fills
    setts := s.setts.map fun (i, t) => (i, { t with
      cache := t.cache.filter fun (l, _) => !inR l
      victims := t.victims.filter fun v => !inR v.line
      insQ := t.insQ.filter fun v => !inR v.line })
    chans := s.chans.map fun (i, c) => (i, { c with subA := fresh c.subA, subB := fresh c.subB })
    owl := { s.owl with held := s.owl.held.filter fun l => !inR l } }

/-- The owner of something: a partition and its tenant. R82 does not say what an owner is: here another tenant tag of the same partition, or
a section that failed its checks and so gives none, is a change of owner, whose extents and key slot are scrubbed, so that no tenant reads
what another one stored (DESIGN CHOICE, log 22). -/
def State.ownerOf (s : State) (p : Option Nat) : Option (Nat × W32) := p.map fun p => (p, s.tenant p)

/-- The owner of key slot k. -/
def State.keyOwner (s : State) (k : Nat) : Option (Nat × W32) :=
  s.ownerOf (((s.lay.getD Layout.reset).parts.find? fun r => r.keySlot == k).map (·.part))

/-- The owner of engine e. -/
def State.engOwner (s : State) (e : Nat) : Option (Nat × W32) := s.ownerOf (s.engPart e)

/-- The parts of an extent that change owner, as ranges of units: cut where the old extents begin and end. -/
def State.changedUnits (old new : State) (e : Extent) : List (Nat × Nat) :=
  let cuts := ((old.lay.getD Layout.reset).extents.flatMap fun x => [x.base, x.base + x.count]).filter fun c =>
    decide (e.base < c) && decide (c < e.base + e.count)
  let edge := (sortBy (fun a b => decide (a ≤ b)) cuts) ++ [e.base + e.count]
  let segs := (edge.foldl (fun (acc : List (Nat × Nat) × Nat) c => (acc.1 ++ [(acc.2, c - acc.2)], c)) ([], e.base)).1
  segs.filter fun (b, n) => decide (0 < n) &&
    decide (old.ownerOf (old.extPart (mib2 * b)) ≠ new.ownerOf (some e.part))

/-- R82, R399: after a new global section: the extents that change owner are zero-filled, and their key slots destroyed; the
core's reset has cleared scratch and the engines' buffers. The partitions that gain something wait for the end of the scrub,
which loads fresh keys. An extension that its partition's extents no longer hold is removed and recorded. -/
def State.changeOwners (old s : State) : State :=
  let l := s.lay.getD Layout.reset
  let s1 := (l.extents.flatMap fun e => State.changedUnits old s e).foldl (fun s (b, n) => s.zeroPool b n) s
  let s2 := ((List.range 32).filter fun k => decide (keyOwner old k ≠ keyOwner s k)).foldl State.dropKey s1
  let gains (p : Nat) : Bool := (l.extents.any fun e => e.part == p && !(State.changedUnits old s e).isEmpty) ||
    ((List.range 32).any fun k => decide (keyOwner old k ≠ keyOwner s k) && (keyOwner s k).map (·.1) == some p) ||
    ((List.range 64).any fun e => (s.engOwner e).isSome && decide (old.engOwner e ≠ s.engOwner e) && (s.engOwner e).map (·.1) == some p) ||
    (decide (old.ownerOf (some p) ≠ s.ownerOf (some p)) || decide (old.scrQuota p < s.scrQuota p) || decide (old.scrBase p ≠ s.scrBase p)) &&
      decide (0 < s.scrQuota p)
  let s3 : State := { s2 with owl := { s2.owl with scrubs := s.partList.filter fun p => gains p || s2.owl.scrubs.contains p } }
  (List.range 32).foldl (fun s p =>
    let x := (s.part p).ext
    if x.size = 0 ∨ s.inOneExtent p (mib2 * x.base) (mib2 * x.size) then s
    else (s.setExt p { x with stBase := 0, stSize := 0, base := 0, size := 0 }).logEvent 0x19 0 0 0 (BitVec.ofNat 8 p)) s3

/-- R77: why an image fails its checks of form or those of its global section. -/
def State.imageBad (s : State) (img : Bytes) : Option LayErr :=
  match s.imageForm img with
  | some e => some e
  | none => match s.imageContent img with
    | .error e => some e
    | .ok _ => none

/-- R77, R81: step 5: the staged image comes into force, if its content passes; partition sections are kept with an
unchanged global digest. Else the image in force, which is checked again, stays: a failure is recorded. -/
def State.reload (s : State) : State :=
  let again (s : State) : State := { s with qos := { s.qos with gate := 0, gateOpen := true } }
  match s.owl.staged with
  | none => again (match s.owl.image.bind s.imageBad with
      | none => s
      | some e => s.layoutRejected e)
  | some img =>
    let s0 : State := { s with owl := { s.owl with staged := none } }
    match s0.imageContent img with
    | .error e => s0.layoutRejected e
    | .ok (l, bad) =>
      let same := l.digest == (s0.lay.getD Layout.reset).digest && !(s0.lay.getD Layout.reset).builtin
      let s1 : State := { s0 with owl := { s0.owl with image := some img } }
      if same then again s1 else State.changeOwners s1 (s1.takeLayout l bad)

/-- R497: whether a descriptor that the warm reset has stopped has not completed. -/
def State.stopping (s : State) : Bool := s.engines.any fun (_, x) => x.run.isSome

/-- R497: the stopped descriptors whose started transfers have ended complete. -/
def State.stopsEnd (s : State) : State := if s.phase = .warmFlush then (s.engines.map (·.1)).foldl State.stopEnds s else s

/-- R498: whether a channel cannot enter self-refresh now: it takes no command while it is halted, or replays or retrains its command bus. -/
def State.stuckChan (s : State) (c : Nat) : Bool :=
  let x := s.chan c
  decide (x.st = .run) && (x.halted || x.catrain || x.replays 0 s.clk || x.replays 1 s.clk)

/-- R106 steps 3–5: DRAM in self-refresh, the core units reset, the counters of boots advanced and the global section
reloaded. Every record is written before (R497). -/
def State.warmHold (s0 : State) : State :=
  let s := s0.flushRecords
  let s0 := ((List.range 32).filter fun c => decide ((s.chan c).st = .run)).foldl State.drainChan s
  let s1 := s0.flushAll
  let s2 := (List.range 32).foldl (fun s c => (s.setChan c { s.chan c with migPaused := (s.chan c).migr.isSome }).selfRefresh c) s1
  let s3 := s2.coreReset
  let s4 := s3.writeCfg fun f => { f with bootcnt := f.bootcnt + 1 }
  { s4.reload with phase := .warmHold }

/-- R106 step 2 has ended: every descriptor has its record, every dirty line has been written, and every channel can enter
self-refresh. -/
def execWarmFlushDone (s : State) : Host.Outcome State Fault Refusal :=
  let s1 := s.stopsEnd
  if s1.phase = .warmFlush ∧ !s1.stopping ∧ !(s1.dirtyLines.any fun e => s1.stuckLine e.1) ∧ !((List.range 32).any s1.stuckChan) then .next s1.warmHold
  else .next s1

/-- R498: 50 ms in step 2: each channel that has not accepted its dirty lines, or cannot enter self-refresh, is made FAILED. A transfer still
open then, which R221 and R225 end long before, ends with its descriptor. -/
def execWarmFlushTimeout (s : State) : Host.Outcome State Fault Refusal :=
  if s.phase = .warmFlush ∧ 120000000 + s.owl.warmAt ≤ s.clk then
    let s1 := ({ s with txns := s.txns.filter fun t => t.kind != .eng } : State).stopsEnd
    let bad := (List.range 32).filter fun c => s1.stuckChan c || s1.dirtyLines.any fun e => s1.stuckLine e.1 && (match s1.locOf (e.1 * 64) with
      | none => false
      | some k => locChan k == c)
    .next (bad.foldl (fun s c => (s.channelFailed c).logEvent 0x1B 0 1 0 0xFF) s1).warmHold
  else .next s

/-! ### Steps 6–8 -/

/-- R106 steps 6 and 7, R186, R230, R255: DRAM leaves self-refresh; the Burrow's fill begins, with the deduplication cache
empty; epochs advance; draining is cleared in every valid region descriptor. It begins at least 64 µs after ready fell. -/
def State.warmExit (s : State) : State :=
  let s1 : State := { s with
    chans := s.chans.map fun (i, c) => (i, { c with
      st := if c.st = .selfRefresh then (if c.hold then .held else .run) else c.st
      migPaused := false })
    dedup := []
    scr := []
    scrPois := []
    phase := .warmFill }
  let s1 := s1.writeCfg fun f => { f with epochOfs := f.epochOfs + 1 }
  s1.partList.foldl (fun s p =>
    (List.range 1024).foldl (fun s i => match s.regionDesc p i with
      | none => s
      | some a => match s.locOf a with
        | none => s
        | some k =>
          let v := s.dramLine k a
          if (fld v.data 4 1).testBit 0 ∧ (fld v.data 4 1).testBit 1 ∧ !v.poison then
            s.dramStore k a ⟨overlay v.data 4 [BitVec.ofNat 8 (fld v.data 4 1 - 2)], false⟩
          else s) s) s1

def execWarmSelfRefreshExit (s : State) : Host.Outcome State Fault Refusal :=
  if s.phase = .warmHold ∧ 153600 + s.owl.warmAt ≤ s.clk then .next s.warmExit else .next s

/-- R499: an attempt has failed: recorded, and the warm reset starts once more; after the second, the device waits. -/
def State.warmFails (s : State) : State :=
  let s1 := s.logEvent 0x1B 0 2 0 0xFF
  if s.owl.warmTries ≤ 1 then s1.warmStep1 2 else { s1 with phase := .warmFailed }

/-- R486, R494: the built-in tests: engines that pass return to service; a LOST or SINGLE pair returns as its units pass. -/
def State.selfTests (s : State) (tests : BitVec 96) : State :=
  let s1 := ((List.range 64).filter fun e => decide ((s.eng e).st = .fenced)).foldl (fun s e => s.testEngine e (tests.getLsbD e)) s
  (List.range 16).foldl (fun s n =>
    let t := s.sett n
    if t.pair = .pair ∨ t.pair = .resync then s
    else s.setSett n (t.tested (tests.getLsbD (64 + 2 * n)) (tests.getLsbD (65 + 2 * n)))) s1

/-- R106 step 7, R499: the Burrow's fill ends, or meets an uncorrectable write. -/
def execWarmZeroFillDone (ok : Bool) (tests : BitVec 96) (s : State) : Host.Outcome State Fault Refusal :=
  if s.phase = .warmFill then
    if ok then .next { s.selfTests tests with phase := .warmRelease } else .next s.warmFails
  else .next s

/-- R499: 10 s since step 1. -/
def execWarmResetTimeout (s : State) : Host.Outcome State Fault Refusal :=
  if s.inWarm ∧ s.phase ≠ .warmFailed ∧ 24000000000 + s.owl.warmAt ≤ s.clk then .next s.warmFails else .next s

end Sys2Proof.Machine
end

