-- ==== Sys2Proof/Machine/PowerStates.lean ====
section
/-! DEFINITION. Power states (R584–R595) and the requests for a warm reset (R91, R610). -/

namespace Sys2Proof.Machine
open Sys2Proof

/-! ### The parts of entries and exits -/

/-- R587: every engine's clock gated. -/
def State.gateEngines (s : State) (v : Bool) : State :=
  (List.range 64).foldl (fun s e =>
    let x := s.eng e
    if x.st = .fenced then s else s.setEng e { x with gated := v, prog0 := if v then x.prog0 else s.clk }) s

/-- Whether a descriptor runs on some engine. -/
def State.anyRun (s : State) : Bool := s.engines.any fun (_, x) => x.run.isSome

/-- R588 step 3: every ACTIVE port starts to change to the four lowest lanes of its plan. -/
def State.narrowPorts (s : State) : State :=
  (List.range 8).foldl (fun s k =>
    let p := s.port k
    let m := maskOf ((lanesIn p.plan).take 4)
    if p.st ≠ .active then s
    else
      let p1 := { p with prePlan := some p.plan }
      s.setPort k (if m = p.plan then p1 else p1.startPlan s.clk m)) s

/-- R588 step 3: the lanes that left the plans of narrowed ports are set OFF. -/
def State.lanesOff (s : State) : State :=
  (List.range 8).foldl (fun s k => match (s.port k).prePlan with
    | none => s
    | some m => (lanesIn (m &&& ~~~(s.port k).plan)).foldl (fun s l => s.lnkLanePower k l false) s) s

/-- R590: the lanes that a narrowed port held before are powered and trained. -/
def State.lanesOn (s : State) : State :=
  (List.range 8).foldl (fun s k => match (s.port k).prePlan with
    | none => s
    | some m => (lanesIn (m &&& ~~~(s.port k).plan)).foldl (fun s l => s.lnkLanePower k l true) s) s

/-- R590: a port starts to change back to the plan it held before, less the lanes that failed meanwhile (R162). -/
def State.widenPorts (s : State) : State :=
  (List.range 8).foldl (fun s k =>
    let p := s.port k
    match p.prePlan with
    | none => s
    | some m =>
      let p1 := { p with prePlan := none }
      let good := (lanesIn m).filter fun l => p1.powered l && (decide ((p1.lane l).st = .standby) || decide ((p1.lane l).st = .inPlan))
      match cutPlan good [] with
      | some w => s.setPort k (if p.st = .active ∧ w ≠ p.plan then p1.startPlan s.clk w else p1)
      | none => s.setPort k p1) s

/-- Whether some lane of a narrowed port still trains. -/
def State.lanesTraining (s : State) : Bool :=
  (List.range 8).any fun k => (s.port k).prePlan.isSome && (List.range 32).any fun l => ((s.port k).lane l).training

/-- Whether a plan exchange is outstanding at some ACTIVE port. -/
def State.plansOut (s : State) : Bool :=
  (List.range 8).any fun k => decide ((s.port k).st = .active) && ((s.port k).planOut.isSome || (s.port k).planIn.isSome)

/-- R413, R590: the controllers leave self-refresh. -/
def State.wakeDram (s : State) : State :=
  let out := (s.chans.filter fun (_, c) => decide (c.st = .selfRefresh) && !c.hold).map (·.1)
  out.foldl State.scrubResume { s with chans := s.chans.map fun (i, c) =>
    (i, if c.st = .selfRefresh then { c with st := if c.hold then .held else .run } else c) }

/-- R428: whether segment i of a channel, 8 × rank + segment, is kept: where the devices do not mask self-refresh by segment (R403), a rank
with any kept segment is kept whole. -/
def Chan.keeps (c : Chan) (i : Nat) : Bool :=
  if c.dimm.segs then c.pasr.getLsbD i else (List.range 8).any fun j => c.pasr.getLsbD (8 * (i / 8) + j)

/-- R428, R429: the segments of a channel that are not kept lose their contents: they read zero after exit, under the keys
in force. -/
def State.dropSegments (s : State) (ch : Nat) : State :=
  let c := s.chan ch
  let n := gib * c.dimm.rankGib.toNat / 8
  (List.range 32).foldl (fun s i =>
    if c.keeps i ∨ !c.dimm.present.getLsbD (i / 8) ∨ n = 0 then s
    else
      let a := locKey ch (i / 8) (i % 8 * n)
      let out (l : Nat) : Bool := !(decide (a ≤ l) && decide (l < a + n))
      { s with
        dram := czero s.dram a n
        dramPois := s.dramPois.filter fun l => out (64 * l)
        dramKey := s.dramKey.filter fun e => out (64 * e.1)
        fills := (some (a / 64, n / 64), s.extentKeys) :: s.fills }) s

/-- R591 step 3: a sett recalls its directory entries, as many as its snoop tags and the minimum holds allow. -/
def State.sweepSett (s : State) (n : Nat) : State :=
  let t : Txn := { id := s.nextTxn, sett := n, kind := .dev, phase := .recall, part := 0xFF }
  if (s.sett n).dir.isEmpty ∨ (s.sett n).pair = .lost then s
  else
    let s1 := (s.sett n).dir.foldl (fun s (b, _) =>
      if s.recallFits n b then
        let (x, dead) := s.recallEntry t n b
        x.unanswered State.death dead
      else s) (s.openTxn t)
    if (s1.snoopsOf n t.id).isEmpty then s1.dropTxn t.id else s1

/-! ### Requests (R585, R586) -/

/-- The reply of the POWER_STATE command in progress. -/
def State.powerReply (s : State) (st : Status) : State :=
  let s1 : State := { s with owl := { s.owl with transit := false } }
  s1.reply s.owl.pwSess cPower s.owl.pwTag st [BitVec.ofNat 8 s.owl.pwr.code]

/-- A transition to `target` begins. -/
def State.powerBegin (s : State) (target : PwrState) : State :=
  { s with owl := { s.owl with transit := true, target := target, pwSince := s.clk, pwStep := 0 } }

/-- R587: GATE is reached. -/
def State.gated (s : State) : State :=
  let s1 := s.gateEngines true
  ({ s1 with owl := { s1.owl with pwr := .gate } } : State).powerReply .ok

/-- R588, R591: once every partition reads QUIESCED, the engines are gated, and the ports narrow, once their plan exchanges have ended, or
the sweep starts. -/
def State.powerAdvance (s : State) : State :=
  let o := s.owl
  if o.transit ∧ o.pwr = .run ∧ o.pwStep = 0 ∧ (o.target = .drowse ∨ o.target = .hibernate) ∧ s.allQuiesced then
    let s1 := s.gateEngines true
    if o.target = .drowse ∧ s.plansOut then s1
    else if o.target = .drowse then { s1.narrowPorts with owl := { s1.owl with pwStep := 2 } }
    else (List.range 16).foldl State.sweepSett { s1 with owl := { s1.owl with pwStep := 1 } }
  else s

/-- R588 step 1: op_hold in every partition where it is 0. -/
def State.holdAll (s : State) : State :=
  let ps := s.partList.filter fun p => !(s.part p).opHold
  let s1 := ps.foldl (fun s p => s.opHold p true) s
  { s1 with owl := { s1.owl with noted := ps } }

/-- Owl releases the holds it set, and only those. -/
def State.releaseHolds (s : State) : State :=
  let s1 := s.owl.noted.foldl (fun s p => s.opHold p false) s
  { s1 with owl := { s1.owl with noted := [] } }

/-- An entry from RUN begins. -/
def State.enterState (s : State) (target : PwrState) : State :=
  let s1 := s.powerBegin target
  match target with
  | .gate => if s1.anyRun then s1 else s1.gated
  | .drowse | .hibernate => s1.holdAll.powerAdvance
  | .run | .off => s1.powerReply .ok

/-- R593: the WBK messages held at the ring inputs are handled. -/
def State.takeHeldWbk (s : State) : State :=
  let l := s.owl.hibWbk
  let s1 : State := { s with owl := { s.owl with hibWbk := [], swept := false } }
  l.foldl (fun s (k, m, ty) => s.wbIn k (if ty = tyWbDirty then .wbDirty else .wbClean) m Noise.none) s1

/-- The exit from the state in force begins; that from GATE ends at once. -/
def State.leaveState (s : State) (target : PwrState) : State :=
  let s1 := s.powerBegin target
  match s.owl.pwr with
  | .gate =>
    let s2 := s1.gateEngines false
    let s3 : State := { s2 with owl := { s2.owl with pwr := .run } }
    if target = .run then s3.powerReply .ok else s3.enterState target
  | .hibernate => s1.takeHeldWbk.wakeDram.lanesOn
  | _ => s1.wakeDram.lanesOn

/-- R528, R586: the status with which a request is refused; OK when it is taken. -/
def State.powerStatus (s : State) (target : PwrState) : Status :=
  let deep := target == .drowse || target == .hibernate
  let low := deep || target == .gate
  Status.first [
    if s.life = 4 ∧ low then .unsupported else .ok,
    if target = .off ∧ s.flash.regs.isEmpty then .unsupported else .ok,
    if s.owl.transit then .retryLater else .ok,
    if s.chans.any (fun (_, c) => c.migr.isSome) then .retryLater else .ok,
    if s.owl.repl.isSome ∨ !s.owl.scrubs.isEmpty then .retryLater else .ok,
    if low ∧ !s.top.ready then .retryLater else .ok,
    if s.sec.d2 ∧ deep then .retryLater else .ok,
    if s.life = 3 ∧ !s.flash.wiped ∧ low then .retryLater else .ok]

/-- R594: OFF: the log is written, the reply goes out, and the device rails are turned off in reverse order, by PMBus
OPERATION (command 0x01, data 0x00). -/
def State.powerOff (s : State) : State :=
  let s1 := s.flushLog
  let s2 := ({ s1 with owl := { s1.owl with pwr := .off, transit := false } } : State).reply s1.owl.pwSess cPower s1.owl.pwTag .ok [4]
  { s2 with owl := { s2.owl with pmOut := s2.owl.pmOut ++ s2.flash.regs.reverse.map fun i => [BitVec.ofNat 8 i, 0x01, 0x02, 0x01, 0x00] } }

/-- R585–R594: a POWER_STATE command. -/
def State.powerState (s : State) (sess : Nat) (tag : W32) (target : PwrState) : State :=
  s.command sess cPower tag fun s =>
    let st := s.powerStatus target
    let here : Bytes := [BitVec.ofNat 8 s.owl.pwr.code]
    if st ≠ .ok then s.reply sess cPower tag st here
    else if s.owl.pwr = target then s.reply sess cPower tag .ok here
    else
      let s1 : State := { s with owl := { s.owl with pwSess := sess, pwTag := tag } }
      if target = .off then s1.powerOff
      else if s1.owl.pwr = .run then s1.enterState target else s1.leaveState target

def execPowerStateRun (sess : Nat) (tag : W32) (s : State) : Host.Outcome State Fault Refusal := .next (s.powerState sess tag .run)
def execPowerStateGate (sess : Nat) (tag : W32) (s : State) : Host.Outcome State Fault Refusal := .next (s.powerState sess tag .gate)
def execPowerStateDrowse (sess : Nat) (tag : W32) (s : State) : Host.Outcome State Fault Refusal := .next (s.powerState sess tag .drowse)
def execPowerStateHibernate (sess : Nat) (tag : W32) (s : State) : Host.Outcome State Fault Refusal :=
  .next (s.powerState sess tag .hibernate)
def execPowerStateOff (sess : Nat) (tag : W32) (s : State) : Host.Outcome State Fault Refusal := .next (s.powerState sess tag .off)

/-! ### Warm-reset requests (R91, R595, R610) -/

/-- R595: a request during an entry: the entry is abandoned with RETRY_LATER, and the holds it set are released. -/
def State.abandonEntry (s : State) : State :=
  let s1 := (s.powerReply .retryLater).releaseHolds
  let s2 := (s1.gateEngines false).wakeDram
  { s2 with
    owl := { s2.owl with pwr := .run, pwStep := 0 }
    ports := s2.ports.map fun (k, p) => (k, { p with prePlan := none }) }

/-- A warm reset runs from its step 1; messages that HIBERNATE held meet R232. -/
def State.startWarm (s : State) : State := (s.warmStep1 1).takeHeldWbk

/-- R91: a request for a warm reset: joined, ignored and recorded, held by a wipe, or carried out. In another power state
the exit runs first. -/
def State.warmRequest (s : State) : State :=
  if !s.pwrgood ∨ s.thermtrip ∨ s.owl.pwr = .off then s
  else if s.inWarm ∧ s.phase ≠ .warmFailed then s
  else if s.phase = .warmFailed then s.startWarm
  else if !s.top.ready then s.logPlain 0x10 0
  else if s.sec.wipeRun then { s with owl := { s.owl with warmHeld := true } }
  else if s.owl.pwr = .run then (if s.owl.transit then s.abandonEntry.startWarm else s.startWarm)
  else if s.owl.pwr = .gate then
    let s1 := if s.owl.transit then s.powerReply .retryLater else s
    let s2 := s1.gateEngines false
    ({ s2 with owl := { s2.owl with pwr := .run } } : State).startWarm
  else
    let s1 : State := { s with owl := { s.owl with warmHeld := true } }
    if s.owl.transit then s1
    else ({ s1 with owl := { s1.owl with pwSess := noSess } } : State).leaveState .run

/-- R610: WRST_N falls and stays low for `ns`: at least 1 µs requests a warm reset. -/
def execWrstNFall (ns : Nat) (s : State) : Host.Outcome State Fault Refusal :=
  if 1000 ≤ ns then .next { s with wrstN := true }.warmRequest else .next s

/-! ### The ends of transitions -/

/-- R590, R592: an exit ends: engines run, holds are released, and the warm reset or the entry that waited follows. -/
def State.exitEnds (s : State) : State :=
  let s1 := s.gateEngines false
  let s2 := ({ s1 with owl := { s1.owl with pwr := .run } } : State).releaseHolds
  if s2.owl.warmHeld then
    (({ s2 with owl := { s2.owl with warmHeld := false } } : State).powerReply
      (if s2.owl.target = .run then .ok else .retryLater)).startWarm
  else if s2.owl.target = .run then s2.powerReply .ok else s2.enterState s2.owl.target

/-- R413, R416: whether every controller can enter self-refresh now. -/
def State.dramRests (s : State) : Bool :=
  (List.range 32).all fun c => !(decide ((s.chan c).st = .run) && (!s.canDrain c || s.stuckChan c))

/-- R588, R591 steps 6 and 7: an entry ends: lanes off, DRAM in self-refresh, and in HIBERNATE the directory and line cache
powered down. -/
def State.entryEnds (s : State) : State :=
  let s1 := (List.range 32).foldl State.selfRefresh s.lanesOff
  let s2 : State := if s1.owl.target = .hibernate then
      { s1 with setts := s1.setts.map fun (i, t) => (i, { t with dir := [], cache := [], insQ := [] }) }
    else s1
  ({ s2 with owl := { s2.owl with pwr := s2.owl.target } } : State).powerReply .ok

/-- R585: an entry or exit that waited ends, and Owl replies. -/
def State.powerReached (s : State) : State :=
  let o := s.owl
  if !o.transit then s
  else if o.pwr = .run then
    (match o.target with
    | .gate => if s.anyRun then s else s.gated
    | .drowse | .hibernate =>
      if o.pwStep = 0 then s.powerAdvance else if o.pwStep = 2 ∧ !s.plansOut ∧ s.dramRests then s.entryEnds else s
    | _ => s)
  else if o.pwStep = 0 then
    if s.lanesTraining ∨ s.plansOut then s
    else
      let s1 := s.widenPorts
      if s1.plansOut then { s1 with owl := { s1.owl with pwStep := 1 } } else s1.exitEnds
  else if s.plansOut then s else s.exitEnds

def execPowerStateReached (s : State) : Host.Outcome State Fault Refusal := .next s.powerReached

/-- R587: descriptors still run 10 ms after the request: the entry is cancelled. -/
def execGateEntryTimeout (s : State) : Host.Outcome State Fault Refusal :=
  let o := s.owl
  if o.transit ∧ o.target = .gate ∧ o.pwr = .run ∧ s.anyRun ∧ Config.ms10Clk + o.pwSince ≤ s.clk then .next (s.powerReply .retryLater) else .next s

/-- R591 steps 3–6, R593: the recall sweep ends once no entry is held and no snoop is open: the controllers drain (R408), the dirty lines
are written, the controllers enter partial-array self-refresh, and the ports narrow. Entries that could not be recalled before are recalled
now. It waits for a channel that does not take its dirty lines, or cannot drain, and for plan exchanges to end. -/
def State.sweepEnds (s : State) : State :=
  let o := s.owl
  if !o.transit ∨ o.target ≠ .hibernate ∨ o.pwr ≠ .run ∨ o.pwStep ≠ 1 ∨
      s.setts.any (fun (_, t) => !t.snoops.isEmpty || t.sweep.isSome) then s
  else
    let s0 := (List.range 16).foldl State.sweepSett s
    if s0.setts.any fun (_, t) => !t.snoops.isEmpty || (!t.dir.isEmpty && decide (t.pair ≠ .lost)) then s0
    else if (s0.dirtyLines.any fun e => s0.stuckLine e.1) || !s0.dramRests || s0.plansOut then s0
    else
    let s1 := (((List.range 32).filter fun c => decide ((s0.chan c).st = .run)).foldl State.drainChan s0).flushAll
    let s2 : State := { s1 with setts := s1.setts.map fun (i, t) => (i, { t with
      victims := []
      insQ := t.insQ.map fun v => { v with c := { v.c with dirty := false } }
      cache := t.cache.map fun (l, c) => (l, { c with dirty := false }) }) }
    let s3 := (List.range 32).foldl (fun s c => (s.selfRefresh c).dropSegments c) s2
    { s3.narrowPorts with owl := { s3.owl with pwStep := 2, swept := true } }

def execHibernateSweepEnd (s : State) : Host.Outcome State Fault Refusal := .next s.sweepEnds

end Sys2Proof.Machine
end

