-- ==== Sys2Proof/Machine/Security.lean ====
section
/-! DEFINITION. Lifecycle orders (R503–R508), the refurbishment wipe (R514–R517), attestation (R518–R520) and the tenant's
consent (R522–R526). -/

namespace Sys2Proof.Machine
open Sys2Proof

/-- R117, R514, R588: a partition becomes QUIESCED: what waits for it goes on. -/
def execPartitionQuiesced (p : Nat) (s : State) : Host.Outcome State Fault Refusal := .next (s.quiesce p).powerAdvance.wipeAdvance

/-! ### Consent (R522–R525) -/

/-- R522: PART_CKEY registered, or all zeros clearing the key; any token is revoked. -/
def State.keySet (s : State) (p : Nat) : State :=
  let d := (s.part p).dbg
  let k := (List.range 16).flatMap fun i => toLe 4 (tget 0 d.ckey i).toNat
  s.setDbg p { d.dropToken with key := if k.all (· == 0) then none else some k }

/-- PART_TOKEN as bytes. -/
def Dbg.tokenBytes (d : Dbg) : Bytes := (List.range 32).flatMap fun i => toLe 4 (tget 0 d.tokw i).toNat

/-- R523: whether a token's fields agree with the partition and the device. -/
def State.tokenAgrees (s : State) (p : Nat) (b : Bytes) : Bool :=
  fld b 0 4 == 0x7200C0A5 && fld b 4 4 == (s.tenant p).toNat && fld b 8 1 == p && decide (fld b 9 1 < 8) && decide (fld b 10 1 < 16) &&
    fld b 12 4 == s.flash.bootcnt.toNat && slice b 16 16 == s.deviceId

/-- R523, R529: the outcome of an install: 1 INSTALLED, 2 NO_KEY, 3 BAD_SIGNATURE, 4 MISMATCH, 5 EXPIRED, 6 D2_OPEN; of several
causes, the first of the order 6, 2, 3, 4, 5 (log 35). -/
def State.tokenResult (s : State) (p : Nat) : Nat :=
  let d := (s.part p).dbg
  let b := d.tokenBytes
  if s.sec.d2 then 6
  else match d.key with
    | none => 2
    | some k =>
      if !sm2Verify sigConsent k (slice b 0 64) (slice b 64 64) then 3
      else if !s.tokenAgrees p b then 4
      else if fld b 32 8 ≤ s.top.tick.toNat then 5 else 1

/-- R525: whether the installed token lapsed before this fabric clock: TOP_TICK, which counts each 24th of them, reached its limit then. -/
def State.lapsedBefore (s : State) (p : Nat) : Bool :=
  match (s.part p).dbg.token with
  | none => false
  | some t => decide (t.limit < s.top.tick.toNat) || (t.limit == s.top.tick.toNat && s.clk % Config.refClk != 0)

/-- R523, R525: PART_TOKEN checked and installed, or refused with any installed token left in force. D1 goes on without a break where the old
token has not lapsed before this clock. -/
def State.tokenInstall (s : State) (p : Nat) : State :=
  let r := s.tokenResult p
  let d := (s.part p).dbg
  if r = 1 then
    let b := d.tokenBytes
    s.setDbg p { (if s.lapsedBefore p then d.dropToken else d) with token := some ⟨BitVec.ofNat 3 (fld b 9 1), fld b 10 1, fld b 32 8⟩, result := 1 }
  else
    let s1 := s.setDbg p { d with
      result := BitVec.ofNat 3 r, tokRefused := sat d.tokRefused, evstat := setBit d.evstat 0 }
    { s1 with sec := { s1.sec with tokRefused := sat s1.sec.tokRefused, evstat := setBit s1.sec.evstat 1 } }

/-- R525: the token is removed. -/
def State.tokenRevoke (s : State) (p : Nat) : State := s.setDbg p (s.part p).dbg.dropToken

/-- R525: TOP_TICK reaches tick_limit. -/
def execTokenLapse (p : Nat) (s : State) : Host.Outcome State Fault Refusal :=
  match (s.part p).dbg.token with
  | none => .next s
  | some t => .next (if t.limit ≤ s.top.tick.toNat then s.tokenRevoke p else s)

/-- R529: PART_DBG_STAT. -/
def State.dbgStat (s : State) (p : Nat) : Nat :=
  let d := (s.part p).dbg
  let tok := d.token.filter fun t => decide (s.top.tick.toNat < t.limit)
  d.result.toNat + 8 * b2n d.key.isSome + 16 * b2n tok.isSome + 32 * b2n (s.sec.d1req.getLsbD p) + 64 * b2n (s.d1On p) +
    128 * b2n s.sec.d2 + 256 * (match tok with | none => 0 | some t => t.scope.toNat)

/-! ### Lifecycle orders (R504–R506) -/

def State.newRoot (b : Bytes) : Bool := (fld b 5 1).testBit 1
def State.openD2 (b : Bytes) : Bool := (fld b 5 1).testBit 0

/-- R507: whether an order is one that led to the state in force, sent again: its lc_count is the one before the last bit was burnt, as
where power failed while that bit was being burnt and it reads burnt. -/
def State.orderAgain (s : State) (b : Bytes) : Bool :=
  let root := State.newRoot b
  fld b 4 1 == s.life && !State.openD2 b && fld b 8 4 + 1 == lcCount s.sec.life &&
    (match s.life with
    | 1 => root
    | 2 => true
    | 3 => !root
    | _ => false)

/-- R504: whether a change of state exists, in the form the order asks for. -/
def State.orderForm (s : State) (b : Bytes) : Bool :=
  let t := fld b 4 1
  let root := State.newRoot b
  let d2 := State.openD2 b
  if t = s.life then root || d2 || s.orderAgain b
  else !d2 && (match s.life, t with
    | 0, 1 => root && !s.flash.cert.isEmpty && !s.sec.d2
    | 1, 2 => !root
    | 2, 3 => !root
    | 3, 2 => !s.sec.d2
    | _, 4 => !root
    | _, _ => false)

/-- R505, R506: the causes of BAD_DESCRIPTOR. -/
def State.orderBad (s : State) (b : Bytes) : Bool :=
  let root := State.newRoot b
  decide (b.length ≠ if root then 192 else 128) || fld b 0 4 != 0x72001C0D || decide (3 < fld b 5 1) || fld b 6 2 != 0 ||
    slice b 16 16 != s.deviceId || slice b 32 32 != (if root then sm3 (slice b 128 64) else List.replicate 32 0) || !s.orderForm b

/-- R504, R507, R526: the keys that may sign the order. -/
def State.orderKeys (s : State) (b : Bytes) : List Bytes :=
  let root := s.flash.root.toList
  let maker := [Config.chesamundKey 1]
  let t := fld b 4 1
  if t = s.life then
    (if !State.openD2 b then root ++ (if t = 1 ∧ s.orderAgain b then maker else [])
    else if s.life = 3 then root
    else if s.life = 0 ∧ !State.newRoot b then maker else [])
  else if t = 1 then maker else if t = 4 then root ++ maker else root

/-- R504: whether the order burns one of bits 1–120. -/
def State.orderBurns (s : State) (b : Bytes) : Bool := fld b 4 1 != s.life && (fld b 4 1 == 2 || fld b 4 1 == 3)

/-- R504: the next of bits 1–120 that is not burnt. -/
def State.nextFuse (s : State) : Option Nat := ((List.range 120).map (· + 1)).find? fun i => !s.sec.life.getLsbD i

/-- R506, R507: the status of an order; one sent again for the state in force meets CONFLICT, since its lc_count is not the one in force. -/
def State.orderStatus (s : State) (b : Bytes) : Status :=
  Status.first [
    if s.orderBad b then .badDescriptor else .ok,
    if (s.orderKeys b).any fun k => sm2Verify sigLife k (slice b 0 64) (slice b 64 64) then .ok else .permFault,
    if s.orderBurns b ∧ s.nextFuse.isNone then .quota else .ok,
    if !s.orderAgain b ∧ (s.sec.wipeRun ∨ s.chans.any (fun (_, c) => c.migr.isSome)) then .retryLater else .ok,
    if s.life = 3 ∧ !s.flash.wiped ∧ (fld b 4 1 = 2 ∨ State.openD2 b) then .retryLater else .ok,
    if fld b 8 4 ≠ lcCount s.sec.life ∨ fld b 12 4 ≠ s.flash.bootcnt.toNat then .conflict else .ok]

/-- R504, R37: a lifecycle fuse burnt; the three copies of the security state take the new state. -/
def State.burn (s : State) (i : Nat) : State :=
  let f := setBit s.fuse.life i
  { s with
    fuse := { s.fuse with life := f }
    sec := { s.sec with life := f }
    rwt := s.rwt.filter fun (k, _) => k != rwtKey .secState }

/-- R524–R526: D2 opens: every key slot is emptied, and every token and consent key is cleared. -/
def State.d2Opens (s : State) : State :=
  (List.range 32).foldl State.clearConsent { s with sec := { s.sec with d2 := true, slots := [] } }

/-- R504: the effects of a change of state, its fuse first. -/
def State.changeLife (s : State) (b : Bytes) : State :=
  let old := s.life
  let t := fld b 4 1
  let bit := if t = 1 then 0 else if t = 4 then 127 else s.nextFuse.getD 1
  let s1 := s.burn bit
  let s2 := s1.ledgerAdd 7 (ledgerNums [old, t, lcCount s1.sec.life])
  let s3 : State := if State.newRoot b then s2.writeCfg (fun f => { f with root := some (slice b 128 64) }) else s2
  if t = 3 then s3.startWipe
  else if t = 4 then { s3 with fuse := { s3.fuse with ones := true }, sec := { s3.sec with slots := [] } }
  else s3

/-- R505, R506: an order carried out. -/
def State.carryOut (s : State) (b : Bytes) : State :=
  let s1 := s.logPlain 0x1D (BitVec.ofNat 8 (fld b 4 1))
  if fld b 4 1 = s.life then
    let s2 : State := if State.newRoot b then s1.writeCfg (fun f => { f with root := some (slice b 128 64) }) else s1
    if State.openD2 b then s2.d2Opens else s2
  else s1.changeLife b

/-- R530: an order answered with a status other than OK. -/
def State.orderRefused (s : State) : State :=
  { s with sec := { s.sec with ordRefused := sat s.sec.ordRefused, evstat := setBit s.sec.evstat 0 } }

/-- R506: a LIFECYCLE command. -/
def State.lifecycle (s : State) (sess : Nat) (tag : W32) (b : Bytes) : State :=
  let held := s.sessOpen sess && decide (s.owl.st = .run) && decide (s.life = 4)
  let s0 := if held then s.orderRefused else s
  s0.command sess cLifecycle tag fun s =>
    let st := s.orderStatus b
    if st = .ok then (s.carryOut b).reply sess cLifecycle tag .ok []
    else
      let body := if st = .conflict then toLe 4 (lcCount s.sec.life) ++ toLe 4 s.flash.bootcnt.toNat else []
      s.orderRefused.reply sess cLifecycle tag st body

def execLifecycle (sess : Nat) (tag : W32) (body : Bytes) (s : State) : Host.Outcome State Fault Refusal :=
  .next (s.lifecycle sess tag body)

/-! ### The end of the wipe (R514 steps 4 and 5) -/

/-- R515: channels whose contents are erased by key destruction only. -/
def State.cryptoCh (s : State) : List Nat := (List.range 32).filter fun c => decide ((s.chan c).st = .failed)

/-- R514: the channels that the fill writes. -/
def State.zeroedCh (s : State) : List Nat :=
  (List.range 32).filter fun c => let x := (s.chan c).st; decide (x = .run) || decide (x = .held) || decide (x = .selfRefresh)

/-- The ranks of a channel that are installed and out. -/
def Chan.outRanks (c : Chan) : List Nat := (lowBits 4 c.dimm.present.toNat).filter fun r => c.out.getLsbD r

/-- R517: the wipe record without its signature. -/
def State.wipeBody (s : State) : Bytes :=
  let z := s.zeroedCh
  let outs := (z.map fun c => (s.chan c).outRanks.length).foldl (· + ·) 0
  let bytes := (z.map fun c => ((lowBits 4 (s.chan c).dimm.present.toNat).length - (s.chan c).outRanks.length) *
    (gib * (s.chan c).dimm.rankGib.toNat)).foldl (· + ·) 0
  toLe 4 0x7200A1FE ++ toLe 2 1 ++ toLe 1 (lcCount s.sec.life) ++ toLe 1 outs ++ s.deviceId ++ toLe 4 s.flash.bootcnt.toNat ++
    toLe 4 0 ++ toLe 8 s.sec.wipeAt.toNat ++ toLe 8 s.top.tick.toNat ++ toLe 8 bytes ++ toLe 4 (maskOf z).toNat ++
    toLe 4 (maskOf s.cryptoCh).toNat ++ toLe 4 s.sec.wipeSlots.toNat ++ toLe 4 s.flash.ledger.length ++ s.ledgerDigest ++
    List.replicate 24 0

/-- Copies of pool lines and the tables of the Burrow after its fill; stream buffers read zero. -/
def State.zeroCopies (s : State) : State :=
  let fresh (u : SubCh) : SubCh := { u with wq := [] }
  { s with
    setts := s.setts.map fun (i, t) => (i, { t with dir := [], cache := [], victims := [], insQ := [] })
    engines := s.engines.map fun (i, x) => (i, { x with sbuf := [], used := false, raw := [] })
    chans := s.chans.map fun (i, c) => (i, { c with subA := fresh c.subA, subB := fresh c.subB })
    dedup := []
    nodes := []
    xlt := { s.xlt with oc := [] }
    bur := { s.bur with raw := [] }
    owl := { s.owl with held := [] } }

/-- R514 steps 4 and 5: the fill has ended: wiped is set and the signed record goes to the ledger. A warm reset that waited
starts. -/
def State.wipeEnds (s : State) : State :=
  if s.sec.wipeRun ∧ s.sec.wipeKeys then
    let keep (loc : Nat) : Bool :=
      let c := s.chan (locChan loc)
      decide (c.st = .failed) || c.out.getLsbD (locRank loc)
    let s1 := (s.fillAll keep).zeroCopies
    let b := s1.wipeBody
    let s2 := s1.ledgerAdd 8 (b ++ s1.signId sigWipe b)
    let s3 : State := { s2 with
      flash := { s2.flash with wiped := true }
      sec := { s2.sec with wipeRun := false, wipeDone := true, wipeKeys := false } }
    if s3.owl.warmHeld then { s3 with owl := { s3.owl with warmHeld := false } }.warmRequest else s3
  else s

def execWipeComplete (s : State) : Host.Outcome State Fault Refusal := .next s.wipeEnds

/-! ### Attestation (R518–R520; the messages' layout is that of DSP0274 1.2, log 36) -/

/-- R510, R520: the firmware that runs: security_version and SM3 digest, of what came over MGT in a MANUFACTURING boot (R93), else of the
bank's image. -/
def State.runningFw (s : State) : Nat × Bytes :=
  match s.owl.mgtFw, (s.bank s.owl.bankB).fw with
  | some (v, i), _ => (v, sm3 i)
  | none, some (v, i) => (v, sm3 i)
  | none, none => (0, [])

/-- The contexts of the responder's signatures: responder-challenge_auth signing, and responder-measurements signing. -/
def ctxChallenge : Bytes := toBe 32 0x726573706F6E6465722D6368616C6C656E67655F61757468207369676E696E67
def ctxMeasure : Bytes := toBe 30 0x726573706F6E6465722D6D6561737572656D656E7473207369676E696E67

/-- R518: a signature of a transcript with the attestation key (R510): of the prefix dmtf-spdm-v1.2.* four times, the context at the end
of 36 bytes, and the transcript's digest, with the context as the signer identity (PRESUMED: DSP0274 1.2, log 36). -/
def State.signAtt (s : State) (ctx transcript : Bytes) : Bytes :=
  let prefix_ : Bytes := (List.replicate 4 (toBe 16 0x646D74662D7370646D2D76312E322E2A)).flatten ++ List.replicate (36 - ctx.length) 0 ++ ctx
  sm2Sign ctx (2 + b2n s.sec.ones + 2 * leNat s.runningFw.2) (prefix_ ++ sm3 transcript)

/-- R510: the certificate chain: Chesamund's root, the identity certificate in flash, the attestation certificate. -/
def State.certs (s : State) : Bytes := Config.rootCert ++ s.flash.cert ++ Config.attCert s.sec.ones s.runningFw.2

/-- R518: the chain as slot 0 holds it: its length, the digest of the root, and the certificates (DSP0274, log 36). -/
def State.slotChain (s : State) : Bytes := toLe 2 (36 + s.certs.length) ++ toLe 2 0 ++ sm3 Config.rootCert ++ s.certs

/-- R520: a partition's measurement. -/
def State.partBlock (s : State) (p : Nat) : Bytes :=
  let sec := s.secOf p
  [BitVec.ofNat 8 p] ++ toLe 4 (s.tenant p).toNat ++ toLe 4 (match sec with | none => 0 | some c => c.rev.toNat) ++
    slice (match sec with | none => [] | some c => c.sdigest) 0 32 ++ toLe 4 (s.dbgStat p) ++
    (match (s.part p).dbg.key with | none => List.replicate 32 0 | some k => sm3 k)

/-- R520: the measurement blocks that a requester (none: the operator) sees: index, whether raw, and content. -/
def State.blocks (s : State) (who : Option Nat) : List (Nat × Bool × Bytes) :=
  let l := s.lay.getD Layout.reset
  let b3 := if l.builtin then toLe 1 s.layoutStrap else l.digest
  let b4 := toLe 4 s.secState ++ toLe 4 s.lcCountReg ++ toLe 1 s.fuse.fwCnt ++ toLe 1 s.fuse.layCnt
  [(1, false, slice Config.bootRomDigest 0 32), (2, false, s.runningFw.2 ++ toLe 1 s.runningFw.1), (3, false, b3), (4, true, b4)] ++
    (match who with
    | some p => [(5, true, s.partBlock p)]
    | none => s.partList.map fun p => (0x20 + p, true, s.partBlock p))

/-- A measurement block as DSP0274 lays it out. -/
def blockBytes (b : Nat × Bool × Bytes) : Bytes :=
  let (i, raw, c) := b
  toLe 1 i ++ [1] ++ toLe 2 (c.length + 3) ++ [if raw then 0x80 else 0x00] ++ toLe 2 c.length ++ c

/-- The length of a request of a code, where the code gives it; one that is not supported is taken whole, and has a header. -/
def spdmLen (m : Bytes) : Nat :=
  match fld m 1 1 with
  | 0x84 | 0x81 => 4
  | 0xE1 => 20
  | 0xE3 => max 32 (fld m 4 2)
  | 0x82 => 8
  | 0x83 => 36
  | 0xE0 => if (fld m 2 1).testBit 0 then 37 else 4
  | _ => max 4 m.length

/-- An ERROR response. -/
def spdmError (code : Byte) : Bytes := [0x12, 0x7F, code, 0]

/-- R518: the answer to one request: the exchange after it, the response, and the state after its draws. -/
def State.spdmAnswer (s : State) (who : Option Nat) (x : Spdm) (m : Bytes) : Spdm × Bytes × State :=
  let code := fld m 1 1
  let known := code == 0x84 || code == 0xE1 || code == 0xE3 || code == 0x81 || code == 0x82 || code == 0x83 || code == 0xE0
  let err (c : Byte) : Spdm × Bytes × State := (x, spdmError c, s)
  let need := if code = 0x84 then 0 else if code = 0xE1 then 1 else if code = 0xE3 then 2 else 3
  if s.life = 4 then err 5
  else if !known then err 7
  else if code = 0x84 then
    let r : Bytes := [0x10, 0x04, 0, 0, 0, 1, 0, 0x12]
    ({ Spdm.reset with stage := 1, vca := m ++ r }, r, s)
  else if fld m 0 1 ≠ 0x12 then err 0x41
  else if x.stage ≠ need then err 4
  else if code = 0xE1 then
    let r : Bytes := [0x12, 0x61, 0, 0, 0, Config.spdmCt, 0, 0] ++ toLe 4 0x16 ++ toLe 4 4096 ++ toLe 4 4096
    ({ x with stage := 2, vca := x.vca ++ m ++ r }, r, s)
  else if code = 0xE3 then
    let asym := fld m 8 4 &&& 0x200
    let hash := fld m 12 4 &&& 0x40
    let r : Bytes := [0x12, 0x63, 0, 0] ++ toLe 2 36 ++ [BitVec.ofNat 8 (fld m 6 1 &&& 1), 0] ++ toLe 4 0x80 ++ toLe 4 asym ++
      toLe 4 hash ++ List.replicate 16 0
    ({ x with stage := 3, vca := x.vca ++ m ++ r }, r, s)
  else if code = 0x81 then
    let r : Bytes := [0x12, 0x01, 0, 1] ++ sm3 s.slotChain
    ({ x with mb := x.mb ++ m ++ r }, r, s)
  else if code = 0x82 then
    let c := s.slotChain
    let o := fld m 4 2
    if fld m 2 1 ≠ 0 ∨ c.length ≤ o then err 1
    else
      let n := min (min (fld m 6 2) 4088) (c.length - o)
      let r : Bytes := [0x12, 0x02, 0, 0] ++ toLe 2 n ++ toLe 2 (c.length - o - n) ++ slice c o n
      ({ x with mb := x.mb ++ m ++ r }, r, s)
  else
    let (nonce, s1) := s.drawBits 256
    let bs := s.blocks who
    if code = 0x83 then
      let ty := fld m 3 1
      if fld m 2 1 ≠ 0 ∨ (ty ≠ 0 ∧ ty ≠ 1 ∧ ty ≠ 0xFF) then err 1
      else
        let sum := if ty = 0 then [] else sm3 (bs.flatMap blockBytes)
        let r : Bytes := [0x12, 0x03, 0, 1] ++ sm3 s.slotChain ++ toLe 32 nonce.toNat ++ sum ++ toLe 2 0
        ({ x with mb := [] }, r ++ s.signAtt ctxChallenge (x.vca ++ x.mb ++ m ++ r), s1)
    else
      let op := fld m 3 1
      let out := if op = 0 then [] else if op = 0xFF then bs else bs.filter fun b => b.1 == op
      if op ≠ 0 ∧ out.isEmpty then err 1
      else
        let rec_ := out.flatMap blockBytes
        let r : Bytes := [0x12, 0x60, if op = 0 then BitVec.ofNat 8 bs.length else 0, 0] ++ toLe 1 out.length ++ toLe 3 rec_.length ++
          rec_ ++ toLe 32 nonce.toNat ++ toLe 2 0
        if (fld m 2 1).testBit 0 then
          (if fld m 36 1 ≠ 0 then err 1
          else ({ x with l1 := [] }, r ++ s.signAtt ctxMeasure (x.vca ++ x.l1 ++ m ++ r), s1))
        else ({ x with l1 := x.l1 ++ m ++ r }, r, s1)

/-- R518, R519, R528: an SPDM command of the operator: the exchange is kept with the session; in SCRAPPED every one is answered ERROR
Unspecified. -/
def State.spdmCommand (s : State) (sess : Nat) (tag : W32) (m : Bytes) : State :=
  s.command sess cSpdm tag fun s =>
    if 4096 < m.length then s.reply sess cSpdm tag .badDescriptor []
    else if s.life = 4 then s.reply sess cSpdm tag .ok (spdmError 5)
    else if m.length < 4 ∨ m.length < spdmLen m then s.reply sess cSpdm tag .ok (spdmError 1)
    else
      let (x, r, s1) := s.spdmAnswer none (s.sess sess).spdm m
      (s1.setSess sess { s1.sess sess with spdm := x }).reply sess cSpdm tag .ok r

def execSpdm (sess : Nat) (tag : W32) (body : Bytes) (s : State) : Host.Outcome State Fault Refusal := .next (s.spdmCommand sess tag body)

/-- R519, R529: a packet of partition p's mailbox is dropped and counted. -/
def State.spdmDrop (s : State) (p : Nat) : State :=
  let d := (s.part p).dbg
  s.setDbg p { d with spdmErr := sat d.spdmErr, evstat := setBit d.evstat 1 }

/-- A message as the words of one packet. -/
def packetWords (bs : Bytes) : List FWord :=
  let n := (bs.length + 3) / 4
  (List.range n).map fun i => ⟨BitVec.ofNat 32 (fld bs (4 * i) 4), i + 1 == n⟩

/-- R519: a whole packet in partition p's mailbox: answered, or dropped when it is ill-formed or its response finds no
room. -/
def State.spdmPacket (s : State) (p : Nat) (ws : List FWord) : State :=
  let bs := ws.flatMap fun w => toLe 4 w.w.toNat
  let n := spdmLen bs
  let m := bs.take n
  if bs.length < n ∨ n + 3 < bs.length then s.spdmDrop p
  else
    let d := (s.part p).dbg
    let (x, r, s1) := s.spdmAnswer (some p) d.spdm m
    let out := packetWords r
    if 1024 < d.fifo.recv.length + out.length then s.spdmDrop p
    else s1.setDbg p { d with spdm := x, fifo := d.fifo.deliver out }

end Sys2Proof.Machine
end

