-- ==== Sys2Proof/Machine/HostPort.lean ====
section
/-! DEFINITION. Queue-pair contexts, R_Key entries and the host ports' state (R557, R563–R566, R571, R574). -/

namespace Sys2Proof.Machine
open Sys2Proof

/-! ### Queue pairs (R563, R564) -/

/-- R563, R9: the bits that each byte of a context holds. -/
def qpMask : List Byte :=
  [0xFF, 0xFF, 0xFF, 0xFF, 0xFF, 0xFF, 0xFF, 0, 0xFF, 0xFF, 0xFF, 0, 0xFF, 0x3F, 0x01, 0] ++ List.replicate 16 0xFF

/-- The bytes of a register's word, under a mask list. -/
def maskedWord (mask : List Byte) (i : Nat) (v : W32) : Bytes :=
  (toLe 4 v.toNat).zipIdx.map fun (b, k) => b &&& mask.getD (i + k) 0

/-- R564: the packets in progress of the queue pairs that `q` names are dropped: their lines that have not been started are never performed,
and what was performed stays performed (DEDUCED, log 44). Requests that waited at the setts' ring inputs follow (R218). -/
def State.dropPackets (s : State) (q : Nat → Bool) : State :=
  let out (t : Txn) : Bool := t.kind == .host && q t.unit && !t.started
  let gone := (s.txns.filter out).map (·.sett)
  gone.dedup.foldl State.admitRing { s with txns := s.txns.filter fun t => !out t }

/-- R564: Owl writes word j of context q: any byte while the state is RESET, else only the state. An ERROR is left by RESET
alone (R567). -/
def State.qpWrite (s : State) (q j : Nat) (v : W32) : State :=
  let x := s.qp q
  let bs := maskedWord qpMask (4 * j) v
  if !x.ready ∧ !x.error then s.setQp q (x.put (4 * j) bs)
  else if j ≠ 0 then s
  else
    let st := bs.headD 0
    if st = 1 then s
    else if st = 2 then s.setQp q (x.put 0 [2])
    else (s.setQp q (x.clear st)).dropPackets (· == q)

/-! ### R_Keys (R571, R574) -/

def RKey.byte (x : RKey) (i : Nat) : Byte := tget 0 x.b i
def RKey.num (x : RKey) (i n : Nat) : Nat := leNat ((List.range n).map fun k => x.byte (i + k))
def RKey.put (x : RKey) (i : Nat) (bs : Bytes) : RKey := { x with b := (bs.zipIdx.foldl (fun t (v, k) => tput t (i + k) v) x.b) }
def RKey.valid (x : RKey) : Bool := (x.byte 0).getLsbD 0

def rkeyMask : List Byte := [0x1F, 0xFF, 0xFF, 0xFF, 0xFF, 0xFF, 0x0F, 0] ++ List.replicate 16 0xFF ++ List.replicate 8 0

/-- R574: a keyed write of word j of entry i: while the entry is valid only its flags change. -/
def State.rkeyWrite (s : State) (i j : Nat) (v : W32) : State :=
  let x := s.rkey i
  let bs := maskedWord rkeyMask (4 * j) v
  if !x.valid then s.setRkey i (x.put (4 * j) bs)
  else if j = 0 then s.setRkey i (x.put 0 (bs.take 1)) else s

/-- R566: every context and R_Key entry of partition p to RESET or invalid. -/
def State.dropHostEntries (s : State) (p : Nat) : State :=
  let s1 : State := { s with hst := { s.hst with
    qps := s.hst.qps.map fun (q, x) => (q, if x.part = p then x.clear 0 else x)
    rkeys := s.hst.rkeys.map fun (i, x) => (i, if (x.byte 1).toNat = p then x.put 0 [x.byte 0 &&& 0xFE] else x) } }
  s1.dropPackets fun q => (s.qp q).part == p

/-! ### Ports (R557) -/

/-- The link of a host port down. -/
def HPort.down (h : HPort) : HPort := { h with width := 0, align := false, up := false }

/-- R557: a keyed write of HST_PCTRL: a 0 in enable takes the link down. -/
def State.pctrl (s : State) (k : Nat) (v : BitVec 4) : State :=
  let h := { s.hport k with ctrl := v }
  s.setHport k (if v.getLsbD 0 then h else h.down)

/-- R101, R557: negotiation, training and PCS alignment complete; host ports train from step 6 on. -/
def execHostLinkUp (k : Nat) (s : State) : Host.Outcome State Fault Refusal :=
  let h := s.hport k
  if h.ctrl.getLsbD 0 ∧ s.top.layoutOk then
    .next (s.setHport k { h with width := if h.ctrl.getLsbD 1 then 2 else 1, align := true, up := true })
  else .next s

def execHostLinkDown (k : Nat) (s : State) : Host.Outcome State Fault Refusal := .next (s.setHport k (s.hport k).down)

end Sys2Proof.Machine
end

