-- ==== Sys2Proof/Machine/Cells.lean ====
section
/-! DEFINITION. The control space as it reads (R23–R31): which register stands at an offset, its kind of access, and its
value. An offset with no register reads 0 (R29). -/

namespace Sys2Proof.Machine
open Sys2Proof

/-- How a register is written: not at all, plainly, only after the keyed unlock (R32), or by clearing bits (R39). -/
inductive RegKind where
  | ro | rw | keyed | w1c
deriving DecidableEq, Repr

/-- A register: its kind and its value. -/
structure Cell where
  kind : RegKind
  val : Nat
deriving DecidableEq, Repr

/-- R23: the blocks of the control space, with the instance. -/
inductive Block where
  | top | lnk (k : Nat) | sett (n : Nat) | fox (e : Nat) | xlt | bur | drc (c : Nat) | qos | hst | owl | sec | page (p : Nat) | none_
deriving DecidableEq, Repr

/-- R23: the block instance an offset lies in, and the offset within the instance. -/
def blockAt (off : Nat) : Block × Nat :=
  if off < 0x100000 then (.top, off)
  else if off < 0x180000 then (.lnk (off % 0x100000 / 0x10000), off % 0x10000)
  else if 0x200000 ≤ off ∧ off < 0x300000 then (.sett (off % 0x100000 / 0x10000), off % 0x10000)
  else if 0x400000 ≤ off ∧ off < 0x440000 then (.fox (off % 0x100000 / 0x1000), off % 0x1000)
  else if 0x600000 ≤ off ∧ off < 0x700000 then (.xlt, off % 0x100000)
  else if 0x700000 ≤ off ∧ off < 0x800000 then (.bur, off % 0x100000)
  else if 0x800000 ≤ off ∧ off < 0x880000 then (.drc (off % 0x100000 / 0x4000), off % 0x4000)
  else if 0xA00000 ≤ off ∧ off < 0xB00000 then (.qos, off % 0x100000)
  else if 0xB00000 ≤ off ∧ off < 0xC00000 then (.hst, off % 0x100000)
  else if 0xC00000 ≤ off ∧ off < 0xD00000 then (.owl, off % 0x100000)
  else if 0xD00000 ≤ off ∧ off < 0xE00000 then (.sec, off % 0x100000)
  else if 0x1000000 ≤ off ∧ off < 0x1200000 then (.page (off % 0x1000000 / 0x10000), off % 0x10000)
  else (.none_, off)

/-- R32: where the *_UNLOCK register of a block instance stands within it. -/
def unlockAt : Block → Nat
  | .page _ => 0x100
  | _ => 0x50

/-- R32: the offset of the *_UNLOCK register of the block instance that an offset lies in. -/
def unlockOf (off : Nat) : Nat := off - (blockAt off).2 + unlockAt (blockAt off).1

/-- Whether an offset is that of an *_UNLOCK register. -/
def isUnlock (off : Nat) : Bool := decide ((blockAt off).1 ≠ .none_) && (blockAt off).2 == unlockAt (blockAt off).1

/-! ### Arming (R32–R35) -/

def Path.isHost : Path → Bool
  | .owl => false
  | .host _ => true

/-- R34: whether an unlock register is armed for a path. -/
def State.armed (s : State) (path : Path) (u : Nat) : Bool :=
  s.arms.any fun a => a.unlock == u && a.host == Path.isHost path && decide (s.clk < Config.lapseClk + a.at_)

/-- An unlock register's arming for a path removed. -/
def State.disarm (s : State) (path : Path) (u : Nat) : State :=
  { s with arms := s.arms.filter fun a => !(a.unlock == u && a.host == Path.isHost path) }

/-! ### Small helpers -/

def lo32 (v : W64) : Nat := v.toNat % 2 ^ 32
def hi32 (v : W64) : Nat := v.toNat / 2 ^ 32
def ro (v : Nat) : Option Cell := some ⟨.ro, v⟩
def rw (v : Nat) : Option Cell := some ⟨.rw, v⟩
def keyed (v : Nat) : Option Cell := some ⟨.keyed, v⟩
def w1c (v : Nat) : Option Cell := some ⟨.w1c, v⟩

/-- The registers of a FIFO-style interface (R41), by offset from its base. -/
def fifoCell (f : Fifo) (depth i : Nat) : Option Cell :=
  match i with
  | 0x00 => ro (match f.recv with | [] => 0 | w :: _ => w.w.toNat)
  | 0x04 => ro (match f.recv with | [] => 0 | w :: _ => 2 + b2n w.eop)
  | 0x08 => ro ((f.recv.filter (·.eop)).length * 65536 + (depth - f.send.length))
  | 0x0C => rw 0
  | 0x10 => rw 0
  | 0x14 => rw 0
  | _ => none

def LinkState.code : LinkState → Nat
  | .disabled => 0 | .down => 1 | .train => 2 | .active => 3 | .retrain => 4
def PairState.code : PairState → Nat
  | .pair => 0 | .single => 1 | .resync => 2 | .lost => 3
def UnitState.code : UnitState → Nat
  | .active => 0 | .standby => 1 | .resync => 2 | .failed => 3
def EngState.code : EngState → Nat
  | .idle => 0 | .running => 1 | .resetting => 2 | .fenced => 3 | .unowned => 4
def ChState.code : ChState → Nat
  | .training => 0 | .run => 1 | .held => 2 | .selfRefresh => 3 | .failed => 4 | .absent => 5
def PState.code : PState → Nat
  | .run => 0 | .draining => 1 | .quiesced => 2 | .resetting => 3

/-! ### TOP (R46) -/

def State.topCell (s : State) (i : Nat) : Option Cell :=
  let t := s.top
  match i with
  | 0x00 => ro 0x720010C5
  | 0x08 => ro 0x40201008
  | 0x10 => ro (lo32 t.engLive)
  | 0x14 => ro (hi32 t.engLive)
  | 0x18 => ro ((List.range 16).map fun n => (s.sett n).pair.code * 4 ^ n).sum
  | 0x20 => ro t.straps.toNat
  | 0x28 => ro s.flash.bootcnt.toNat
  | 0x30 => ro (lo32 t.tick)
  | 0x34 => ro (hi32 t.tick)
  | 0x40 => ro s.readyReg
  | 0x44 => ro s.layoutGen
  | 0x48 => ro s.secState
  | 0x54 => ro t.keyfail.toNat
  | 0x58 => ro t.votefix.toNat
  | 0x5C => ro t.votefail.toNat
  | 0x60 => ro t.badaddr.toNat
  | 0x64 => keyed t.scratch.toNat
  | 0x70 => w1c t.evstat.toNat
  | _ => none

/-! ### LNK (R168, R200) -/

/-- R154: the advertised slots of LNK_CRED_REQ, _SNP, _RSP, _DAT, _WBK and _FMG. -/
def credSlots : List Nat := [8192, 4096, 8192, 65536, 16384, 1024]

def State.laneCell (s : State) (k i : Nat) : Option Cell :=
  let x := (s.port k).lane (i / 16)
  match i % 16 with
  | 0 => keyed (LaneState.code x.st + 256 * b2n x.power + 512 * b2n x.clearFail)
  | 4 => ro x.corr.toNat
  | 8 => ro x.uncorr.toNat
  | 12 => ro x.margin.toNat
  | _ => none

def State.lnkCell (s : State) (k i : Nat) : Option Cell :=
  let p := s.port k
  match i with
  | 0x00 =>
    let w := if p.st = .active ∨ p.st = .retrain then (lanesIn p.plan).length else 0
    ro (2 ^ 24 * p.gen.toNat + w * 65536 + p.st.code * 256 + b2n p.waitReplay)
  | 0x04 => ro (2 ^ 24 * p.pport.toNat + p.pnode.toNat)
  | 0x08 => ro p.plan.toNat
  | 0x10 => keyed (b2n p.enable + 2 * b2n p.autoUp + 4 * b2n p.autoDrop)
  | 0x14 => keyed (b2n p.cmdPlan + 2 * b2n p.cmdRetrain + 4 * b2n p.cmdDown)
  | 0x18 => keyed p.planMask.toNat
  | 0x1C => ro (2 ^ 24 * p.planId.toNat + p.planRes.toNat * 65536 + p.planReason.toNat * 256)
  | 0x20 => keyed p.replayCfg.toNat
  | 0x24 => keyed (p.sameLimit.toNat * 65536 + p.winLimit.toNat * 256 + p.retrainLimit.toNat * 16)
  | 0x28 => keyed p.downCfg.toNat
  | 0x30 => keyed p.failLimit.toNat
  | 0x60 => w1c p.evstat.toNat
  | 0x80 => ro p.replays.toNat
  | 0x84 => ro p.retrains.toNat
  | 0x88 => ro p.downs.toNat
  | 0x8C => ro p.laneFails.toNat
  | 0x90 => ro p.plans.toNat
  | 0x94 => ro p.staleGen.toNat
  | 0x98 => ro p.staleNak.toNat
  | 0x9C => ro p.crcErr.toNat
  | 0xA0 => ro p.dupDrop.toNat
  | 0xA4 => ro p.nakSent.toNat
  | 0x2000 => ro p.e2eErr.toNat
  | 0x2004 => ro p.malformed.toNat
  | 0x2008 => ro p.unroute.toNat
  | 0x200C => ro p.staleSrc.toNat
  | 0x2010 => ro p.rspDrop.toNat
  | 0x2014 => ro p.dedupHit.toNat
  | 0x2018 => ro p.dedupFull.toNat
  | 0x201C => ro p.unexpect.toNat
  | 0x2020 => keyed (2 ^ 21 * p.fmgLog2.toNat + p.fmgBase.toNat)
  | 0x2024 => w1c p.txnEv.toNat
  | i =>
    if 0x100 ≤ i ∧ i ≤ 0x114 ∧ i % 4 = 0 then ro (credSlots.getD ((i - 0x100) / 4) 0)
    else if 0x1000 ≤ i ∧ i < 0x1200 then s.laneCell k (i - 0x1000) else none

/-! ### SETT (R237, R502) -/

def State.settCell (s : State) (n i : Nat) : Option Cell :=
  let t := s.sett n
  match i with
  | 0x10 => keyed t.hold.toNat
  | 0x14 => keyed t.snpto.toNat
  | 0x18 => ro s.flash.epochOfs.toNat
  | 0x20 => ro (match t.sweep with
    | none => t.sweepQ.length % 128 * 2 ^ 24 + 0x1FFFFF
    | some d => 2 ^ 31 + t.sweepQ.length % 128 * 2 ^ 24 + d.toNat)
  | 0x24 => ro ((s.txns.filter fun x => x.sett == n && decide (x.phase = .parked)).length % 2048)
  | 0x28 => ro (t.cause.toNat * 256 + t.unit1.code * 16 + t.unit0.code * 4 + b2n t.act1)
  | 0x2C => keyed (b2n t.cmdFailover + 2 * b2n t.cmdResync)
  | 0x60 => w1c t.evstat.toNat
  | 0x64 => w1c t.foev.toNat
  | 0x80 => ro t.snptos.toNat
  | 0x84 => ro t.poisons.toNat
  | 0x88 => ro t.starves.toNat
  | 0x8C => ro t.recalls.toNat
  | 0x90 => ro t.nodeDeaths.toNat
  | 0x94 => ro t.dirErrs.toNat
  | 0x98 => ro t.epochLost.toNat
  | 0x9C => ro t.uncovered.toNat
  | 0xA0 => ro t.parkTo.toNat
  | 0xA4 => ro t.failovers.toNat
  | 0xA8 => ro t.resyncFails.toNat
  | 0xAC => ro t.losses.toNat
  | 0xC0 => ro (lo32 t.lookups)
  | 0xC4 => ro (hi32 t.lookups)
  | _ => none

/-! ### FOX (R353, R354, R501) -/

/-- R37: the owner of engine e as FOX_STATUS shows it. -/
def State.engPartShow (s : State) (e : Nat) : Option Nat :=
  (List.range 32).find? fun p => match s.precShow p with | none => false | some r => r.engines.getLsbD e

/-- R37: the live engines of partition p as its page shows them. -/
def State.liveShow (s : State) (p : Nat) : List Nat := match s.precShow p with
  | none => []
  | some r => (List.range 64).filter fun e => r.engines.getLsbD e && s.top.engLive.getLsbD e

def State.foxCell (s : State) (e i : Nat) : Option Cell :=
  let x := s.eng e
  match i with
  | 0x00 =>
    let own := s.engPartShow e
    let st := if own.isNone ∧ x.st = .idle ∧ s.lay.isSome then 4 else x.st.code
    let (q, inq) := match x.run with | none => (0, false) | some r => (if r.inq then 0 else r.q, r.inq)
    ro (2 ^ 24 * x.gen.toNat + 2 ^ 21 * st + 2 ^ 20 * b2n inq + own.getD 0 * 4096 + q)
  | 0x10 => keyed (b2n x.resetReq)
  | 0x60 => w1c x.evstat.toNat
  | 0x64 => w1c x.recov.toNat
  | 0x80 => ro x.descs.toNat
  | 0x84 => ro x.faults.toNat
  | 0x88 => ro x.inqErr.toNat
  | 0x90 => ro (lo32 x.busy)
  | 0x94 => ro (hi32 x.busy)
  | 0x98 => ro x.hangs.toNat
  | 0x9C => ro x.resetTo.toNat
  | i => if 0x100 ≤ i then fifoCell (s.inqOf e) 64 (i - 0x100) else none

/-! ### XLT (R294) -/

def State.xltCell (s : State) (i : Nat) : Option Cell :=
  let x := s.xlt
  match i with
  | 0x10 => keyed (x.drainTo.toNat * 65536 + x.walkTo.toNat)
  | 0x18 => keyed (2 ^ 31 * b2n x.go + 2 ^ 30 * b2n x.region + x.target.toNat)
  | 0x1C => ro (256 * b2n x.done + x.status.toNat)
  | 0x60 => w1c x.evstat.toNat
  | 0x80 => ro x.walks.toNat
  | 0x84 => ro x.faults.toNat
  | 0x88 => ro x.walkto.toNat
  | 0x8C => ro x.drainto.toNat
  | 0x90 => ro x.invs.toNat
  | _ => none

/-! ### BUR (R402) -/

/-- R402: BUR_EXTBASE, _EXTSIZE, _EXTCTRL and _SCR of partition p; _SCR shows the last voted quotas (R37). -/
def State.extCell (s : State) (p i : Nat) : Option Cell :=
  let x := (s.part p).ext
  match i with
  | 0 => keyed x.stBase.toNat
  | 4 => keyed x.stSize.toNat
  | 8 => keyed (16 * x.result.toNat)
  | 12 => ro (quotaOf (s.precShow p) / 1048576 * 65536 + ((List.range p).map fun q => quotaOf (s.precShow q)).foldl (· + ·) 0 / 1048576)
  | _ => none

def State.burCell (s : State) (i : Nat) : Option Cell :=
  let b := s.bur
  match i with
  | 0x00 => ro (match s.lay with
    | none => 0
    | some l => l.tabU % 256 * 2 ^ 24 + l.scrU % 256 * 65536 + l.cacheU % 256 * 256 + l.dirU % 256)
  | 0x04 => ro (match s.lay with | none => 0 | some l => cacheSets l % 2 ^ 18)
  | 0x60 => w1c b.evstat.toNat
  | 0x80 => ro (lo32 b.hits)
  | 0x84 => ro (hi32 b.hits)
  | 0x88 => ro (lo32 b.misses)
  | 0x8C => ro (hi32 b.misses)
  | 0x90 => ro (lo32 b.victims)
  | 0x94 => ro (hi32 b.victims)
  | 0x98 => ro b.vicfull.toNat
  | 0x9C => ro b.reread.toNat
  | 0xA0 => ro b.extRefused.toNat
  | i => if 0x1000 ≤ i ∧ i < 0x1200 then s.extCell ((i - 0x1000) / 16) (i % 16) else none

/-! ### DRC (R430) -/

def State.drcCell (s : State) (ch i : Nat) : Option Cell :=
  let c := s.chan ch
  match i with
  | 0x00 => ro (c.st.code * 32 + c.speed.toNat * 8 + 4 * b2n c.migr.isSome + 2 * b2n c.catrain + b2n (c.replays 0 s.clk || c.replays 1 s.clk))
  | 0x04 => ro (2 ^ 30 * c.dimm.kind.toNat + 2 ^ 26 * c.dimm.present.toNat + 2 ^ 22 * c.out.toNat + 2 ^ 21 * b2n c.spareV +
      2 ^ 19 * c.spare.toNat + c.dimm.rankGib.toNat)
  | 0x10 => keyed (b2n c.hold)
  | 0x20 => keyed (c.tim.getD 0 0).toNat
  | 0x24 => keyed (c.tim.getD 1 0).toNat
  | 0x28 => keyed (c.tim.getD 2 0).toNat
  | 0x2C => keyed (c.tim.getD 3 0).toNat
  | 0x30 => keyed c.sched.toNat
  | 0x34 => keyed c.retryCfg.toNat
  | 0x38 => keyed c.spareCfg.toNat
  | 0x3C => keyed c.spareRank.toNat
  | 0x40 => ro (2 ^ 28 * c.spareRes.toNat + 2 ^ 26 * c.spareFrom.toNat + c.spareDone.toNat)
  | 0x44 => keyed c.pasr.toNat
  | 0x60 => w1c c.evstat.toNat
  | 0x80 => ro c.alerts.toNat
  | 0x84 => ro c.catrains.toNat
  | 0x88 => ro c.chfails.toNat
  | 0x8C => ro c.refForced.toNat
  | 0x90 => ro c.migrations.toNat
  | 0x94 => ro c.timRefused.toNat
  | _ => none

/-! ### QOS (R478) -/

/-- A word of a block's settings, in the order +0x00–+0x18. -/
def PolSet.word (v : PolSet) : Nat → Option Nat
  | 0 => some v.cir.toNat
  | 1 => some v.pir.toNat
  | 2 => some v.cbs.toNat
  | 3 => some v.pbs.toNat
  | 4 => some v.srate.toNat
  | 5 => some v.sburst.toNat
  | 6 => some v.ctrl.toNat
  | _ => none

def State.qosBlockCell (s : State) (p k i : Nat) : Option Cell :=
  let q := s.pqos p k
  if i % 4 ≠ 0 then none
  else if i < 0x1C then (q.staged.word (i / 4)).map fun v => ⟨.rw, v⟩
  else if i = 0x1C then keyed (16 * q.result.toNat)
  else if i < 0x3C then (q.inForce.word ((i - 0x20) / 4)).map fun v => ⟨.ro, v⟩
  else if i = 0x3C then ro (16 * q.result.toNat) else none

def State.qosCell (s : State) (i : Nat) : Option Cell :=
  match i with
  | 0x10 => ro s.qos.gate
  | 0x60 => w1c (b2n s.qos.evstat)
  | 0x80 => ro s.qos.refused.toNat
  | i =>
    if 0x1000 ≤ i ∧ i < 0x9000 ∧ i % 0x400 < 0x280 then s.qosBlockCell ((i - 0x1000) / 0x400) (i % 0x400 / 0x40) (i % 0x40)
    else none

/-! ### HST (R577) -/

def HPort.cell (h : HPort) (i : Nat) : Option Cell :=
  match i with
  | 0x00 => ro (4 * h.width.toNat + 2 * b2n h.align + b2n h.up)
  | 0x04 => keyed h.ctrl.toNat
  | 0x08 => keyed (h.mac.toNat % 2 ^ 32)
  | 0x0C => keyed (h.mac.toNat / 2 ^ 32)
  | 0x10 => keyed h.ipv4.toNat
  | 0x14 => keyed h.vlan.toNat
  | 0x20 => keyed (bitsOf h.ipv6.toNat 0 32)
  | 0x24 => keyed (bitsOf h.ipv6.toNat 32 32)
  | 0x28 => keyed (bitsOf h.ipv6.toNat 64 32)
  | 0x2C => keyed (bitsOf h.ipv6.toNat 96 32)
  | 0x30 => keyed h.pfc.toNat
  | 0x34 => keyed h.cnp.toNat
  | 0x80 => ro h.rxdrop.toNat
  | 0x84 => ro h.icrcErr.toNat
  | 0x88 => ro h.pfctx.toNat
  | 0x8C => ro h.cnptx.toNat
  | _ => none

def State.hstCell (s : State) (i : Nat) : Option Cell :=
  match i with
  | 0x60 => w1c (b2n s.hst.evstat)
  | 0x80 => ro s.hst.qperrs.toNat
  | i =>
    if 0x1000 ≤ i ∧ i < 0x1200 then (s.hport ((i - 0x1000) / 0x100)).cell (i % 0x100)
    else if i % 4 ≠ 0 then none
    else if 0x10000 ≤ i ∧ i < 0x18000 then rw ((s.qp (i % 0x10000 / 32)).num (i % 32) 4)
    else if 0x20000 ≤ i ∧ i < 0x40000 then keyed ((s.rkey (i % 0x20000 / 32)).num (i % 32) 4) else none

/-! ### OWL and SEC (R556, R596, R530) -/

def OwlState.code : OwlState → Nat
  | .boot => 0 | .run => 1 | .restarting => 2

/-- Sessions open on MGT. -/
def State.sessions (s : State) : Nat := (s.owl.sessions.filter fun e => decide (e.1 < mboxSess)).length

def State.owlCell (s : State) (i : Nat) : Option Cell :=
  let o := s.owl
  match i with
  | 0x00 => ro (8 * s.sessions + 4 * b2n o.bankB + o.st.code)
  | 0x10 => ro s.pwrReg
  | 0x60 => w1c o.evstat.toNat
  | 0x80 => ro o.mboxErr.toNat
  | 0x84 => ro o.evDrop.toNat
  | i => if 0x100 ≤ i then fifoCell o.fifo 1028 (i - 0x100) else none

def State.secCell (s : State) (i : Nat) : Option Cell :=
  let c := s.sec
  match i with
  | 0x00 => ro s.lcCountReg
  | 0x10 => ro (fld s.deviceId 0 4)
  | 0x14 => ro (fld s.deviceId 4 4)
  | 0x18 => ro (fld s.deviceId 8 4)
  | 0x1C => ro (fld s.deviceId 12 4)
  | 0x20 => ro (maskOf (c.slots.map (·.1))).toNat
  | 0x24 => keyed c.d1req.toNat
  | 0x28 => ro (maskOf ((List.range 32).filter s.d1On)).toNat
  | 0x2C => ro (2 ^ 31 * b2n c.wipeRun + 2 ^ 30 * b2n c.wipeDone)
  | 0x60 => w1c c.evstat.toNat
  | 0x80 => ro c.ordRefused.toNat
  | 0x84 => ro c.tokRefused.toNat
  | _ => none

/-! ### Partition pages (R114, R350, R475, R458, R529) -/

/-- R352: PART_QSTAT of queue q of partition p. -/
def State.qstat (s : State) (p q : Nat) : Nat :=
  let x := s.queue q
  let full := match x.cfg with
    | none => false
    | some c => x.next.isSome && decide (2 ^ c.cmpLog2 ≤ (x.cmpCount - x.consumer).toNat + x.open_)
  let busy := decide (x.open_ ≠ 0) || !x.toRead.isEmpty || !x.ready.isEmpty || !x.hand.isEmpty || !x.chainRd.isEmpty ||
    x.sched.isSome || x.fence.isSome
  if x.err ≠ 0 then 5 + 8 * x.err
  else if !x.en then 0
  else if (s.part p).st ≠ .run then 4
  else if full then 3 else if busy then 2 else 1

/-- The queue at offset o of partition p, while the partition has it. -/
def State.qAt (s : State) (p o : Nat) : Option Nat :=
  match s.precShow p with
  | none => none
  | some r => if o < r.queueCount then some (r.queueBase + o) else none

def State.qosPageCell (s : State) (p k i : Nat) : Option Cell :=
  let q := s.pqos p k
  match i with
  | 0x00 => ro (lo32 q.green)
  | 0x04 => ro (hi32 q.green)
  | 0x08 => ro (lo32 q.yellow)
  | 0x0C => ro (hi32 q.yellow)
  | 0x10 => ro (lo32 q.red)
  | 0x14 => ro (hi32 q.red)
  | 0x18 => ro q.refused.toNat
  | 0x1C => ro q.shpWaits.toNat
  | 0x20 => ro (lo32 q.shpBytes)
  | 0x24 => ro (hi32 q.shpBytes)
  | 0x28 => ro (lo32 q.depthSum)
  | 0x2C => ro (hi32 q.depthSum)
  | 0x30 => ro (lo32 q.samples)
  | 0x34 => ro (hi32 q.samples)
  | 0x38 => ro q.depthMax.toNat
  | 0x3C => ro q.delayMax.toNat
  | 0x40 => ro (lo32 q.delaySum)
  | 0x44 => ro (hi32 q.delaySum)
  | 0x48 => ro (lo32 q.delayCnt)
  | 0x4C => ro (hi32 q.delayCnt)
  | 0x50 => rw 0
  | _ => none

/-- The event ring's and error registers (R458). -/
def EvRing.cell (r : EvRing) (i : Nat) : Option Cell :=
  match i with
  | 0x00 => rw r.baseLo.toNat
  | 0x04 => rw r.baseHi.toNat
  | 0x08 => keyed (128 * b2n r.on + r.log2.toNat)
  | 0x0C => ro r.prod.toNat
  | 0x10 => rw r.cons.toNat
  | 0x20 => w1c r.evstat.toNat
  | 0x40 => ro r.lost.toNat
  | 0x44 => ro r.poisons.toNat
  | 0x48 => ro r.ceDram.toNat
  | 0x4C => ro r.ceSram.toNat
  | 0x50 => ro r.refused.toNat
  | _ => none

/-- The consent registers (R529). -/
def State.dbgCell (s : State) (p i : Nat) : Option Cell :=
  let d := (s.part p).dbg
  match i with
  | 0x00 => ro (s.dbgStat p)
  | 0x04 => keyed 0
  | 0x10 => w1c d.evstat.toNat
  | 0x14 => ro d.tokRefused.toNat
  | 0x18 => ro d.spdmErr.toNat
  | i =>
    if i % 4 ≠ 0 then none
    else if 0x40 ≤ i ∧ i < 0x80 then rw (tget 0 d.ckey ((i - 0x40) / 4)).toNat
    else if 0x80 ≤ i ∧ i < 0x100 then rw (tget 0 d.tokw ((i - 0x80) / 4)).toNat
    else if 0x100 ≤ i then fifoCell d.fifo 1024 (i - 0x100) else none

/-- R114, R115, R350, R477: the registers of a page below 0x3000, and the power-cap words. -/
def State.partCell (s : State) (p i : Nat) : Option Cell :=
  let x := s.part p
  match i with
  | 0x00 => ro 0x720010C5
  | 0x04 => ro s.readyReg
  | 0x08 => ro s.flash.bootcnt.toNat
  | 0x10 => ro (lo32 s.top.tick)
  | 0x14 => ro (hi32 s.top.tick)
  | 0x20 => ro (match s.precShow p with
    | none => x.gen.toNat * 256
    | some r => 2 ^ 25 * b2n r.compat + 2 ^ 24 * b2n r.fenced + (s.liveShow p).length * 65536 + x.gen.toNat * 256 + p)
  | 0x24 => ro (s.tenant p).toNat
  | 0x28 => ro (match s.secOf p with | none => 0 | some c => c.rev.toNat)
  | 0x104 => keyed (16 * x.st.code + 2 * b2n x.opHold + b2n x.tenantHold)
  | 0x108 => keyed (b2n x.resetReq)
  | 0x1200 => keyed (2 ^ 31 * b2n x.qrGo + x.qrOff.toNat)
  | 0x1210 => ro (maskOf ((s.liveShow p).filter (· < 32))).toNat
  | 0x1214 => ro (maskOf (((s.liveShow p).filter (32 ≤ ·)).map (· - 32))).toNat
  | 0x5000 => ro (2 ^ 31 * b2n s.owl.active + s.owl.engShare.toNat * 256 + s.owl.power.toNat)
  | 0x5004 => ro (tget 0 s.owl.capMs p).toNat
  | _ => none

def State.pageCell (s : State) (p i : Nat) : Option Cell :=
  if i % 4 ≠ 0 then none
  else if 0x1000 ≤ i ∧ i < 0x1200 then
    rw ((List.range 32).map fun b => match s.qAt p (32 * ((i - 0x1000) / 4) + b) with
      | none => 0
      | some q => b2n (s.queue q).en * 2 ^ b).sum
  else if 0x2000 ≤ i ∧ i < 0x3000 then
    ro ((List.range 4).map fun b => match s.qAt p (i - 0x2000 + b) with
      | none => 0
      | some q => s.qstat p q * 256 ^ b).sum
  else if 0x4000 ≤ i ∧ i < 0x4A00 then s.qosPageCell p ((i - 0x4000) / 0x100) (i % 0x100)
  else if 0x6000 ≤ i ∧ i < 0x7000 then (s.part p).ring.cell (i - 0x6000)
  else if 0x7000 ≤ i ∧ i < 0x8000 then s.dbgCell p (i - 0x7000)
  else s.partCell p i

/-! ### The whole control space -/

/-- The register at an offset; none where nothing stands, or where an *_UNLOCK register stands. -/
def State.cell (s : State) (off : Nat) : Option Cell :=
  match blockAt off with
  | (.top, i) => s.topCell i
  | (.lnk k, i) => s.lnkCell k i
  | (.sett n, i) => s.settCell n i
  | (.fox e, i) => s.foxCell e i
  | (.xlt, i) => s.xltCell i
  | (.bur, i) => s.burCell i
  | (.drc c, i) => s.drcCell c i
  | (.qos, i) => s.qosCell i
  | (.hst, i) => s.hstCell i
  | (.owl, i) => s.owlCell i
  | (.sec, i) => s.secCell i
  | (.page p, i) => s.pageCell p i
  | (.none_, _) => none

/-- R29–R31, R35: what a path reads at an offset. -/
def State.regRead (s : State) (path : Path) (off : Nat) : W32 :=
  if isUnlock off then BitVec.ofNat 32 (b2n (s.armed path off))
  else match s.cell off with
    | none => 0
    | some c => BitVec.ofNat 32 c.val

/-- R26, R27: `n` words from an aligned offset, in ascending order. -/
def State.regReads (s : State) (path : Path) (off n : Nat) : List W32 := (List.range n).map fun i => s.regRead path (off + 4 * i)

end Sys2Proof.Machine
end

