-- ==== Sys2Proof/Machine/Registers.lean ====
section
/-! DEFINITION. Writes to the control space (R23–R45): the keyed unlock, W1C registers, FIFO-style interfaces, triplicated
fields, and what each register's write does. Every command that writes a register goes through `State.regWrite`. -/

namespace Sys2Proof.Machine
open Sys2Proof

/-! ### W1C registers (R39, R40) -/

/-- R40: the flags after a clearing write: a bit that hardware sets in the same clock stays 1. -/
def w1cBits {w : Nat} (old : BitVec w) (v sets : W32) : BitVec w :=
  (old &&& ~~~(BitVec.ofNat w v.toNat)) ||| BitVec.ofNat w sets.toNat

/-- R39: a companion counter, when hardware sets bit i. -/
def bump (sets : W32) (i : Nat) (c : W32) : W32 := if sets.getLsbD i then sat c else c

def State.topW1c (s : State) (v b : W32) : State :=
  let t := s.top
  { s with top := { t with
    evstat := w1cBits t.evstat v b
    keyfail := bump b 0 t.keyfail, votefix := bump b 1 t.votefix, votefail := bump b 2 t.votefail, badaddr := bump b 3 t.badaddr } }

def State.lnkW1c (s : State) (k i : Nat) (v b : W32) : State :=
  let p := s.port k
  s.setPort k (if i = 0x60 then { p with
      evstat := w1cBits p.evstat v b
      replays := bump b 0 p.replays, retrains := bump b 1 p.retrains, downs := bump b 2 p.downs, laneFails := bump b 3 p.laneFails
      plans := bump b 4 p.plans, staleGen := bump b 5 p.staleGen, staleNak := bump b 6 p.staleNak }
    else { p with
      txnEv := w1cBits p.txnEv v b
      e2eErr := bump b 0 p.e2eErr, malformed := bump b 1 p.malformed, unroute := bump b 2 p.unroute
      staleSrc := bump b 3 p.staleSrc, rspDrop := bump b 4 p.rspDrop, dedupFull := bump b 5 p.dedupFull
      unexpect := bump b 6 p.unexpect })

def State.settW1c (s : State) (n i : Nat) (v b : W32) : State :=
  let t := s.sett n
  s.setSett n (if i = 0x60 then { t with
      evstat := w1cBits t.evstat v b
      snptos := bump b 0 t.snptos, poisons := bump b 1 t.poisons, starves := bump b 2 t.starves, recalls := bump b 3 t.recalls
      nodeDeaths := bump b 4 t.nodeDeaths, dirErrs := bump b 5 t.dirErrs, epochLost := bump b 6 t.epochLost
      uncovered := bump b 7 t.uncovered, parkTo := bump b 8 t.parkTo }
    else { t with
      foev := w1cBits t.foev v b
      failovers := bump b 0 t.failovers, resyncFails := bump b 1 t.resyncFails, losses := bump b 2 t.losses })

def State.foxW1c (s : State) (e i : Nat) (v b : W32) : State :=
  let x := s.eng e
  s.setEng e (if i = 0x60 then { x with
      evstat := w1cBits x.evstat v b, faults := bump b 0 x.faults, inqErr := bump b 1 x.inqErr }
    else { x with recov := w1cBits x.recov v b, hangs := bump b 0 x.hangs, resetTo := bump b 1 x.resetTo })

def State.drcW1c (s : State) (ch : Nat) (v b : W32) : State :=
  let c := s.chan ch
  s.setChan ch { c with
    evstat := w1cBits c.evstat v b
    alerts := bump b 0 c.alerts, catrains := bump b 1 c.catrains, chfails := bump b 2 c.chfails
    refForced := bump b 3 c.refForced, migrations := bump b 4 c.migrations, timRefused := bump b 5 c.timRefused }

def State.pageW1c (s : State) (p i : Nat) (v b : W32) : State :=
  let r := (s.part p).ring
  let d := (s.part p).dbg
  if i = 0x6020 then s.setRing p { r with
    evstat := w1cBits r.evstat v b
    lost := bump b 0 r.lost, poisons := bump b 1 r.poisons, ceDram := bump b 2 r.ceDram, ceSram := bump b 3 r.ceSram
    refused := bump b 4 r.refused }
  else s.setDbg p { d with
    evstat := w1cBits d.evstat v b, tokRefused := bump b 0 d.tokRefused, spdmErr := bump b 1 d.spdmErr }

/-- R39, R40: a write of v to the W1C register at an offset, in a clock in which hardware sets the bits `sets`. -/
def State.w1cWrite (s : State) (off : Nat) (v sets : W32) : State :=
  match blockAt off with
  | (.top, _) => s.topW1c v sets
  | (.lnk k, i) => s.lnkW1c k i v sets
  | (.sett n, i) => s.settW1c n i v sets
  | (.fox e, i) => s.foxW1c e i v sets
  | (.xlt, _) =>
    let x := s.xlt
    { s with xlt := { x with
      evstat := w1cBits x.evstat v sets
      faults := bump sets 0 x.faults, walkto := bump sets 1 x.walkto, drainto := bump sets 2 x.drainto } }
  | (.bur, _) =>
    let x := s.bur
    { s with bur := { x with
      evstat := w1cBits x.evstat v sets
      vicfull := bump sets 0 x.vicfull, reread := bump sets 1 x.reread, extRefused := bump sets 2 x.extRefused } }
  | (.drc c, _) => s.drcW1c c v sets
  | (.qos, _) =>
    let x := s.qos
    { s with qos := { x with evstat := (x.evstat && !v.getLsbD 0) || sets.getLsbD 0, refused := bump sets 0 x.refused } }
  | (.hst, _) =>
    let x := s.hst
    { s with hst := { x with evstat := (x.evstat && !v.getLsbD 0) || sets.getLsbD 0, qperrs := bump sets 0 x.qperrs } }
  | (.owl, _) =>
    let x := s.owl
    { s with owl := { x with
      evstat := w1cBits x.evstat v sets, mboxErr := bump sets 0 x.mboxErr, evDrop := bump sets 1 x.evDrop } }
  | (.sec, _) =>
    let x := s.sec
    { s with sec := { x with
      evstat := w1cBits x.evstat v sets, ordRefused := bump sets 0 x.ordRefused, tokRefused := bump sets 1 x.tokRefused } }
  | (.page p, i) => s.pageW1c p i v sets
  | (.none_, _) => s

/-! ### FIFO-style interfaces (R41–R45) -/

def State.fifo (s : State) : FifoId → Fifo
  | .inq e => s.inqOf e
  | .mbox => s.owl.fifo
  | .spdm p => (s.part p).dbg.fifo

def State.setFifo (s : State) (f : FifoId) (x : Fifo) : State :=
  match f with
  | .inq e => s.setInq e x
  | .mbox => { s with owl := { s.owl with fifo := x } }
  | .spdm p => s.setDbg p { (s.part p).dbg with fifo := x }

/-- R43: the interface's error counter. -/
def State.fifoErr (s : State) (f : FifoId) : State :=
  match f with
  | .inq e => s.inqError e
  | .mbox => { s with owl := { s.owl with mboxErr := sat s.owl.mboxErr, evstat := setBit s.owl.evstat 0 } }
  | .spdm p => s.spdmDrop p

/-- R45: the send side's depth, and the largest packet, in words. -/
def fifoDepth : FifoId → Nat
  | .inq _ => 64 | .mbox => 1028 | .spdm _ => 1024
def fifoMax : FifoId → Nat
  | .inq _ => 16 | .mbox => 1028 | .spdm _ => 1024

/-- R41–R43: the head word popped; a pop on an empty receive side is ignored and counted. -/
def State.fifoPop (s : State) (f : FifoId) : State :=
  match (s.fifo f).recv with
  | [] => s.fifoErr f
  | _ :: t => s.setFifo f { s.fifo f with recv := t }

/-- R43: the words up to and including the next mark dropped; if it has not arrived, arriving words are until it does. -/
def State.fifoDrop (s : State) (f : FifoId) : State :=
  let x := s.fifo f
  match x.recv.findIdx? (·.eop) with
  | some i => s.setFifo f { x with recv := x.recv.drop (i + 1) }
  | none => s.setFifo f { x with recv := [], dropping := true }

/-- The words of the packet that is being pushed. -/
def Fifo.partial_ (x : Fifo) : List FWord := x.send.reverse.takeWhile fun w => !w.eop

/-- R43, R45: a word pushed: into a full side it is ignored and counted; a packet longer than its largest size is dropped as
it arrives and counted. -/
def State.fifoPush (s : State) (f : FifoId) (w : FWord) : State :=
  let x := s.fifo f
  let n := x.partial_.length
  if x.over_ then s.setFifo f { x with over_ := !w.eop }
  else if fifoMax f < n + 1 then
    (s.setFifo f { x with send := x.send.take (x.send.length - n), over_ := !w.eop }).fifoErr f
  else if fifoDepth f ≤ x.send.length then s.fifoErr f
  else s.setFifo f { x with send := x.send ++ [w] }

/-- R519: a word pushed into an SPDM mailbox: the one that ends a packet hands it to the responder. -/
def State.spdmPush (s : State) (p : Nat) (w : FWord) : State :=
  let s1 := s.fifoPush (.spdm p) w
  match takePacket (s1.fifo (.spdm p)).send with
  | none => s1
  | some (pk, rest) => (s1.setFifo (.spdm p) { s1.fifo (.spdm p) with send := rest }).spdmPacket p pk

/-- A push on a register path: the Owl mailbox takes none (R556). -/
def State.pathPush (s : State) (f : FifoId) (w : FWord) : State :=
  match f with
  | .mbox => s.fifoErr .mbox
  | .spdm p => s.spdmPush p w
  | .inq e => s.fifoPush (.inq e) w

/-- What a write to one of an interface's command registers does, by offset from its base. -/
def State.fifoWrite (s : State) (f : FifoId) (i : Nat) (v : W32) : State :=
  if i = 0x0C then (if v = 1 then s.fifoPop f else if v = 2 then s.fifoDrop f else s)
  else if i = 0x10 then s.pathPush f ⟨v, false⟩
  else if i = 0x14 then s.pathPush f ⟨v, true⟩ else s

/-! ### What a write does, block by block -/

def State.lnkCmd (s : State) (k : Nat) (v : W32) : State :=
  let st := (s.port k).st
  let s1 := if v.getLsbD 2 ∧ st ≠ .down ∧ st ≠ .disabled then s.lnkTakeDown k else s
  let s2 := if v.getLsbD 1 then s1.lnkRetrain k else s1
  if v.getLsbD 0 ∧ (s2.port k).planOut.isNone ∧ (s2.port k).planIn.isNone then s2.lnkPlanGo k else s2

def State.lnkCtrl (s : State) (k : Nat) (v : W32) : State :=
  let s1 := if v.getLsbD 0 = (s.port k).enable then s else s.lnkEnable k (v.getLsbD 0)
  (s1.lnkAutoUp k (v.getLsbD 1)).lnkAutoDrop k (v.getLsbD 2)

def State.laneWrite (s : State) (k l : Nat) (v : W32) : State :=
  let s1 := if v.getLsbD 8 = ((s.port k).lane l).power then s else s.lnkLanePower k l (v.getLsbD 8)
  if v.getLsbD 9 then s1.lnkClearFail k l else s1

def State.lnkWrite (s : State) (k i : Nat) (v : W32) : State :=
  let p := s.port k
  let n := v.toNat
  match i with
  | 0x10 => s.lnkCtrl k v
  | 0x14 => s.lnkCmd k v
  | 0x18 => s.setPort k { p with planMask := v }
  | 0x20 => s.setPort k { p with replayCfg := BitVec.ofNat 24 n }
  | 0x24 => s.setPort k { p with
      sameLimit := BitVec.ofNat 8 (bitsOf n 16 8), winLimit := BitVec.ofNat 8 (bitsOf n 8 8)
      retrainLimit := BitVec.ofNat 4 (bitsOf n 4 4) }
  | 0x28 => s.setPort k { p with downCfg := BitVec.ofNat 16 n }
  | 0x30 => s.setPort k { p with failLimit := BitVec.ofNat 8 n }
  | 0x2020 => s.setPort k { p with fmgBase := BitVec.ofNat 21 n, fmgLog2 := BitVec.ofNat 5 (bitsOf n 21 5) }
  | i => if 0x1000 ≤ i ∧ i < 0x1200 then s.laneWrite k ((i - 0x1000) / 16) v else s

def State.settWrite (s : State) (m i : Nat) (v : W32) : State :=
  let t := s.sett m
  match i with
  | 0x10 => s.setSett m { t with hold := BitVec.ofNat 12 v.toNat }
  | 0x14 => s.setSett m { t with snpto := BitVec.ofNat 9 v.toNat }
  | 0x2C =>
    let s1 := if v.getLsbD 0 then s.paircmdFailover m else s
    if v.getLsbD 1 then s1.paircmdResync m else s1
  | _ => s

/-- R353, R484: FOX_CTRL reset. -/
def State.foxCtrl (s : State) (e : Nat) : State :=
  let s1 := s.engineReset e
  if (s1.eng e).st = .resetting then s1.setEng e { s1.eng e with resetReq := true } else s1

def State.foxWrite (s : State) (e i : Nat) (v : W32) : State :=
  if i = 0x10 then (if v.getLsbD 0 then s.foxCtrl e else s)
  else if 0x100 ≤ i then s.fifoWrite (.inq e) (i - 0x100) v else s

def State.xltWrite (s : State) (i : Nat) (v : W32) : State :=
  let n := v.toNat
  if i = 0x10 then { s with xlt := { s.xlt with drainTo := BitVec.ofNat 12 (bitsOf n 16 12), walkTo := BitVec.ofNat 8 n } }
  else if s.xlt.go then s
  else if v.getLsbD 31 then s.owlInvalidate (v.getLsbD 30) (BitVec.ofNat 24 n)
  else { s with xlt := { s.xlt with region := v.getLsbD 30, target := BitVec.ofNat 24 n } }

def State.burWrite (s : State) (i : Nat) (v : W32) : State :=
  let p := (i - 0x1000) / 16
  let x := (s.part p).ext
  match i % 16 with
  | 0 => s.setExt p { x with stBase := BitVec.ofNat 27 v.toNat }
  | 4 => s.setExt p { x with stSize := BitVec.ofNat 16 v.toNat }
  | 8 => if v.getLsbD 0 then s.extApply p else s
  | _ => s

def State.drcWrite (s : State) (ch i : Nat) (v : W32) : State :=
  let c := s.chan ch
  match i with
  | 0x10 => if v.getLsbD 0 = c.hold then s else s.drcHold ch (v.getLsbD 0)
  | 0x20 => s.drcTiming ch 0 v
  | 0x24 => s.drcTiming ch 1 v
  | 0x28 => s.drcTiming ch 2 v
  | 0x2C => s.drcTiming ch 3 v
  | 0x30 => s.setChan ch { c with sched := v &&& 0xFFFFFF }
  | 0x34 => s.setChan ch { c with retryCfg := v &&& 0xFF }
  | 0x38 => s.setChan ch { c with spareCfg := v &&& 0x80FFFFFF }
  | 0x3C =>
    let s1 := s.setChan ch { c with spareRank := BitVec.ofNat 2 v.toNat }
    if v.getLsbD 31 then s1.startMigration ch (v.toNat % 4) false else s1
  | 0x44 => if c.st = .held ∨ c.st = .selfRefresh then s else s.setChan ch { c with pasr := v }
  | _ => s

/-- A word of a block's staged settings. -/
def PolSet.put (x : PolSet) (i : Nat) (v : W32) : PolSet :=
  match i with
  | 0 => { x with cir := v }
  | 1 => { x with pir := v }
  | 2 => { x with cbs := v }
  | 3 => { x with pbs := v }
  | 4 => { x with srate := v }
  | 5 => { x with sburst := v }
  | _ => { x with ctrl := BitVec.ofNat 3 v.toNat }

def State.qosWrite (s : State) (i : Nat) (v : W32) : State :=
  let p := (i - 0x1000) / 0x400
  let k := i % 0x400 / 0x40
  let j := i % 0x40
  if j = 0x1C then (if v.getLsbD 0 then s.qosApply p k else s)
  else s.setPqos p k { s.pqos p k with staged := (s.pqos p k).staged.put (j / 4) v }

/-- A 32-bit word of a wider field. -/
def putWord {w : Nat} (x : BitVec w) (i : Nat) (v : W32) : BitVec w := setFld x (32 * i) 32 v.toNat

def State.hportWrite (s : State) (k i : Nat) (v : W32) : State :=
  let h := s.hport k
  match i with
  | 0x04 => s.pctrl k (BitVec.ofNat 4 v.toNat)
  | 0x08 => s.setHport k { h with mac := putWord h.mac 0 v }
  | 0x0C => s.setHport k { h with mac := setFld h.mac 32 16 v.toNat }
  | 0x10 => s.setHport k { h with ipv4 := v }
  | 0x14 => s.setHport k { h with vlan := BitVec.ofNat 12 v.toNat }
  | 0x20 => s.setHport k { h with ipv6 := putWord h.ipv6 0 v }
  | 0x24 => s.setHport k { h with ipv6 := putWord h.ipv6 1 v }
  | 0x28 => s.setHport k { h with ipv6 := putWord h.ipv6 2 v }
  | 0x2C => s.setHport k { h with ipv6 := putWord h.ipv6 3 v }
  | 0x30 => s.setHport k { h with pfc := BitVec.ofNat 27 v.toNat }
  | 0x34 => s.setHport k { h with cnp := BitVec.ofNat 16 v.toNat }
  | _ => s

def State.hstWrite (s : State) (i : Nat) (v : W32) : State :=
  if i < 0x1200 then s.hportWrite ((i - 0x1000) / 0x100) (i % 0x100) v
  else if i < 0x18000 then s.qpWrite (i % 0x10000 / 32) (i % 32 / 4) v
  else s.rkeyWrite (i % 0x20000 / 32) (i % 32 / 4) v

/-- R350: a word of PART_QEN: each bit that changes enables or disables its queue. -/
def State.qenWrite (s : State) (p k : Nat) (v : W32) : State :=
  (List.range 32).foldl (fun s b => match (s.prec p).bind fun _ => s.qAt p (32 * k + b) with
    | none => s
    | some q =>
      if v.getLsbD b = (s.queue q).en then s
      else if v.getLsbD b then s.queueEnable p (32 * k + b) else s.queueDisable p (32 * k + b)) s

/-- R522–R525: PART_DBG_CTRL: the key first, then the token; a revoke wins. -/
def State.dbgCtrl (s : State) (p : Nat) (v : W32) : State :=
  let s1 := if v.getLsbD 0 then s.keySet p else s
  let s2 := if v.getLsbD 1 then s1.tokenInstall p else s1
  if v.getLsbD 2 then s2.tokenRevoke p else s2

def State.dbgWrite (s : State) (p i : Nat) (v : W32) : State :=
  let d := (s.part p).dbg
  if i = 0x04 then s.dbgCtrl p v
  else if i < 0x80 then s.setDbg p { d with ckey := tput d.ckey ((i - 0x40) / 4) v }
  else if i < 0x100 then s.setDbg p { d with tokw := tput d.tokw ((i - 0x80) / 4) v }
  else s.fifoWrite (.spdm p) (i - 0x100) v

/-- R476: PART_Q_MAXCLR; a new maximum that arose in this fabric clock is kept. -/
def State.maxClr (s : State) (p k : Nat) (v : W32) : State :=
  let q := s.pqos p k
  s.setPqos p k { q with
    depthMax := if v.getLsbD 0 ∧ q.depthAt ≠ some s.clk then 0 else q.depthMax
    delayMax := if v.getLsbD 1 ∧ q.delayAt ≠ some s.clk then 0 else q.delayMax }

/-- R115, R116: PART_CTRL: a host write to op_hold is ignored. -/
def State.partCtrl (s : State) (path : Path) (p : Nat) (v : W32) : State :=
  s.setHolds p (if Path.isHost path then (s.part p).opHold else v.getLsbD 1) (v.getLsbD 0)

/-- R352: PART_QRESET. -/
def State.qResetWrite (s : State) (p : Nat) (v : W32) : State :=
  let o := BitVec.ofNat 12 v.toNat
  let s1 := s.setPart p { s.part p with qrOff := o }
  if v.getLsbD 31 then s1.queueReset p o.toNat else s1

def State.pageWrite (s : State) (path : Path) (p i : Nat) (v : W32) : State :=
  let r := (s.part p).ring
  if i = 0x104 then s.partCtrl path p v
  else if i = 0x108 then (if v.getLsbD 0 then s.partReset p else s)
  else if i < 0x1200 then s.qenWrite p ((i - 0x1000) / 4) v
  else if i = 0x1200 then s.qResetWrite p v
  else if i < 0x5000 then s.maxClr p ((i - 0x4000) / 0x100) v
  else if i = 0x6000 then s.setRing p { r with baseLo := v &&& 0xFFFFFFC0 }
  else if i = 0x6004 then s.setRing p { r with baseHi := v &&& 0xFFFF }
  else if i = 0x6008 then s.evCfg p v
  else if i = 0x6010 then s.evCons p v
  else if 0x7000 ≤ i then s.dbgWrite p (i - 0x7000) v else s

/-- What a write that takes effect does at an offset where a writable register stands. -/
def State.effect (s : State) (path : Path) (off : Nat) (v : W32) : State :=
  match blockAt off with
  | (.top, _) => { s with top := { s.top with scratch := v } }
  | (.lnk k, i) => s.lnkWrite k i v
  | (.sett n, i) => s.settWrite n i v
  | (.fox e, i) => s.foxWrite e i v
  | (.xlt, i) => s.xltWrite i v
  | (.bur, i) => s.burWrite i v
  | (.drc c, i) => s.drcWrite c i v
  | (.qos, i) => s.qosWrite i v
  | (.hst, i) => s.hstWrite i v
  | (.owl, i) => s.fifoWrite .mbox (i - 0x100) v
  | (.sec, _) => { s with sec := { s.sec with d1req := v } }
  | (.page p, i) => s.pageWrite path p i v
  | (.none_, _) => s

/-! ### The write of one register (R27–R35) -/

/-- R32, R33: a write to the *_UNLOCK register at `u`. -/
def State.unlockReg (s : State) (path : Path) (u : Nat) (v : W32) : State :=
  let s1 := s.disarm path u
  if v = Config.unlockKey then { s1 with arms := s1.arms ++ [⟨u, Path.isHost path, s.clk⟩] } else s1.keyFail

/-- R522: writes from the Owl path to the consent registers of a page are ignored and not counted. -/
def owlBarred (path : Path) (off : Nat) : Bool :=
  !Path.isHost path && (match blockAt off with
    | (.page _, i) => decide (0x7000 ≤ i) && decide (i < 0x8000)
    | _ => false)

/-- R27, R29, R31–R33: a write of one register from a path. -/
def State.regWrite (s : State) (path : Path) (off : Nat) (v : W32) : State :=
  if off % 4 ≠ 0 ∨ owlBarred path off then s
  else if isUnlock off then s.unlockReg path off v
  else match s.cell off with
    | none => s.badAddr
    | some c => match c.kind with
      | .ro => s
      | .rw => s.effect path off v
      | .w1c => s.w1cWrite off v 0
      | .keyed =>
        if s.armed path (unlockOf off) then (s.disarm path (unlockOf off)).effect path off v else s.keyFail

/-- R27: a write of several registers, in ascending order. -/
def State.regWrites (s : State) (path : Path) (off : Nat) : List W32 → State
  | [] => s
  | v :: t => State.regWrites (s.regWrite path off v) path (off + 4) t

/-- Whether a path carries accesses: Owl while its firmware runs; a host once ready is 1 (R562). -/
def State.pathUp (s : State) (path : Path) : Bool := if Path.isHost path then s.top.ready else decide (s.owl.st = .run)

/-- The base of a partition page. -/
def pageBase (p : Nat) : Nat := 0x1000000 + 0x10000 * p

/-- R24: the offset a path reaches: a host's lies within its own page. -/
def reach : Path → Nat → Nat
  | .owl, off => off
  | .host p, off => pageBase p + off % 0x10000

/-- A register write as a command. -/
def State.write (s : State) (path : Path) (off : Nat) (v : W32) : State :=
  if s.pathUp path then s.regWrite path (reach path off) v else s

/-- Whether a path reaches partition p's page. -/
def Path.toPage : Path → Nat → Bool
  | .owl, _ => true
  | .host q, p => q == p

/-- A page register's write as a command, from either path. -/
def State.pageReg (s : State) (path : Path) (p i : Nat) (v : W32) : State :=
  if s.pathUp path ∧ Path.toPage path p then s.regWrite path (pageBase p + i) v else s

def execRegisterWrite (path : Path) (off : Nat) (v : W32) (s : State) : Host.Outcome State Fault Refusal := .next (s.write path off v)

/-- R32, R33: a write to an *_UNLOCK register; elsewhere it is the write of what stands there. -/
def execUnlockWrite (path : Path) (off : Nat) (v : W32) (s : State) : Host.Outcome State Fault Refusal := .next (s.write path off v)

/-- R34: an arming's 65,536 fabric clocks have passed. -/
def execUnlockLapse (path : Path) (off : Nat) (s : State) : Host.Outcome State Fault Refusal :=
  let u := reach path off
  .next { s with arms := s.arms.filter fun a =>
    !(a.unlock == u && a.host == Path.isHost path && decide (Config.lapseClk + a.at_ ≤ s.clk)) }

/-- R40: a clearing write in a clock in which hardware sets bits of the register. -/
def execW1cClear (path : Path) (off : Nat) (v sets : W32) (s : State) : Host.Outcome State Fault Refusal :=
  let o := reach path off
  if s.pathUp path ∧ !owlBarred path o ∧ o % 4 = 0 then
    match s.cell o with
    | none => .next (s.write path off v)
    | some c => .next (if c.kind = .w1c then s.w1cWrite o v sets else s.write path off v)
  else .next s

/-! ### Triplicated fields (R36–R38) -/

/-- A field's copies as they stand; a field whose copies all hold its value is not listed. -/
def State.setRwt (s : State) (f : RwtField) (r : Rwt) : State :=
  let v := s.rwtCanon f
  { s with rwt := if r = ⟨v, v, v, v, false⟩ then tdel s.rwt (rwtKey f) else tput s.rwt (rwtKey f) r }

/-- A disturbance of one copy. -/
def State.upset (s : State) (u : Upset) : State :=
  let r := s.rwtOf u.field
  s.setRwt u.field (if u.copy = 0 then { r with a := r.a ^^^ u.mask }
    else if u.copy = 1 then { r with b := r.b ^^^ u.mask } else { r with c := r.c ^^^ u.mask })

/-- R36, R37: one field's vote. -/
def State.vote (s : State) (f : RwtField) : State :=
  let r := s.rwtOf f
  match s.rwtUse f with
  | some v =>
    let s1 := s.setRwt f ⟨v, v, v, v, false⟩
    if r.a = r.b ∧ r.b = r.c then s1 else s1.voteFix
  | none => if r.failed then s else (s.setRwt f { r with failed := true }).voteFailEv.logPlain 0x13 0

/-- R36: the re-vote of every field, every 2^20 fabric clocks; the fields that no disturbance met vote as before. -/
def execRwtRevote (upsets : List Upset) (s : State) : Host.Outcome State Fault Refusal :=
  .next (if s.due 5 1048576 then (upsets.map (·.field)).foldl State.vote (upsets.foldl State.upset (s.took 5 1048576)) else s)

/-- R37: Owl rewrites the copies of a field whose vote has failed. -/
def execRwtRewrite (f : RwtField) (s : State) : Host.Outcome State Fault Refusal :=
  .next (if (s.rwtOf f).failed ∧ s.owl.st = .run then { s with rwt := tdel s.rwt (rwtKey f) } else s)

/-! ### FIFO commands -/

/-- Which path reaches an interface: its partition's host path the SPDM mailbox, Owl the others. -/
def fifoPath (path : Path) : FifoId → Bool
  | .spdm p => path == .host p
  | _ => path == .owl

/-- The offset of an interface's register i. -/
def fifoOff (f : FifoId) (i : Nat) : Nat :=
  (match f with
  | .inq e => 0x400000 + 0x1000 * e + 0x100
  | .mbox => 0xC00100
  | .spdm p => pageBase p + 0x7100) + i

/-- A command register of an interface written. -/
def State.fifoReg (s : State) (path : Path) (f : FifoId) (i : Nat) (v : W32) : State :=
  if s.pathUp path ∧ fifoPath path f then s.regWrite path (fifoOff f i) v else s

def execFifoPop (path : Path) (f : FifoId) (s : State) : Host.Outcome State Fault Refusal := .next (s.fifoReg path f 0x0C 1)
def execFifoDrop (path : Path) (f : FifoId) (s : State) : Host.Outcome State Fault Refusal := .next (s.fifoReg path f 0x0C 2)
def execFifoPush (path : Path) (f : FifoId) (w : W32) (s : State) : Host.Outcome State Fault Refusal :=
  .next (s.fifoReg path f 0x10 w)
def execFifoPushEop (path : Path) (f : FifoId) (w : W32) (s : State) : Host.Outcome State Fault Refusal :=
  .next (s.fifoReg path f 0x14 w)

/-! ### The keyed writes that have rows of their own -/

def bit (b : Bool) (i : Nat) : Nat := b2n b * 2 ^ i

def execPartOpHold (path : Path) (p : Nat) (v : Bool) (s : State) : Host.Outcome State Fault Refusal :=
  .next (s.pageReg path p 0x104 (BitVec.ofNat 32 (bit v 1 + b2n (s.part p).tenantHold)))
def execPartTenantHold (path : Path) (p : Nat) (v : Bool) (s : State) : Host.Outcome State Fault Refusal :=
  .next (s.pageReg path p 0x104 (BitVec.ofNat 32 (bit (s.part p).opHold 1 + b2n v)))
def execPartReset (path : Path) (p : Nat) (s : State) : Host.Outcome State Fault Refusal := .next (s.pageReg path p 0x108 1)

/-- The offset of a port's LNK register. -/
def lnkOff (k i : Nat) : Nat := 0x100000 + 0x10000 * k + i
def execLnkEnable (port : Nat) (v : Bool) (s : State) : Host.Outcome State Fault Refusal :=
  .next (s.write .owl (lnkOff port 0x10) (BitVec.ofNat 32 (b2n v + bit (s.port port).autoUp 1 + bit (s.port port).autoDrop 2)))
def execLnkAutoUp (port : Nat) (s : State) : Host.Outcome State Fault Refusal :=
  .next (s.write .owl (lnkOff port 0x10) (BitVec.ofNat 32 (b2n (s.port port).enable + 2 + bit (s.port port).autoDrop 2)))
def execTakeDown (port : Nat) (s : State) : Host.Outcome State Fault Refusal := .next (s.write .owl (lnkOff port 0x14) 4)
def execLnkCmdRetrain (port : Nat) (s : State) : Host.Outcome State Fault Refusal := .next (s.write .owl (lnkOff port 0x14) 2)
def execPlanGo (port : Nat) (s : State) : Host.Outcome State Fault Refusal := .next (s.write .owl (lnkOff port 0x14) 1)
def execLanePower (port lane : Nat) (v : Bool) (s : State) : Host.Outcome State Fault Refusal :=
  .next (s.write .owl (lnkOff port (0x1000 + 16 * lane)) (BitVec.ofNat 32 (bit v 8)))
def execLaneClearFail (port lane : Nat) (s : State) : Host.Outcome State Fault Refusal :=
  .next (s.write .owl (lnkOff port (0x1000 + 16 * lane)) (BitVec.ofNat 32 (512 + bit ((s.port port).lane lane).power 8)))

/-- The offset of a channel's DRC register. -/
def drcOff (c i : Nat) : Nat := 0x800000 + 0x4000 * c + i
def execDrcHold (ch : Nat) (v : Bool) (s : State) : Host.Outcome State Fault Refusal :=
  .next (s.write .owl (drcOff ch 0x10) (BitVec.ofNat 32 (b2n v)))
def execDrcTimingWrite (ch r : Nat) (v : W32) (s : State) : Host.Outcome State Fault Refusal :=
  .next (s.write .owl (drcOff ch (0x20 + 4 * (r % 4))) v)
def execSpareCmdGo (ch : Nat) (rank : BitVec 2) (s : State) : Host.Outcome State Fault Refusal :=
  .next (s.write .owl (drcOff ch 0x3C) (BitVec.ofNat 32 (2 ^ 31 + rank.toNat)))

def execXltInvAsid (target : BitVec 24) (s : State) : Host.Outcome State Fault Refusal :=
  .next (s.write .owl 0x600018 (BitVec.ofNat 32 (2 ^ 31 + target.toNat)))
def execXltInvRegion (target : BitVec 24) (s : State) : Host.Outcome State Fault Refusal :=
  .next (s.write .owl 0x600018 (BitVec.ofNat 32 (2 ^ 31 + 2 ^ 30 + target.toNat)))

/-- A write of one PART_QEN bit: the other bits of its word as they stand. -/
def State.qenBit (s : State) (path : Path) (p o : Nat) (v : Bool) : State :=
  let i := 0x1000 + 4 * (o / 32)
  let w := s.regRead path (pageBase p + i)
  let m := BitVec.ofNat 32 (2 ^ (o % 32))
  s.pageReg path p i (if v then w ||| m else w &&& ~~~m)

def execQueueEnable (path : Path) (p o : Nat) (s : State) : Host.Outcome State Fault Refusal := .next (s.qenBit path p o true)
def execQueueDisable (path : Path) (p o : Nat) (s : State) : Host.Outcome State Fault Refusal := .next (s.qenBit path p o false)
def execQueueReset (path : Path) (p : Nat) (o : BitVec 12) (s : State) : Host.Outcome State Fault Refusal :=
  .next (s.pageReg path p 0x1200 (BitVec.ofNat 32 (2 ^ 31 + o.toNat)))

def execFoxReset (e : Nat) (s : State) : Host.Outcome State Fault Refusal := .next (s.write .owl (0x400010 + 0x1000 * e) 1)
def execExtensionApply (p : Nat) (s : State) : Host.Outcome State Fault Refusal := .next (s.write .owl (0x701008 + 16 * p) 1)
/-- R476: PART_Q_MAXCLR. -/
def execMaxclrDepth (path : Path) (p k : Nat) (s : State) : Host.Outcome State Fault Refusal :=
  .next (s.pageReg path p (0x4050 + 0x100 * k) 1)
def execMaxclrDelay (path : Path) (p k : Nat) (s : State) : Host.Outcome State Fault Refusal :=
  .next (s.pageReg path p (0x4050 + 0x100 * k) 2)
def execEventRingConfig (path : Path) (p : Nat) (v : W32) (s : State) : Host.Outcome State Fault Refusal :=
  .next (s.pageReg path p 0x6008 v)
def execEventConsumerWrite (path : Path) (p : Nat) (v : W32) (s : State) : Host.Outcome State Fault Refusal :=
  .next (s.pageReg path p 0x6010 v)
def execQosApply (p k : Nat) (s : State) : Host.Outcome State Fault Refusal :=
  .next (s.write .owl (0xA0101C + 0x400 * p + 0x40 * k) 1)

def execSettPaircmdFailover (sett : Nat) (s : State) : Host.Outcome State Fault Refusal :=
  .next (s.write .owl (0x20002C + 0x10000 * sett) 1)
def execSettPaircmdResync (sett : Nat) (s : State) : Host.Outcome State Fault Refusal :=
  .next (s.write .owl (0x20002C + 0x10000 * sett) 2)

def execConsentKeySet (path : Path) (p : Nat) (s : State) : Host.Outcome State Fault Refusal := .next (s.pageReg path p 0x7004 1)
def execTokenInstall (path : Path) (p : Nat) (s : State) : Host.Outcome State Fault Refusal := .next (s.pageReg path p 0x7004 2)
def execTokenRevoke (path : Path) (p : Nat) (s : State) : Host.Outcome State Fault Refusal := .next (s.pageReg path p 0x7004 4)
def execD1Request (v : W32) (s : State) : Host.Outcome State Fault Refusal := .next (s.write .owl 0xD00024 v)

def execHostPortEnable (k : Nat) (v : Bool) (s : State) : Host.Outcome State Fault Refusal :=
  .next (s.write .owl (0xB01004 + 0x100 * k) (BitVec.ofNat 32 ((s.hport k).ctrl.toNat / 2 * 2 + b2n v)))

/-- R564: a write to the state byte of a context, its word's other bytes as they stand. -/
def State.qpStateWrite (s : State) (q : Nat) (v : Nat) : State :=
  s.write .owl (0xB10000 + 32 * q) (BitVec.ofNat 32 ((s.qp q).num 0 4 / 256 * 256 + v))
def execQpReady (q : Nat) (s : State) : Host.Outcome State Fault Refusal := .next (s.qpStateWrite q 1)
def execQpReset (q : Nat) (s : State) : Host.Outcome State Fault Refusal := .next (s.qpStateWrite q 0)

end Sys2Proof.Machine
end

