-- ==== Sys2Proof/Machine/Owl.lean ====
section
/-! DEFINITION. Owl's commands (R536–R546): chunks, the reading commands, the scrubbers' settings, layouts, keys, firmware
and restarts. Each command is a function of the state that a session's message and a mailbox packet share. -/

namespace Sys2Proof.Machine
open Sys2Proof

/-! ### Bodies and chunks (R536, R539) -/

/-- R536: the largest body of a message. -/
def bodyMax : Nat := 1048576

/-- The largest reply that a session's message carries, or a packet of the mailbox (R45). -/
def replyMax (sess : Nat) : Nat := if sess = mboxSess then 4096 else bodyMax

/-- R539: a command whose body has the given length and otherwise passes `ok`; else it is answered BAD_DESCRIPTOR. -/
def State.fixed (s : State) (sess : Nat) (code : BitVec 16) (tag : W32) (body : Bytes) (n : Nat) (ok : Bool) (act : State → State) : State :=
  s.command sess code tag fun s => if body.length = n ∧ ok then act s else s.reply sess code tag .badDescriptor []

/-- R539: the commands whose bodies may come in chunks. -/
def chunkable (code : BitVec 16) : Bool := code == cLayoutLoad || code == cLayoutStage || code == cLayoutFlash || code == cFwWrite

/-- R539: the body that a session has assembled for a command. -/
def Sess.held (x : Sess) (code : BitVec 16) : Bytes := if x.chCode = code then x.chBody else []

/-- The assembled body of a session replaced. -/
def State.setChunks (s : State) (sess : Nat) (code : BitVec 16) (b : Bytes) : State :=
  s.setSess sess { s.sess sess with chCode := code, chBody := b }

/-- R539: why a chunk is refused; OK when it follows what has been assembled. -/
def State.chunkStatus (s : State) (sess : Nat) (code : BitVec 16) (body : Bytes) : Status :=
  if !chunkable code ∨ body.length < 4 ∨ bodyMax < body.length then .badDescriptor
  else if fld body 0 4 = ((s.sess sess).held code).length then .ok else .conflict

/-- R539: a chunk that is not the last. -/
def State.chunk (s : State) (sess : Nat) (code : BitVec 16) (tag : W32) (body : Bytes) : State :=
  s.command sess code tag fun s =>
    match s.chunkStatus sess code body with
    | .ok => (s.setChunks sess code ((s.sess sess).held code ++ body.drop 4)).reply sess code tag .ok []
    | .conflict => (s.setChunks sess 0 []).reply sess code tag .conflict []
    | st => s.reply sess code tag st []

def execCommandChunk (sess : Nat) (code : BitVec 16) (tag : W32) (body : Bytes) (s : State) : Host.Outcome State Fault Refusal :=
  .next (s.chunk sess code tag body)

/-- R539: the last chunk of a command: the whole body is acted on, and nothing stays assembled. -/
def State.lastChunk (s : State) (sess : Nat) (code : BitVec 16) (tag : W32) (body : Bytes) (act : Bytes → State → State) : State :=
  s.command sess code tag fun s =>
    let st := s.chunkStatus sess code body
    let whole := (s.sess sess).held code ++ body.drop 4
    let s1 := s.setChunks sess 0 []
    if st = .ok then act whole s1 else s1.reply sess code tag st []

/-- R536, R537: a code that is no command; a body above 1 MiB is discarded. -/
def execUnknownCommand (sess : Nat) (code : CmdHead) (tag : W32) (s : State) : Host.Outcome State Fault Refusal :=
  .next (s.command sess code.code tag fun s => s.reply sess code.code tag (if bodyMax < code.length then .badDescriptor else .unsupported) [])

/-! ### Reading commands (R540) -/

def State.infoBody (s : State) : Bytes :=
  toLe 4 0x720010C5 ++ toLe 4 s.secState ++ toLe 4 s.lcCountReg ++ toLe 1 (b2n s.owl.bankB) ++ toLe 1 s.runningFw.1 ++
    toLe 1 s.fuse.fwCnt ++ toLe 1 s.fuse.layCnt ++ s.deviceId ++ toLe 4 s.layoutGen ++ toLe 4 s.flash.bootcnt.toNat ++
    toLe 8 s.top.tick.toNat ++ toLe 4 s.readyReg ++ toLe 4 s.pwrReg ++ toLe 8 0

def State.info (s : State) (sess : Nat) (tag : W32) (body : Bytes) : State :=
  s.fixed sess cInfo tag body 0 true fun s => s.reply sess cInfo tag .ok s.infoBody

def execInfo (sess : Nat) (tag : W32) (body : Bytes) (s : State) : Host.Outcome State Fault Refusal := .next (s.info sess tag body)

/-- R540: an aligned range of 1–256 words inside the control space. -/
def rangeOk (off n : Nat) : Bool := off % 4 == 0 && decide (1 ≤ n) && decide (n ≤ 256) && decide (off + 4 * n ≤ 0x4000000)

/-- R538: while a warm reset runs, only TOP, OWL and SEC are served. -/
def State.lateBlock (s : State) (off n : Nat) : Bool :=
  s.inWarm && (List.range n).any fun i => match (blockAt (off + 4 * i)).1 with
    | .top | .owl | .sec => false
    | _ => true

def State.regReadCmd (s : State) (sess : Nat) (tag : W32) (body : Bytes) : State :=
  let off := fld body 0 4
  let n := fld body 4 4
  s.fixed sess cRegRead tag body 8 (rangeOk off n) fun s =>
    if s.lateBlock off n then s.reply sess cRegRead tag .retryLater []
    else s.reply sess cRegRead tag .ok ((s.regReads .owl off n).flatMap fun w => toLe 4 w.toNat)

def execRegRead (sess : Nat) (tag : W32) (body : Bytes) (s : State) : Host.Outcome State Fault Refusal := .next (s.regReadCmd sess tag body)

/-- R537: the words of a REG_WRITE written; keyed, the unlock register of the first word's block first. -/
def State.regWriteAll (s : State) (keyed : Bool) (off : Nat) (ws : List W32) : State :=
  let s1 := if keyed ∧ (blockAt off).1 ≠ .none_ then s.unlockReg .owl (unlockOf off) Config.unlockKey else s
  s1.regWrites .owl off ws

def State.regWriteCmd (s : State) (sess : Nat) (tag : W32) (keyed : Bool) (body : Bytes) : State :=
  let off := fld body 0 4
  let n := fld body 4 4
  s.fixed sess cRegWrite tag body (8 + 4 * n) (rangeOk off n) fun s =>
    if s.lateBlock off n then s.reply sess cRegWrite tag .retryLater []
    else
      let ws := (List.range n).map fun i => BitVec.ofNat 32 (fld body (8 + 4 * i) 4)
      (s.regWriteAll keyed off ws).reply sess cRegWrite tag .ok []

def execRegWrite (sess : Nat) (tag : W32) (keyed : Bool) (body : Bytes) (s : State) : Host.Outcome State Fault Refusal :=
  .next (s.regWriteCmd sess tag keyed body)

/-- R455, R550: record k of the log. -/
def logBytes (k : Nat) (r : EvRec) : Bytes :=
  toLe 4 k ++ [BitVec.ofNat 8 (b2n (!k.testBit 15) + 2 * b2n r.lost), r.kind, r.status, r.detail] ++ toLe 8 r.addr.toNat ++
    toLe 8 r.tick.toNat ++ toLe 4 r.bootcnt.toNat ++ [r.part] ++ toLe 3 0

/-- A read of a record ring: how many of its records are skipped, the seq of the first returned, and the gap flag. `last`
is the seq of the next record to come, and `len` the records kept. -/
def ringStart (first last : W32) (len : Nat) : Nat × W32 × Bool :=
  let back := (last - first).toNat
  if back ≤ len then (len - back, first, false)
  else if back < 2 ^ 31 then (0, last - BitVec.ofNat 32 len, true)
  else (len, first, false)

def State.eventRead (s : State) (sess : Nat) (tag : W32) (body : Bytes) : State :=
  let m := fld body 4 2
  s.fixed sess cEventRead tag body 8 (decide (1 ≤ m) && decide (m ≤ 4096) && fld body 6 2 == 0) fun s =>
    let (skip, q, gap) := ringStart (BitVec.ofNat 32 (fld body 0 4)) s.flash.logSeq s.flash.log.length
    let out := (s.flash.log.drop skip).take (min m ((replyMax sess - 8) / 32))
    let recs := out.zipIdx.flatMap fun (r, i) => logBytes (q + BitVec.ofNat 32 i).toNat r
    s.reply sess cEventRead tag .ok (toLe 4 q.toNat ++ toLe 2 out.length ++ toLe 2 (b2n gap) ++ recs)

def execEventRead (sess : Nat) (tag : W32) (body : Bytes) (s : State) : Host.Outcome State Fault Refusal := .next (s.eventRead sess tag body)

/-- Whole entries in order, as many as fit in a number of bytes. -/
def fitting : Nat → List LedEnt → List LedEnt
  | _, [] => []
  | n, e :: t => if e.bytes.length ≤ n then e :: fitting (n - e.bytes.length) t else []

def State.ledgerRead (s : State) (sess : Nat) (tag : W32) (body : Bytes) : State :=
  let first := fld body 0 4
  let m := fld body 4 4
  s.fixed sess cLedgerRead tag body 8 (decide (4096 ≤ m) && decide (m ≤ bodyMax - 8)) fun s =>
    let out := fitting (min m (replyMax sess - 8)) (s.flash.ledger.drop first)
    s.reply sess cLedgerRead tag .ok (toLe 4 out.length ++ toLe 4 (first + out.length) ++ out.flatMap (·.bytes))

def execLedgerRead (sess : Nat) (tag : W32) (body : Bytes) (s : State) : Host.Outcome State Fault Refusal := .next (s.ledgerRead sess tag body)

/-- R453: a scrubber's entry. -/
def State.scrubEntry (s : State) (u : Nat) : Bytes :=
  let x := s.scrub u
  toLe 1 u ++ toLe 1 (s.scrubState u) ++ toLe 2 0 ++ toLe 4 x.lapMs.toNat ++ toLe 4 x.laps.toNat ++ toLe 4 x.starved.toNat ++
    toLe 4 x.corrected.toNat ++ toLe 4 x.uncorr.toNat ++ toLe 4 x.healed.toNat ++ toLe 4 (x.pos * 64 / 1048576)

def State.scrubStatus (s : State) (sess : Nat) (tag : W32) (body : Bytes) : State :=
  s.fixed sess cScrubStatus tag body 0 true fun s =>
    s.reply sess cScrubStatus tag .ok ((List.range 33).flatMap s.scrubEntry)

def execScrubStatus (sess : Nat) (tag : W32) (body : Bytes) (s : State) : Host.Outcome State Fault Refusal :=
  .next (s.scrubStatus sess tag body)

/-! ### Scrub configuration (R453, R541) -/

def State.scrubConfig (s : State) (sess : Nat) (tag : W32) (body : Bytes) : State :=
  let d := fld body 0 2
  let b := fld body 2 2
  s.fixed sess cScrubConfig tag body 8 (decide (8 ≤ d) && decide (d ≤ 4096) && decide (4 ≤ b) && decide (b ≤ 4096)) fun s =>
    ({ s with owl := { s.owl with
      scrubInt := BitVec.ofNat 16 d, burInt := BitVec.ofNat 16 b, lapLimit := BitVec.ofNat 32 (fld body 4 4) } } : State).reply
        sess cScrubConfig tag .ok []

def execScrubConfig (sess : Nat) (tag : W32) (body : Bytes) (s : State) : Host.Outcome State Fault Refusal :=
  .next (s.scrubConfig sess tag body)

/-! ### A partition section at run time (R85–R88) -/

/-- The partition that a section names in its PART_INFO record. A section whose records cannot be parsed names none, and the spec does not
say which section its record and its reply name: here partition 0's (DESIGN CHOICE, log 55). -/
def sectPart (sec : Bytes) : Nat := match recsOf sec with
  | .ok rs => (partSecOf sec rs).part
  | .error _ => 0

/-- R86: the status of check 0x09: the partition, the key or signature (PERM_FAULT), the trailer's own digest (BAD_DESCRIPTOR, as any other
cause), the global digest. -/
def State.check09 (s : State) (l : Layout) (sec : Bytes) : Status :=
  match recsOf sec with
  | .error _ => .badDescriptor
  | .ok rs =>
    let c := partSecOf sec rs
    Status.first [
      if l.parts.any fun r => r.part == c.part then .ok else .badDescriptor,
      if !s.signOk (trailerOf sec) (bodyOf sec) then .permFault
      else if s.trailerOk (trailerOf sec) (bodyOf sec) then .ok else .badDescriptor,
      if c.gdigest = l.digest then .ok else .conflict]

/-- R83, R86: a section's checks: its settings, or the status and the failure that rejects it. A body over the 256 KiB of R51 is reported as
check 0x03, the number R83 gives that limit, although step 3 of R85 does not list it (DESIGN CHOICE, log 55). -/
def State.loadCheck (s : State) (sec : Bytes) : Except (Status × LayErr) PartSec :=
  let l := s.lay.getD Layout.reset
  let p := sectPart sec
  if 262144 < sec.length then .error (.badDescriptor, ⟨0x03, 1 + p, 0⟩)
  else match s.partSection l p sec with
    | .error e => .error (if e.check = 9 then s.check09 l sec else .badDescriptor, e)
    | .ok c => match s.secOf p with
      | none => .ok c
      | some old => if old.rev.toNat < c.rev.toNat then .ok c else .error (.conflict, ⟨0x1C, 1 + p, 0⟩)

/-- R85 step 4, R566: the partition's engines' buffers, scratch quota and extents zeroed, its key slot destroyed, and its host entries
reset. -/
def State.scrubTenant (s : State) (p : Nat) : State :=
  let l := s.lay.getD Layout.reset
  match s.prec p with
  | none => s
  | some r =>
    let s1 : State := { s with engines := s.engines.map fun (e, x) =>
      (e, if r.engines.getLsbD e then { x with sbuf := [], used := false, raw := [] } else x) }
    let s2 := (l.extents.filter fun e => e.part == p).foldl (fun s e => s.zeroPool e.base e.count) (s1.zeroScratch p)
    (s2.dropKey r.keySlot).dropHostEntries p

/-- R82, R85: whether the scrubs end at a fabric clock with no command (log 22): DRAM takes writes. -/
def State.scrubDue (s : State) : Bool :=
  (decide (s.phase = .running) || decide (s.phase = .warmFill) || decide (s.phase = .warmRelease)) && decide (s.owl.st = .run)

/-- R85–R88: a LAYOUT_LOAD of a whole section. A tenant tag that differs starts the scrub of step 4. -/
def State.layoutLoad (s : State) (sess : Nat) (tag : W32) (sec : Bytes) : State :=
  let p := sectPart sec
  let builtin := (s.lay.getD Layout.reset).builtin
  let late := s.inWarm || decide ((s.part p).st ≠ .quiesced) || s.owl.scrubs.contains p
  let gate := [if builtin then Status.unsupported else .ok, if late then .retryLater else .ok]
  match s.loadCheck sec with
  | .ok c =>
    let st := Status.first gate
    if st = .ok then
      if c.tenant = s.tenant p then s.loaded ⟨p, c, sess, tag⟩
      else
        let s1 := s.scrubTenant p
        { s1 with owl := { s1.owl with repl := some ⟨p, c, sess, tag⟩ } }
    else s.reply sess cLayoutLoad tag st (s.loadBody 0 p)
  | .error (e, w) =>
    let st := Status.first (e :: gate)
    let n := if st = e then w.check else 0
    let s1 := if st = e then s.layoutRejected w else s
    s1.reply sess cLayoutLoad tag st (s.loadBody n p)

def execLayoutLoad (sess : Nat) (tag : W32) (body : Bytes) (s : State) : Host.Outcome State Fault Refusal :=
  .next (s.lastChunk sess cLayoutLoad tag body fun w s => s.layoutLoad sess tag w)

/-! ### Images (R80, R81, R537) -/

/-- R80: the status of a failed check of form: PERM_FAULT for a signature. -/
def State.formStatus (s : State) (img : Bytes) (e : LayErr) : Status :=
  let sec := sectionOf img 0
  if e.check = 4 ∧ !s.signOk (trailerOf sec) (slice img 0 headLen ++ bodyOf sec) then .permFault else .badDescriptor

/-- The speed at which an image asks the channels to run. -/
def State.imageSpeed (s : State) (img : Bytes) : Option Nat := match recsOf (sectionOf img 0) with
  | .ok rs => some (s.speedOf (globalOf img rs).dramSpeed.toNat)
  | .error _ => none

/-- R80 step 2: whether an image asks for another speed than training used. -/
def State.retrains (s : State) (img : Bytes) : Bool := match s.imageSpeed img with
  | none => false
  | some v => v != (s.chan 0).speed.toNat

/-- R80: an image delivered while the device waits for one. -/
def State.deliverImage (s : State) (sess : Nat) (tag : W32) (img : Bytes) : State :=
  if s.retrains img then
    let s1 : State := { s with owl := { s.owl with staged := some img, stSess := sess, stTag := tag } }
    s1.startTraining
  else s.imageDelivered img sess tag

/-- R80, R81: a LAYOUT_STAGE of a whole image: staged for the next warm reset, brought into force while the device waits for
one, or rejected. Before a layout is in force and no image is awaited, it is answered RETRY_LATER. -/
def State.layoutStage (s : State) (sess : Nat) (tag : W32) (img : Bytes) : State :=
  match s.imageForm img with
  | some e => (s.layoutRejected e).reply sess cLayoutStage tag (s.formStatus img e) (layBody (some e))
  | none =>
    if s.phase = .waitImage then s.deliverImage sess tag img
    else if s.top.layoutOk then
      ({ s with owl := { s.owl with staged := some img } } : State).reply sess cLayoutStage tag .ok (layBody none)
    else s.reply sess cLayoutStage tag .retryLater (layBody none)

def execLayoutStage (sess : Nat) (tag : W32) (body : Bytes) (s : State) : Host.Outcome State Fault Refusal :=
  .next (s.lastChunk sess cLayoutStage tag body fun w s => s.layoutStage sess tag w)

/-- The bank that is not running, changed. -/
def State.otherBank (s : State) (f : FwBank → FwBank) : State :=
  { s with flash := if s.owl.bankB then { s.flash with a := f s.flash.a } else { s.flash with b := f s.flash.b } }

/-- R537, R541: an image that passes the checks of form goes to the layout area of the bank that is not running. -/
def State.layoutFlash (s : State) (sess : Nat) (tag : W32) (img : Bytes) : State :=
  match s.imageForm img with
  | some e => (s.layoutRejected e).reply sess cLayoutFlash tag (s.formStatus img e) (layBody (some e))
  | none => (s.otherBank fun b => { b with lay := img }).reply sess cLayoutFlash tag .ok (layBody none)

def execLayoutFlash (sess : Nat) (tag : W32) (body : Bytes) (s : State) : Host.Outcome State Fault Refusal :=
  .next (s.lastChunk sess cLayoutFlash tag body fun w s => s.layoutFlash sess tag w)

/-! ### Counters and keys (R511, R541, R545) -/

/-- R553: a FIRMWARE entry: bank, security_version, and both counters. -/
def State.fwEntry (s : State) (bankB : Bool) (v : Nat) : State :=
  s.ledgerAdd 6 (ledgerNums [b2n bankB, v, s.fuse.fwCnt, s.fuse.layCnt])

/-- R545: the chosen counter burnt up to the running firmware's version, or to the layout's level; never lowered. -/
def State.advance (s : State) (layout : Bool) : State :=
  let f := s.fuse
  let f1 := if layout then { f with layCnt := max f.layCnt (s.lay.getD Layout.reset).rollback }
    else { f with fwCnt := max f.fwCnt s.runningFw.1 }
  ({ s with fuse := f1 } : State).fwEntry s.owl.bankB s.runningFw.1

def State.rollbackAdvance (s : State) (sess : Nat) (tag : W32) (body : Bytes) : State :=
  let w := fld body 0 1
  s.fixed sess cRollback tag body 1 (decide (w ≤ 1)) fun s =>
    let s1 := s.advance (w == 1)
    s1.reply sess cRollback tag .ok (toLe 1 (if w = 1 then s1.fuse.layCnt else s1.fuse.fwCnt))

def execRollbackAdvance (sess : Nat) (tag : W32) (body : Bytes) (s : State) : Host.Outcome State Fault Refusal :=
  .next (s.rollbackAdvance sess tag body)

/-- R541: the fields of a KEY_INSTALL body. -/
def keyBodyOk (b : Bytes) : Bool :=
  decide (fld b 1 1 ≤ 3) && fld b 2 2 == 0 && fld b 88 8 == 0 &&
    (fld b 0 1 == 1 || (fld b 0 1 == 2 && (slice b 24 64).all (· == 0)))

/-- R541: the status of a KEY_INSTALL whose body is well-formed. -/
def State.keyStatus (s : State) (b : Bytes) : Status :=
  let signed := match s.flash.root with
    | none => false
    | some k => sm2Verify sigKeyInst k (slice b 0 96) (slice b 96 64)
  Status.first [
    if signed then .ok else .permFault,
    if fld b 4 4 = s.flash.bootcnt.toNat ∧ slice b 8 16 = s.deviceId then .ok else .conflict]

def State.keyInstall (s : State) (sess : Nat) (tag : W32) (b : Bytes) : State :=
  s.fixed sess cKeyInstall tag b 160 (keyBodyOk b) fun s =>
    let st := s.keyStatus b
    let i := fld b 1 1
    let ks := s.flash.layKeys
    let s1 : State := if st = .ok then
        s.writeCfg fun f => { f with layKeys := if fld b 0 1 = 1 then tput ks i (slice b 24 64) else tdel ks i }
      else s
    s1.reply sess cKeyInstall tag st []

def execKeyInstall (sess : Nat) (tag : W32) (body : Bytes) (s : State) : Host.Outcome State Fault Refusal := .next (s.keyInstall sess tag body)

/-! ### Firmware (R543, R544, R546) -/

/-- R543: the status of a firmware image; one whose header is not well-formed is BAD_DESCRIPTOR (log 39). -/
def State.fwStatus (s : State) (img : Bytes) : Status :=
  let (magic, v, n, sig) := Config.fwHeader (slice img 0 256)
  Status.first [
    if s.bootMode = 1 then .unsupported else .ok,
    if magic = 0x7200F1A0 ∧ v ≤ 128 ∧ n = img.length ∧ 256 ≤ n ∧ n ≤ 16777216 then .ok else .badDescriptor,
    if sm2Verify sigFw (Config.chesamundKey 2) (Config.fwCovered img) sig then .ok else .permFault,
    if v < s.fuse.fwCnt then .conflict else .ok]

def State.fwWrite (s : State) (sess : Nat) (tag : W32) (img : Bytes) : State :=
  let st := s.fwStatus img
  let v := (Config.fwHeader (slice img 0 256)).2.1
  if st = .ok then
    let s1 := s.otherBank fun b => { b with fw := some (v, img) }
    ((s1.logPlain 0x1C 1).fwEntry (!s.owl.bankB) v).reply sess cFwWrite tag .ok []
  else s.reply sess cFwWrite tag st []

def execFwWrite (sess : Nat) (tag : W32) (body : Bytes) (s : State) : Host.Outcome State Fault Refusal :=
  .next (s.lastChunk sess cFwWrite tag body fun w s => s.fwWrite sess tag w)

def State.fwSelect (s : State) (sess : Nat) (tag : W32) (body : Bytes) : State :=
  let b := fld body 0 1
  s.fixed sess cFwSelect tag body 1 (decide (b ≤ 1)) fun s =>
    if s.bootMode = 1 then s.reply sess cFwSelect tag .unsupported []
    else ((s.writeCfg fun f => { f with preferB := b == 1 }).logPlain 0x1C 2).reply sess cFwSelect tag .ok []

def execFwSelect (sess : Nat) (tag : W32) (body : Bytes) (s : State) : Host.Outcome State Fault Refusal := .next (s.fwSelect sess tag body)

/-- R546: Owl goes down: sessions close, owl_up falls, and the banks are tried anew. -/
def State.restartOwl (s : State) : State :=
  let s1 := (s.logPlain 0x1C 4).closeAll
  { s1 with
    top := { s1.top with owlUp := false }
    owl := { s1.owl with st := .restarting, sessions := [], failA := false, failB := false } }

/-- R546: whether something that a restart must not cut short runs: a wipe, a scrub, a migration, or a change of power
state. -/
def State.noRestart (s : State) : Bool :=
  s.sec.wipeRun || s.owl.transit || !s.owl.scrubs.isEmpty || s.owl.repl.isSome || s.chans.any fun (_, c) => c.migr.isSome

def State.owlRestart (s : State) (sess : Nat) (tag : W32) (body : Bytes) : State :=
  s.fixed sess cOwlRestart tag body 0 true fun s =>
    if s.noRestart then s.reply sess cOwlRestart tag .retryLater [] else (s.reply sess cOwlRestart tag .ok []).restartOwl

def execOwlRestart (sess : Nat) (tag : W32) (body : Bytes) (s : State) : Host.Outcome State Fault Refusal := .next (s.owlRestart sess tag body)

/-- R542, R91: a WARM_RESET command: its reply, then the request; before the first ready it is ignored and recorded. -/
def State.warmResetCmd (s : State) (sess : Nat) (tag : W32) (body : Bytes) : State :=
  s.fixed sess cWarmReset tag body 0 true fun s =>
    (s.reply sess cWarmReset tag (if s.top.ready ∨ s.inWarm then .ok else .retryLater) []).warmRequest

def execWarmReset (sess : Nat) (tag : W32) (body : Bytes) (s : State) : Host.Outcome State Fault Refusal := .next (s.warmResetCmd sess tag body)

end Sys2Proof.Machine
end

