-- ==== Sys2Proof/Machine/Debug.lean ====
section
/-! DEFINITION. The debug commands (R524, R526, R542): what D1 has collected for a partition, and halting, reading and
writing units while D2 is open. -/

namespace Sys2Proof.Machine
open Sys2Proof

/-! ### DEBUG_READ -/

/-- R542: a trace record. -/
def traceBytes (k : Nat) (r : TraceRec) : Bytes :=
  toLe 4 k ++ [r.ty, r.status] ++ toLe 2 r.asid.toNat ++ toLe 8 r.va ++ toLe 8 r.tick.toNat ++ [r.port] ++ toLe 7 0

/-- R542: the trace from a seq, as many records as a reply carries. -/
def State.traceReply (s : State) (sess p : Nat) (first : W32) : Bytes :=
  let d := (s.part p).dbg
  let (skip, q, gap) := ringStart first d.traceSeq d.trace.length
  let out := (d.trace.drop skip).take ((replyMax sess - 8) / 32)
  toLe 4 q.toNat ++ toLe 2 out.length ++ toLe 2 (b2n gap) ++
    out.zipIdx.flatMap fun (r, i) => traceBytes (q + BitVec.ofNat 32 i).toNat r

/-- R542: the RUNNING engines of partition p: tiles done and the running descriptor. -/
def State.enginesReply (s : State) (p : Nat) : Bytes :=
  (s.engines.filter fun (e, x) => decide (x.st = .running) && s.engPart e == some p).flatMap fun (e, x) => match x.run with
    | none => []
    | some r => toLe 8 e ++ toLe 8 (match r.prog with | none => 0 | some g => g.tile) ++ slice r.d.bytes 0 64

def State.debugBody (s : State) (sess p kind : Nat) (first : W32) : Bytes :=
  let d := (s.part p).dbg
  if kind = 1 then toLe 8 d.reqs.toNat ++ toLe 8 d.parks.toNat ++ toLe 8 d.holdWaits.toNat ++ toLe 8 d.snptos.toNat
  else if kind = 2 then s.traceReply sess p first
  else s.enginesReply p

/-- R537, R542: DEBUG_READ: PERM_FAULT unless D1 holds for the partition with the kind in its scope. -/
def State.debugRead (s : State) (sess : Nat) (tag : W32) (body : Bytes) : State :=
  let p := fld body 0 1
  let k := fld body 1 1
  s.fixed sess cDebugRead tag body 8 (decide (p < 32) && decide (1 ≤ k) && decide (k ≤ 3) && fld body 2 2 == 0) fun s =>
    if s.d1 p (k - 1) then s.reply sess cDebugRead tag .ok (s.debugBody sess p k (BitVec.ofNat 32 (fld body 4 4)))
    else s.reply sess cDebugRead tag .permFault []

def execDebugRead (sess : Nat) (tag : W32) (body : Bytes) (s : State) : Host.Outcome State Fault Refusal := .next (s.debugRead sess tag body)

/-! ### DEBUG_HALT: the units and their addresses -/

/-- R542: the units of a class: 1 engines, 2 sett pairs, 3 DRAM controllers, 4 the Burrow. -/
def unitOk (cls i : Nat) : Bool :=
  (cls == 1 && decide (i < 64)) || (cls == 2 && decide (i < 16)) || (cls == 3 && decide (i < 32)) || (cls == 4 && i == 0)

/-- The bytes of a channel's ranks in service. -/
def Chan.capacity (c : Chan) : Nat := gib * (c.logical.length * c.dimm.rankGib.toNat)

/-- R318, R386, R405: whether a range lies within a unit. The extent of a sett's tables is not stated: any offset below 4 GiB
is taken (log 40). -/
def State.unitRange (s : State) (cls i a n : Nat) : Bool :=
  if cls = 1 then decide (a + n ≤ 2097152)
  else if cls = 2 then decide (a + n ≤ 4294967296)
  else if cls = 3 then a % 64 == 0 && decide (a + n ≤ (s.chan i).capacity)
  else decide (a + n ≤ 4294967296)

/-- The unit halted or running. -/
def State.setHalt (s : State) (cls i : Nat) (v : Bool) : State :=
  if cls = 1 then s.setEng i { s.eng i with halted := v }
  else if cls = 2 then s.setSett i { s.sett i with halted := v }
  else if cls = 3 then s.setChan i { s.chan i with halted := v }
  else { s with bur := { s.bur with halted := v } }

/-- Parked requests compete again. -/
def State.retryParked (s : State) : State := ((s.txns.filter fun t => decide (t.phase = .parked)).map (·.id)).foldl State.retry s

/-! ### Reading and writing a unit's memory -/

/-- The line at a channel address: read with no key, so one stored under a key reads as unrelated bytes (R417). -/
def State.chanLine (s : State) (ch a : Nat) : Bytes :=
  match s.rankAddr ch a with
  | none => List.replicate 64 0
  | some (r, q) =>
    let loc := locKey ch r q
    let pa := (s.paOf ch r q).getD 0
    let (plain, k0) := match s.queued loc with
      | some w => (w.data, s.storedKey loc pa)
      | none => (cgets s.dram (loc / 64 * 64) 64, s.storedKey loc pa)
    rekeyed 0 k0 (pa / 64) plain

/-- The line at a channel address written in the clear; the write queue's copy is replaced. -/
def State.putChanLine (s : State) (ch a : Nat) (bs : Bytes) : State :=
  match s.rankAddr ch a with
  | none => s
  | some (r, q) =>
    let loc := locKey ch r q
    let c := s.chan ch
    let drop (u : SubCh) : SubCh := { u with wq := u.wq.filter fun w => w.loc / 64 != loc / 64 }
    let s1 := s.setChan ch { c with subA := drop c.subA, subB := drop c.subB }
    { s1 with
      dram := cputs s1.dram (loc / 64 * 64) bs
      dramKey := tput s1.dramKey (loc / 64) 0
      dramPois := without s1.dramPois (loc / 64) }

def State.unitRead (s : State) (cls i a n : Nat) : Bytes × State :=
  if cls = 1 then
    let x := s.eng i
    if x.used then s.rawRead x.raw a n else (rawZero x.raw a n, s)
  else if cls = 2 then
    (if s.untouched then (rawZero (s.sett i).raw a n, s) else s.rawRead (s.sett i).raw a n)
  else if cls = 3 then ((List.range (n / 64)).flatMap fun k => s.chanLine i (a + 64 * k), s)
  else s.burPeek a n

def State.unitWrite (s : State) (cls i a : Nat) (bs : Bytes) : State :=
  if cls = 1 then s.setEng i { s.eng i with raw := rawPut (s.eng i).raw a bs }
  else if cls = 2 then s.setSett i { s.sett i with raw := rawPut (s.sett i).raw a bs }
  else if cls = 3 then (List.range (bs.length / 64)).foldl (fun s k => s.putChanLine i (a + 64 * k) (slice bs (64 * k) 64)) s
  else s.burPoke a bs

/-! ### DEBUG_HALT (R526, R542) -/

/-- R542: a head's fields within their encodings, and the body's length that of the operation. -/
def State.haltOk (s : State) (sess op : Nat) (b : Bytes) : Bool :=
  let n := fld b 4 4
  fld b 0 1 == op && unitOk (fld b 1 1) (fld b 2 2) && n % 64 == 0 && decide (n ≤ bodyMax - 16) &&
    b.length == 16 + (if op = 4 then n else 0) && (decide (op < 3) || s.unitRange (fld b 1 1) (fld b 2 2) (fld b 8 8) n) &&
    (op != 3 || decide (n ≤ replyMax sess))

/-- R526, R537: DEBUG_HALT: PERM_FAULT unless D2 is open. -/
def State.debugHalt (s : State) (sess op : Nat) (tag : W32) (b : Bytes) (act : Nat → Nat → Nat → Nat → State → State) : State :=
  s.command sess cDebugHalt tag fun s =>
    if b.length < 16 ∨ !s.haltOk sess op b then s.reply sess cDebugHalt tag .badDescriptor []
    else if !s.sec.d2 then s.reply sess cDebugHalt tag .permFault []
    else act (fld b 1 1) (fld b 2 2) (fld b 8 8) (fld b 4 4) s

def State.haltUnit (s : State) (sess : Nat) (tag : W32) (b : Bytes) : State :=
  s.debugHalt sess 1 tag b fun cls i _ _ s => (s.setHalt cls i true).reply sess cDebugHalt tag .ok []

def State.resumeUnit (s : State) (sess : Nat) (tag : W32) (b : Bytes) : State :=
  s.debugHalt sess 2 tag b fun cls i _ _ s => (s.setHalt cls i false).retryParked.reply sess cDebugHalt tag .ok []

def State.readUnit (s : State) (sess : Nat) (tag : W32) (b : Bytes) : State :=
  s.debugHalt sess 3 tag b fun cls i a n s =>
    let (bs, s1) := s.unitRead cls i a n
    s1.reply sess cDebugHalt tag .ok bs

def State.writeUnit (s : State) (sess : Nat) (tag : W32) (b : Bytes) : State :=
  s.debugHalt sess 4 tag b fun cls i a _ s => (s.unitWrite cls i a (b.drop 16)).reply sess cDebugHalt tag .ok []

def execDebugHaltHalt (sess : Nat) (tag : W32) (body : Bytes) (s : State) : Host.Outcome State Fault Refusal := .next (s.haltUnit sess tag body)
def execDebugHaltResume (sess : Nat) (tag : W32) (body : Bytes) (s : State) : Host.Outcome State Fault Refusal := .next (s.resumeUnit sess tag body)
def execDebugHaltRead (sess : Nat) (tag : W32) (body : Bytes) (s : State) : Host.Outcome State Fault Refusal := .next (s.readUnit sess tag body)
def execDebugHaltWrite (sess : Nat) (tag : W32) (body : Bytes) (s : State) : Host.Outcome State Fault Refusal := .next (s.writeUnit sess tag body)

end Sys2Proof.Machine
end

