-- ==== Sys2Proof/Machine/Board.lean ====
section
/-! DEFINITION. Owl and the board (R533–R535, R547–R556): PMBus, sensors and the power cap, the MGT port and its sessions,
the SMBus target, the ledger's timed entries, and the mailbox with the test access port (R521). -/

namespace Sys2Proof.Machine
open Sys2Proof

/-! ### PMBus (R542, R548) -/

/-- R542: the data length of a write protocol; none for a block write, which takes any. -/
def pmWriteLen : Nat → Option Nat
  | 1 => some 0
  | 2 => some 1
  | 3 => some 2
  | _ => none

/-- Whether a protocol code writes: send byte, write byte, write word, block write. -/
def pmWrites (p : Nat) : Bool := decide (1 ≤ p ∧ p ≤ 3) || p == 6

/-- R542: a PMBUS body of a named regulator, a known protocol and the length its protocol gives. -/
def State.pmOk (s : State) (b : Bytes) : Bool :=
  let p := fld b 2 1
  let n := fld b 3 1
  s.flash.regNamed.contains (fld b 0 1) && decide (1 ≤ p) && decide (p ≤ 7) &&
    (if pmWrites p then b.length == 4 + n && (match pmWriteLen p with | none => true | some m => n == m) else b.length == 4)

/-- The data of a read, in the length of its protocol. -/
def pmData (p : Nat) (d : Bytes) : Bytes :=
  if p = 4 then slice d 0 1 else if p = 5 then slice d 0 2 else if p = 7 then d.take 255 else []

/-- R542: one PMBus transaction; `reply` is what the regulator returns, none when it does not acknowledge. -/
def State.pmbus (s : State) (sess : Nat) (tag : W32) (b : Bytes) (reply : Option Bytes) : State :=
  s.command sess cPmbus tag fun s =>
    if b.length < 4 ∨ !s.pmOk b then s.reply sess cPmbus tag .badDescriptor []
    else
      let s1 : State := { s with owl := { s.owl with pmOut := s.owl.pmOut ++ [b] } }
      match reply with
      | none => s1.reply sess cPmbus tag .timeout []
      | some d => s1.reply sess cPmbus tag .ok (pmData (fld b 2 1) d)

def execPmbus (sess : Nat) (tag : W32) (body : Bytes) (reply : Option Bytes) (s : State) : Host.Outcome State Fault Refusal :=
  .next (s.pmbus sess tag body reply)

/-- STATUS_WORD's fault bits: all but POWER_GOOD#, UNKNOWN, BUSY, OFF and NONE OF THE ABOVE (PRESUMED: PMBus 1.3, log 41). -/
def statusFaults : BitVec 16 := 0xF63E

/-- R548: the output power of a device rail, read every 1 ms. -/
def State.readPout (s : State) (i pout : Nat) : State :=
  if s.flash.regs.contains i ∧ s.due (16 + i) Config.msClk then
    (({ s with owl := { s.owl with pout := tput s.owl.pout i pout } } : State).took (16 + i) Config.msClk)
  else s

/-- R548: a regulator's other readings, every 100 ms: a fault bit of STATUS_WORD makes a POWER record. -/
def State.readStatus (s : State) (i : Nat) (status : BitVec 16) : State :=
  if s.due (32 + i) (100 * Config.msClk) then
    let s1 := s.took (32 + i) (100 * Config.msClk)
    if status &&& statusFaults = 0 then s1 else s1.logPlain 0x1E 1
  else s

/-- R548: a regulator's readings, those that are due. -/
def execRegulatorPoll (i : Nat) (pout : Nat) (status : BitVec 16) (s : State) : Host.Outcome State Fault Refusal :=
  if s.owl.st ≠ .run ∨ !s.flash.regNamed.contains i then .next s
  else .next ((s.readPout i pout).readStatus i status)

/-! ### Sensors and the power cap (R547, R549) -/

/-- R548: device power: the sum over the device rails. -/
def State.devPower (s : State) : Nat := (s.flash.regs.map fun i => tget 0 s.owl.pout i).foldl (· + ·) 0

/-- R547: Tj: the largest thermal reading, in 1/16 °C. -/
def maxTemp : List Int → Int
  | [] => 0
  | t :: l => l.foldl max t

/-- R553: the histogram's bin of a temperature: 24 bins of 5 °C from 0 °C. -/
def tjBin (t : Int) : Nat := min 23 (t / 80).toNat

/-- R547, R555: a sample of every sensor; the values that SMBus serves are refreshed. -/
def execSensorSample (temps : List Int) (mv : List Nat) (s : State) : Host.Outcome State Fault Refusal :=
  if s.owl.st ≠ .run ∨ !s.due 2 Config.msClk then .next s
  else
    let o := s.owl
    let tj := maxTemp temps
    let up := o.upMs + 1
    .next { s.took 2 Config.msClk with owl := { o with
      temps := temps, mv := mv
      smTemps := temps, smMv := mv, smP := s.devPower, smSince := s.clk, smStale := false
      upMs := up
      tjMax := if o.temps.isEmpty then tj else max o.tjMax tj
      tjHist := if up % 1000 = 0 then tput o.tjHist (tjBin tj) (tget 0 o.tjHist (tjBin tj) + 1) else o.tjHist } }

/-- R549: eng_share after an update, from the cap, P, Tj and the share before it. -/
def shareStep (cap p : Nat) (tj : Int) (share : Nat) : Nat :=
  if (0 < cap ∧ cap < p) ∨ 1600 ≤ tj then max (share - 8) 8
  else if (cap = 0 ∨ 100 * p < 95 * cap) ∧ tj < 1520 then min (share + 8) 128
  else share

/-- R477, R549: one update of the cap, with a record at each change of active (R551). -/
def State.capUpdate (s : State) : State :=
  let o := s.owl
  let p := s.devPower
  let tj := maxTemp o.temps
  let share := shareStep o.cap p tj o.engShare.toNat
  let act := decide (share < 128)
  let s1 : State := { s with owl := { o with
    engShare := BitVec.ofNat 8 share
    power := BitVec.ofNat 8 (min 255 (p / 5))
    active := act
    capMs := if act then (List.range 32).map fun p => (p, sat (tget 0 o.capMs p)) else o.capMs
    energy := o.energy + p } }
  if act = o.active then s1
  else if act then s1.logPlain 0x1E (if 1600 ≤ tj then 4 else 2)
  else s1.logPlain 0x1E 3

def execPowerCapUpdate (s : State) : Host.Outcome State Fault Refusal :=
  .next (if s.owl.st = .run ∧ s.due 3 Config.msClk then (s.took 3 Config.msClk).capUpdate else s)

/-- R549: the POWER_CAP command: 0 or 400–1,150 W. -/
def State.powerCap (s : State) (sess : Nat) (tag : W32) (body : Bytes) : State :=
  let w := fld body 0 2
  s.fixed sess cPowerCap tag body 2 (w == 0 || (decide (400 ≤ w) && decide (w ≤ 1150))) fun s =>
    ({ s with owl := { s.owl with cap := w } } : State).reply sess cPowerCap tag .ok (toLe 2 w)

def execPowerCap (sess : Nat) (tag : W32) (body : Bytes) (s : State) : Host.Outcome State Fault Refusal := .next (s.powerCap sess tag body)

/-! ### The ledger's timed entries (R553, R554) -/

/-- R553: the body of a SUMMARY: power-on hours, Wh, the histogram in seconds, the largest Tj. -/
def State.summaryBody (s : State) : Bytes :=
  let o := s.owl
  ledgerNums ([o.upMs / 3600000, o.energy / 3600000] ++ (List.range 24).map fun i => tget 0 o.tjHist i) ++
    toLe 4 (BitVec.ofInt 32 o.tjMax).toNat

/-- R553: the body of a channel's CE_COUNTS: the channel, then by rank, subchannel and device. -/
def State.ceBody (s : State) (ch : Nat) : Bytes :=
  ledgerNums (ch :: (List.range 4).flatMap fun r => (List.range 20).map fun i => tget 0 (tget RankS.reset (s.chan ch).ranks r).devCe i)

/-- R553: 3,600 s of powered time: a SUMMARY; after every 24th, the counts of each channel. -/
def State.ledgerSummary (s : State) : State :=
  let s1 := s.ledgerAdd 1 s.summaryBody
  let n := s.owl.summaries + 1
  if n < 24 then { s1 with owl := { s1.owl with summaries := n } }
  else (List.range 32).foldl (fun s c => s.ledgerAdd 2 (s.ceBody c)) ({ s1 with owl := { s1.owl with summaries := 0 } } : State)

/-- R553: 3,600 s in fabric clocks. -/
def hourClk : Nat := 3600000 * Config.msClk

def execLedgerSummary (s : State) : Host.Outcome State Fault Refusal :=
  .next (if s.owl.st = .run ∧ s.due 4 hourClk then (s.took 4 hourClk).ledgerSummary else s)

/-! ### The SMBus target (R555) -/

/-- R555: 10 ms with no refresh. -/
def execSmbusStale (s : State) : Host.Outcome State Fault Refusal :=
  .next (if Config.ms10Clk + s.owl.smSince ≤ s.clk then { s with owl := { s.owl with smStale := true } } else s)

/-- R555: what a code returns: a word, a byte, or a block with its count first; nothing for an unknown code. -/
def State.smValue (s : State) (code : Byte) : Bytes :=
  let o := s.owl
  match code.toNat with
  | 0x00 => toLe 2 0x7200
  | 0x01 => toLe 1 (s.secState % 8)
  | 0x02 => toLe 1 s.readyReg
  | 0x03 => toLe 2 (BitVec.ofInt 16 (maxTemp o.smTemps)).toNat
  | 0x04 => toLe 2 o.smP
  | 0x05 => toLe 2 (b2n o.active * 32768 + o.engShare.toNat)
  | 0x06 => toLe 1 (b2n o.smStale + 2 * b2n (decide (s.mgtStrap = 3)))
  | 0x10 => toLe 1 48 ++ (List.range 48).flatMap fun i => toLe 1 (BitVec.ofInt 8 (o.smTemps.getD i 0 / 16)).toNat
  | 0x11 => toLe 1 32 ++ (List.range 16).flatMap fun i => toLe 2 (o.smMv.getD i 0)
  | 0x12 => toLe 1 16 ++ s.deviceId
  | _ => []

/-- Bytes sent on SMBus; an empty entry is a NACK. A device whose units are all held in reset answers nothing. -/
def State.smSend (s : State) (b : Bytes) : State :=
  if s.pwrgood ∧ !s.thermtrip then { s with owl := { s.owl with smOut := s.owl.smOut ++ [b] } } else s

def execSmbusRead (code : Byte) (s : State) : Host.Outcome State Fault Refusal := .next (s.smSend (s.smValue code))

/-- R555: the data byte of a write is NACKed, and nothing changes. -/
def execSmbusWrite (_code _data : Byte) (s : State) : Host.Outcome State Fault Refusal := .next (s.smSend [])

/-! ### Sessions on MGT (R533–R535) -/

/-- R93: whether the MGT port carries frames: not under SIDEBAND, and only while Owl runs. -/
def State.mgtUp (s : State) : Bool := decide (s.owl.st = .run) && decide (s.mgtStrap ≠ 3)

/-- R534: whether a client's chain ends where the lifecycle state asks. -/
def State.chainOk (s : State) (rootDigest : Bytes) : Bool :=
  if s.life = 0 then rootDigest == sm3 (Config.chesamundKey 1)
  else match s.flash.root with
    | none => false
    | some k => rootDigest == sm3 k

/-- R534: whether a client's offer allows TLS 1.3 with TLS_SM4_GCM_SM3, sm2sig_sm3 and curveSM2 (PRESUMED: the code points of RFC 8446 and
RFC 8998, log 41), by a whole handshake. -/
def tlsOk (o : TlsOffer) : Bool :=
  o.versions.contains 0x0304 && o.suites.contains 0x00C6 && o.schemes.contains 0x0708 && o.groups.contains 0x0029 && !o.pskOnly

/-- R535: the lowest session that is not open. -/
def State.freeSession (s : State) : Option Nat := (List.range 4).find? fun i => !thas s.owl.sessions i

/-- R534, R535: what Owl sends in a handshake. -/
def State.tlsSend (s : State) (k : TlsKind) (b : Bytes) : State := { s with owl := { s.owl with tlsSent := s.owl.tlsSent ++ [(k, b)] } }

/-- R534, R535: a handshake: Owl presents its certificate chain and a session opens, or it is refused with an alert; either is recorded. -/
def execTlsHandshake (paramsOk : TlsOffer) (chain : Nat) (rootDigest : Bytes) (s : State) : Host.Outcome State Fault Refusal :=
  if !s.mgtUp then .next s
  else match s.freeSession with
    | some i =>
      if tlsOk paramsOk ∧ 1 ≤ chain ∧ chain ≤ 4 ∧ s.chainOk rootDigest then
        .next (((s.tlsSend .chain s.certs).setSess i { Sess.reset with lastCmd := s.clk }).logPlain 0x1F 1)
      else .next ((s.tlsSend .alert []).logPlain 0x1F 2)
    | none => .next ((s.tlsSend .alert []).logPlain 0x1F 2)

def execSessionClose (sess : Nat) (s : State) : Host.Outcome State Fault Refusal := .next (s.dropSession sess).mgtSettle

/-- R535: 600 s without a command. -/
def execSessionIdleTimeout (sess : Nat) (s : State) : Host.Outcome State Fault Refusal :=
  .next (if 1440000000000 + (s.sess sess).lastCmd ≤ s.clk then (s.dropSession sess).mgtSettle else s)

/-- R537, R541: MGT_CONFIG: written to flash, in force once all sessions have closed. -/
def State.mgtConfig (s : State) (sess : Nat) (tag : W32) (body : Bytes) : State :=
  s.fixed sess cMgtConfig tag body 64 (decide (fld body 0 1 ≤ 3) && fld body 3 1 == 0 && fld body 6 2 == 0 && fld body 14 2 == 0 && fld body 56 8 == 0)
    fun s => (({ s.writeCfg (fun f => { f with mgt := body }) with
      owl := { s.owl with mgtNew := some body } } : State).reply sess cMgtConfig tag .ok []).mgtSettle

def execMgtConfig (sess : Nat) (tag : W32) (body : Bytes) (s : State) : Host.Outcome State Fault Refusal := .next (s.mgtConfig sess tag body)

/-- R533: the MAC address in force: that of the settings, or 0x02 followed by bytes 0–4 of device_id; byte i in bits
8i + 7 : 8i. -/
def State.mgtMac (s : State) : BitVec 48 :=
  let m := fld s.owl.mgt 8 6
  BitVec.ofNat 48 (if m = 0 then leNat (0x02 :: slice s.deviceId 0 5) else m)

/-- R533: the listening TCP port. -/
def State.mgtTcp (s : State) : Nat := if fld s.owl.mgt 4 2 = 0 then 4772 else fld s.owl.mgt 4 2

/-- R533, R541: whether the settings ask for DHCPv4, and for SLAAC. -/
def State.mgtDhcp (s : State) : Bool := (fld s.owl.mgt 0 1).testBit 0
def State.mgtSlaac (s : State) : Bool := (fld s.owl.mgt 0 1).testBit 1

/-- R533: the port's IPv4 and IPv6 addresses, static or acquired; 0 for none. -/
def State.mgtIp4 (s : State) : Nat := if s.mgtDhcp then s.owl.lease.getD 0 else fld s.owl.mgt 16 4
def State.mgtIp6 (s : State) : Nat := if s.mgtSlaac then s.owl.slaac.getD 0 else fld s.owl.mgt 24 16

/-- Whether a frame is addressed to one of the port's addresses. -/
def State.mgtMine (s : State) (f : Frame) : Bool :=
  let ip := if f.v6 then s.mgtIp6 else s.mgtIp4
  ip != 0 && f.dstIp.toNat == ip

/-- A DHCP option of a code, in the options that follow the magic cookie (PRESUMED: RFC 2132, log 41); `n` bounds their number. -/
def dhcpOption (code : Byte) : Nat → Bytes → Option Bytes
  | 0, _ => none
  | _ + 1, [] => none
  | n + 1, c :: t =>
    if c = 0 then dhcpOption code n t
    else if c = 255 then none
    else
      let l := fld t 0 1
      if c = code then some (slice t 1 l) else dhcpOption code n (t.drop (1 + l))

/-- R533: a DHCPv4 message for the port, under the settings' flag (PRESUMED: RFC 2131, log 41): an offer is requested, an acknowledgement
gives the address, and a refusal takes it. -/
def State.dhcpIn (s : State) (f : Frame) : State :=
  let p := f.payload
  let opt (c : Byte) : Bytes := (dhcpOption c 64 (p.drop 240)).getD []
  if !s.mgtDhcp || fld p 0 1 != 2 || fld p 28 6 != s.mgtMac.toNat || slice p 236 4 != [0x63, 0x82, 0x53, 0x63] then s
  else match opt 53 with
    | [2] =>
      let ask : Bytes := [1] ++ slice p 1 15 ++ toLe 12 0 ++ slice p 28 208 ++ slice p 236 4 ++ [53, 1, 3, 50, 4] ++ slice p 16 4 ++
        [54, 4] ++ slice (opt 54) 0 4 ++ [255]
      let g : Frame := { f with srcMac := s.mgtMac, dstMac := BitVec.allOnes 48, srcIp := 0, dstIp := 0xFFFFFFFF, payload := ask }
      { s with owl := { s.owl with mgtSent := s.owl.mgtSent ++ [(.dhcp, g)] } }
    | [5] => { s with owl := { s.owl with lease := some (fld p 16 4) } }
    | [6] => { s with owl := { s.owl with lease := none } }
    | _ => s

/-- The 64-bit prefix for address configuration that a router advertisement names, in its options of 8-byte units (PRESUMED: RFC 4861,
log 41); `n` bounds their number. -/
def raPrefix : Nat → Bytes → Option Bytes
  | 0, _ => none
  | n + 1, b =>
    let l := fld b 1 1
    if b.isEmpty ∨ l = 0 then none
    else if fld b 0 1 = 3 ∧ fld b 2 1 = 64 ∧ (fld b 3 1).testBit 6 then some (slice b 16 8)
    else raPrefix n (b.drop (8 * l))

/-- R533: a router advertisement, under the settings' flag: the address is the prefix followed by the interface identifier that the MAC
address gives (PRESUMED: RFC 4862, log 41). -/
def State.raIn (s : State) (f : Frame) : State :=
  if !s.mgtSlaac || fld f.payload 0 1 != 134 then s
  else match raPrefix 64 (f.payload.drop 16) with
    | none => s
    | some x =>
      let m := toLe 6 s.mgtMac.toNat
      let eui : Bytes := [m.getD 0 0 ^^^ 2] ++ slice m 1 2 ++ [0xFF, 0xFE] ++ slice m 3 3
      { s with owl := { s.owl with slaac := some (leNat (x ++ eui)) } }

/-- R533: a frame at the MGT port: ARP, NDP and ICMP echo are answered, TCP on the listening port reaches the sessions, DHCPv4 and router
advertisements give the port its addresses, and every other frame is dropped. -/
def execMgtFrame (k : MgtKind) (f : Frame) (tcpPort : BitVec 16) (s : State) : Host.Outcome State Fault Refusal :=
  let mac := s.mgtMac
  let toUs := f.dstMac == mac
  let group := f.dstMac.getLsbD 0
  let answer : Frame := { f with srcMac := mac, dstMac := f.srcMac, srcIp := f.dstIp, dstIp := f.srcIp }
  let addr := k == .dhcp || k == .ra
  if !s.mgtUp ∨ !f.fcsOk ∨ (!addr ∧ !s.mgtMine f) then .next s
  else match k with
    | .arp => .next (if (toUs ∨ group) ∧ !f.v6 then { s with owl := { s.owl with mgtSent := s.owl.mgtSent ++ [(k, answer)] } } else s)
    | .ndp => .next (if (toUs ∨ group) ∧ f.v6 then { s with owl := { s.owl with mgtSent := s.owl.mgtSent ++ [(k, answer)] } } else s)
    | .echo => .next (if toUs then { s with owl := { s.owl with mgtSent := s.owl.mgtSent ++ [(k, answer)] } } else s)
    | .tcp => .next (if toUs ∧ tcpPort.toNat = s.mgtTcp then { s with owl := { s.owl with tcpIn := s.owl.tcpIn ++ [f.payload] } } else s)
    | .dhcp => .next (if (toUs ∨ group) ∧ !f.v6 ∧ tcpPort = 68 then s.dhcpIn f else s)
    | .ra => .next (if (toUs ∨ group) ∧ f.v6 then s.raIn f else s)
    | .other => .next s

/-! ### The mailbox and the test access port (R521, R526, R556) -/

/-- A POWER_STATE body's target. -/
def pwrTarget (b : Bytes) : Option PwrState :=
  if b.length ≠ 1 then none
  else match fld b 0 1 with
    | 0 => some .run
    | 1 => some .gate
    | 2 => some .drowse
    | 3 => some .hibernate
    | 4 => some .off
    | _ => none

/-- A POWER_STATE message of the mailbox. -/
def State.pwrMsg (s : State) (tag : W32) (b : Bytes) : State :=
  match pwrTarget b with
  | some t => s.powerState mboxSess tag t
  | none => s.command mboxSess cPower tag fun s => s.reply mboxSess cPower tag .badDescriptor []

/-- A PMBUS message of the mailbox: what the regulator answers is free. -/
def State.pmMsg (s : State) (tag : W32) (b : Bytes) : State :=
  let (ack, s1) := s.drawNat 2
  let (x, s2) := s1.drawBits 2040
  s2.pmbus mboxSess tag b (if ack = 0 then none else some (toLe 255 x.toNat))

/-- R542: a DEBUG_HALT message, by its operation. -/
def State.haltMsg (s : State) (tag : W32) (b : Bytes) : State :=
  match fld b 0 1 with
  | 1 => s.haltUnit mboxSess tag b
  | 2 => s.resumeUnit mboxSess tag b
  | 3 => s.readUnit mboxSess tag b
  | 4 => s.writeUnit mboxSess tag b
  | _ => s.command mboxSess cDebugHalt tag fun s => s.reply mboxSess cDebugHalt tag .badDescriptor []

/-- R537, R556: a message of the mailbox, handled as from a session. -/
def State.mboxMsg (s : State) (code : BitVec 16) (flags : Nat) (tag : W32) (b : Bytes) : State :=
  let m := mboxSess
  if chunkable code ∧ !flags.testBit 1 then s.chunk m code tag b
  else match code.toNat with
    | 0x01 => s.info m tag b
    | 0x02 => s.regReadCmd m tag b
    | 0x03 => s.regWriteCmd m tag (flags.testBit 0) b
    | 0x10 => s.eventRead m tag b
    | 0x11 => s.ledgerRead m tag b
    | 0x12 => s.scrubStatus m tag b
    | 0x13 => s.scrubConfig m tag b
    | 0x20 => s.lastChunk m code tag b fun w s => s.layoutLoad m tag w
    | 0x21 => s.lastChunk m code tag b fun w s => s.layoutStage m tag w
    | 0x22 => s.lastChunk m code tag b fun w s => s.layoutFlash m tag w
    | 0x23 => s.rollbackAdvance m tag b
    | 0x24 => s.keyInstall m tag b
    | 0x30 => s.lastChunk m code tag b fun w s => s.fwWrite m tag w
    | 0x31 => s.fwSelect m tag b
    | 0x32 => s.owlRestart m tag b
    | 0x40 => s.warmResetCmd m tag b
    | 0x41 => s.pwrMsg tag b
    | 0x42 => s.powerCap m tag b
    | 0x50 => s.lifecycle m tag b
    | 0x51 => s.spdmCommand m tag b
    | 0x60 => s.debugRead m tag b
    | 0x61 => s.haltMsg tag b
    | 0x70 => s.pmMsg tag b
    | 0x71 => s.mgtConfig m tag b
    | _ => s.command m code tag fun s => s.reply m code tag .unsupported []

/-- R536: whether a packet of the mailbox begins with the header of a message: magic, flags and status. -/
def mboxHead (b : Bytes) : Bool := decide (16 ≤ b.length) && fld b 0 4 == 0x72000C3D && decide (fld b 6 1 ≤ 3) && fld b 7 1 == 0

/-- R536: whether a packet of the mailbox is one whole message: its header, and a length that its words hold. -/
def mboxOk (b : Bytes) : Bool := mboxHead b && (b.length == 16 + (fld b 8 4 + 3) / 4 * 4)

/-- R536, R556: a packet of the mailbox: handled, or malformed and counted; a message whose length is above 1 MiB is answered
BAD_DESCRIPTOR. -/
def State.mboxPacket (s : State) (ws : List FWord) : State :=
  let b := ws.flatMap fun w => toLe 4 w.w.toNat
  let code : BitVec 16 := BitVec.ofNat 16 (fld b 4 2)
  let tag : W32 := BitVec.ofNat 32 (fld b 12 4)
  if mboxHead b && decide (bodyMax < fld b 8 4) then s.command mboxSess code tag fun s => s.reply mboxSess code tag .badDescriptor []
  else if !mboxOk b then s.fifoErr .mbox
  else s.mboxMsg (BitVec.ofNat 16 (fld b 4 2)) (fld b 6 1) (BitVec.ofNat 32 (fld b 12 4)) ((b.drop 16).take (fld b 8 4))

/-- R45: the whole packets of the mailbox's send side handled, oldest first, while Owl runs and the receive side has room for any reply. -/
def State.mboxRun : Nat → State → State
  | 0, s => s
  | n + 1, s =>
    if s.owl.st ≠ .run ∨ !s.owl.fifo.recv.isEmpty then s
    else match takePacket s.owl.fifo.send with
      | none => s
      | some (pk, rest) =>
        let s1 : State := { s with owl := { s.owl with fifo := { s.owl.fifo with send := rest } } }
        State.mboxRun n (s1.mboxPacket pk)

/-- R521: an instruction selected at the test access port. -/
def State.tapSelect (s : State) (t : TapSel) : State := { s with sec := { s.sec with tap := t } }

/-- R521, R526, R556: an instruction of the test access port. Outside D2 all but IDCODE select BYPASS. While D2 is open every instruction is
offered: the port pushes into the mailbox, and one that the manual does not name is selected and has no other effect stated (DESIGN CHOICE,
log 27). -/
def execTestAccessPortInstruction (ir : TapInstr) (s : State) : Host.Outcome State Fault Refusal :=
  if !s.sec.d2 then .next (s.tapSelect (if ir = .idcode then .idcode else .bypass))
  else match ir with
    | .bypass => .next (s.tapSelect .bypass)
    | .idcode => .next (s.tapSelect .idcode)
    | .push w eop =>
      let s1 := (s.tapSelect .push).fifoPush .mbox ⟨w, eop⟩
      .next (State.mboxRun s1.owl.fifo.send.length s1)
    | .other ir => .next (s.tapSelect (.other ir))

end Sys2Proof.Machine
end

