-- ==== Sys2Proof/Machine/Host.lean ====
section
/-! DEFINITION. The host Ethernet interface (R557–R576): frames, RoCEv2 requests, their order and answers, and flow control.
A request is taken into its queue pair's list; its lines are issued when the order of R569 lets them, and it is answered in
its turn. -/

namespace Sys2Proof.Machine
open Sys2Proof

/-! ### Frames (R557–R559) -/

/-- R558: a frame that the MAC accepts. -/
def HPort.takes (h : HPort) (f : Frame) : Bool :=
  f.fcsOk && decide (64 ≤ f.bytes) && decide (f.bytes ≤ 4352) && (if h.ctrl.getLsbD 3 then f.vlan == some h.vlan else f.vlan.isNone)

/-- R559: whether a frame's destination is one of the port's IP addresses. -/
def HPort.mine (h : HPort) (f : Frame) : Bool :=
  if f.v6 then h.ipv6 != 0 && f.dstIp == h.ipv6 else h.ipv4 != 0 && f.dstIp.toNat == h.ipv4.toNat

/-- R558: the tag of the frames that a port sends. -/
def HPort.tag (h : HPort) : Option (BitVec 12) := if h.ctrl.getLsbD 3 then some h.vlan else none

/-- R577: a frame dropped and counted in HST_RXDROP. -/
def State.rxDrop (s : State) (k : Nat) : State := s.setHport k { s.hport k with rxdrop := sat (s.hport k).rxdrop }

/-- R561: a packet dropped and counted in HST_ICRCERR. -/
def State.icrcDrop (s : State) (k : Nat) : State := s.setHport k { s.hport k with icrcErr := sat (s.hport k).icrcErr }

/-- R559: a frame answered at once, its MAC addresses exchanged; one that the port does not answer is dropped. `group` says
whether a group address reaches it. -/
def State.answerFrame (s : State) (k : Nat) (f : Frame) (kind : Nat) (group ok : Bool) : State :=
  let h := s.hport k
  if !h.up then s
  else if h.takes f ∧ !f.fragment ∧ (f.dstMac = h.mac ∨ (group ∧ f.dstMac.getLsbD 0)) ∧ h.mine f ∧ ok then
    s.setHport k { h with sent := h.sent ++ [{ kind := kind, srcMac := f.dstMac, dstMac := f.srcMac, vlan := h.tag, v6 := f.v6,
                                               srcIp := f.dstIp, dstIp := f.srcIp, ecn := if kind = 0 then 0 else 2, data := f.payload }] }
  else s.rxDrop k

def execArpRequest (k : Nat) (f : Frame) (s : State) : Host.Outcome State Fault Refusal := .next (s.answerFrame k f 0 true (!f.v6))
def execNeighbourSolicitation (k : Nat) (f : Frame) (s : State) : Host.Outcome State Fault Refusal :=
  .next (s.answerFrame k f 1 true f.v6)
def execEchoRequest (k : Nat) (f : Frame) (s : State) : Host.Outcome State Fault Refusal := .next (s.answerFrame k f 2 false true)

/-! ### PFC (R575) -/

/-- Fabric clocks in a pause of n quanta, of 512 bit times each at the port's rate (PRESUMED: IEEE 802.1Qbb, log 42). -/
def pauseClks (width : BitVec 2) (n : Nat) : Nat := (n * (if width = 2 then 1536 else 3072) + 999) / 1000

/-- R575: a received PFC frame: each priority it names is paused for its time, or resumed. -/
def execPfcFrame (k : Nat) (quanta : List (Option (BitVec 16))) (s : State) : Host.Outcome State Fault Refusal :=
  let h := s.hport k
  if !h.up then .next s
  else
    let p := quanta.zipIdx.foldl (fun t (q, i) => match q with
      | none => t
      | some n => if n = 0 then tdel t i else tput t i (s.clk + pauseClks h.width n.toNat)) h.paused
    .next (s.setHport k { h with paused := p })

/-- R575: a pause time runs out. -/
def execPfcPauseExpiry (k : Nat) (prio : Nat) (s : State) : Host.Outcome State Fault Refusal :=
  let h := s.hport k
  .next (if thas h.paused prio ∧ tget 0 h.paused prio ≤ s.clk then s.setHport k { h with paused := tdel h.paused prio } else s)

/-- R575: the bytes that a port's receive buffer holds: frames whose lines have not been issued. -/
def State.rxLoad (s : State) (k : Nat) : Nat :=
  (s.hst.qps.map fun (_, x) => ((x.pend.filter fun p => p.port == k && !p.left.isEmpty).map (·.bytes)).sum).sum

/-- R577: the level in KiB at which XON is sent. -/
def HPort.xon (h : HPort) : Nat :=
  let xoff := bitsOf h.pfc.toNat 12 12
  let xon := bitsOf h.pfc.toNat 0 12
  if xoff ≤ xon then xoff - 64 else xon

/-- R575: a PFC frame for the port's priority, of kind 8 for XOFF and 9 for XON, to the group address of PFC (PRESUMED: IEEE 802.1Qbb,
log 42). -/
def HPort.pfcFrame (h : HPort) (kind : Nat) : HSent :=
  { kind := kind, srcMac := h.mac, dstMac := 0x0180C2000001, vlan := h.tag, prio := BitVec.ofNat 3 (bitsOf h.pfc.toNat 24 3) }

/-- R575: XOFF is sent once the buffer holds xoff KiB. -/
def State.pfcCheck (s : State) (k : Nat) : State :=
  let h := s.hport k
  if !h.xoffed ∧ bitsOf h.pfc.toNat 12 12 * 1024 ≤ s.rxLoad k then
    s.setHport k { h with xoffed := true, pfctx := sat h.pfctx, sent := h.sent ++ [h.pfcFrame 8] }
  else s

/-- R575: XON is sent once the buffer has fallen to its level; a port whose link is down sends nothing. -/
def execPfcXon (k : Nat) (s : State) : Host.Outcome State Fault Refusal :=
  let h := s.hport k
  .next (if h.xoffed ∧ s.rxLoad k ≤ h.xon * 1024 then
      s.setHport k { h with xoffed := false, sent := h.sent ++ (if h.up then [h.pfcFrame 9] else []) }
    else s)

/-! ### Packets that the device sends (R466, R559, R560) -/

/-- The bytes of a packet's frame, from the destination address to the FCS (R462). -/
def packetBytes (v6 tagged : Bool) (ext n : Nat) : Nat :=
  max 64 (14 + (if tagged then 4 else 0) + (if v6 then 40 else 20) + 8 + 12 + ext + (n + 3) / 4 * 4 + 4 + 4)

/-- A packet queued for the host of queue pair q in its partition's egress queue on port k, with the context's DSCP and ECT(0) (R563,
R576). -/
def State.emit (s : State) (k q : Nat) (mac : BitVec 48) (prio : BitVec 3) (kind ext : Nat) (psn : BitVec 24) (syn : Byte)
    (data : Bytes) : State :=
  let h := s.hport k
  let x := s.qp q
  let v6 := (x.byte 14).getLsbD 0
  let f : HSent := { kind := kind, qpn := x.rqpn, psn := psn, syn := syn, srcMac := h.mac, dstMac := mac, vlan := h.tag, prio := prio,
                     v6 := v6, srcIp := if v6 then h.ipv6 else h.ipv4.setWidth 128, dstIp := BitVec.ofNat 128 (x.num 16 16)
                     dscp := some (BitVec.ofNat 6 (x.byte 13).toNat), ecn := 2, data := data }
  let e : EgMsg := { arrPort := 8 + k, size := packetBytes v6 h.tag.isSome ext data.length, since := s.clk, frame := some f
                     qp := if kind = 5 then some q else none }
  let g := s.pqos x.part (8 + k)
  s.setPqos x.part (8 + k) { g with egress := g.egress ++ [e] }

/-- R576: a CNP to the queue pair's host, at most one in cnp_gap µs. -/
def State.sendCnp (s : State) (k q : Nat) (pk : Packet) : State :=
  let x := s.qp q
  let h := s.hport k
  if x.cnpSent ∧ s.clk < max 1 h.cnp.toNat * Config.usClk + x.cnpAt then s
  else
    let s1 := s.setQp q { x with cnpAt := s.clk, cnpSent := true }
    (s1.setHport k { h with cnptx := sat h.cnptx }).emit k q pk.frame.srcMac pk.prio 7 16 0 0 []

/-- R569: the ACK that is due is sent. -/
def State.flushAck (s : State) (q : Nat) : State :=
  let x := s.qp q
  match x.ackDue with
  | none => s
  | some psn => (s.setQp q { x with ackDue := none }).emit x.ackPort q x.ackMac x.ackPrio 3 4 psn 0 []

/-! ### Answers (R567, R568) -/

/-- R567: the syndrome of a status that ends a request. -/
def nakOf (st : Status) : Byte :=
  match st with
  | .badDescriptor | .alignFault | .unsupported | .formatFault => 0x61
  | .xlateFault | .permFault | .keyLost => 0x62
  | _ => 0x63

/-- R567: a NAK that ends the queue pair: the status is recorded, the state is ERROR, and nothing further is answered. -/
def State.nak (s : State) (q : Nat) (p : Pend) (st : Status) : State :=
  let s1 := (s.flushAck q).emit p.port q p.mac p.prio 4 4 p.psn (nakOf st) []
  let x := (s1.qp q).put 0 [2]
  let s2 := s1.setQp q { x.put 3 [st.code] with pend := [], wrOn := false, ackDue := none }
  { s2 with hst := { s2.hst with evstat := true, qperrs := sat s2.hst.qperrs } }

/-- The bytes of a READ: from its lines, or from the page. -/
def Pend.readData (p : Pend) : Bytes :=
  if p.page then tget [] p.got 0
  else
    let first := p.va / 64
    let n := (p.va % 64 + p.len + 63) / 64
    (((List.range n).flatMap fun i => slice (tget [] p.got (first + i)) 0 64).drop (p.va % 64)).take p.len

/-- The packets of a READ Response: consecutive PSNs, each of at most a path MTU. -/
def State.readResponse (s : State) (q : Nat) (p : Pend) : State :=
  let m := (s.qp q).mtu
  let d := p.readData
  let n := max 1 ((p.len + m - 1) / m)
  (List.range n).foldl (fun s i =>
    s.emit p.port q p.mac p.prio 5 (if i = 0 ∨ i + 1 = n then 4 else 0) (p.psn + BitVec.ofNat 24 i) 0 ((d.drop (i * m)).take m)) s

/-- R568: an atomic's answer, with its original value. -/
def State.atomicAck (s : State) (k q : Nat) (mac : BitVec 48) (prio : BitVec 3) (psn : BitVec 24) (v : W64) : State :=
  s.emit k q mac prio 6 12 psn 0 (toLe 8 v.toNat)

/-- R567: whether a status discards the request without an answer. -/
def silent (st : Status) : Bool := st == .retryLater || st == .fenced || st == .quota

/-- R567: the one NAK PSN Sequence Error that names the expected PSN, in answer to a request of a later one. -/
def State.seqError (s : State) (k q : Nat) (mac : BitVec 48) (prio : BitVec 3) : State :=
  let x := s.qp q
  if x.nakSent then s
  else (s.setQp q { x with nakSent := true }).emit k q mac prio 4 4 x.epsn 0x60 []

/-- A request that has been performed leaves the list and is answered as R567 says: one discarded without an answer makes
the later ones, discarded with it, answered by one NAK PSN Sequence Error. -/
def State.retire (s : State) (q : Nat) (p : Pend) (rest : List Pend) : State :=
  let x := s.qp q
  if silent p.worst then
    if p.dup then s.setQp q { x with pend := rest }
    else
      let s1 := s.setQp q (x.backTo [] p)
      match rest.find? fun r => !r.dup with
      | none => s1
      | some r => (s1.flushAck q).seqError r.port q r.mac r.prio
  else if p.worst ≠ .ok ∧ !(p.worst = .countOverrun ∧ 2 ≤ p.kind) then s.nak q p p.worst
  else
    let x1 := { x with pend := rest }
    if p.kind = 0 then
      s.setQp q (if p.ack then { x1 with ackDue := some p.psn, ackPort := p.port, ackMac := p.mac, ackPrio := p.prio } else x1)
    else if p.kind = 1 then ((s.setQp q x1).flushAck q).readResponse q p
    else
      let v : W64 := BitVec.ofNat 64 (fld (tget [] p.got (p.va / 64)) 0 8)
      let s1 := (s.setQp q { x1 with atomics := (p.psn, v) :: x1.atomics.take 15 }).flushAck q
      s1.atomicAck p.port q p.mac p.prio p.psn v

/-! ### Issue (R569, R570) -/

/-- A request of the list changed. -/
def State.modPend (s : State) (q i : Nat) (f : Pend → Pend) : State := s.setQp q { s.qp q with pend := modAt (s.qp q).pend i f }

/-- R569: the first request whose lines may be issued: every earlier one is a READ, or has been performed; none has failed. -/
def nextIssue : Nat → List Pend → Option (Nat × Pend)
  | _, [] => none
  | i, p :: t =>
    if p.worst ≠ .ok then none
    else if !p.left.isEmpty then some (i, p)
    else if p.done ∨ p.kind = 1 then nextIssue (i + 1) t else none

/-- R573: a request on a partition page, carried out whole: it is a control-space access on the host path. -/
def State.pageAccess (s : State) (q i : Nat) (p : Pend) : State :=
  let path := Path.host (s.qp q).part
  let off := pageBase (s.qp q).part + p.va
  let n := p.len / 4
  if p.kind = 0 then
    let bs := p.left.flatMap (·.data)
    let s1 := s.modPend q i fun x => { x with left := [] }
    s1.regWrites path off ((List.range n).map fun j => BitVec.ofNat 32 (fld bs (4 * j) 4))
  else s.modPend q i fun x => { x with left := [], got := [(0, (s.regReads path off n).flatMap fun w => toLe 4 w.toNat)] }

/-- The request that a line of a host request makes at its home. -/
def State.lineTxn (s : State) (q : Nat) (p : Pend) (l : Pend1) : Txn :=
  let t : Txn := { kind := .host, unit := q, fab := { OrigFab.reset with port := 8 + p.port }, asid := p.asid, part := (s.qp q).part }
  if p.kind = 0 then
    { t with
      ty := if l.len = 64 then .wrLine else .wrPart
      va := l.va, data := overlay (List.replicate 64 0) l.off l.data
      mask := BitVec.ofNat 64 ((2 ^ l.len - 1) * 2 ^ l.off) }
  else if p.kind = 1 then { t with ty := .rdOnce, va := l.va }
  else { t with ty := .atomic, va := p.va, op := if p.kind = 2 then 9 else 0, opnd := [BitVec.ofNat 128 (leNat l.data)] }

/-- R49, R116: the conditions of a line that need no translation. -/
def State.lineEarly (s : State) (q : Nat) (t : Txn) : Status :=
  Status.first [
    if s.partFenced (s.qp q).part then .fenced else .ok,
    if (s.sett (settOf t.va)).pair = .lost then .unavailable else .ok,
    if t.va < 2 ^ 57 then .ok else .xlateFault]

/-- One line issued, or failed where it stands; an address that fails its translation there counts as a fault (R281). -/
def State.issueLine (s : State) (q i : Nat) (p : Pend) (l : Pend1) : State :=
  let t := s.lineTxn q p l
  let st := s.lineEarly q t
  if st = .ok then (s.modPend q i fun x => { x with txns := x.txns ++ [s.nextTxn] }).request t
  else (if st = .xlateFault then s.countFault t.asid else s).modPend q i fun x => { x with worst := x.worst.worst st }

/-- The lines of request i of queue pair q issued. -/
def State.issuePend (s : State) (q i : Nat) (p : Pend) : State :=
  if p.page then s.pageAccess q i p
  else p.left.foldl (fun s l => s.issueLine q i p l) (s.modPend q i fun x => { x with left := [] })

/-- The list of a queue pair driven on: performed requests leave at its head, and lines that may be issued are. -/
def State.hostPump : Nat → Nat → State → State
  | 0, _, s => s
  | n + 1, q, s =>
    match (s.qp q).pend with
    | [] => s
    | p :: rest =>
      if p.done then State.hostPump n q (s.retire q p rest)
      else match nextIssue 0 (s.qp q).pend with
        | none => s
        | some (i, r) => State.hostPump n q (s.issuePend q i r)

/-- As far as it goes: each request is issued once and leaves once. -/
def State.pump (s : State) (q : Nat) : State := State.hostPump (2 * (s.qp q).pend.length + 2) q s

/-! ### Checks of a request (R567, R568, R571–R573) -/

/-- R571: the checks of an R_Key for a range, with the permission bits `need` of its flags: whether the entry is a page,
and its ASID. -/
def State.keyCheck (s : State) (x : QP) (key : W32) (va len need : Nat) (atomic : Bool) : Except Status (Bool × BitVec 16) :=
  let e := s.rkey (key.toNat % 4096)
  let page := (e.byte 0).getLsbD 1
  let held := e.valid && e.num 4 4 % 2 ^ 20 == key.toNat / 4096 && (e.byte 1).toNat == x.part && (e.byte 0).toNat &&& need == need
  let inside := if page then decide (va + len ≤ 65536) else decide (e.num 8 8 ≤ va) && decide (va + len ≤ e.num 8 8 + e.num 16 8)
  let st := Status.first [
    if held ∧ inside then .ok else .permFault,
    if page ∧ (atomic ∨ va % 4 ≠ 0 ∨ len % 4 ≠ 0) then .badDescriptor else .ok,
    if atomic ∧ va % 8 ≠ 0 then .alignFault else .ok]
  if st = .ok then .ok (page, BitVec.ofNat 16 (e.num 2 2)) else .error st

/-- The lines that n bytes from va touch, with the bytes to write. -/
def piecesOf (va n : Nat) (data : Bytes) : List Pend1 :=
  if n = 0 then []
  else (List.range ((va % 64 + n + 63) / 64)).map fun i =>
    let base := va / 64 * 64 + 64 * i
    let lo := max base va
    let hi := min (base + 64) (va + n)
    ⟨base, lo - base, (data.drop (lo - va)).take (hi - lo), hi - lo⟩

/-- A request of a packet, before its checks. -/
def pendOf (pk : Packet) (k : Nat) (x : QP) (kind : Nat) : Pend :=
  { psn := pk.psn, kind := kind, port := k, mac := pk.frame.srcMac, prio := pk.prio, bytes := pk.frame.bytes, ack := pk.ackReq
    wo := x.wrOn, wva := x.wrVa, wleft := x.wrLeft, wkey := x.wrKey }

/-- R560: the length and order of an RDMA WRITE packet: 0 First, 1 Middle, 2 Last, 3 Only (PRESUMED: InfiniBand Architecture
Specification, log 43). -/
def QP.writeOk (x : QP) (pos : Nat) (pk : Packet) : Bool :=
  let n := pk.data.length
  let starts := pos == 0 || pos == 3
  let total := if starts then pk.dmaLen.toNat else x.wrLeft
  (x.wrOn == !starts) &&
    (if pos < 2 then n == x.mtu && decide (n < total)
    else decide (n ≤ x.mtu) && n == total && (pos == 3 || decide (1 ≤ n)))

/-- The key word of an RDMA WRITE in progress: its ASID, or bit 16 for a page. -/
def writeKey (page : Bool) (asid : BitVec 16) : W32 := if page then 65536 else BitVec.ofNat 32 asid.toNat

/-- An RDMA WRITE packet checked: the request, and the queue pair with the RDMA WRITE as it stands after it. -/
def State.writePend (s : State) (k : Nat) (x : QP) (pos : Nat) (pk : Packet) : Pend × QP :=
  let p := pendOf pk k x 0
  let n := pk.data.length
  let starts := pos == 0 || pos == 3
  let key : Except Status (Bool × BitVec 16) :=
    if !x.writeOk pos pk then .error .badDescriptor
    else if starts then s.keyCheck x pk.rkey pk.va.toNat pk.dmaLen.toNat 8 false
    else .ok (decide (65536 ≤ x.wrKey.toNat), BitVec.ofNat 16 x.wrKey.toNat)
  match key with
  | .error st => ({ p with worst := st }, x)
  | .ok (page, asid) =>
    let va := if starts then pk.va.toNat else x.wrVa
    let total := if starts then pk.dmaLen.toNat else x.wrLeft
    let lines := if page then (if n = 0 then [] else [⟨va, 0, pk.data, n⟩]) else piecesOf va n pk.data
    ({ p with va := va, len := n, page := page, asid := asid, left := lines },
      { x with wrOn := decide (pos < 2), wrVa := va + n, wrLeft := total - n, wrKey := writeKey page asid })

/-- R568: the READ and atomic requests outstanding. -/
def QP.values (x : QP) : Nat := (x.pend.filter fun p => decide (1 ≤ p.kind)).length

/-- An RDMA READ Request checked. -/
def State.readPend (s : State) (k : Nat) (x : QP) (pk : Packet) (dup : Bool) : Pend :=
  let p := { pendOf pk k x 1 with dup := dup }
  let n := pk.dmaLen.toNat
  let va := pk.va.toNat
  if 16 ≤ x.values ∨ (x.wrOn ∧ !dup) then { p with worst := .badDescriptor }
  else match s.keyCheck x pk.rkey va n 4 false with
    | .error st => { p with worst := st }
    | .ok (page, asid) =>
      { p with va := va, len := n, page := page, asid := asid
               left := if page then (if n = 0 then [] else [⟨va, 0, [], n⟩]) else piecesOf va n [] }

/-- An atomic checked: kind 2 Compare & Swap, 3 Fetch & Add. -/
def State.atomicPend (s : State) (k : Nat) (x : QP) (kind : Nat) (pk : Packet) : Pend :=
  let p := pendOf pk k x kind
  let va := pk.va.toNat
  if 16 ≤ x.values ∨ x.wrOn then { p with worst := .badDescriptor }
  else match s.keyCheck x pk.rkey va 8 28 true with
    | .error st => { p with worst := st }
    | .ok (_, asid) =>
      let opnd := if kind = 2 then toLe 8 pk.cmp.toNat ++ toLe 8 pk.swap.toNat else toLe 8 pk.swap.toNat
      { p with va := va, len := 8, asid := asid, left := [⟨va / 64 * 64, va % 64, opnd, 8⟩] }

/-! ### The path of a packet (R561–R563, R567, R568, R576) -/

/-- R563: the queue pair that a device QP number names. -/
def qpOf (n : BitVec 24) : Option Nat := if 0x100 ≤ n.toNat ∧ n.toNat < 0x500 then some (n.toNat - 0x100) else none

/-- R462: the colour with which a frame arrives: 1 for AFx2, 2 for AFx3. -/
def dscpColour (d : BitVec 6) : Nat :=
  if d = 12 ∨ d = 20 ∨ d = 28 ∨ d = 36 then 1 else if d = 14 ∨ d = 22 ∨ d = 30 ∨ d = 38 then 2 else 0

/-- R561: the checks of a packet for a READY queue pair. -/
def State.packetOk (s : State) (k q : Nat) (pk : Packet) : Bool :=
  let x := s.qp q
  let port := (x.byte 2).toNat
  pk.icrcOk && (s.hport k).mine pk.frame && pk.frame.srcIp.toNat == x.num 16 16 && pk.frame.v6 == (x.byte 14).getLsbD 0 &&
    (port == k || port == 2)

/-- R116: whether a request that names an R_Key is on a pool window. -/
def State.onWindow (s : State) (pk : Packet) : Bool :=
  let e := s.rkey (pk.rkey.toNat % 4096)
  e.valid && !(e.byte 0).getLsbD 1

/-- R558–R563, R575, R576: a RoCEv2 packet that arrives at port k, up to the request itself; `win` says whether it is an
operation on a pool window, which a partition that answers FENCED discards, uncharged (R116, R463). -/
def State.packet (s : State) (k : Nat) (pk : Packet) (win : QP → Bool) (act : Nat → State → State) : State :=
  let h := s.hport k
  let f := pk.frame
  if !h.up then s
  else if !h.takes f ∨ f.fragment ∨ f.dstMac ≠ h.mac then s.rxDrop k
  else if !s.top.ready then s
  else if 4194304 < s.rxLoad k + f.bytes then s.rxDrop k
  else match qpOf pk.dqpn with
    | none => s.icrcDrop k
    | some q =>
      if !(s.qp q).ready then s.icrcDrop k
      else
        let p := (s.qp q).part
        let fenced := win (s.qp q) && s.partFenced p
        let (c, s1) := if fenced then (0, s) else s.police p (8 + k) f.bytes (dscpColour pk.dscp) false
        if c = 2 then s1
        else if !s1.packetOk k q pk then s1.icrcDrop k
        else
          let s2 := if pk.ce ∨ c = 1 then s1.sendCnp k q pk else s1
          if fenced then s2 else (act q s2).pfcCheck k

/-- A request put at the end of its queue pair's list, which is driven on; n PSNs are taken. -/
def State.accept (s : State) (q : Nat) (x : QP) (p : Pend) (n : Nat) : State :=
  (s.setQp q { x.setEpsn (x.epsn + BitVec.ofNat 24 n) with pend := x.pend ++ [p], nakSent := false }).pump q

/-- R568: a packet's PSN against the expected one: 0 expected, 1 ahead, 2 a duplicate. -/
def psnPlace (psn epsn : BitVec 24) : Nat :=
  let d := (psn - epsn).toNat
  if d = 0 then 0 else if d < 2 ^ 23 then 1 else 2

/-- R568: a duplicate RDMA WRITE: acknowledged again, once it has been performed. -/
def State.dupWrite (s : State) (k q : Nat) (pk : Packet) : State :=
  let x := s.qp q
  if x.pend.any fun p => p.psn == pk.psn && p.kind == 0 then
    s.setQp q { x with pend := x.pend.map fun p => if p.psn = pk.psn ∧ p.kind = 0 then { p with ack := true } else p }
  else s.emit k q pk.frame.srcMac pk.prio 3 4 pk.psn 0 []

/-- R569: an RDMA WRITE packet. -/
def State.hostWrite (s : State) (k : Nat) (pos : Nat) (pk : Packet) : State :=
  let win (x : QP) : Bool := if pos = 0 ∨ pos = 3 then s.onWindow pk else x.wrOn && decide (x.wrKey.toNat < 65536)
  s.packet k pk win fun q s =>
    let x := s.qp q
    match psnPlace pk.psn x.epsn with
    | 0 =>
      let (p, x1) := s.writePend k x pos pk
      s.accept q x1 p 1
    | 1 => s.seqError k q pk.frame.srcMac pk.prio
    | _ => s.dupWrite k q pk

/-- The PSNs of a READ: one for each packet of its response. -/
def QP.readPsns (x : QP) (n : Nat) : Nat := max 1 ((n + x.mtu - 1) / x.mtu)

/-- R568, R571: an RDMA READ Request; a duplicate is performed again. -/
def State.hostRead (s : State) (k : Nat) (pk : Packet) : State :=
  s.packet k pk (fun _ => s.onWindow pk) fun q s =>
    let x := s.qp q
    match psnPlace pk.psn x.epsn with
    | 0 => s.accept q x (s.readPend k x pk false) (x.readPsns pk.dmaLen.toNat)
    | 1 => s.seqError k q pk.frame.srcMac pk.prio
    | _ => (s.setQp q { x with pend := x.pend ++ [s.readPend k x pk true] }).pump q

/-- R568: a duplicate atomic: answered from the last 16, left to the original while that is in progress, else 0x61. -/
def State.dupAtomic (s : State) (k q kind : Nat) (pk : Packet) : State :=
  let x := s.qp q
  match x.atomics.find? fun e => e.1 == pk.psn with
  | some (_, v) => s.atomicAck k q pk.frame.srcMac pk.prio pk.psn v
  | none =>
    if x.pend.any fun p => p.psn == pk.psn && decide (2 ≤ p.kind) then s
    else (s.setQp q { x with pend := x.pend ++ [{ pendOf pk k x kind with worst := .badDescriptor, dup := true }] }).pump q

/-- R572: an atomic. -/
def State.hostAtomic (s : State) (k kind : Nat) (pk : Packet) : State :=
  s.packet k pk (fun _ => s.onWindow pk) fun q s =>
    let x := s.qp q
    match psnPlace pk.psn x.epsn with
    | 0 => s.accept q x (s.atomicPend k x kind pk) 1
    | 1 => s.seqError k q pk.frame.srcMac pk.prio
    | _ => s.dupAtomic k q kind pk

/-- R567: an unsupported opcode. -/
def State.hostBadOp (s : State) (k : Nat) (pk : Packet) : State :=
  s.packet k pk (fun _ => false) fun q s =>
    let x := s.qp q
    match psnPlace pk.psn x.epsn with
    | 0 => s.accept q x { pendOf pk k x 0 with worst := .unsupported } 1
    | 1 => s.seqError k q pk.frame.srcMac pk.prio
    | _ => s

def execRdmaWriteFirst (k : Nat) (pk : Packet) (s : State) : Host.Outcome State Fault Refusal := .next (s.hostWrite k 0 pk)
def execRdmaWriteMiddle (k : Nat) (pk : Packet) (s : State) : Host.Outcome State Fault Refusal := .next (s.hostWrite k 1 pk)
def execRdmaWriteLast (k : Nat) (pk : Packet) (s : State) : Host.Outcome State Fault Refusal := .next (s.hostWrite k 2 pk)
def execRdmaWriteOnly (k : Nat) (pk : Packet) (s : State) : Host.Outcome State Fault Refusal := .next (s.hostWrite k 3 pk)
def execRdmaReadRequest (k : Nat) (pk : Packet) (s : State) : Host.Outcome State Fault Refusal := .next (s.hostRead k pk)
def execCompareSwap (k : Nat) (pk : Packet) (s : State) : Host.Outcome State Fault Refusal := .next (s.hostAtomic k 2 pk)
def execFetchAdd (k : Nat) (pk : Packet) (s : State) : Host.Outcome State Fault Refusal := .next (s.hostAtomic k 3 pk)
def execUnsupportedOpcode (k : Nat) (pk : Packet) (s : State) : Host.Outcome State Fault Refusal := .next (s.hostBadOp k pk)

/-- R576: a received CNP halves the rate of READ Response data. -/
def execCnpReceive (k : Nat) (pk : Packet) (s : State) : Host.Outcome State Fault Refusal :=
  .next (s.packet k pk (fun _ => false) fun q s => s.setQp q { s.qp q with rate := (s.qp q).rate / 2, cnpIn := s.clk })

/-- R576: 55 µs without a CNP: the rate rises by one eighth of its distance from line rate. -/
def execCnpRateRecovery (q : Nat) (s : State) : Host.Outcome State Fault Refusal :=
  let x := s.qp q
  .next (if 55 * Config.usClk + x.cnpIn ≤ s.clk then s.setQp q { x with rate := x.rate + (65536 - x.rate) / 8, cnpIn := s.clk } else s)

/-- R569: the lines of the oldest requests have been performed: the queue pair's list is driven on, and the ACK that is due
is sent. -/
def execHostAck (q : Nat) (s : State) : Host.Outcome State Fault Refusal := .next ((s.pump q).flushAck q)

end Sys2Proof.Machine
end

