-- ==== Sys2Proof/Machine/Dispatch.lean ====
section
/-! DEFINITION. The dispatch: one arm per command, each one call of the command's meaning. -/

namespace Sys2Proof.Machine
open Sys2Proof

def exec (i : Instr) (s : State) : Host.Outcome State Fault Refusal :=
  match i with
  | .pwrgoodRise straps wrstN => Sys2Proof.Machine.execPwrgoodRise straps wrstN s
  | .clockLoss refStopped => Sys2Proof.Machine.execClockLoss refStopped s
  | .owlUp boot => Sys2Proof.Machine.execOwlUp boot s
  | .bankBootFail bankB => Sys2Proof.Machine.execBankBootFail bankB s
  | .channelTrainingEnd ch d => Sys2Proof.Machine.execChannelTrainingEnd ch d s
  | .wrstNFall ns => Sys2Proof.Machine.execWrstNFall ns s
  | .warmZeroFillDone ok tests => Sys2Proof.Machine.execWarmZeroFillDone ok tests s
  | .registerWrite path off v => Sys2Proof.Machine.execRegisterWrite path off v s
  | .unlockWrite path off v => Sys2Proof.Machine.execUnlockWrite path off v s
  | .unlockLapse path off => Sys2Proof.Machine.execUnlockLapse path off s
  | .w1cClear path off v sets => Sys2Proof.Machine.execW1cClear path off v sets s
  | .rwtRevote upsets => Sys2Proof.Machine.execRwtRevote upsets s
  | .rwtRewrite f => Sys2Proof.Machine.execRwtRewrite f s
  | .fifoPop path f => Sys2Proof.Machine.execFifoPop path f s
  | .fifoDrop path f => Sys2Proof.Machine.execFifoDrop path f s
  | .fifoPush path f w => Sys2Proof.Machine.execFifoPush path f w s
  | .fifoPushEop path f w => Sys2Proof.Machine.execFifoPushEop path f w s
  | .inqDescriptorStart e => Sys2Proof.Machine.execInqDescriptorStart e s
  | .partOpHold path p v => Sys2Proof.Machine.execPartOpHold path p v s
  | .partTenantHold path p v => Sys2Proof.Machine.execPartTenantHold path p v s
  | .partitionQuiesced p => Sys2Proof.Machine.execPartitionQuiesced p s
  | .partDraining10ms p => Sys2Proof.Machine.execPartDraining10ms p s
  | .partDraining100ms p => Sys2Proof.Machine.execPartDraining100ms p s
  | .partReset path p => Sys2Proof.Machine.execPartReset path p s
  | .partitionResetDone p => Sys2Proof.Machine.execPartitionResetDone p s
  | .lnkEnable port v => Sys2Proof.Machine.execLnkEnable port v s
  | .lnkAutoUp port => Sys2Proof.Machine.execLnkAutoUp port s
  | .takeDown port => Sys2Proof.Machine.execTakeDown port s
  | .lnkCmdRetrain port => Sys2Proof.Machine.execLnkCmdRetrain port s
  | .planGo port => Sys2Proof.Machine.execPlanGo port s
  | .lanePower port lane v => Sys2Proof.Machine.execLanePower port lane v s
  | .laneClearFail port lane => Sys2Proof.Machine.execLaneClearFail port lane s
  | .downHoldoffEnd port => Sys2Proof.Machine.execDownHoldoffEnd port s
  | .tsId port lane blk => Sys2Proof.Machine.execTsId port lane blk s
  | .tsEq port lane blk => Sys2Proof.Machine.execTsEq port lane blk s
  | .tsDone port lane blk skew margin => Sys2Proof.Machine.execTsDone port lane blk skew margin s
  | .tsGo port lane blk => Sys2Proof.Machine.execTsGo port lane blk s
  | .retrainLcb port lane blk => Sys2Proof.Machine.execRetrainLcb port lane blk s
  | .downLcb port lane blk => Sys2Proof.Machine.execDownLcb port lane blk s
  | .standbyLcb port lane blk => Sys2Proof.Machine.execStandbyLcb port lane blk s
  | .laneTrainLcb port lane blk => Sys2Proof.Machine.execLaneTrainLcb port lane blk s
  | .trainTimeout port => Sys2Proof.Machine.execTrainTimeout port s
  | .retrainTimeout port => Sys2Proof.Machine.execRetrainTimeout port s
  | .retrainComplete port => Sys2Proof.Machine.execRetrainComplete port s
  | .laneLockLoss port lane => Sys2Proof.Machine.execLaneLockLoss port lane s
  | .planLockLoss port => Sys2Proof.Machine.execPlanLockLoss port s
  | .laneFail port lane => Sys2Proof.Machine.execLaneFail port lane s
  | .dataUnit port u => Sys2Proof.Machine.execDataUnit port u s
  | .idleUnit port u => Sys2Proof.Machine.execIdleUnit port u s
  | .replayUnit port u => Sys2Proof.Machine.execReplayUnit port u s
  | .planUnitReq port u => Sys2Proof.Machine.execPlanUnitReq port u s
  | .planUnitAcc port u => Sys2Proof.Machine.execPlanUnitAcc port u s
  | .planUnitRej port u => Sys2Proof.Machine.execPlanUnitRej port u s
  | .planUnitGo port u => Sys2Proof.Machine.execPlanUnitGo port u s
  | .replayTimer port => Sys2Proof.Machine.execReplayTimer port s
  | .sameLimitReached port => Sys2Proof.Machine.execSameLimitReached port s
  | .winLimitReached port => Sys2Proof.Machine.execWinLimitReached port s
  | .retrainLimitReached port => Sys2Proof.Machine.execRetrainLimitReached port s
  | .rdShared port m n => Sys2Proof.Machine.execRdShared port m n s
  | .rdOwn port m n => Sys2Proof.Machine.execRdOwn port m n s
  | .upgrade port m n => Sys2Proof.Machine.execUpgrade port m n s
  | .rdOnce port m n => Sys2Proof.Machine.execRdOnce port m n s
  | .wrLine port m n => Sys2Proof.Machine.execWrLine port m n s
  | .wrPart port m n => Sys2Proof.Machine.execWrPart port m n s
  | .atomic port m n => Sys2Proof.Machine.execAtomic port m n s
  | .accWr port m n => Sys2Proof.Machine.execAccWr port m n s
  | .publish port m n => Sys2Proof.Machine.execPublish port m n s
  | .wbDirty port m n => Sys2Proof.Machine.execWbDirty port m n s
  | .wbClean port m n => Sys2Proof.Machine.execWbClean port m n s
  | .snpAck port m => Sys2Proof.Machine.execSnpAck port m s
  | .snpData port m => Sys2Proof.Machine.execSnpData port m s
  | .fmNodeDown port m => Sys2Proof.Machine.execFmNodeDown port m s
  | .fmNodeUp port m => Sys2Proof.Machine.execFmNodeUp port m s
  | .fmEcho port m => Sys2Proof.Machine.execFmEcho port m s
  | .fmEchoRsp port m => Sys2Proof.Machine.execFmEchoRsp port m s
  | .unexpectedMessage port ty m => Sys2Proof.Machine.execUnexpectedMessage port ty m s
  | .requestWake sett line => Sys2Proof.Machine.execRequestWake sett line s
  | .minHoldEnd sett line => Sys2Proof.Machine.execMinHoldEnd sett line s
  | .requestStarved sett id => Sys2Proof.Machine.execRequestStarved sett id s
  | .starveCount sett id => Sys2Proof.Machine.execStarveCount sett id s
  | .parkTimeout sett id => Sys2Proof.Machine.execParkTimeout sett id s
  | .snoopTimeout tag => Sys2Proof.Machine.execSnoopTimeout tag s
  | .deathSweepEnd sett => Sys2Proof.Machine.execDeathSweepEnd sett s
  | .dedupEntryExpiry src gen tag => Sys2Proof.Machine.execDedupEntryExpiry src gen tag s
  | .dedupBlockEnd src gen tag => Sys2Proof.Machine.execDedupBlockEnd src gen tag s
  | .nodeGenBlockEnd w => Sys2Proof.Machine.execNodeGenBlockEnd w s
  | .dramReadComplete id errs => Sys2Proof.Machine.execDramReadComplete id errs s
  | .dramAccessWithdrawn id => Sys2Proof.Machine.execDramAccessWithdrawn id s
  | .victimQueued sett j => Sys2Proof.Machine.execVictimQueued sett j s
  | .rmwBatchDone line errs => Sys2Proof.Machine.execRmwBatchDone line errs s
  | .requestAged ch sub j => Sys2Proof.Machine.execRequestAged ch sub j s
  | .bankIdlePrecharge ch sub rank bank => Sys2Proof.Machine.execBankIdlePrecharge ch sub rank bank s
  | .refreshDue ch sub rank bank => Sys2Proof.Machine.execRefreshDue ch sub rank bank s
  | .refreshForced ch sub rank bank => Sys2Proof.Machine.execRefreshForced ch sub rank bank s
  | .mr4Poll ch rank doubled => Sys2Proof.Machine.execMr4Poll ch rank doubled s
  | .dramAlert ch sub => Sys2Proof.Machine.execDramAlert ch sub s
  | .caRetrainStart ch => Sys2Proof.Machine.execCaRetrainStart ch s
  | .caRetrainEnd ch ok => Sys2Proof.Machine.execCaRetrainEnd ch ok s
  | .drcHold ch v => Sys2Proof.Machine.execDrcHold ch v s
  | .drcTimingWrite ch r v => Sys2Proof.Machine.execDrcTimingWrite ch r v s
  | .spareCmdGo ch rank => Sys2Proof.Machine.execSpareCmdGo ch rank s
  | .ceLimitReached ch rank => Sys2Proof.Machine.execCeLimitReached ch rank s
  | .deviceMark ch rank sub dev byOwl => Sys2Proof.Machine.execDeviceMark ch rank sub dev byOwl s
  | .migrationChunkDone ch ue writeFail => Sys2Proof.Machine.execMigrationChunkDone ch ue writeFail s
  | .scrubRead unit errs sram => Sys2Proof.Machine.execScrubRead unit errs sram s
  | .scrubStarvedInterval unit => Sys2Proof.Machine.execScrubStarvedInterval unit s
  | .scrubLapLimit unit => Sys2Proof.Machine.execScrubLapLimit unit s
  | .regionDrainComplete region => Sys2Proof.Machine.execRegionDrainComplete region s
  | .walkComplete asid page => Sys2Proof.Machine.execWalkComplete asid page s
  | .walkTimeout asid page => Sys2Proof.Machine.execWalkTimeout asid page s
  | .invalidationReceive u id => Sys2Proof.Machine.execInvalidationReceive u id s
  | .overflowSweepEnd id => Sys2Proof.Machine.execOverflowSweepEnd id s
  | .drainReport u id => Sys2Proof.Machine.execDrainReport u id s
  | .invalidationDrainTimeout id => Sys2Proof.Machine.execInvalidationDrainTimeout id s
  | .xltInvAsid target => Sys2Proof.Machine.execXltInvAsid target s
  | .xltInvRegion target => Sys2Proof.Machine.execXltInvRegion target s
  | .queueEnable path p o => Sys2Proof.Machine.execQueueEnable path p o s
  | .queueDisable path p o => Sys2Proof.Machine.execQueueDisable path p o s
  | .queueReset path p o => Sys2Proof.Machine.execQueueReset path p o s
  | .queueWake q => Sys2Proof.Machine.execQueueWake q s
  | .descriptorFetched q => Sys2Proof.Machine.execDescriptorFetched q s
  | .handOver q => Sys2Proof.Machine.execHandOver q s
  | .descriptorDispatch q => Sys2Proof.Machine.execDescriptorDispatch q s
  | .nop q => Sys2Proof.Machine.execNop q s
  | .copy e => Sys2Proof.Machine.execCopy e s
  | .fill e => Sys2Proof.Machine.execFill e s
  | .convert e => Sys2Proof.Machine.execConvert e s
  | .gather e => Sys2Proof.Machine.execGather e s
  | .scatter e => Sys2Proof.Machine.execScatter e s
  | .reduce e order => Sys2Proof.Machine.execReduce e order s
  | .program e => Sys2Proof.Machine.execProgram e s
  | .digest e => Sys2Proof.Machine.execDigest e s
  | .compact e => Sys2Proof.Machine.execCompact e s
  | .fenceBarrier q => Sys2Proof.Machine.execFenceBarrier q s
  | .fenceInvalidate q => Sys2Proof.Machine.execFenceInvalidate q s
  | .engineTransferAnswer e sbuf => Sys2Proof.Machine.execEngineTransferAnswer e sbuf s
  | .tileStart e => Sys2Proof.Machine.execTileStart e s
  | .tileEnd e => Sys2Proof.Machine.execTileEnd e s
  | .add e => Sys2Proof.Machine.execAdd e s
  | .sub e => Sys2Proof.Machine.execSub e s
  | .mul e => Sys2Proof.Machine.execMul e s
  | .fma e => Sys2Proof.Machine.execFma e s
  | .div e => Sys2Proof.Machine.execDiv e s
  | .rsqrt e => Sys2Proof.Machine.execRsqrt e s
  | .sqrt e => Sys2Proof.Machine.execSqrt e s
  | .exp2 e => Sys2Proof.Machine.execExp2 e s
  | .log2 e => Sys2Proof.Machine.execLog2 e s
  | .min e => Sys2Proof.Machine.execMin e s
  | .max e => Sys2Proof.Machine.execMax e s
  | .abs e => Sys2Proof.Machine.execAbs e s
  | .sign e => Sys2Proof.Machine.execSign e s
  | .cmp e => Sys2Proof.Machine.execCmp e s
  | .sel e => Sys2Proof.Machine.execSel e s
  | .clamp e => Sys2Proof.Machine.execClamp e s
  | .cvt e => Sys2Proof.Machine.execCvt e s
  | .srnd e => Sys2Proof.Machine.execSrnd e s
  | .rsum e => Sys2Proof.Machine.execRsum e s
  | .rssq e => Sys2Proof.Machine.execRssq e s
  | .rmaxa e => Sys2Proof.Machine.execRmaxa e s
  | .descriptorComplete e => Sys2Proof.Machine.execDescriptorComplete e s
  | .engineHang e => Sys2Proof.Machine.execEngineHang e s
  | .engineCheckerFault e => Sys2Proof.Machine.execEngineCheckerFault e s
  | .foxReset e => Sys2Proof.Machine.execFoxReset e s
  | .enginePurge sett e => Sys2Proof.Machine.execEnginePurge sett e s
  | .purgeReport sett e => Sys2Proof.Machine.execPurgeReport sett e s
  | .engineResetDone e => Sys2Proof.Machine.execEngineResetDone e s
  | .engineResetTimeout e => Sys2Proof.Machine.execEngineResetTimeout e s
  | .extensionApply p => Sys2Proof.Machine.execExtensionApply p s
  | .eventRingConfig path p v => Sys2Proof.Machine.execEventRingConfig path p v s
  | .eventConsumerWrite path p v => Sys2Proof.Machine.execEventConsumerWrite path p v s
  | .egressDepart k p => Sys2Proof.Machine.execEgressDepart k p s
  | .maxclrDepth path p k => Sys2Proof.Machine.execMaxclrDepth path p k s
  | .maxclrDelay path p k => Sys2Proof.Machine.execMaxclrDelay path p k s
  | .qosApply p k => Sys2Proof.Machine.execQosApply p k s
  | .settBadCycle sett cause => Sys2Proof.Machine.execSettBadCycle sett cause s
  | .settCopyWatchdog sett => Sys2Proof.Machine.execSettCopyWatchdog sett s
  | .settStandbyFail sett copyPath => Sys2Proof.Machine.execSettStandbyFail sett copyPath s
  | .settSelfTestEnd sett pass => Sys2Proof.Machine.execSettSelfTestEnd sett pass s
  | .settResyncDone sett => Sys2Proof.Machine.execSettResyncDone sett s
  | .settResyncTimeout sett => Sys2Proof.Machine.execSettResyncTimeout sett s
  | .settPaircmdFailover sett => Sys2Proof.Machine.execSettPaircmdFailover sett s
  | .settPaircmdResync sett => Sys2Proof.Machine.execSettPaircmdResync sett s
  | .consentKeySet path p => Sys2Proof.Machine.execConsentKeySet path p s
  | .tokenInstall path p => Sys2Proof.Machine.execTokenInstall path p s
  | .tokenRevoke path p => Sys2Proof.Machine.execTokenRevoke path p s
  | .tokenLapse p => Sys2Proof.Machine.execTokenLapse p s
  | .d1Request v => Sys2Proof.Machine.execD1Request v s
  | .tlsHandshake paramsOk chain rootDigest => Sys2Proof.Machine.execTlsHandshake paramsOk chain rootDigest s
  | .sessionClose sess => Sys2Proof.Machine.execSessionClose sess s
  | .sessionIdleTimeout sess => Sys2Proof.Machine.execSessionIdleTimeout sess s
  | .mgtFrame k f tcpPort => Sys2Proof.Machine.execMgtFrame k f tcpPort s
  | .commandChunk sess code tag body => Sys2Proof.Machine.execCommandChunk sess code tag body s
  | .unknownCommand sess code tag => Sys2Proof.Machine.execUnknownCommand sess code tag s
  | .info sess tag body => Sys2Proof.Machine.execInfo sess tag body s
  | .regRead sess tag body => Sys2Proof.Machine.execRegRead sess tag body s
  | .regWrite sess tag keyed body => Sys2Proof.Machine.execRegWrite sess tag keyed body s
  | .eventRead sess tag body => Sys2Proof.Machine.execEventRead sess tag body s
  | .ledgerRead sess tag body => Sys2Proof.Machine.execLedgerRead sess tag body s
  | .scrubStatus sess tag body => Sys2Proof.Machine.execScrubStatus sess tag body s
  | .scrubConfig sess tag body => Sys2Proof.Machine.execScrubConfig sess tag body s
  | .layoutLoad sess tag body => Sys2Proof.Machine.execLayoutLoad sess tag body s
  | .layoutStage sess tag body => Sys2Proof.Machine.execLayoutStage sess tag body s
  | .layoutFlash sess tag body => Sys2Proof.Machine.execLayoutFlash sess tag body s
  | .rollbackAdvance sess tag body => Sys2Proof.Machine.execRollbackAdvance sess tag body s
  | .keyInstall sess tag body => Sys2Proof.Machine.execKeyInstall sess tag body s
  | .fwWrite sess tag body => Sys2Proof.Machine.execFwWrite sess tag body s
  | .fwSelect sess tag body => Sys2Proof.Machine.execFwSelect sess tag body s
  | .owlRestart sess tag body => Sys2Proof.Machine.execOwlRestart sess tag body s
  | .warmReset sess tag body => Sys2Proof.Machine.execWarmReset sess tag body s
  | .powerStateRun sess tag => Sys2Proof.Machine.execPowerStateRun sess tag s
  | .powerStateGate sess tag => Sys2Proof.Machine.execPowerStateGate sess tag s
  | .powerStateDrowse sess tag => Sys2Proof.Machine.execPowerStateDrowse sess tag s
  | .powerStateHibernate sess tag => Sys2Proof.Machine.execPowerStateHibernate sess tag s
  | .powerStateOff sess tag => Sys2Proof.Machine.execPowerStateOff sess tag s
  | .powerCap sess tag body => Sys2Proof.Machine.execPowerCap sess tag body s
  | .lifecycle sess tag body => Sys2Proof.Machine.execLifecycle sess tag body s
  | .spdm sess tag body => Sys2Proof.Machine.execSpdm sess tag body s
  | .debugRead sess tag body => Sys2Proof.Machine.execDebugRead sess tag body s
  | .debugHaltHalt sess tag body => Sys2Proof.Machine.execDebugHaltHalt sess tag body s
  | .debugHaltResume sess tag body => Sys2Proof.Machine.execDebugHaltResume sess tag body s
  | .debugHaltRead sess tag body => Sys2Proof.Machine.execDebugHaltRead sess tag body s
  | .debugHaltWrite sess tag body => Sys2Proof.Machine.execDebugHaltWrite sess tag body s
  | .pmbus sess tag body reply => Sys2Proof.Machine.execPmbus sess tag body reply s
  | .mgtConfig sess tag body => Sys2Proof.Machine.execMgtConfig sess tag body s
  | .sensorSample temps mv => Sys2Proof.Machine.execSensorSample temps mv s
  | .regulatorPoll j pout status => Sys2Proof.Machine.execRegulatorPoll j pout status s
  | .smbusRead code => Sys2Proof.Machine.execSmbusRead code s
  | .smbusWrite code data => Sys2Proof.Machine.execSmbusWrite code data s
  | .hostPortEnable k v => Sys2Proof.Machine.execHostPortEnable k v s
  | .hostLinkUp k => Sys2Proof.Machine.execHostLinkUp k s
  | .hostLinkDown k => Sys2Proof.Machine.execHostLinkDown k s
  | .arpRequest k f => Sys2Proof.Machine.execArpRequest k f s
  | .neighbourSolicitation k f => Sys2Proof.Machine.execNeighbourSolicitation k f s
  | .echoRequest k f => Sys2Proof.Machine.execEchoRequest k f s
  | .pfcFrame k quanta => Sys2Proof.Machine.execPfcFrame k quanta s
  | .rdmaWriteFirst k pk => Sys2Proof.Machine.execRdmaWriteFirst k pk s
  | .rdmaWriteMiddle k pk => Sys2Proof.Machine.execRdmaWriteMiddle k pk s
  | .rdmaWriteLast k pk => Sys2Proof.Machine.execRdmaWriteLast k pk s
  | .rdmaWriteOnly k pk => Sys2Proof.Machine.execRdmaWriteOnly k pk s
  | .rdmaReadRequest k pk => Sys2Proof.Machine.execRdmaReadRequest k pk s
  | .compareSwap k pk => Sys2Proof.Machine.execCompareSwap k pk s
  | .fetchAdd k pk => Sys2Proof.Machine.execFetchAdd k pk s
  | .hostAck q => Sys2Proof.Machine.execHostAck q s
  | .dramWritePerformed ch sub j => Sys2Proof.Machine.execDramWritePerformed ch sub j s
  | .testAccessPortInstruction ir => Sys2Proof.Machine.execTestAccessPortInstruction ir s
  | .pfcXon k => Sys2Proof.Machine.execPfcXon k s
  | .pfcPauseExpiry k prio => Sys2Proof.Machine.execPfcPauseExpiry k prio s
  | .cnpReceive k pk => Sys2Proof.Machine.execCnpReceive k pk s
  | .cnpRateRecovery q => Sys2Proof.Machine.execCnpRateRecovery q s
  | .unsupportedOpcode k pk => Sys2Proof.Machine.execUnsupportedOpcode k pk s
  | .qpReady q => Sys2Proof.Machine.execQpReady q s
  | .qpReset q => Sys2Proof.Machine.execQpReset q s
  | .pwrgoodFall => Sys2Proof.Machine.execPwrgoodFall s
  | .pllLock => Sys2Proof.Machine.execPllLock s
  | .layoutOk => Sys2Proof.Machine.execLayoutOk s
  | .fillDone => Sys2Proof.Machine.execFillDone s
  | .readyRise => Sys2Proof.Machine.execReadyRise s
  | .warmFlushDone => Sys2Proof.Machine.execWarmFlushDone s
  | .warmFlushTimeout => Sys2Proof.Machine.execWarmFlushTimeout s
  | .warmSelfRefreshExit => Sys2Proof.Machine.execWarmSelfRefreshExit s
  | .warmResetTimeout => Sys2Proof.Machine.execWarmResetTimeout s
  | .thermtrip => Sys2Proof.Machine.execThermtrip s
  | .policerRefill => Sys2Proof.Machine.execPolicerRefill s
  | .queueDepthSample => Sys2Proof.Machine.execQueueDepthSample s
  | .gateSlotStart => Sys2Proof.Machine.execGateSlotStart s
  | .gateSlotCutoff => Sys2Proof.Machine.execGateSlotCutoff s
  | .powerStateReached => Sys2Proof.Machine.execPowerStateReached s
  | .gateEntryTimeout => Sys2Proof.Machine.execGateEntryTimeout s
  | .hibernateSweepEnd => Sys2Proof.Machine.execHibernateSweepEnd s
  | .wipeComplete => Sys2Proof.Machine.execWipeComplete s
  | .powerCapUpdate => Sys2Proof.Machine.execPowerCapUpdate s
  | .eventLogFlush => Sys2Proof.Machine.execEventLogFlush s
  | .ledgerSummary => Sys2Proof.Machine.execLedgerSummary s
  | .smbusStale => Sys2Proof.Machine.execSmbusStale s

end Sys2Proof.Machine
end

