-- ==== Sys2Proof/Machine/Tick.lean ====
section
/-! DEFINITION. One fabric clock, when no command waits (log 1). -/

namespace Sys2Proof.Machine
open Sys2Proof

/-- R353, R483: an engine at fabric clock n: its clock counts in four fabric clocks of five while it runs (1,048,576 engine clocks
are 1,310,720 fabric clocks). -/
def Engine.tick (x : Engine) (n : Nat) : Engine :=
  if x.st = .running ∧ !x.gated ∧ n % 5 ≠ 0 then { x with busy := sat x.busy } else x

/-- One fabric clock: the clock of every timer counts, TOP_TICK counts each period of the reference (R47), the
GATE counter counts and restarts at the end of its cycle (R469), and FOX_BUSY of the running engines counts. Nothing counts
while PWRGOOD is low, and with the PLL unlocked after a stop of the reference TOP_TICK does not count (R580). -/
def State.tickFab (s : State) : State :=
  if s.pwrgood then
    let n := s.clk + 1
    let len := match s.lay with | none => 0 | some l => l.gateLen
    { s with
      clk := n
      top := { s.top with tick := if n % Config.refClk = 0 ∧ (s.pll ∨ s.clkLost ≠ 1) then s.top.tick + 1 else s.top.tick }
      qos := { s.qos with gate := if s.qos.gate + 1 < len then s.qos.gate + 1 else 0 }
      engines := s.engines.map fun (e, x) => (e, x.tick n) }
  else s

/-- A fabric clock with no command: the counters, the scrubs of R82 and R85 that have nothing left to do end (log 22),
the descriptors that a warm reset stopped complete (R497), and the
mailbox's packets that waited for room are handled (R45, log 34). -/
def State.idle (s : State) : State :=
  let s1 := s.tickFab
  if s.pwrgood then
    let s2 := (if s1.scrubDue then s1.scrubEnd else s1).stopsEnd
    State.mboxRun s2.owl.fifo.send.length s2
  else s1

end Sys2Proof.Machine
end

