-- ==== Sys2Proof/Safety.lean ====
section
/-! DEFINITION. The terms in which claims about the block are made: a command that leads to a state, the canonical
form of its memories, and what a step never takes back. -/

namespace Sys2Proof.Machine
open Sys2Proof

/-- The command `c` at `s` answers a next state, and that state satisfies `P`. -/
def Leads (c : Instr) (s : State) (P : State → Prop) : Prop := ∃ t, exec c s = .next t ∧ P t

/-- Scratch memory and DRAM are in the canonical form: addresses strictly rising, no byte listed that reads zero. -/
def State.memWf (s : State) : Bool := Memory.wf s.scr && Memory.wf s.dram

/-- R535–R538: Owl runs, the session is open (session 4 is the mailbox), the device is not SCRAPPED, and no LAYOUT_LOAD is in its
scrub. -/
def State.Hears (s : State) (sess : Nat) : Prop :=
  s.sessOpen sess = true ∧ s.owl.st = .run ∧ s.life ≠ 4 ∧ s.owl.repl = none

/-- R536: exactly one reply has gone out, with this status and body. -/
def Replied (s t : State) (sess : Nat) (code : BitVec 16) (tag : W32) (st : Status) (body : Bytes) : Prop :=
  t.owl.replies = s.owl.replies ++ [⟨sess, code, tag, st, body⟩]

/-- R31–R34: the path carries accesses and holds the arming that a keyed write at this offset needs. -/
def State.CanKey (s : State) (path : Path) (off : Nat) : Prop := s.pathUp path = true ∧ s.armed path (unlockOf off) = true

/-- R24, R31–R34: the path carries accesses, reaches the page of partition `p`, and holds the arming that a keyed write at
offset `i` of it needs. -/
def State.CanPage (s : State) (path : Path) (p i : Nat) : Prop :=
  s.pathUp path = true ∧ Path.toPage path p = true ∧ s.armed path (unlockOf (pageBase p + i)) = true

/-- Nothing but port `k` has changed. -/
def OnlyPort (k : Nat) (s t : State) : Prop := t = { s with ports := t.ports } ∧ ∀ j, j ≠ k → t.port j = s.port j

/-- No message is queued for port `k`. -/
def State.PortIdle (s : State) (k : Nat) : Prop := (s.port k).txq = [] ∧ ∀ q < 32, (s.pqos q k).egress = []

/-- R136–R139: a lane control block of type `ty` with control word `w`, received whole while the link is not down. -/
def State.LcbOk (s : State) (k : Nat) (blk : BitVec 272) (ty : Byte) (w : Nat) : Prop :=
  (s.port k).st ≠ .down ∧ (s.port k).st ≠ .disabled ∧ bitsOf blk.toNat 270 2 = 2 ∧ lcbOf blk = some (false, w) ∧ cwType w = ty

/-- R158, R162: no acknowledgement that arrives makes the device look at a FAILED lane of its plan again: no GO of its own waits
for one, or auto_drop is 0. -/
def State.NoDrop (s : State) (k : Nat) : Prop := (s.port k).goWait = false ∨ (s.port k).autoDrop = false

/-- R136, R146, R148: the next sequenced flow unit of type `ty`, received whole in ACTIVE. -/
def State.UnitOk (s : State) (k : Nat) (u : FlowUnit) (ty : Nat) : Prop :=
  (s.port k).st = .active ∧ unitGood (s.port k).rxSeq.toNat u ty = true ∧ (s.port k).waitReplay = false ∧
  (s.port k).rxSeq = (s.port k).dupUntil ∧ s.NoDrop k

/-- R162, R165: a retrain of the link in ACTIVE can start, and a legal plan be formed. -/
def State.CanRetrain (s : State) (k : Nat) : Prop :=
  (s.port k).st = .active ∧ (s.port k).lastRetrain s.clk = false ∧
  (cutPlan ((lanesIn (s.port k).goPlan).filter fun l =>
      if (s.port k).plan.getLsbD l then decide (((s.port k).lane l).st ≠ .failed)
      else decide (((s.port k).lane l).st = .standby) && (s.port k).powered l)
    ((List.range 32).filter fun l =>
      decide (((s.port k).lane l).st = .standby) && ((s.port k).plan.getLsbD l || (s.port k).powered l))).isSome = true

/-- R176, R180: a message of type `ty` that passes the receive checks, from a node whose recorded generation agrees (a
fabric-management message carries none). -/
structure State.Passes (s : State) (k : Nat) (ty : BitVec 6) (m : Msg) : Prop where
  active : (s.port k).st = .active
  crc : crcOk ty m = true
  form : malformed ty m = false
  route : s.routeChecks ty m = true
  live : tyClass ty ≠ 5 → s.nodeKnown m.src = true ∧ s.node m.src = { gen := m.srcGen }

/-- The numbers of the open requests lie below the next. -/
def State.TxnsNumbered (s : State) : Prop := ∀ u ∈ s.txns, u.id < s.nextTxn

/-- R218–R220: nothing keeps a request from starting on the line `pa` at sett `n`: no request that has started or is starved, no
minimum hold and no open snoop is on it. -/
structure State.Free (s : State) (n pa : Nat) : Prop where
  alone : ∀ u ∈ s.txns, pa ∈ s.txnLines u → u.started = false ∧ u.starved = false
  noHold : ∀ h ∈ (s.sett n).holds, h.1 * 64 ≠ pa
  noSnoop : ∀ x ∈ (s.sett n).snoops, x.line * 64 ≠ pa

/-- R209: the line `pa` needs no recall to leave UNCACHED. An entry of its block that stands has a line that is not. -/
def State.Room (s : State) (pa : Nat) : Prop :=
  s.dirRoom pa = .room ∧
    (thas (s.sett (settOf pa)).dir (pa / 4096) = true → ∃ x ∈ (s.dirEnt pa).line, x.1 ≠ 0)

/-- A request message of partition `p`, not seen before, that reaches its home with its translation `x` and the one line
`pa` of its page at hand (in the line cache or in scratch), and finds no obstacle: no refusal (R102, R116, R463), no failed vote (R37), no check
of R49 that fails, no full park (R218), no request or hold on the line. Its answer leaves by port `j`. -/
structure State.Arrives (s : State) (k : Nat) (ty : ReqTy) (m : Msg) (p j : Nat) (x : Xl) (pa : Nat) : Prop where
  passes : s.Passes k (BitVec.ofNat 6 ty.code.toNat) m
  first : m.resend = false
  fresh : s.ded m.src m.srcGen m.tag = none
  room : dedRoom s.dedup p = true
  owner : s.asidPart m.asid.toNat = some p
  ready : s.top.ready = true
  taken : s.partFenced p = false ∧ s.owl.swept = false
  sound : s.msgFails m = false
  next : s.parkFull (settOf m.addr) = false ∧
    ∀ u ∈ s.txns, u.sett = settOf m.addr → u.phase ≠ .ring ∧ (u.phase = .parked → pa ∉ s.txnLines u)
  early : s.earlyStatus ty m = .ok
  green : (s.police p k (16 * (m.body.length + 1)) 0 false).1 ≠ 2
  way : s.portFor m.src m.tag = some j
  hit : s.lookup .fab 0 (settOf m.addr) m.asid m.addr = some x
  line : s.storedLines x.leaf x.base m.addr = [pa]
  plain : x.leaf.stor = x.leaf.view
  allowed : s.leafStatus .fab ty m.op.toNat x.leaf [pa] = .ok
  admitted : s.admission m.asid m.addr m.src = .ok
  open_ : s.gateAdmits p = true ∧ (s.sett (settOf m.addr)).halted = false ∧ s.bur.halted = false
  numbered : s.TxnsNumbered
  free : s.Free (settOf m.addr) pa
  here : ∀ a, s.whereIs pa = some (.dram a) → (s.cached a).isSome = true
  size : ∀ v, s.view pa = some v → v.data.length = 64
  four : (s.dirEnt pa).line.length = 4
  still : s.counterOf pa = none ∧ s.watched pa = none

/-- R187, R188: the answer to a message has joined the egress queue of partition `p` on port `j`. -/
def Answered (s t : State) (p j : Nat) (m : Msg) (ty : BitVec 6) (st : Status) (body : List Slot) : Prop :=
  ∃ e : EgMsg, (t.pqos p j).egress = (s.pqos p j).egress ++ [e] ∧ e.m.ty = ty ∧ e.m.dst = m.src ∧ e.m.tag = m.tag ∧
    e.m.body = body ∧ (tyEpochInfo ty = false → e.m.info = BitVec.ofNat 16 st.code.toNat)

/-- Memory below the caches is as it was, but for the scratch line `pa` where `pa` is one. -/
def MemKept (s t : State) (pa : Nat) : Prop :=
  t.dram = s.dram ∧ (∀ a, s.whereIs pa = some (.dram a) → t.scr = s.scr) ∧
  ∀ off, s.whereIs pa = some (.scr off) → ∀ o, o / 64 ≠ off / 64 → cget t.scr o = cget s.scr o

/-- The line with the bytes that the mask names replaced. -/
def merged (mask : W64) (old new : Bytes) : Bytes :=
  (List.range 64).map fun i => if mask.getLsbD i then new.getD i 0 else old.getD i 0

/-! ### Queues and engines -/

/-- R324, R340: the completion record of queue `q` can be written: its address lies in a page `x` of plain format, on the
one line `pa`, which is at hand, in order, no counter, and not that of the queue's entry; and where the page is Tracked the line is
UNCACHED and nothing keeps an access from starting on it. -/
structure State.RecordRoom (s : State) (q : Nat) (c : QCfg) (x : Xl) (va pa : Nat) (v : LineVal) : Prop where
  cfg : (s.queue q).cfg = some c
  noErr : (s.queue q).err = 0
  at_ : va = c.cmpBase + 32 * ((s.queue q).cmpCount.toNat % 2 ^ c.cmpLog2)
  page : s.schedXl c.asid va .wrPart = .ok x
  plain : x.leaf.stor = x.leaf.view
  line : s.storedLines x.leaf x.base (va / 64 * 64) = [pa]
  old : s.view pa = some v
  size : v.data.length = 64
  clean : v.poison = false
  here : ∀ a, s.whereIs pa = some (.dram a) → (s.cached a).isSome = true
  apart : ∀ a, s.qEntry q = some a → s.canon (a + 28) ≠ some pa
  status : s.lineStatus pa = .ok
  plainLine : s.counterOf pa = none
  free : x.leaf.cls = .tracked → ((s.dirEnt pa).at (lineIx pa)).1 = 0 ∧ s.Free (settOf va) pa ∧ s.TxnsNumbered

/-- R340, R343: the record that ends a started descriptor of queue `q` stands in the completion ring, and cmp_count and the
reservations have followed. -/
structure Recorded (s t : State) (q : Nat) (c : QCfg) (va pa : Nat) (v : LineVal) (w : EndRec) (d : Desc) (engine : Byte) : Prop where
  count : (t.queue q).cmpCount = (s.queue q).cmpCount + 1
  noErr : (t.queue q).err = 0
  freed : (t.queue q).open_ = (s.queue q).open_ - 1
  record : t.view pa = some ⟨merged (lineMask (va % 64) 32) v.data (overlay (List.replicate 64 0) (va % 64)
    (recordBytes (s.queue q).cmpCount.toNat c.cmpLog2 w d engine Status.cancelled.code)), false⟩

/-- R318, R353: engine `e` is RUNNING and works on a descriptor of operation `op` of a queue of partition `p`; nothing it
issued is outstanding and nothing has failed. -/
structure State.Works (s : State) (e op : Nat) (r : Run) (c : QCfg) (p : Nat) : Prop where
  run : (s.eng e).run = some r
  st : (s.eng e).st = .running
  clocked : (s.eng e).halted = false ∧ (s.eng e).gated = false
  going : r.res = none ∧ r.flt = none ∧ r.issued = false ∧ r.inq = false
  op_ : r.d.op = op
  idle : (s.eng e).out = [] ∧ (s.eng e).ans = []
  cfg : (s.queue r.q).cfg = some c
  part : s.queuePart r.q = some p
  numbered : s.TxnsNumbered

/-- The lines at these addresses are in the stream buffer of engine `e`. -/
def State.AtHand (s : State) (e : Nat) (l : List Nat) : Prop := ∀ a ∈ l, thas (s.eng e).sbuf (a / 64) = true

/-- R218, R284: no translation for these lines is cached for engine `e`, and no request waits at the ring input of their setts: each
waits for a walk. -/
def State.MissesAt (s : State) (e : Nat) (c : QCfg) (l : List Nat) : Prop :=
  ∀ a ∈ l, a < 2 ^ 57 ∧ s.lookup .eng e (settOf a) c.asid a = none ∧ ∀ u ∈ s.txns, u.sett = settOf a → u.phase ≠ .ring

/-- R284: the same of the lines of these writes. -/
def State.Misses (s : State) (e : Nat) (c : QCfg) (ws : List (Nat × W64 × Bytes × Bool)) : Prop := s.MissesAt e c (ws.map (·.1))

/-- R319: engine `e` has asked for these lines, in order, and waits for their answers. -/
def Asked (s t : State) (e : Nat) (l : List Nat) : Prop :=
  ∃ us : List Txn, t.txns = s.txns ++ us ∧ us.map (·.va) = l ∧
    (∀ u ∈ us, u.kind = .eng ∧ u.unit = e ∧ u.ugen = (s.eng e).gen ∧ u.ty = .rdOnce) ∧ (t.eng e).out = l

/-- R319, R320: engine `e` has issued these writes (address, mask, data, poison), in order, and waits for their answers. -/
def Issued (s t : State) (e : Nat) (ws : List (Nat × W64 × Bytes × Bool)) : Prop :=
  ∃ us : List Txn, t.txns = s.txns ++ us ∧ us.map (fun u => (u.va, u.mask, u.data, u.poisonIn)) = ws ∧
    (∀ u ∈ us, u.kind = .eng ∧ u.unit = e ∧ u.ugen = (s.eng e).gen ∧
      u.ty = if u.mask = BitVec.allOnes 64 then .wrLine else .wrPart) ∧
    (t.eng e).out = ws.map (·.1)

/-- The line of the stream buffer at an address: its bytes and its poison. -/
def State.bufData (s : State) (e a : Nat) : Bytes := slice (tget Answer.reset (s.eng e).sbuf (a / 64)).data 0 64
def State.bufPois (s : State) (e a : Nat) : Bool := (tget Answer.reset (s.eng e).sbuf (a / 64)).poison

/-- Nothing of engine `e` but its run has changed, and nothing of another engine. -/
def OnlyRun (e : Nat) (s t : State) : Prop :=
  t.eng e = { s.eng e with run := (t.eng e).run } ∧ ∀ k, k ≠ e → t.eng k = s.eng k

/-- Nothing but sett `n` has changed in the setts. -/
def OnlySett (n : Nat) (s t : State) : Prop := ∀ m, m ≠ n → t.sett m = s.sett m

/-! ### The host ports -/

/-- R558–R563, R576: a packet that port `k` takes and queue pair `q` accepts, in profile, uncongested, of a partition that
is not FENCED. -/
structure State.Takes (s : State) (k q : Nat) (pk : Packet) : Prop where
  up : (s.hport k).up = true
  takes : (s.hport k).takes pk.frame = true
  whole : pk.frame.fragment = false
  mac : pk.frame.dstMac = (s.hport k).mac
  ready : s.top.ready = true
  room : s.rxLoad k + pk.frame.bytes ≤ 4194304
  qp : qpOf pk.dqpn = some q
  open_ : (s.qp q).ready = true
  green : (s.police (s.qp q).part (8 + k) pk.frame.bytes (dscpColour pk.dscp) false).1 = 0
  ok : s.packetOk k q pk = true
  calm : pk.ce = false
  unfenced : s.partFenced (s.qp q).part = false

/-- R568, R569: a packet that is taken, whose PSN is the expected one, of a queue pair with nothing in progress. -/
structure State.Next (s : State) (k q : Nat) (pk : Packet) : Prop where
  takes : s.Takes k q pk
  psn : pk.psn = (s.qp q).epsn
  none_ : (s.qp q).pend = []
  numbered : s.TxnsNumbered

/-- R284: no translation for these lines is cached for queue pair `q`: each waits for a walk. -/
def State.HostMisses (s : State) (q : Nat) (asid : BitVec 16) (l : List Nat) : Prop :=
  ∀ a ∈ l, a < 2 ^ 57 ∧ s.lookup .host q (settOf a) asid a = none ∧ (s.sett (settOf a)).pair ≠ .lost ∧
    ∀ u ∈ s.txns, u.sett = settOf a → u.phase ≠ .ring

/-- The lines that queue pair `q` has asked of the pool: address, byte mask and data. -/
def HostIssued (s t : State) (q : Nat) (asid : BitVec 16) (ws : List (Nat × W64 × Bytes)) : Prop :=
  ∃ us, t.txns = s.txns ++ us ∧ us.map (fun u => (u.va, u.mask, u.data)) = ws ∧
    ∀ u ∈ us, u.kind = .host ∧ u.unit = q ∧ u.asid = asid ∧ u.ty = if u.mask = BitVec.allOnes 64 then .wrLine else .wrPart

/-- R560: the writes of `data` at `va`, line by line. -/
def lineWrites (va : Nat) (data : Bytes) : List (Nat × W64 × Bytes) :=
  (piecesOf va data.length data).map fun l =>
    (l.va, BitVec.ofNat 64 ((2 ^ l.len - 1) * 2 ^ l.off), overlay (List.replicate 64 0) l.off l.data)

/-- R559, R567: a packet of this kind, PSN, syndrome and data has joined the egress queue of queue pair `q`'s partition on
port `k`, for the QP of its host. -/
def Sends (s t : State) (k q kind : Nat) (psn : BitVec 24) (syn : Byte) (data : Bytes) : Prop :=
  ∃ (e : EgMsg) (f : HSent), (t.pqos (s.qp q).part (8 + k)).egress = (s.pqos (s.qp q).part (8 + k)).egress ++ [e] ∧
    e.frame = some f ∧ f.kind = kind ∧ f.qpn = (s.qp q).rqpn ∧ f.psn = psn ∧ f.syn = syn ∧ f.data = data

/-- Nothing but host port `k` has changed. -/
def OnlyHost (k : Nat) (s t : State) : Prop :=
  t = { s with hst := { s.hst with ports := t.hst.ports } } ∧ ∀ j, j ≠ k → t.hport j = s.hport j

/-! ### FP32 codes -/

/-- Whether a code is a NaN. -/
def fpNaN (a : W32) : Bool := decide (0x7F800000 < a.toNat % 2 ^ 31)

/-- The place of a code in the order of FP32 values: both zeros stand at 0. -/
def fpPlace (a : W32) : Int := if a.msb then -((a.toNat % 2 ^ 31 : Nat) : Int) else ((a.toNat % 2 ^ 31 : Nat) : Int)

/-- The offset of a partition's page register. -/
def pageOff (p i : Nat) : Nat := pageBase p + i

/-- R532: the flash after a write of its configuration: the sequence number, and the copy that was in force beside it. -/
def FlashS.rewritten (f : FlashS) (clk : Nat) : FlashS := { f with cfgSeq := f.cfgSeq + 1, cfgAt := some clk, older := f.copy }

/-- R503, R504, R509, R545: fuses are only ever burnt, and the anti-rollback counters only rise. -/
structure FuseS.Kept (a b : FuseS) : Prop where
  life : a.life &&& b.life = a.life
  secret : a.secret = true → b.secret = true
  ones : a.ones = true → b.ones = true
  fwCnt : a.fwCnt ≤ b.fwCnt
  layCnt : a.layCnt ≤ b.layCnt

end Sys2Proof.Machine
end

