-- ==== Sys2Proof/WellFormed.lean ====
section
/-! DEFINITION. Which commands are well-formed: every unit a command names exists, and its other operands have the
shape the manual gives them. The machine takes any command; a command that is not well-formed names nothing the
manual describes. -/

namespace Sys2Proof

/-! ### How many units there are (R4, R14, R123, R345, R548) -/

/-- Dreriorn ports. -/
def nPort : Nat := 8
/-- Lanes of a port. -/
def nLane : Nat := 32
/-- Setts. -/
def nSett : Nat := 16
/-- Fox engines. -/
def nEngine : Nat := 64
/-- DRAM channels. -/
def nChan : Nat := 32
/-- Partitions. -/
def nPart : Nat := 32
/-- PMBus regulators (R548). -/
def nRegulator : Nat := 16
/-- Entries of a sett's victim buffer (R391). -/
def nVictim : Nat := 64

/-- A path's partition page. -/
def Path.bound : Path → Nat × Nat
  | .owl => (0, 1)
  | .host p => (p, nPart)

/-- An invalidation unit's number (R288). -/
def InvUnit.bound : InvUnit → Nat × Nat
  | .sett n => (n, nSett)
  | .engine e => (e, nEngine)
  | .walkers g => (g, 4)
  | .overflow => (0, 1)

/-- The unit a FIFO belongs to (R45). -/
def FifoId.bound : FifoId → Nat × Nat
  | .inq e => (e, nEngine)
  | .mbox => (0, 1)
  | .spdm p => (p, nPart)

/-- The partition, routing entry or multicast group of a voted field (R36). -/
def RwtField.bound : RwtField → Nat × Nat
  | .owner p => (p, nPart)
  | .layoutGen => (0, 1)
  | .secState => (0, 1)
  | .route i => (i, 2048)
  | .mcast g => (g, 4096)
  | .share p => (p, nPart)
  | .extent i => (i, 65536)
  | .slot i => (i, 64)

/-! ### Shapes -/

/-- R170: len is the number of slots less one, the header counted. -/
def Msg.wf (m : Msg) : Bool := decide (m.body.length = m.len.toNat)

/-- R433: errors at some of a line's 80 symbols, each listed once with the bits that differ. -/
def wfErrs (errs : List (Nat × Byte)) : Bool :=
  errs.all (fun e => decide (e.1 < 80) && e.2 != 0) && decide (errs.map Prod.fst).Nodup

/-- R36: an upset changes one of the three copies. -/
def Upset.wf (u : Upset) : Bool := decide (u.copy < 3 ∧ u.mask ≠ 0 ∧ u.field.bound.1 < u.field.bound.2)

/-- R103: a rank that fails training is installed. -/
def Dimm.wf (d : Dimm) : Bool := d.failed &&& d.present == d.failed

/-- R172: the message types that have a command of their own. -/
def receivedTypes : List (BitVec 6) :=
  [0x01, 0x02, 0x03, 0x04, 0x05, 0x06, 0x07, 0x08, 0x09, 0x21, 0x34, 0x38, 0x39, 0x3C, 0x3D, 0x3E, 0x3F]

/-- R537: Owl's command codes. -/
def commandCodes : List (BitVec 16) :=
  [0x0001, 0x0002, 0x0003, 0x0010, 0x0011, 0x0012, 0x0013, 0x0020, 0x0021, 0x0022, 0x0023, 0x0024, 0x0030, 0x0031,
    0x0032, 0x0040, 0x0041, 0x0042, 0x0050, 0x0051, 0x0060, 0x0061, 0x0070, 0x0071]

/-- R560: the BTH opcodes of the requests the device takes, and of a CNP (PRESUMED: the InfiniBand specification's
numbers, log 43). -/
def rdmaOpcodes : List Byte := [0x06, 0x07, 0x08, 0x0A, 0x0C, 0x13, 0x14, 0x81]

/-- The units a command names, each with the number of such units. -/
def Instr.indices : Instr → List (Nat × Nat)
  | .pwrgoodRise _ _ => []
  | .clockLoss _ => []
  | .owlUp _ => []
  | .bankBootFail _ => []
  | .channelTrainingEnd ch _ => [(ch, nChan)]
  | .wrstNFall _ => []
  | .warmZeroFillDone _ _ => []
  | .registerWrite path off _ => [path.bound, (off, 2 ^ 26)]
  | .unlockWrite path off _ => [path.bound, (off, 2 ^ 26)]
  | .unlockLapse path off => [path.bound, (off, 2 ^ 26)]
  | .w1cClear path off _ _ => [path.bound, (off, 2 ^ 26)]
  | .rwtRevote _ => []
  | .rwtRewrite f => [f.bound]
  | .fifoPop path f => [path.bound, f.bound]
  | .fifoDrop path f => [path.bound, f.bound]
  | .fifoPush path f _ => [path.bound, f.bound]
  | .fifoPushEop path f _ => [path.bound, f.bound]
  | .inqDescriptorStart e => [(e, nEngine)]
  | .partOpHold path p _ => [path.bound, (p, nPart)]
  | .partTenantHold path p _ => [path.bound, (p, nPart)]
  | .partitionQuiesced p => [(p, nPart)]
  | .partDraining10ms p => [(p, nPart)]
  | .partDraining100ms p => [(p, nPart)]
  | .partReset path p => [path.bound, (p, nPart)]
  | .partitionResetDone p => [(p, nPart)]
  | .lnkEnable port _ => [(port, nPort)]
  | .lnkAutoUp port => [(port, nPort)]
  | .takeDown port => [(port, nPort)]
  | .lnkCmdRetrain port => [(port, nPort)]
  | .planGo port => [(port, nPort)]
  | .lanePower port lane _ => [(port, nPort), (lane, nLane)]
  | .laneClearFail port lane => [(port, nPort), (lane, nLane)]
  | .downHoldoffEnd port => [(port, nPort)]
  | .tsId port lane _ => [(port, nPort), (lane, nLane)]
  | .tsEq port lane _ => [(port, nPort), (lane, nLane)]
  | .tsDone port lane _ _ _ => [(port, nPort), (lane, nLane)]
  | .tsGo port lane _ => [(port, nPort), (lane, nLane)]
  | .retrainLcb port lane _ => [(port, nPort), (lane, nLane)]
  | .downLcb port lane _ => [(port, nPort), (lane, nLane)]
  | .standbyLcb port lane _ => [(port, nPort), (lane, nLane)]
  | .laneTrainLcb port lane _ => [(port, nPort), (lane, nLane)]
  | .trainTimeout port => [(port, nPort)]
  | .retrainTimeout port => [(port, nPort)]
  | .retrainComplete port => [(port, nPort)]
  | .laneLockLoss port lane => [(port, nPort), (lane, nLane)]
  | .planLockLoss port => [(port, nPort)]
  | .laneFail port lane => [(port, nPort), (lane, nLane)]
  | .dataUnit port _ => [(port, nPort)]
  | .idleUnit port _ => [(port, nPort)]
  | .replayUnit port _ => [(port, nPort)]
  | .planUnitReq port _ => [(port, nPort)]
  | .planUnitAcc port _ => [(port, nPort)]
  | .planUnitRej port _ => [(port, nPort)]
  | .planUnitGo port _ => [(port, nPort)]
  | .replayTimer port => [(port, nPort)]
  | .sameLimitReached port => [(port, nPort)]
  | .winLimitReached port => [(port, nPort)]
  | .retrainLimitReached port => [(port, nPort)]
  | .rdShared port _ _ => [(port, nPort)]
  | .rdOwn port _ _ => [(port, nPort)]
  | .upgrade port _ _ => [(port, nPort)]
  | .rdOnce port _ _ => [(port, nPort)]
  | .wrLine port _ _ => [(port, nPort)]
  | .wrPart port _ _ => [(port, nPort)]
  | .atomic port _ _ => [(port, nPort)]
  | .accWr port _ _ => [(port, nPort)]
  | .publish port _ _ => [(port, nPort)]
  | .wbDirty port _ _ => [(port, nPort)]
  | .wbClean port _ _ => [(port, nPort)]
  | .snpAck port _ => [(port, nPort)]
  | .snpData port _ => [(port, nPort)]
  | .fmNodeDown port _ => [(port, nPort)]
  | .fmNodeUp port _ => [(port, nPort)]
  | .fmEcho port _ => [(port, nPort)]
  | .fmEchoRsp port _ => [(port, nPort)]
  | .unexpectedMessage port _ _ => [(port, nPort)]
  | .requestWake sett _ => [(sett, nSett)]
  | .minHoldEnd sett _ => [(sett, nSett)]
  | .requestStarved sett _ => [(sett, nSett)]
  | .starveCount sett _ => [(sett, nSett)]
  | .parkTimeout sett _ => [(sett, nSett)]
  | .snoopTimeout _ => []
  | .deathSweepEnd sett => [(sett, nSett)]
  | .dedupEntryExpiry _ _ _ => []
  | .dedupBlockEnd _ _ _ => []
  | .nodeGenBlockEnd w => [(w, 2 ^ 19)]
  | .dramReadComplete _ _ => []
  | .dramAccessWithdrawn _ => []
  | .victimQueued sett i => [(sett, nSett), (i, nVictim)]
  | .rmwBatchDone _ _ => []
  | .requestAged ch sc _ => [(ch, nChan), (sc, 2)]
  | .bankIdlePrecharge ch sc rank bank => [(ch, nChan), (sc, 2), (rank, 4), (bank, 32)]
  | .refreshDue ch sc rank bank => [(ch, nChan), (sc, 2), (rank, 4), (bank, 32)]
  | .refreshForced ch sc rank bank => [(ch, nChan), (sc, 2), (rank, 4), (bank, 32)]
  | .mr4Poll ch rank _ => [(ch, nChan), (rank, 4)]
  | .dramAlert ch sc => [(ch, nChan), (sc, 2)]
  | .caRetrainStart ch => [(ch, nChan)]
  | .caRetrainEnd ch _ => [(ch, nChan)]
  | .drcHold ch _ => [(ch, nChan)]
  | .drcTimingWrite ch r _ => [(ch, nChan), (r, 4)]
  | .spareCmdGo ch _ => [(ch, nChan)]
  | .ceLimitReached ch rank => [(ch, nChan), (rank, 4)]
  | .deviceMark ch rank sc dev _ => [(ch, nChan), (rank, 4), (sc, 2), (dev, 10)]
  | .migrationChunkDone ch _ _ => [(ch, nChan)]
  | .scrubRead unit _ _ => [(unit, 33)]
  | .scrubStarvedInterval unit => [(unit, 33)]
  | .scrubLapLimit unit => [(unit, 33)]
  | .regionDrainComplete _ => []
  | .walkComplete _ page => [(page, 2 ^ 36)]
  | .walkTimeout _ page => [(page, 2 ^ 36)]
  | .invalidationReceive u _ => [u.bound]
  | .overflowSweepEnd _ => []
  | .drainReport u _ => [u.bound]
  | .invalidationDrainTimeout _ => []
  | .xltInvAsid _ => []
  | .xltInvRegion _ => []
  | .queueEnable path p o => [path.bound, (p, nPart), (o, 4096)]
  | .queueDisable path p o => [path.bound, (p, nPart), (o, 4096)]
  | .queueReset path p _ => [path.bound, (p, nPart)]
  | .queueWake q => [(q, 4096)]
  | .descriptorFetched q => [(q, 4096)]
  | .handOver q => [(q, 4096)]
  | .descriptorDispatch q => [(q, 4096)]
  | .nop q => [(q, 4096)]
  | .copy e => [(e, nEngine)]
  | .fill e => [(e, nEngine)]
  | .convert e => [(e, nEngine)]
  | .gather e => [(e, nEngine)]
  | .scatter e => [(e, nEngine)]
  | .reduce e _ => [(e, nEngine)]
  | .program e => [(e, nEngine)]
  | .digest e => [(e, nEngine)]
  | .compact e => [(e, nEngine)]
  | .fenceBarrier q => [(q, 4096)]
  | .fenceInvalidate q => [(q, 4096)]
  | .engineTransferAnswer e _ => [(e, nEngine)]
  | .tileStart e => [(e, nEngine)]
  | .tileEnd e => [(e, nEngine)]
  | .add e => [(e, nEngine)]
  | .sub e => [(e, nEngine)]
  | .mul e => [(e, nEngine)]
  | .fma e => [(e, nEngine)]
  | .div e => [(e, nEngine)]
  | .rsqrt e => [(e, nEngine)]
  | .sqrt e => [(e, nEngine)]
  | .exp2 e => [(e, nEngine)]
  | .log2 e => [(e, nEngine)]
  | .min e => [(e, nEngine)]
  | .max e => [(e, nEngine)]
  | .abs e => [(e, nEngine)]
  | .sign e => [(e, nEngine)]
  | .cmp e => [(e, nEngine)]
  | .sel e => [(e, nEngine)]
  | .clamp e => [(e, nEngine)]
  | .cvt e => [(e, nEngine)]
  | .srnd e => [(e, nEngine)]
  | .rsum e => [(e, nEngine)]
  | .rssq e => [(e, nEngine)]
  | .rmaxa e => [(e, nEngine)]
  | .descriptorComplete e => [(e, nEngine)]
  | .engineHang e => [(e, nEngine)]
  | .engineCheckerFault e => [(e, nEngine)]
  | .foxReset e => [(e, nEngine)]
  | .enginePurge sett e => [(sett, nSett), (e, nEngine)]
  | .purgeReport sett e => [(sett, nSett), (e, nEngine)]
  | .engineResetDone e => [(e, nEngine)]
  | .engineResetTimeout e => [(e, nEngine)]
  | .extensionApply p => [(p, nPart)]
  | .eventRingConfig path p _ => [path.bound, (p, nPart)]
  | .eventConsumerWrite path p _ => [path.bound, (p, nPart)]
  | .egressDepart k p => [(k, 10), (p, nPart)]
  | .maxclrDepth path p k => [path.bound, (p, nPart), (k, 10)]
  | .maxclrDelay path p k => [path.bound, (p, nPart), (k, 10)]
  | .qosApply p k => [(p, nPart), (k, 10)]
  | .settBadCycle sett _ => [(sett, nSett)]
  | .settCopyWatchdog sett => [(sett, nSett)]
  | .settStandbyFail sett _ => [(sett, nSett)]
  | .settSelfTestEnd sett _ => [(sett, nSett)]
  | .settResyncDone sett => [(sett, nSett)]
  | .settResyncTimeout sett => [(sett, nSett)]
  | .settPaircmdFailover sett => [(sett, nSett)]
  | .settPaircmdResync sett => [(sett, nSett)]
  | .consentKeySet path p => [path.bound, (p, nPart)]
  | .tokenInstall path p => [path.bound, (p, nPart)]
  | .tokenRevoke path p => [path.bound, (p, nPart)]
  | .tokenLapse p => [(p, nPart)]
  | .d1Request _ => []
  | .tlsHandshake _ _ _ => []
  | .sessionClose sess => [(sess, 5)]
  | .sessionIdleTimeout sess => [(sess, 5)]
  | .mgtFrame _ _ _ => []
  | .commandChunk sess _ _ _ => [(sess, 5)]
  | .unknownCommand sess _ _ => [(sess, 5)]
  | .info sess _ _ => [(sess, 5)]
  | .regRead sess _ _ => [(sess, 5)]
  | .regWrite sess _ _ _ => [(sess, 5)]
  | .eventRead sess _ _ => [(sess, 5)]
  | .ledgerRead sess _ _ => [(sess, 5)]
  | .scrubStatus sess _ _ => [(sess, 5)]
  | .scrubConfig sess _ _ => [(sess, 5)]
  | .layoutLoad sess _ _ => [(sess, 5)]
  | .layoutStage sess _ _ => [(sess, 5)]
  | .layoutFlash sess _ _ => [(sess, 5)]
  | .rollbackAdvance sess _ _ => [(sess, 5)]
  | .keyInstall sess _ _ => [(sess, 5)]
  | .fwWrite sess _ _ => [(sess, 5)]
  | .fwSelect sess _ _ => [(sess, 5)]
  | .owlRestart sess _ _ => [(sess, 5)]
  | .warmReset sess _ _ => [(sess, 5)]
  | .powerStateRun sess _ => [(sess, 5)]
  | .powerStateGate sess _ => [(sess, 5)]
  | .powerStateDrowse sess _ => [(sess, 5)]
  | .powerStateHibernate sess _ => [(sess, 5)]
  | .powerStateOff sess _ => [(sess, 5)]
  | .powerCap sess _ _ => [(sess, 5)]
  | .lifecycle sess _ _ => [(sess, 5)]
  | .spdm sess _ _ => [(sess, 5)]
  | .debugRead sess _ _ => [(sess, 5)]
  | .debugHaltHalt sess _ _ => [(sess, 5)]
  | .debugHaltResume sess _ _ => [(sess, 5)]
  | .debugHaltRead sess _ _ => [(sess, 5)]
  | .debugHaltWrite sess _ _ => [(sess, 5)]
  | .pmbus sess _ _ _ => [(sess, 5)]
  | .mgtConfig sess _ _ => [(sess, 5)]
  | .sensorSample _ _ => []
  | .regulatorPoll i _ _ => [(i, nRegulator)]
  | .smbusRead _ => []
  | .smbusWrite _ _ => []
  | .hostPortEnable k _ => [(k, 2)]
  | .hostLinkUp k => [(k, 2)]
  | .hostLinkDown k => [(k, 2)]
  | .arpRequest k _ => [(k, 2)]
  | .neighbourSolicitation k _ => [(k, 2)]
  | .echoRequest k _ => [(k, 2)]
  | .pfcFrame k _ => [(k, 2)]
  | .rdmaWriteFirst k _ => [(k, 2)]
  | .rdmaWriteMiddle k _ => [(k, 2)]
  | .rdmaWriteLast k _ => [(k, 2)]
  | .rdmaWriteOnly k _ => [(k, 2)]
  | .rdmaReadRequest k _ => [(k, 2)]
  | .compareSwap k _ => [(k, 2)]
  | .fetchAdd k _ => [(k, 2)]
  | .hostAck q => [(q, 1024)]
  | .dramWritePerformed ch sc _ => [(ch, nChan), (sc, 2)]
  | .testAccessPortInstruction _ => []
  | .pfcXon k => [(k, 2)]
  | .pfcPauseExpiry k prio => [(k, 2), (prio, 8)]
  | .cnpReceive k _ => [(k, 2)]
  | .cnpRateRecovery q => [(q, 1024)]
  | .unsupportedOpcode k _ => [(k, 2)]
  | .qpReady q => [(q, 1024)]
  | .qpReset q => [(q, 1024)]
  | .pwrgoodFall => []
  | .pllLock => []
  | .layoutOk => []
  | .fillDone => []
  | .readyRise => []
  | .warmFlushDone => []
  | .warmFlushTimeout => []
  | .warmSelfRefreshExit => []
  | .warmResetTimeout => []
  | .thermtrip => []
  | .policerRefill => []
  | .queueDepthSample => []
  | .gateSlotStart => []
  | .gateSlotCutoff => []
  | .powerStateReached => []
  | .gateEntryTimeout => []
  | .hibernateSweepEnd => []
  | .wipeComplete => []
  | .powerCapUpdate => []
  | .eventLogFlush => []
  | .ledgerSummary => []
  | .smbusStale => []

/-- The other conditions on a command's operands. -/
def Instr.shape : Instr → Bool
  | .pwrgoodRise _ _ => true
  | .clockLoss _ => true
  | .owlUp boot => boot.spd.all fun x => decide (x.ch < 32)
  | .bankBootFail _ => true
  | .channelTrainingEnd _ d => d.wf
  | .wrstNFall _ => true
  | .warmZeroFillDone _ _ => true
  | .registerWrite _ off _ => decide (off % 4 = 0)
  | .unlockWrite _ off _ => decide (off % 4 = 0)
  | .unlockLapse _ off => decide (off % 4 = 0)
  | .w1cClear _ off _ _ => decide (off % 4 = 0)
  | .rwtRevote upsets => upsets.all Upset.wf
  | .rwtRewrite _ => true
  | .fifoPop _ _ => true
  | .fifoDrop _ _ => true
  | .fifoPush _ _ _ => true
  | .fifoPushEop _ _ _ => true
  | .inqDescriptorStart _ => true
  | .partOpHold _ _ _ => true
  | .partTenantHold _ _ _ => true
  | .partitionQuiesced _ => true
  | .partDraining10ms _ => true
  | .partDraining100ms _ => true
  | .partReset _ _ => true
  | .partitionResetDone _ => true
  | .lnkEnable _ _ => true
  | .lnkAutoUp _ => true
  | .takeDown _ => true
  | .lnkCmdRetrain _ => true
  | .planGo _ => true
  | .lanePower _ _ _ => true
  | .laneClearFail _ _ => true
  | .downHoldoffEnd _ => true
  | .tsId _ _ _ => true
  | .tsEq _ _ _ => true
  | .tsDone _ _ _ _ _ => true
  | .tsGo _ _ _ => true
  | .retrainLcb _ _ _ => true
  | .downLcb _ _ _ => true
  | .standbyLcb _ _ _ => true
  | .laneTrainLcb _ _ _ => true
  | .trainTimeout _ => true
  | .retrainTimeout _ => true
  | .retrainComplete _ => true
  | .laneLockLoss _ _ => true
  | .planLockLoss _ => true
  | .laneFail _ _ => true
  | .dataUnit _ u => decide (u.slots.length = 15)
  | .idleUnit _ u => decide (u.slots.length = 15)
  | .replayUnit _ u => decide (u.slots.length = 15)
  | .planUnitReq _ u => decide (u.slots.length = 15)
  | .planUnitAcc _ u => decide (u.slots.length = 15)
  | .planUnitRej _ u => decide (u.slots.length = 15)
  | .planUnitGo _ u => decide (u.slots.length = 15)
  | .replayTimer _ => true
  | .sameLimitReached _ => true
  | .winLimitReached _ => true
  | .retrainLimitReached _ => true
  | .rdShared _ m _ => m.wf
  | .rdOwn _ m _ => m.wf
  | .upgrade _ m _ => m.wf
  | .rdOnce _ m _ => m.wf
  | .wrLine _ m _ => m.wf
  | .wrPart _ m _ => m.wf
  | .atomic _ m _ => m.wf
  | .accWr _ m _ => m.wf
  | .publish _ m _ => m.wf
  | .wbDirty _ m _ => m.wf
  | .wbClean _ m _ => m.wf
  | .snpAck _ m => m.wf
  | .snpData _ m => m.wf
  | .fmNodeDown _ m => m.wf
  | .fmNodeUp _ m => m.wf
  | .fmEcho _ m => m.wf
  | .fmEchoRsp _ m => m.wf
  | .unexpectedMessage _ ty m => m.wf && !receivedTypes.contains ty
  | .requestWake _ _ => true
  | .minHoldEnd _ _ => true
  | .requestStarved _ _ => true
  | .starveCount _ _ => true
  | .parkTimeout _ _ => true
  | .snoopTimeout _ => true
  | .deathSweepEnd _ => true
  | .dedupEntryExpiry _ _ _ => true
  | .dedupBlockEnd _ _ _ => true
  | .nodeGenBlockEnd _ => true
  | .dramReadComplete _ errs => wfErrs errs
  | .dramAccessWithdrawn _ => true
  | .victimQueued _ _ => true
  | .rmwBatchDone _ errs => wfErrs errs
  | .requestAged _ _ _ => true
  | .bankIdlePrecharge _ _ _ _ => true
  | .refreshDue _ _ _ _ => true
  | .refreshForced _ _ _ _ => true
  | .mr4Poll _ _ _ => true
  | .dramAlert _ _ => true
  | .caRetrainStart _ => true
  | .caRetrainEnd _ _ => true
  | .drcHold _ _ => true
  | .drcTimingWrite _ _ _ => true
  | .spareCmdGo _ _ => true
  | .ceLimitReached _ _ => true
  | .deviceMark _ _ _ _ _ => true
  | .migrationChunkDone _ _ _ => true
  | .scrubRead _ errs _ => wfErrs errs
  | .scrubStarvedInterval _ => true
  | .scrubLapLimit _ => true
  | .regionDrainComplete _ => true
  | .walkComplete _ _ => true
  | .walkTimeout _ _ => true
  | .invalidationReceive _ _ => true
  | .overflowSweepEnd _ => true
  | .drainReport _ _ => true
  | .invalidationDrainTimeout _ => true
  | .xltInvAsid _ => true
  | .xltInvRegion _ => true
  | .queueEnable _ _ _ => true
  | .queueDisable _ _ _ => true
  | .queueReset _ _ _ => true
  | .queueWake _ => true
  | .descriptorFetched _ => true
  | .handOver _ => true
  | .descriptorDispatch _ => true
  | .nop _ => true
  | .copy _ => true
  | .fill _ => true
  | .convert _ => true
  | .gather _ => true
  | .scatter _ => true
  | .reduce _ _ => true
  | .program _ => true
  | .digest _ => true
  | .compact _ => true
  | .fenceBarrier _ => true
  | .fenceInvalidate _ => true
  | .engineTransferAnswer _ _ => true
  | .tileStart _ => true
  | .tileEnd _ => true
  | .add _ => true
  | .sub _ => true
  | .mul _ => true
  | .fma _ => true
  | .div _ => true
  | .rsqrt _ => true
  | .sqrt _ => true
  | .exp2 _ => true
  | .log2 _ => true
  | .min _ => true
  | .max _ => true
  | .abs _ => true
  | .sign _ => true
  | .cmp _ => true
  | .sel _ => true
  | .clamp _ => true
  | .cvt _ => true
  | .srnd _ => true
  | .rsum _ => true
  | .rssq _ => true
  | .rmaxa _ => true
  | .descriptorComplete _ => true
  | .engineHang _ => true
  | .engineCheckerFault _ => true
  | .foxReset _ => true
  | .enginePurge _ _ => true
  | .purgeReport _ _ => true
  | .engineResetDone _ => true
  | .engineResetTimeout _ => true
  | .extensionApply _ => true
  | .eventRingConfig _ _ _ => true
  | .eventConsumerWrite _ _ _ => true
  | .egressDepart _ _ => true
  | .maxclrDepth _ _ _ => true
  | .maxclrDelay _ _ _ => true
  | .qosApply _ _ => true
  | .settBadCycle _ _ => true
  | .settCopyWatchdog _ => true
  | .settStandbyFail _ _ => true
  | .settSelfTestEnd _ _ => true
  | .settResyncDone _ => true
  | .settResyncTimeout _ => true
  | .settPaircmdFailover _ => true
  | .settPaircmdResync _ => true
  | .consentKeySet _ _ => true
  | .tokenInstall _ _ => true
  | .tokenRevoke _ _ => true
  | .tokenLapse _ => true
  | .d1Request _ => true
  | .tlsHandshake _ _ rootDigest => decide (rootDigest.length = 32)
  | .sessionClose _ => true
  | .sessionIdleTimeout _ => true
  | .mgtFrame _ _ _ => true
  | .commandChunk _ _ _ _ => true
  | .unknownCommand _ code _ => !commandCodes.contains code.code
  | .info _ _ _ => true
  | .regRead _ _ _ => true
  | .regWrite _ _ _ _ => true
  | .eventRead _ _ _ => true
  | .ledgerRead _ _ _ => true
  | .scrubStatus _ _ _ => true
  | .scrubConfig _ _ _ => true
  | .layoutLoad _ _ _ => true
  | .layoutStage _ _ _ => true
  | .layoutFlash _ _ _ => true
  | .rollbackAdvance _ _ _ => true
  | .keyInstall _ _ _ => true
  | .fwWrite _ _ _ => true
  | .fwSelect _ _ _ => true
  | .owlRestart _ _ _ => true
  | .warmReset _ _ _ => true
  | .powerStateRun _ _ => true
  | .powerStateGate _ _ => true
  | .powerStateDrowse _ _ => true
  | .powerStateHibernate _ _ => true
  | .powerStateOff _ _ => true
  | .powerCap _ _ _ => true
  | .lifecycle _ _ _ => true
  | .spdm _ _ _ => true
  | .debugRead _ _ _ => true
  | .debugHaltHalt _ _ _ => true
  | .debugHaltResume _ _ _ => true
  | .debugHaltRead _ _ _ => true
  | .debugHaltWrite _ _ _ => true
  | .pmbus _ _ _ _ => true
  | .mgtConfig _ _ _ => true
  | .sensorSample temps mv => decide (temps.length = 48 ∧ mv.length = 16)
  | .regulatorPoll _ _ _ => true
  | .smbusRead _ => true
  | .smbusWrite _ _ => true
  | .hostPortEnable _ _ => true
  | .hostLinkUp _ => true
  | .hostLinkDown _ => true
  | .arpRequest _ _ => true
  | .neighbourSolicitation _ _ => true
  | .echoRequest _ _ => true
  | .pfcFrame _ quanta => decide (quanta.length = 8)
  | .rdmaWriteFirst _ pk => pk.opcode == 0x06
  | .rdmaWriteMiddle _ pk => pk.opcode == 0x07
  | .rdmaWriteLast _ pk => pk.opcode == 0x08
  | .rdmaWriteOnly _ pk => pk.opcode == 0x0A
  | .rdmaReadRequest _ pk => pk.opcode == 0x0C
  | .compareSwap _ pk => pk.opcode == 0x13
  | .fetchAdd _ pk => pk.opcode == 0x14
  | .hostAck _ => true
  | .dramWritePerformed _ _ _ => true
  | .testAccessPortInstruction _ => true
  | .pfcXon _ => true
  | .pfcPauseExpiry _ _ => true
  | .cnpReceive _ pk => pk.opcode == 0x81
  | .cnpRateRecovery _ => true
  | .unsupportedOpcode _ pk => !rdmaOpcodes.contains pk.opcode
  | .qpReady _ => true
  | .qpReset _ => true
  | .pwrgoodFall => true
  | .pllLock => true
  | .layoutOk => true
  | .fillDone => true
  | .readyRise => true
  | .warmFlushDone => true
  | .warmFlushTimeout => true
  | .warmSelfRefreshExit => true
  | .warmResetTimeout => true
  | .thermtrip => true
  | .policerRefill => true
  | .queueDepthSample => true
  | .gateSlotStart => true
  | .gateSlotCutoff => true
  | .powerStateReached => true
  | .gateEntryTimeout => true
  | .hibernateSweepEnd => true
  | .wipeComplete => true
  | .powerCapUpdate => true
  | .eventLogFlush => true
  | .ledgerSummary => true
  | .smbusStale => true

/-- A well-formed command. -/
def Instr.wf (i : Instr) : Bool := i.indices.all (fun x => decide (x.1 < x.2)) && i.shape

end Sys2Proof
end

