-- ==== Sys2Proof/Certificates/Slice0/Obligations.lean ====
section
/-! DEFINITION. The statements about the block. Each cites its rules in OBLIGATIONS.json. `Leads c s P` says that the
command completes: exec answers a next state, of which `P` holds. A frame is written `t = { s with f := t.f }`: nothing but
the fields that are listed has changed. -/

open Sys2Proof Sys2Proof.Machine

/-! ### The machine -/

/-- A step takes the command at the front of the queue and runs it on the state with the queue's rest. -/
def Obligations.StepRunsFrontCommand : Prop :=
  ∀ (s : State) (c : Instr) (q : List Instr), step (s.withPending (c :: q)) = exec c (s.withPending q)

/-- With no command waiting one fabric clock passes: the model's choice (log 1). While PWRGOOD is low nothing counts. -/
def Obligations.IdleStepIsOneFabricClock : Prop :=
  ∀ s : State, s.pending = [] →
    step s = .next s.idle ∧ (s.pwrgood = false → s.idle = s) ∧
    (s.pwrgood = true →
      s.tickFab = { s with clk := s.clk + 1, top := s.tickFab.top, qos := s.tickFab.qos, engines := s.tickFab.engines } ∧
      s.tickFab.top = { s.top with tick := s.tickFab.top.tick } ∧ s.tickFab.qos = { s.qos with gate := s.tickFab.qos.gate } ∧
      (∀ e, s.tickFab.eng e = (s.eng e).tick (s.clk + 1)) ∧
      (s.owl.scrubs = [] → s.owl.repl = none → s.owl.fifo.send = [] → s.idle = s.tickFab) ∧
      ∀ r : Repl, s.phase = .running → s.owl.st = .run → s.owl.fifo.send = [] → s.owl.repl = some r → r.sec.part = r.part →
        s.sessOpen r.sess = true →
        s.idle.owl.scrubs = [] ∧ s.idle.owl.repl = none ∧ s.idle.secOf r.part = some r.sec ∧
        Replied s s.idle r.sess cLayoutLoad r.tag .ok (s.idle.loadBody 0 r.part))

/-- No command but its sender changes the queue of waiting commands: a command's effect is on everything but the queue. -/
def Obligations.CommandsLeaveTheQueue : Prop :=
  ∀ (c : Instr) (s t : State), exec c s = .next t → t.pending = s.pending

/-- Every command completes in every state. -/
def Obligations.EveryCommandCompletes : Prop :=
  ∀ (c : Instr) (s : State), ∃ t, exec c s = .next t

/-- Reset: nothing waits, nothing is powered, ready is 0, no layout is in force and every memory is empty. -/
def Obligations.ResetState : Prop :=
  State.reset.pending = [] ∧ State.reset.pwrgood = false ∧ State.reset.top.ready = false ∧ State.reset.lay = none ∧
  State.reset.dram = [] ∧ State.reset.scr = [] ∧ State.reset.txns = [] ∧ State.reset.memWf = true

/-- Every step keeps scratch memory and DRAM in their canonical form. -/
def Obligations.StepKeepsMemoryCanonical : Prop :=
  ∀ s t : State, s.memWf = true → step s = .next t → t.memWf = true

/-- Every step keeps the fuses: a burnt bit stays burnt, and neither anti-rollback counter falls. -/
def Obligations.StepNeverUnburnsFuses : Prop :=
  ∀ s t : State, step s = .next t → s.fuse.Kept t.fuse

/-! ### Power-up, reset and power states -/

/-- R90, R101 step 1, R532, R580, R615: the edges of PWRGOOD, the loss of the clock and a thermal trip: every unit is held in
reset, and only the flash, the fuses and (but for PWRGOOD) the straps are kept, with which units were out of service (R486, R494): at
the next cold reset these are tested, and an engine that fails stays fenced. A fall of PWRGOOD that tears the last write of the
configuration leaves the older copy's settings. -/
def Obligations.PowerAndClockEdges : Prop :=
  (∀ (s : State) (x : Straps) (w : Bool), s.pwrgood = false → s.unitsOut = 0 → s.outNow = 0 →
    Leads (.pwrgoodRise x w) s fun t =>
      t = { s.allHeld with
        pwrgood := true, wrstN := w, phase := .waitPll, unitsOut := 0, top := { TopS.reset with straps := strapReg x }
        sec := { SecS.reset with life := s.fuse.life }, ports := t.ports } ∧
      ∀ k < 8, (t.port k).planMask = strapPlan x) ∧
  (∀ (s : State) (x : Straps) (w : Bool), s.pwrgood = false →
    Leads (.pwrgoodRise x w) s fun t =>
      t.phase = .waitPll ∧ t.unitsOut = 0 ∧ t.dram = [] ∧ t.fuse = s.fuse ∧
      ∀ e < 64, (t.eng e).st = (if t.top.engLive.getLsbD e then .idle else .fenced) ∧
        ((s.unitsOut ||| s.outNow).getLsbD e = false → t.top.engLive.getLsbD e = true)) ∧
  (∀ s : State, s.pwrgood = true →
    exec .pwrgoodFall s = .next { s.allHeld with
      flash := if s.flash.cfgAt = some s.clk ∧ Config.freeNat s.free % 2 = 1 then s.flash.tear else s.flash
      free := s.free + 1 }) ∧
  (∀ f : FlashS, f.older.ok = true → f.tear.bootcnt = f.older.bootcnt ∧ f.tear.epochOfs = f.older.epochOfs ∧
    f.tear.preferB = f.older.preferB ∧ f.tear.cert = f.older.cert ∧ f.tear.root = f.older.root ∧
    f.tear.layKeys = f.older.layKeys ∧ f.tear.mgt = f.older.mgt ∧ f.tear.regs = f.older.regs ∧
    f.tear.regNamed = f.older.regNamed ∧ f.tear.log = f.log ∧ f.tear.ledger = f.ledger ∧ f.tear.wiped = f.wiped) ∧
  (∀ (s : State) (b : Bool), s.pwrgood = true → s.thermtrip = false → s.unitsOut = 0 → s.outNow = 0 →
    Leads (.clockLoss b) s fun t =>
      t = { s.allHeld with
        pwrgood := true, phase := .waitPll, unitsOut := 0, clkLost := if b then 1 else 2, top := { TopS.reset with straps := s.top.straps }
        sec := { SecS.reset with life := s.fuse.life }, ports := t.ports }) ∧
  (∀ s : State, s.pwrgood = true → s.thermtrip = false →
    exec .thermtrip s = .next { s.allHeld with pwrgood := true, thermtrip := true, top := { TopS.reset with straps := s.top.straps } }) ∧
  (∀ s : State, s.allHeld = { State.reset with
    unitsOut := s.unitsOut ||| s.outNow, wrstN := s.wrstN, clk := s.clk, flash := s.flash, fuse := s.fuse, free := s.free, pending := s.pending
    cadence := (List.range 48).map fun k => (k, s.clk) })

/-- R101 steps 2–8, R104, R544: the cold start: PLL lock, owl_up, training, the content checks, the fill and the release. -/
def Obligations.ColdStart : Prop :=
  (∀ s : State, s.phase = .waitPll →
    exec .pllLock s = .next { s with
      pll := true, phase := .waitOwl, top := { s.top with tick := if s.clkLost = 0 then s.top.tick else 0 } }) ∧
  (∀ (s : State) (b : OwlBoot), s.phase = .waitOwl → s.bootBank = some b.bankB → s.bankOk b.bankB = true →
    Leads (.owlUp b) s fun t =>
      t.top = { s.top with owlUp := true } ∧ t.phase = .training ∧ t.flash.bootcnt = s.flash.bootcnt + 1 ∧
      t.flash.epochOfs = s.flash.epochOfs + 1 ∧ t.owl.st = .run ∧ t.owl.bankB = b.bankB ∧
      (∀ c < 32, (t.chan c).st = .training) ∧ t.dram = s.dram ∧ t.scr = s.scr) ∧
  (∀ (s : State) (b : Bool), s.phase = .waitOwl → s.bootBank = some b → s.owl.evq.length < 256 →
    Leads (.bankBootFail b) s fun t =>
      t = { s with owl := t.owl } ∧ (if b then t.owl.failB else t.owl.failA) = true ∧ t.owl.evq.length = s.owl.evq.length + 1) ∧
  (∀ (s : State) (ch : Nat) (d : Dimm), ch < 32 → s.phase = .training → (s.chan ch).st = .training →
    Leads (.channelTrainingEnd ch d) s fun t =>
      (t.chan ch).st = (if dimmUsable d && dimmSupports d s.trainSpeed then .run else .absent) ∧
      (∀ j, j ≠ ch → (t.chan j).st = (s.chan j).st) ∧
      t.phase = (if (List.range 32).any fun k => decide (k ≠ ch ∧ (s.chan k).st = .training) then .training else .content) ∧
      t.dram = s.dram ∧ t.scr = s.scr) ∧
  (∀ (s : State) (i : Bytes) (l : Layout) (bad : List LayErr), s.phase = .content → s.owl.staged = none →
    (s.firstFormed s.flashImages).1.map (·.1) = some i → s.imageContent i = .ok (l, bad) → (∀ k < 8, s.PortIdle k) →
    Leads .layoutOk s fun t => t.top.layoutOk = true ∧ t.phase = .filling ∧ t.lay = some l ∧ t.dram = s.dram ∧ t.scr = s.scr) ∧
  (∀ s : State, s.phase = .filling →
    Leads .fillDone s fun t =>
      t = { s with
        top := { s.top with fillDone := true }, phase := .releasing, dram := [], dramPois := [], dramKey := []
        fills := t.fills, scr := [], scrPois := [] }) ∧
  (∀ s : State, s.phase = .releasing → s.life < 3 →
    Leads .readyRise s fun t =>
      t = { s with
        top := { s.top with ready := true }, phase := .running, owl := { s.owl with warmTries := 0 }
        ports := t.ports, scrubs := t.scrubs, stops := t.stops })

/-- R91, R106, R498, R499, R610: a warm reset, from the request at WRST_N to the end of the Burrow's fill. -/
def Obligations.WarmResetSteps : Prop :=
  (∀ (s : State) (ns : Nat), 1000 ≤ ns → s.pwrgood = true → s.thermtrip = false → s.phase = .running → s.top.ready = true →
    s.sec.wipeRun = false → s.owl.pwr = .run → s.owl.transit = false → s.owl.hibWbk = [] →
    Leads (.wrstNFall ns) s fun t =>
      t.top.ready = false ∧ t.phase = .warmFlush ∧ t.arms = [] ∧ t.owl.warmAt = s.clk ∧ t.flash = s.flash ∧ t.fuse = s.fuse) ∧
  (∀ s : State, s.phase = .warmFlush → s.stopping = false → (s.dirtyLines.any fun e => s.stuckLine e.1) = false →
    (∀ c < 32, s.stuckChan c = false) → s.owl.staged = none →
    Leads .warmFlushDone s fun t =>
      t.phase = .warmHold ∧ t.txns = [] ∧ t.nodes = [] ∧ t.inq = [] ∧ t.top = { s.top with fillDone := false } ∧
      t.flash.bootcnt = s.flash.bootcnt + 1 ∧ t.lay = s.lay) ∧
  (∀ s : State, s.phase = .warmFlush → 120000000 + s.owl.warmAt ≤ s.clk → s.owl.staged = none →
    Leads .warmFlushTimeout s fun t => t.phase = .warmHold ∧ t.txns = [] ∧ t.nodes = [] ∧ t.inq = [] ∧ t.lay = s.lay) ∧
  (∀ s : State, s.phase = .warmHold → 153600 + s.owl.warmAt ≤ s.clk →
    Leads .warmSelfRefreshExit s fun t =>
      t.phase = .warmFill ∧ t.dedup = [] ∧ t.scr = [] ∧ t.scrPois = [] ∧ t.flash.epochOfs = s.flash.epochOfs + 1 ∧
      ∀ c, (s.chan c).st = .selfRefresh → (t.chan c).st = (if (s.chan c).hold then .held else .run)) ∧
  (∀ (s : State) (x : BitVec 96), s.phase = .warmFill →
    Leads (.warmZeroFillDone true x) s fun t => t.phase = .warmRelease ∧ t.dram = s.dram ∧ t.scr = s.scr) ∧
  (∀ (s : State) (x : BitVec 96), s.phase = .warmFill → s.owl.warmTries ≤ 1 →
    Leads (.warmZeroFillDone false x) s fun t => t.phase = .warmFlush ∧ t.owl.warmTries = 2) ∧
  (∀ s : State, s.phase = .warmFill → 1 < s.owl.warmTries → 24000000000 + s.owl.warmAt ≤ s.clk →
    Leads .warmResetTimeout s fun t => t = { s with phase := .warmFailed, owl := t.owl })

/-- R585–R594: POWER_STATE and the ends of entries: each target from RUN, RUN from GATE, the waiting GATE entry reached or
cancelled, and the end of the sweep of HIBERNATE. -/
def Obligations.PowerStates : Prop :=
  (∀ (s : State) (sess : Nat) (tag : W32), s.Hears sess → s.powerStatus .run = .ok → s.owl.pwr = .gate →
    Leads (.powerStateRun sess tag) s fun t =>
      t.owl.pwr = .run ∧ Replied s t sess cPower tag .ok [0] ∧ t.dram = s.dram ∧ t.scr = s.scr ∧
      ∀ e < 64, (t.eng e).gated = ((s.eng e).gated && decide ((s.eng e).st = .fenced))) ∧
  (∀ (s : State) (sess : Nat) (tag : W32), s.Hears sess → s.powerStatus .gate = .ok → s.owl.pwr = .run → s.anyRun = false →
    Leads (.powerStateGate sess tag) s fun t =>
      t.owl.pwr = .gate ∧ Replied s t sess cPower tag .ok [1] ∧ t.dram = s.dram ∧ t.scr = s.scr ∧
      ∀ e < 64, (s.eng e).st ≠ .fenced → (t.eng e).gated = true) ∧
  (∀ (s : State) (sess : Nat) (tag : W32), s.Hears sess → s.powerStatus .drowse = .ok → s.owl.pwr = .run →
    Leads (.powerStateDrowse sess tag) s fun t =>
      t.owl.transit = true ∧ t.owl.target = .drowse ∧ t.owl.replies = s.owl.replies ∧
      ∀ p ∈ s.partList, (t.part p).opHold = true) ∧
  (∀ (s : State) (sess : Nat) (tag : W32), s.Hears sess → s.powerStatus .hibernate = .ok → s.owl.pwr = .run →
    (∃ p ∈ s.partList, (s.part p).st = .run) →
    Leads (.powerStateHibernate sess tag) s fun t => t.owl.transit = true ∧ t.owl.target = .hibernate) ∧
  (∀ (s : State) (sess : Nat) (tag : W32), s.Hears sess → s.powerStatus .off = .ok → s.owl.pwr ≠ .off →
    Leads (.powerStateOff sess tag) s fun t =>
      t = { s with owl := t.owl, flash := s.flushLog.flash } ∧ t.owl.pwr = .off ∧ Replied s t sess cPower tag .ok [4] ∧
      t.owl.pmOut = s.owl.pmOut ++ s.flash.regs.reverse.map fun i => [BitVec.ofNat 8 i, 0x01, 0x02, 0x01, 0x00]) ∧
  (∀ s : State, s.owl.transit = true → s.owl.pwr = .run → s.owl.target = .gate → s.anyRun = false →
    Leads .powerStateReached s fun t => t.owl.pwr = .gate ∧ t.owl.transit = false) ∧
  (∀ s : State, s.owl.transit = true → s.owl.pwr = .run → s.owl.target = .gate → s.anyRun = true →
    Config.ms10Clk + s.owl.pwSince ≤ s.clk → s.sessOpen s.owl.pwSess = true →
    Leads .gateEntryTimeout s fun t =>
      t = { s with owl := t.owl } ∧ t.owl.pwr = .run ∧ t.owl.transit = false ∧
      Replied s t s.owl.pwSess cPower s.owl.pwTag .retryLater [0]) ∧
  (∀ s : State, s.owl.transit = true → s.owl.pwr = .run → s.owl.target = .hibernate → s.owl.pwStep = 1 →
    (∀ x ∈ s.setts, x.2.dir = [] ∧ x.2.snoops = [] ∧ x.2.sweep = none) →
    (s.dirtyLines.any fun e => s.stuckLine e.1) = false → s.dramRests = true → s.plansOut = false →
    Leads .hibernateSweepEnd s fun t => t.owl.pwStep = 2 ∧ t.owl.swept = true ∧ t.owl.pwr = .run)

/-! ### Registers -/

/-- R29, R31–R34: a write of one register: a keyed one takes effect only while its unlock register is armed for the path, and
uses the arming up; without it the write is ignored and counted. A read-only register ignores writes. -/
def Obligations.RegisterWrites : Prop :=
  (∀ (s : State) (path : Path) (off : Nat) (v : W32) (c : Cell), s.pathUp path = true → reach path off % 4 = 0 →
    owlBarred path (reach path off) = false → isUnlock (reach path off) = false → s.cell (reach path off) = some c →
    exec (.registerWrite path off v) s = .next (match c.kind with
      | .ro => s
      | .rw => s.effect path (reach path off) v
      | .w1c => s.w1cWrite (reach path off) v 0
      | .keyed =>
        if s.armed path (unlockOf (reach path off)) then
          (s.disarm path (unlockOf (reach path off))).effect path (reach path off) v
        else { s with top := { s.top with keyfail := sat s.top.keyfail, evstat := setBit s.top.evstat 0 } })) ∧
  (∀ (s : State) (path : Path) (off : Nat) (v : W32), s.pathUp path = true → reach path off % 4 = 0 →
    owlBarred path (reach path off) = false → isUnlock (reach path off) = false → s.cell (reach path off) = none →
    exec (.registerWrite path off v) s =
      .next { s with top := { s.top with badaddr := sat s.top.badaddr, evstat := setBit s.top.evstat 3 } }) ∧
  (∀ (s : State) (v : W32), s.CanKey .owl 0x64 →
    Leads (.registerWrite .owl 0x64 v) s fun t =>
      t = { s with arms := t.arms, top := { s.top with scratch := v } } ∧ t.armed .owl 0x50 = false)

/-- R32–R34: arming: the key arms the unlock register for its path, another value disarms it and is counted, and after
65,536 fabric clocks the arming has lapsed. -/
def Obligations.UnlockRegisters : Prop :=
  (∀ (s : State) (path : Path) (off : Nat), s.pathUp path = true → reach path off % 4 = 0 → isUnlock (reach path off) = true →
    owlBarred path (reach path off) = false →
    Leads (.unlockWrite path off Config.unlockKey) s fun t =>
      t = { s with arms := t.arms } ∧ t.armed path (reach path off) = true ∧
      ∀ u, u ≠ reach path off → t.armed path u = s.armed path u) ∧
  (∀ (s : State) (path : Path) (off : Nat) (v : W32), s.pathUp path = true → reach path off % 4 = 0 →
    isUnlock (reach path off) = true → owlBarred path (reach path off) = false → v ≠ Config.unlockKey →
    Leads (.unlockWrite path off v) s fun t =>
      t = { s with arms := t.arms, top := { s.top with keyfail := sat s.top.keyfail, evstat := setBit s.top.evstat 0 } } ∧
      t.armed path (reach path off) = false) ∧
  (∀ (s : State) (path : Path) (off : Nat),
    Leads (.unlockLapse path off) s fun t =>
      t = { s with arms := t.arms } ∧
      (∀ a ∈ t.arms, a.unlock = reach path off → a.host = Path.isHost path → s.clk < 65536 + a.at_) ∧
      ∀ u, t.armed path u = s.armed path u)

/-- R39, R40: a clearing write: the flags it names clear, but those that hardware sets in the same clock stay 1 and are
counted. Stated of a write that reaches a W1C register, and in full of TOP_EVSTAT. -/
def Obligations.ClearingWrites : Prop :=
  (∀ (s : State) (path : Path) (off : Nat) (v sets : W32) (x : Nat), s.pathUp path = true → reach path off % 4 = 0 →
    owlBarred path (reach path off) = false → s.cell (reach path off) = some ⟨.w1c, x⟩ →
    exec (.w1cClear path off v sets) s = .next (s.w1cWrite (reach path off) v sets)) ∧
  (∀ (s : State) (v sets : W32), s.owl.st = .run →
    Leads (.w1cClear .owl 0x70 v sets) s fun t =>
      t = { s with top := { s.top with
        evstat := t.top.evstat, keyfail := t.top.keyfail, votefix := t.top.votefix, votefail := t.top.votefail
        badaddr := t.top.badaddr } } ∧
      (∀ i < 4, t.top.evstat.getLsbD i = (sets.getLsbD i || (s.top.evstat.getLsbD i && !v.getLsbD i))) ∧
      t.top.keyfail = (if sets.getLsbD 0 then sat s.top.keyfail else s.top.keyfail) ∧
      t.top.votefix = (if sets.getLsbD 1 then sat s.top.votefix else s.top.votefix) ∧
      t.top.votefail = (if sets.getLsbD 2 then sat s.top.votefail else s.top.votefail) ∧
      t.top.badaddr = (if sets.getLsbD 3 then sat s.top.badaddr else s.top.badaddr))

/-- R36, R37: one copy of a voted field is disturbed: the re-vote restores it and counts the correction; and Owl rewrites a
field whose vote has failed. -/
def Obligations.TriplicatedFields : Prop :=
  (∀ (s : State) (f : RwtField) (v c mask : Nat), s.rwtOf f = ⟨v, v, v, v, false⟩ → rwtLegal f v = true → mask ≠ 0 → c < 3 →
    s.due 5 1048576 = true →
    Leads (.rwtRevote [⟨f, c, mask⟩]) s fun t =>
      t = { s with
        rwt := t.rwt, cadence := t.cadence, top := { s.top with votefix := sat s.top.votefix, evstat := setBit s.top.evstat 1 } } ∧
      t.rwtOf f = s.rwtOf f) ∧
  (∀ (s : State) (f : RwtField), (s.rwtOf f).failed = true → s.owl.st = .run →
    Leads (.rwtRewrite f) s fun t =>
      t = { s with rwt := t.rwt } ∧
      t.rwtOf f = ⟨s.rwtCanon f, s.rwtCanon f, s.rwtCanon f, s.rwtCanon f, false⟩)

/-- R41–R43, R45, R556: the FIFO-style interfaces: a pop takes the head word, a drop the words up to the next mark, and a push
appends a word that fits. The Owl mailbox takes no push from a register path. -/
def Obligations.FifoInterfaces : Prop :=
  (∀ (s : State) (e : Nat) (w : FWord) (l : List FWord), e < 64 → s.owl.st = .run → (s.inqOf e).recv = w :: l →
    exec (.fifoPop .owl (.inq e)) s = .next (s.setInq e { s.inqOf e with recv := l })) ∧
  (∀ (s : State) (p : Nat) (w : FWord) (l : List FWord), p < 32 → s.top.ready = true → (s.part p).dbg.fifo.recv = w :: l →
    exec (.fifoPop (.host p) (.spdm p)) s =
      .next (s.setDbg p { (s.part p).dbg with fifo := { (s.part p).dbg.fifo with recv := l } })) ∧
  (∀ (s : State) (w : FWord) (l : List FWord), s.owl.st = .run → s.owl.fifo.recv = w :: l →
    exec (.fifoPop .owl .mbox) s = .next { s with owl := { s.owl with fifo := { s.owl.fifo with recv := l } } }) ∧
  (∀ (s : State) (e i : Nat), e < 64 → s.owl.st = .run → (s.inqOf e).recv.findIdx? (·.eop) = some i →
    exec (.fifoDrop .owl (.inq e)) s = .next (s.setInq e { s.inqOf e with recv := (s.inqOf e).recv.drop (i + 1) })) ∧
  (∀ (s : State) (e : Nat), e < 64 → s.owl.st = .run → (s.inqOf e).recv.findIdx? (·.eop) = none →
    exec (.fifoDrop .owl (.inq e)) s = .next (s.setInq e { s.inqOf e with recv := [], dropping := true })) ∧
  (∀ (s : State) (e : Nat) (w : W32), e < 64 → s.owl.st = .run → (s.inqOf e).over_ = false → (s.inqOf e).partial_.length < 16 →
    (s.inqOf e).send.length < 64 →
    exec (.fifoPush .owl (.inq e) w) s = .next (s.setInq e { s.inqOf e with send := (s.inqOf e).send ++ [⟨w, false⟩] }) ∧
    exec (.fifoPushEop .owl (.inq e) w) s = .next (s.setInq e { s.inqOf e with send := (s.inqOf e).send ++ [⟨w, true⟩] })) ∧
  (∀ (s : State) (w : W32), s.owl.st = .run →
    exec (.fifoPush .owl .mbox w) s =
      .next { s with owl := { s.owl with mboxErr := sat s.owl.mboxErr, evstat := setBit s.owl.evstat 0 } })

/-! ### The link layer -/

/-- R158, R160, R163, R164, R168: the keyed writes of LNK: enable, auto_up, the commands, and a lane's power and clear_fail;
and the end of the hold-off. -/
def Obligations.LinkCommands : Prop :=
  (∀ (s : State) (k : Nat), k < 8 → s.CanKey .owl (lnkOff k 0x10) → (s.port k).st = .disabled → (s.port k).enable = false →
    Leads (.lnkEnable k true) s fun t =>
      OnlyPort k { s with arms := t.arms } t ∧ (t.port k).st = .down ∧ (t.port k).enable = true ∧ (t.port k).since = s.clk) ∧
  (∀ (s : State) (k : Nat), k < 8 → s.CanKey .owl (lnkOff k 0x10) → (s.port k).enable = true →
    Leads (.lnkEnable k false) s fun t => (t.port k).st = .disabled ∧ (t.port k).enable = false ∧
      (s.PortIdle k → OnlyPort k { s with arms := t.arms } t)) ∧
  (∀ (s : State) (k : Nat), k < 8 → s.CanKey .owl (lnkOff k 0x10) → (s.port k).st = .down → (s.port k).holdoffDone = true →
    (s.port k).enable = true → s.top.layoutOk = true → 4 ≤ ((List.range 32).filter (s.port k).powered).length →
    Leads (.lnkAutoUp k) s fun t =>
      OnlyPort k { s with arms := t.arms } t ∧ (t.port k).autoUp = true ∧ (t.port k).st = .train ∧ (t.port k).phase = 1) ∧
  (∀ (s : State) (k : Nat), k < 8 → s.CanKey .owl (lnkOff k 0x14) → (s.port k).st = .active →
    Leads (.takeDown k) s fun t => (t.port k).st = .down ∧ (t.port k).reason = 2 ∧
      (t.port k).downs = sat (s.port k).downs ∧ (s.PortIdle k → OnlyPort k { s with arms := t.arms } t)) ∧
  (∀ (s : State) (k : Nat), k < 8 → s.CanKey .owl (lnkOff k 0x14) → s.CanRetrain k →
    Leads (.lnkCmdRetrain k) s fun t =>
      OnlyPort k { s with arms := t.arms } t ∧ (t.port k).st = .retrain ∧ (t.port k).cmdRetrain = true) ∧
  (∀ (s : State) (k : Nat), k < 8 → s.CanKey .owl (lnkOff k 0x14) → (s.port k).st = .active → (s.port k).planOut = none →
    (s.port k).planIn = none → planSizes.contains (lanesIn (s.port k).planMask).length = true →
    (s.port k).lanesReady (s.port k).planMask = true →
    Leads (.planGo k) s fun t =>
      OnlyPort k { s with arms := t.arms } t ∧ (t.port k).planOut = some (s.port k).planMask ∧
      (t.port k).planId = (s.port k).planId + 1 ∧ (t.port k).planRes = 1) ∧
  (∀ (s : State) (k l : Nat) (v : Bool), k < 8 → l < 32 → s.CanKey .owl (lnkOff k (0x1000 + 16 * l)) →
    Leads (.lanePower k l v) s fun t => ((t.port k).lane l).power = v ∧
      (v = true ∨ ((s.port k).st ≠ .train ∧ (s.port k).st ≠ .retrain) ∨ s.PortIdle k → OnlyPort k { s with arms := t.arms } t)) ∧
  (∀ (s : State) (k l : Nat), k < 8 → l < 32 → s.CanKey .owl (lnkOff k (0x1000 + 16 * l)) →
    ((s.port k).lane l).st = .failed → ((s.port k).lane l).training = false →
    Leads (.laneClearFail k l) s fun t =>
      OnlyPort k { s with arms := t.arms } t ∧ ((t.port k).lane l).training = true ∧ ((t.port k).lane l).clearFail = true) ∧
  (∀ (s : State) (k : Nat), (s.port k).st = .down → (s.port k).holdoffDone = false → s.top.layoutOk = true →
    (s.port k).since + (s.port k).downCfg.toNat * 2400 ≤ s.clk → 4 ≤ ((List.range 32).filter (s.port k).powered).length →
    Leads (.downHoldoffEnd k) s fun t =>
      OnlyPort k s t ∧ (t.port k).holdoffDone = true ∧
      (t.port k).st = (if (s.port k).autoUp ∧ (s.port k).enable then .train else .down))

/-- R140, R141, R160: lane control blocks: what the sixteenth block in a row of each training type does, and the blocks that
start a retrain, take the link down, report a lane and start its training. -/
def Obligations.LaneControlBlocks : Prop :=
  (∀ (s : State) (k l j : Nat) (b : BitVec 272) (w : Nat), s.LcbOk k b lcbTsId w → (s.port k).st = .train → (s.port k).phase = 1 →
    (s.port k).trainees.contains l = true → ((s.port k).lane l).ident = false → ((s.port k).lane l).cntTy = lcbTsId →
    15 ≤ ((s.port k).lane l).cnt → bitsOf w 83 5 = l → (s.port k).trainees.contains j = true → j ≠ l →
    ((s.port k).lane j).ident = false →
    Leads (.tsId k l b) s fun t =>
      OnlyPort k s t ∧ ((t.port k).lane l).ident = true ∧ ((t.port k).lane l).node = cwNode w ∧
      ((t.port k).lane l).nport = cwPort w ∧ ((t.port k).lane l).ngen = cwGen w) ∧
  (∀ (s : State) (k l : Nat) (b : BitVec 272) (w : Nat), s.LcbOk k b lcbTsEq w → (s.port k).stranger w = false →
    (s.port k).phase = 2 → (s.port k).trainees.contains l = true → bitsOf w 76 4 ≠ 0xF → ((s.port k).lane l).rnds = 0 →
    Leads (.tsEq k l b) s fun t =>
      OnlyPort k s t ∧ (t.port k).lane l = ((s.port k).lane l).equalise w ∧ ((t.port k).lane l).rnds = 1 ∧
      (t.port k).lcbs.length = (s.port k).lcbs.length + 1) ∧
  (∀ (s : State) (k l j : Nat) (b : BitVec 272) (w skew : Nat) (m : BitVec 16), s.LcbOk k b lcbTsDone w → (s.port k).phase = 3 →
    ((s.port k).lane l).training = false → (s.port k).trainees.contains l = true → ((s.port k).lane l).cntTy = lcbTsDone →
    15 ≤ ((s.port k).lane l).cnt → laneFit skew m = true → j < 32 → (s.port k).prop.getLsbD j = true → j ≠ l →
    ((s.port k).lane j).skewDone = false →
    Leads (.tsDone k l b skew m) s fun t =>
      OnlyPort k s t ∧ ((t.port k).lane l).skewDone = true ∧ ((t.port k).lane l).margin = m) ∧
  (∀ (s : State) (k l : Nat) (b : BitVec 272) (w : Nat), s.LcbOk k b lcbTsGo w → (s.port k).st = .train → (s.port k).phase = 4 →
    l < 32 → (s.port k).prop.getLsbD l = true → BitVec.ofNat 32 (bitsOf w 8 32) = (s.port k).prop →
    (∀ j < 32, (s.port k).prop.getLsbD j = true →
      ((s.port k).lane j).cntTy = lcbTsGo ∧ ((s.port k).lane j).st ≠ .failed ∧
      (if j = l then 15 else 16) ≤ ((s.port k).lane j).cnt) →
    Leads (.tsGo k l b) s fun t =>
      (t.port k).st = .active ∧ (t.port k).plan = (s.port k).prop ∧ (t.port k).rxSeq = 0 ∧
      t = { s with ports := t.ports, owl := t.owl, flash := t.flash } ∧ ∀ j, j ≠ k → t.port j = s.port j) ∧
  (∀ (s : State) (k l : Nat) (b : BitVec 272) (w : Nat), s.LcbOk k b lcbRetrain w → s.CanRetrain k →
    (s.port k).plan.getLsbD l = true →
    Leads (.retrainLcb k l b) s fun t => OnlyPort k s t ∧ (t.port k).st = .retrain) ∧
  (∀ (s : State) (k l : Nat) (b : BitVec 272) (w : Nat), s.LcbOk k b lcbDown w →
    1 ≤ (((List.range 32).map fun j => ((s.port k).lane j).downCnt).foldl (· + ·) 0) →
    Leads (.downLcb k l b) s fun t =>
      (t.port k).st = .down ∧ (t.port k).reason = BitVec.ofNat 8 (bitsOf w 40 8) ∧
      (s.PortIdle k → OnlyPort k s t)) ∧
  (∀ (s : State) (k l : Nat) (b : BitVec 272) (w : Nat), s.LcbOk k b lcbStandby w →
    Leads (.standbyLcb k l b) s fun t => OnlyPort k s t ∧ ((t.port k).lane l).peer = LaneState.ofCode (bitsOf w 81 2)) ∧
  (∀ (s : State) (k l : Nat) (b : BitVec 272) (w : Nat), s.LcbOk k b lcbLaneTrain w → ((s.port k).lane l).st ≠ .inPlan →
    ((s.port k).lane l).power = true → ((s.port k).lane l).training = false → ((s.port k).lane l).cntTy = lcbLaneTrain →
    15 ≤ ((s.port k).lane l).cnt →
    Leads (.laneTrainLcb k l b) s fun t => OnlyPort k s t ∧ ((t.port k).lane l).training = true)

/-- R151, R161, R163–R165: the timers, limits and losses of lock that start a retrain, end one, take the link down, or fail a
lane. -/
def Obligations.LinkTriggers : Prop :=
  (∀ (s : State) (k : Nat), (s.port k).st = .train → 4800000 + (s.port k).since ≤ s.clk →
    Leads (.trainTimeout k) s fun t =>
      (t.port k).st = .down ∧ (t.port k).reason = 1 ∧ (s.PortIdle k → OnlyPort k s t)) ∧
  (∀ (s : State) (k : Nat), (s.port k).st = .retrain → 2400000 + (s.port k).since ≤ s.clk →
    Leads (.retrainTimeout k) s fun t =>
      (t.port k).st = .down ∧ (t.port k).reason = 4 ∧ (s.PortIdle k → OnlyPort k s t)) ∧
  (∀ (s : State) (k : Nat), (s.port k).st = .retrain → (s.port k).phase = 5 →
    (∀ j < 32, (s.port k).prop.getLsbD j = true → ((s.port k).lane j).st ≠ .failed) →
    Leads (.retrainComplete k) s fun t =>
      (t.port k).st = .active ∧ (t.port k).plan = (s.port k).prop ∧ (t.port k).replays = sat (s.port k).replays ∧
      t = { s with ports := t.ports, owl := t.owl, flash := t.flash } ∧ ∀ j, j ≠ k → t.port j = s.port j) ∧
  (∀ (s : State) (k l : Nat), s.CanRetrain k → (s.port k).plan.getLsbD l = true →
    Leads (.laneLockLoss k l) s fun t => OnlyPort k s t ∧ (t.port k).st = .retrain) ∧
  (∀ (s : State) (k : Nat), (s.port k).st = .active →
    Leads (.planLockLoss k) s fun t =>
      (t.port k).st = .down ∧ (t.port k).reason = 1 ∧ (s.PortIdle k → OnlyPort k s t)) ∧
  (∀ (s : State) (k l : Nat), ((s.port k).lane l).st ≠ .failed → (s.port k).atLimit l s.clk = true →
    ((s.port k).st = .train → (s.port k).phase ≠ 1) →
    Leads (.laneFail k l) s fun t =>
      ((t.port k).lane l).st = .failed ∧ (t.port k).laneFails = sat (s.port k).laneFails ∧
      (s.PortIdle k → OnlyPort k s t)) ∧
  (∀ (s : State) (k : Nat), s.CanRetrain k → max 1 (s.port k).sameLimit.toNat ≤ (s.port k).sameCnt →
    Leads (.sameLimitReached k) s fun t => OnlyPort k s t ∧ (t.port k).st = .retrain) ∧
  (∀ (s : State) (k : Nat), s.CanRetrain k →
    (s.port k).winLimit.toNat < ((s.port k).winAt.filter fun n => decide ((s.port k).winUnits < 2 ^ 24 + n)).length →
    Leads (.winLimitReached k) s fun t => OnlyPort k s t ∧ (t.port k).st = .retrain) ∧
  (∀ (s : State) (k : Nat), (s.port k).st = .active → (s.port k).lastRetrain s.clk = true →
    Leads (.retrainLimitReached k) s fun t =>
      (t.port k).st = .down ∧ (t.port k).reason = 1 ∧ (s.PortIdle k → OnlyPort k s t)) ∧
  (∀ (s : State) (k : Nat), (s.port k).st = .active → (s.port k).buf ≠ [] →
    (s.port k).ackAt + max 240 (s.port k).replayCfg.toNat ≤ s.clk → (∀ n, (s.port k).timerAt ≠ some (s.clk, n)) →
    Leads (.replayTimer k) s fun t =>
      OnlyPort k s t ∧ (t.port k).replays = sat (s.port k).replays ∧ (t.port k).buf = (s.port k).buf ∧ (t.port k).ackAt = s.clk)

/-- R146–R151, R158: flow units that arrive whole and in sequence: the slots of DATA enter the receive buffer, an IDLE unit's
acknowledgement frees stored units and ends the exchange whose GO it takes in, REPLAY restarts the sequence, and PLAN units run
the exchange of R158. -/
def Obligations.FlowUnits : Prop :=
  (∀ (s : State) (k : Nat) (u : FlowUnit), s.UnitOk k u 0 →
    Leads (.dataUnit k u) s fun t =>
      OnlyPort k s t ∧ (t.port k).rxSlots = (s.port k).rxSlots ++ u.slots ∧ (t.port k).rxSeq = (s.port k).rxSeq + 1) ∧
  (∀ (s : State) (k : Nat) (u : FlowUnit) (q : BitVec 12), (s.port k).st = .active → unitGood 0xF000 u 1 = true →
    bitsOf u.hdr.toNat 58 2 = 1 → q = BitVec.ofNat 12 (bitsOf u.hdr.toNat 46 12) → (s.port k).txq = [] → (s.port k).planq = [] →
    s.NoDrop k → (q + 1 - (s.port k).oldest).toNat ≤ (s.port k).buf.length →
    Leads (.idleUnit k u) s fun t =>
      OnlyPort k s t ∧ (t.port k).buf = (s.port k).buf.drop (q + 1 - (s.port k).oldest).toNat ∧
      (t.port k).rxSeq = (s.port k).rxSeq) ∧
  (∀ (s : State) (k : Nat) (u : FlowUnit) (q : BitVec 12) (m n : W32) (r : Byte) (b : TxUnit), (s.port k).st = .active →
    unitGood 0xF000 u 1 = true → bitsOf u.hdr.toNat 58 2 = 1 → q = BitVec.ofNat 12 (bitsOf u.hdr.toNat 46 12) →
    (q + 1 - (s.port k).oldest).toNat ≤ (s.port k).buf.length → (s.port k).goWait = true → (s.port k).autoDrop = false →
    (s.port k).planOut = some m → b ∈ (s.port k).buf.take (q + 1 - (s.port k).oldest).toNat →
    b.plan = some (4, (s.port k).planId, n, r) →
    Leads (.idleUnit k u) s fun t =>
      OnlyPort k s t ∧ (t.port k).planOut = none ∧ (t.port k).goWait = false ∧ (t.port k).planRes = 2 ∧ (t.port k).goPlan = m) ∧
  (∀ (s : State) (k : Nat) (u : FlowUnit), (s.port k).st = .active → unitGood 0xF000 u 2 = true → s.NoDrop k →
    Leads (.replayUnit k u) s fun t =>
      OnlyPort k s t ∧ (t.port k).waitReplay = false ∧
      (t.port k).rxSeq = BitVec.ofNat 12 ((u.slots.getD 0 0).toNat % 4096)) ∧
  (∀ (s : State) (k : Nat) (u : FlowUnit) (id r : Byte) (m : W32), s.UnitOk k u 3 → planFields u = (1, id, m, r) →
    (s.port k).planOut = none → planSizes.contains (lanesIn m).length = true → (s.port k).lanesReady m = true →
    Leads (.planUnitReq k u) s fun t => OnlyPort k s t ∧ (t.port k).planIn = some (id, m) ∧ (t.port k).plan = (s.port k).plan) ∧
  (∀ (s : State) (k : Nat) (u : FlowUnit) (r : Byte) (m n : W32), s.UnitOk k u 3 →
    planFields u = (2, (s.port k).planId, n, r) → (s.port k).planOut = some m → (s.port k).goWait = false →
    Leads (.planUnitAcc k u) s fun t =>
      OnlyPort k s t ∧ (t.port k).plan = m ∧ (t.port k).planOut = some m ∧ (t.port k).goWait = true) ∧
  (∀ (s : State) (k : Nat) (u : FlowUnit) (r : Byte) (m n : W32), s.UnitOk k u 3 →
    planFields u = (3, (s.port k).planId, n, r) → (s.port k).planOut = some m → (s.port k).goWait = false →
    (s.port k).autoDrop = false →
    Leads (.planUnitRej k u) s fun t =>
      OnlyPort k s t ∧ (t.port k).plan = (s.port k).plan ∧ (t.port k).planOut = none ∧ (t.port k).planRes = 4 ∧
      (t.port k).planReason = r) ∧
  (∀ (s : State) (k : Nat) (u : FlowUnit) (id r : Byte) (m : W32), s.UnitOk k u 3 → planFields u = (4, id, m, r) →
    (s.port k).planIn = some (id, m) → (s.port k).autoDrop = false →
    Leads (.planUnitGo k u) s fun t =>
      OnlyPort k s t ∧ (t.port k).plan = m ∧ (t.port k).goPlan = m ∧ (t.port k).planIn = none)

/-! ### Messages at the home -/

/-- R201, R207, R214: reads of an UNCACHED line of a Tracked page: RD_SHARED and RD_OWN make the source its owner and are
answered DATA_E and DATA_M, RD_ONCE leaves the directory and is answered DATA_U, and UPGRADE of the only sharer makes it the
owner and is answered CMP without data. Each is answered with the line as it stands, memory is unchanged, and no request
stays open. -/
def Obligations.TrackedReads : Prop :=
  (∀ (s : State) (k : Nat) (m : Msg) (p j : Nat) (x : Xl) (pa : Nat) (v : LineVal), s.Arrives k .rdShared m p j x pa →
    x.leaf.cls = .tracked → ((s.dirEnt pa).at (lineIx pa)).1 = 0 → s.Room pa → s.view pa = some v →
    Leads (.rdShared k m .none) s fun t =>
      (t.dirEnt pa).at (lineIx pa) = (2, m.src) ∧ Answered s t p j m tyDataE .ok (bytesSlots 4 v.data) ∧
      t.txns = s.txns ∧ t.dram = s.dram ∧ t.scr = s.scr) ∧
  (∀ (s : State) (k : Nat) (m : Msg) (p j : Nat) (x : Xl) (pa : Nat) (v : LineVal), s.Arrives k .rdOwn m p j x pa →
    x.leaf.cls = .tracked → ((s.dirEnt pa).at (lineIx pa)).1 = 0 → s.Room pa → s.view pa = some v →
    Leads (.rdOwn k m .none) s fun t =>
      (t.dirEnt pa).at (lineIx pa) = (2, m.src) ∧ Answered s t p j m tyDataM .ok (bytesSlots 4 v.data) ∧
      t.txns = s.txns ∧ t.dram = s.dram ∧ t.scr = s.scr) ∧
  (∀ (s : State) (k : Nat) (m : Msg) (p j : Nat) (x : Xl) (pa : Nat) (v : LineVal), s.Arrives k .upgrade m p j x pa →
    x.leaf.cls = .tracked → ((s.dirEnt pa).at (lineIx pa)).1 = 1 → s.holders (s.dirEnt pa) (lineIx pa) = [.inl m.src] →
    s.isSharer (s.dirEnt pa) m.src = true → s.view pa = some v →
    Leads (.upgrade k m .none) s fun t =>
      (t.dirEnt pa).at (lineIx pa) = (2, m.src) ∧ Answered s t p j m tyCmp .ok [] ∧
      t.txns = s.txns ∧ t.dram = s.dram ∧ t.scr = s.scr) ∧
  (∀ (s : State) (k : Nat) (m : Msg) (p j : Nat) (x : Xl) (pa : Nat) (v : LineVal), s.Arrives k .rdOnce m p j x pa →
    x.leaf.cls = .tracked → ((s.dirEnt pa).at (lineIx pa)).1 = 0 → s.view pa = some v →
    Leads (.rdOnce k m .none) s fun t =>
      ((t.dirEnt pa).at (lineIx pa)).1 = 0 ∧ Answered s t p j m tyDataU .ok (bytesSlots 4 v.data) ∧
      t.txns = s.txns ∧ t.dram = s.dram ∧ t.scr = s.scr)

/-- R214, R222, R226, R257: writes of an UNCACHED line of a Tracked page with view equal to storage: WR_LINE stores the line,
WR_PART the bytes its mask names, ATOMIC the result of its operation, and ACC_WR the sum in its format. The line stays
UNCACHED, and each is answered. -/
def Obligations.TrackedWrites : Prop :=
  (∀ (s : State) (k : Nat) (m : Msg) (p j : Nat) (x : Xl) (pa : Nat) (v : LineVal), s.Arrives k .wrLine m p j x pa →
    x.leaf.cls = .tracked → ((s.dirEnt pa).at (lineIx pa)).1 = 0 → s.view pa = some v → m.poison = false →
    Leads (.wrLine k m .none) s fun t =>
      t.view pa = some ⟨merged (BitVec.allOnes 64) v.data (m.bytes 2 4), false⟩ ∧ Answered s t p j m tyCmp .ok [] ∧
      ((t.dirEnt pa).at (lineIx pa)).1 = 0 ∧ t.txns = s.txns ∧ MemKept s t pa) ∧
  (∀ (s : State) (k : Nat) (m : Msg) (p j : Nat) (x : Xl) (pa : Nat) (v : LineVal), s.Arrives k .wrPart m p j x pa →
    x.leaf.cls = .tracked → ((s.dirEnt pa).at (lineIx pa)).1 = 0 → s.view pa = some v → m.poison = false → v.poison = false →
    Leads (.wrPart k m .none) s fun t =>
      t.view pa = some ⟨merged (BitVec.ofNat 64 (m.slot 2)) v.data (m.bytes 3 4), false⟩ ∧ Answered s t p j m tyCmp .ok [] ∧
      ((t.dirEnt pa).at (lineIx pa)).1 = 0 ∧ t.txns = s.txns ∧ MemKept s t pa) ∧
  (∀ (s : State) (k : Nat) (m : Msg) (p j : Nat) (x : Xl) (pa : Nat) (v : LineVal), s.Arrives k .atomic m p j x pa →
    x.leaf.cls = .tracked → ((s.dirEnt pa).at (lineIx pa)).1 = 0 → s.view pa = some v → v.poison = false → m.op.toNat < 10 →
    Leads (.atomic k m .none) s fun t =>
      let n := atomSize m.op.toNat
      let old := fld v.data (m.addr % 64) n
      let r := atomVal m.op.toNat old (m.body.getD 1 0) (m.body.getD 2 0)
      t.view pa = some ⟨overlay v.data (m.addr % 64) (toLe n r.1), false⟩ ∧
      Answered s t p j m tyDataU .ok (atomAns m.op.toNat old r.2) ∧
      ((t.dirEnt pa).at (lineIx pa)).1 = 0 ∧ t.txns = s.txns ∧ MemKept s t pa) ∧
  (∀ (s : State) (k : Nat) (m : Msg) (p j : Nat) (x : Xl) (pa : Nat) (v : LineVal), s.Arrives k .accWr m p j x pa →
    x.leaf.cls = .tracked → ((s.dirEnt pa).at (lineIx pa)).1 = 0 → s.view pa = some v → v.poison = false → m.poison = false →
    Leads (.accWr k m .none) s fun t =>
      t.view pa = some ⟨accLine m.op.toNat v.data (m.bytes 2 4), false⟩ ∧ Answered s t p j m tyCmp .ok [] ∧
      ((t.dirEnt pa).at (lineIx pa)).1 = 0 ∧ t.txns = s.txns ∧ MemKept s t pa)

/-- R201, R214: reads of a page without a directory that is Private: RD_SHARED is answered DATA_E, RD_OWN DATA_M and RD_ONCE
DATA_U, with the line as it stands, and nothing is recorded. -/
def Obligations.PrivateReads : Prop :=
  ∀ (s : State) (k : Nat) (m : Msg) (p j : Nat) (x : Xl) (pa : Nat) (v : LineVal), x.leaf.cls = .priv → s.view pa = some v →
    (s.Arrives k .rdShared m p j x pa → Leads (.rdShared k m .none) s fun t =>
      Answered s t p j m tyDataE .ok (bytesSlots 4 v.data) ∧ t.txns = s.txns ∧ t.dram = s.dram ∧ t.scr = s.scr ∧
      t.dirEnt pa = s.dirEnt pa) ∧
    (s.Arrives k .rdOwn m p j x pa → Leads (.rdOwn k m .none) s fun t =>
      Answered s t p j m tyDataM .ok (bytesSlots 4 v.data) ∧ t.txns = s.txns ∧ t.dram = s.dram ∧ t.scr = s.scr ∧
      t.dirEnt pa = s.dirEnt pa) ∧
    (s.Arrives k .rdOnce m p j x pa → Leads (.rdOnce k m .none) s fun t =>
      Answered s t p j m tyDataU .ok (bytesSlots 4 v.data) ∧ t.txns = s.txns ∧ t.dram = s.dram ∧ t.scr = s.scr ∧
      t.dirEnt pa = s.dirEnt pa)

/-- R214–R216: writebacks by the owner of a Tracked line under the epoch in force: the line leaves the directory, WB_DIRTY
stores its data, WB_CLEAN leaves memory, and both are answered OK. -/
def Obligations.Writebacks : Prop :=
  (∀ (s : State) (k : Nat) (m : Msg) (p j : Nat) (x : Xl) (pa : Nat) (v : LineVal), s.Arrives k .wbDirty m p j x pa →
    x.leaf.cls = .tracked → m.info = s.effEpoch x.leaf.epoch → (s.dirEnt pa).at (lineIx pa) = (2, m.src) →
    s.view pa = some v →
    Leads (.wbDirty k m .none) s fun t =>
      t.view pa = some ⟨merged (BitVec.allOnes 64) v.data (m.bytes 2 4), m.poison⟩ ∧
      ((t.dirEnt pa).at (lineIx pa)).1 = 0 ∧ Answered s t p j m tyCmp .ok [] ∧ t.txns = s.txns ∧ MemKept s t pa) ∧
  (∀ (s : State) (k : Nat) (m : Msg) (p j : Nat) (x : Xl) (pa : Nat), s.Arrives k .wbClean m p j x pa →
    x.leaf.cls = .tracked → m.info = s.effEpoch x.leaf.epoch → (s.dirEnt pa).at (lineIx pa) = (2, m.src) →
    Leads (.wbClean k m .none) s fun t =>
      ((t.dirEnt pa).at (lineIx pa)).1 = 0 ∧ Answered s t p j m tyCmp .ok [] ∧ t.txns = s.txns ∧ t.dram = s.dram ∧
      t.scr = s.scr)

/-- R248–R250, R252, R253: an accepted PUBLISH flips the region's descriptor, is answered OK with the new version, and its
drain starts. -/
def Obligations.PublishFlipsDescriptor : Prop :=
  ∀ (s : State) (k : Nat) (m : Msg) (p i j : Nat) (x : Xl) (da : Nat) (v : LineVal), s.Passes k tyPublish m →
    m.resend = false → s.ded m.src m.srcGen m.tag = none → dedRoom s.dedup p = true → s.asidPart m.asid.toNat = some p →
    s.top.ready = true → s.partFenced p = false → s.msgFails m = false → s.earlyStatus .publish m = .ok → addrStatus m = .ok →
    s.parkFull 0 = false → (∀ u ∈ s.txns, u.sett = 0 → u.phase ≠ .ring ∧ (u.phase = .parked → da ∉ s.txnLines u)) →
    (s.police p k (16 * (m.body.length + 1)) 0 false).1 ≠ 2 → s.portFor m.src m.tag = some j → s.TxnsNumbered →
    s.lookup .fab 0 0 m.asid m.addr = some x → regionOf m.arg = some (p, i) → s.regionDesc p i = some da →
    s.Free 0 da → ((s.dirEnt da).at (lineIx da)).1 = 0 → s.view da = some v → v.data.length = 64 → v.poison = false →
    (∀ a, s.whereIs da = some (.dram a) → (s.cached a).isSome = true) →
    (let u : Txn := { s.txnOf k .publish m .none p with leaf := x.leaf, base := x.base, ver := x.ver }
     let pa := x.base + m.addr % pageBytes x.leaf.size
     s.pubEarly u da = .ok → s.pubStatus u v.data pa = .ok →
     Leads (.publish k m .none) s fun t =>
      t.view da = some ⟨pubFlip u v.data pa, false⟩ ∧
      Answered s t p j m tyCmp .ok [BitVec.ofNat 128 (BitVec.ofNat 32 (fld v.data 0 4 + 1)).toNat] ∧
      t.xlt.drains.length = s.xlt.drains.length + 1 ∧ t.txns = s.txns)

/-- R213, R214: an answer to a snoop that still waits for others: the node that answered is no longer waited for, SNP_DATA
stores the line's data first. -/
def Obligations.SnoopAnswers : Prop :=
  (∀ (s : State) (k : Nat) (m : Msg) (y : Snoop), s.Passes k tySnpAck m → m.tag.toNat / 4096 < 16 →
    (s.sett (m.tag.toNat / 4096)).snoops.find? (fun z => z.tag == m.tag) = some y → y.wait.contains m.src = true →
    (without y.wait m.src).isEmpty = false →
    Leads (.snpAck k m) s fun t =>
      (∀ z ∈ (t.sett (m.tag.toNat / 4096)).snoops, z.tag = m.tag → z.wait = without y.wait m.src) ∧
      t = { s with ports := t.ports, setts := t.setts }) ∧
  (∀ (s : State) (k : Nat) (m : Msg) (y : Snoop) (u : Txn) (v : LineVal), s.Passes k tySnpData m → m.tag.toNat / 4096 < 16 →
    (s.sett (m.tag.toNat / 4096)).snoops.find? (fun z => z.tag == m.tag) = some y → y.wait.contains m.src = true →
    (without y.wait m.src).isEmpty = false → s.txn y.txn = some u → u.line = y.line → u.ty = .rdShared →
    y.leaf.stor = y.leaf.view →
    s.storedLines y.leaf (y.line * 64 / pageBytes y.leaf.size * pageBytes y.leaf.size) (y.line * 64) = [y.line * 64] →
    s.counterOf (y.line * 64) = none → s.view (y.line * 64) = some v →
    v.data.length = 64 → (∀ a, s.whereIs (y.line * 64) = some (.dram a) → (s.cached a).isSome = true) →
    Leads (.snpData k m) s fun t =>
      (∀ z ∈ (t.sett (m.tag.toNat / 4096)).snoops, z.tag = m.tag → z.wait = without y.wait m.src) ∧
      t.view (y.line * 64) = some ⟨merged (BitVec.allOnes 64) v.data (m.bytes 1 4), m.poison⟩ ∧ MemKept s t (y.line * 64))

/-- R176, R199, R227: fabric-management messages: FM_NODE_DOWN marks the node dead, FM_NODE_UP records its new generation,
FM_ECHO is answered on its port, and FM_ECHO_RSP and every type the device does not receive are dropped and counted. -/
def Obligations.FabricManagement : Prop :=
  (∀ (s : State) (k : Nat) (m : Msg) (d : Node), s.Passes k tyFmDown m → s.fmgOk k m.src = true → d = BitVec.ofNat 21 (m.slot 1) →
    s.nodeKnown d = true → (s.node d).dead = false →
    (s.node d).relearn = true ∨ (s.node d).gen = BitVec.ofNat 8 (bitsOf (m.slot 1) 21 8) →
    (∀ n < 16, ∀ x ∈ (s.sett n).snoops, x.wait.contains d = false) →
    Leads (.fmNodeDown k m) s fun t => (t.node d).dead = true) ∧
  (∀ (s : State) (k : Nat) (m : Msg) (d : Node), s.Passes k tyFmUp m → s.fmgOk k m.src = true → d = BitVec.ofNat 21 (m.slot 1) →
    Leads (.fmNodeUp k m) s fun t =>
      t = { s with ports := t.ports, nodes := t.nodes } ∧ (∀ j, j ≠ k → t.port j = s.port j) ∧
      t.node d = { s.node d with gen := BitVec.ofNat 8 (bitsOf (m.slot 1) 21 8), dead := false, relearn := false } ∧
      ∀ e, e ≠ d → t.node e = s.node e) ∧
  (∀ (s : State) (k : Nat) (m : Msg), s.Passes k tyFmEcho m → s.fmgOk k m.src = true →
    Leads (.fmEcho k m) s fun t =>
      OnlyPort k s t ∧
      (t.port k).sent.length + (t.port k).txq.length = (s.port k).sent.length + (s.port k).txq.length + 1) ∧
  (∀ (s : State) (k : Nat) (m : Msg), s.Passes k tyFmEchoRsp m → s.fmgOk k m.src = true →
    Leads (.fmEchoRsp k m) s fun t => OnlyPort k s t ∧ (t.port k).unexpect = sat (s.port k).unexpect) ∧
  (∀ (s : State) (k : Nat) (ty : BitVec 6) (m : Msg), s.Passes k ty m → received ty = false → tyClass ty ≠ 5 →
    Leads (.unexpectedMessage k ty m) s fun t => OnlyPort k s t ∧ (t.port k).unexpect = sat (s.port k).unexpect)

/-- R182, R183, R218–R220, R225, R227, R237, R444, R445: the home's timers and sweeps: a parked request competes again, its
hold, starvation and limit, a snoop's timeout, the sweep of a dead node, and the ends of a deduplication entry's retention
and of the blocks. -/
def Obligations.HomeTimers : Prop :=
  (∀ (s : State) (u : Txn) (pa j : Nat) (x : Xl) (v : LineVal), s.txns = [u] → u.phase = .parked → u.kind = .fab → u.ty = .rdOnce →
    u.noise = .none → u.copies = [] → u.xst = .ok → s.routeFails u.fab.src = false → s.lookup .fab u.unit u.sett u.asid u.va = some x →
    x.leaf.cls = .priv →
    x.leaf.stor = x.leaf.view → s.storedLines x.leaf x.base u.va = [pa] → u.line = pa / 64 →
    s.leafStatus .fab .rdOnce u.op.toNat x.leaf [pa] = .ok → s.admission u.asid u.va u.fab.src = .ok →
    s.gateAdmits u.part = true → (s.sett u.sett).halted = false → s.bur.halted = false → (s.sett u.sett).insQ = [] →
    s.Free u.sett pa → (∀ a, s.whereIs pa = some (.dram a) → (s.cached a).isSome = true) → s.view pa = some v →
    v.data.length = 64 → s.portFor u.fab.src u.fab.tag = some j →
    Leads (.requestWake u.sett u.line) s fun t =>
      t.txns = [] ∧ t.dram = s.dram ∧ t.scr = s.scr ∧
      ∃ e : EgMsg, (t.pqos u.part j).egress = (s.pqos u.part j).egress ++ [e] ∧ e.m.ty = tyDataU ∧ e.m.tag = u.fab.tag ∧
        e.m.body = bytesSlots 4 v.data) ∧
  (∀ (s : State) (n line : Nat),
    Leads (.minHoldEnd n line) s fun t =>
      t = { s with setts := t.setts } ∧ (∀ m, m ≠ n → t.sett m = s.sett m) ∧
      ∀ h, h ∈ (t.sett n).holds ↔ h ∈ (s.sett n).holds ∧ ¬(h.1 = line ∧ h.2.1 + h.2.2 ≤ s.clk)) ∧
  (∀ (s : State) (n id : Nat) (u : Txn), s.txn id = some u → u.phase = .parked → u.sett = n →
    u.parkAt + 4 * max (s.sett n).hold.toNat 32 < s.clk →
    Leads (.requestStarved n id) s fun t =>
      t = { s with txns := t.txns } ∧ t.txn id = some { u with starved := true }) ∧
  (∀ (s : State) (n id : Nat) (u : Txn), s.txn id = some u → u.phase = .parked → u.sett = n → u.counted = false →
    u.parkAt + 64 * max (s.sett n).hold.toNat 32 ≤ s.clk →
    Leads (.starveCount n id) s fun t =>
      t = { s with txns := t.txns, setts := t.setts } ∧ (t.sett n).starves = sat (s.sett n).starves ∧
      ∀ m, m ≠ n → t.sett m = s.sett m) ∧
  (∀ (s : State) (n id : Nat) (u : Txn), s.txn id = some u → u.phase = .parked → u.sett = n → u.kind = .fab →
    u.charged = true → 1228800 + u.parkAt ≤ s.clk → (∀ v ∈ s.txns, v.sett = n → v.phase ≠ .ring) →
    Leads (.parkTimeout n id) s fun t =>
      t.txn id = none ∧ (t.sett n).parkTo = sat (s.sett n).parkTo ∧ t.dram = s.dram ∧ t.scr = s.scr) ∧
  (∀ (s : State) (tag : BitVec 16) (x : Snoop) (u : Txn), x.tag = tag →
    (s.sett (tag.toNat / 4096)).snoops.find? (fun y => y.tag == tag) = some x → x.lim * Config.usClk + x.since ≤ s.clk →
    x.mc = true → s.txn x.txn = some u → u.phase = .snoop → u.line = x.line → u.kind = .fab → u.ty = .rdShared →
    settOf (x.line * 64) = tag.toNat / 4096 → s.isPoisoned (x.line * 64) = false →
    ((s.sett (tag.toNat / 4096)).snoops.filter fun y => y.txn == x.txn) = [x] →
    Leads (.snoopTimeout tag) s fun t =>
      t.txn x.txn = none ∧ (∀ y ∈ (t.sett (tag.toNat / 4096)).snoops, y.txn ≠ x.txn) ∧
      ((t.dirEnt (x.line * 64)).at (lineIx (x.line * 64))).1 = 0 ∧
      (t.sett (tag.toNat / 4096)).snptos = sat (s.sett (tag.toNat / 4096)).snptos ∧
      (t.sett (tag.toNat / 4096)).poisons = sat (s.sett (tag.toNat / 4096)).poisons) ∧
  (∀ (s : State) (n b : Nat) (d : Node) (e : DirEnt), n < 16 → (s.sett n).sweep = some d → (s.sett n).sweepQ = [] →
    (s.sett n).dir = [(b, e)] → e.at 0 = (2, d) → s.busyLines.contains (lineAddr n b 0 / 64) = false →
    s.owl.swept = false →
    Leads (.deathSweepEnd n) s fun t =>
      (t.sett n).sweep = none ∧ ((t.dirEnt (lineAddr n b 0)).at 0).1 = 0 ∧ ∀ x ∈ (t.sett n).dir, d ∉ x.2.ptrs) ∧
  (∀ (s : State) (src : Node) (g : Byte) (tag : BitVec 16) (d : Ded), s.ded src g tag = some d → d.st = .done →
    153600 + d.at_ ≤ s.clk →
    Leads (.dedupEntryExpiry src g tag) s fun t => t = { s with dedup := t.dedup } ∧ t.ded src g tag = none) ∧
  (∀ (s : State) (src : Node) (g : Byte) (tag : BitVec 16) (d : Ded), s.ded src g tag = some d → d.st = .blocked →
    307200 + d.at_ ≤ s.clk →
    Leads (.dedupBlockEnd src g tag) s fun t =>
      t = { s with dedup := t.dedup } ∧ (∀ x ∈ s.dedup, x.st ≠ .blocked → x ∈ t.dedup) ∧
      ∀ x ∈ t.dedup, x.st = .blocked → x.isKey src g tag = false ∧ x.shares d = false) ∧
  (∀ (s : State) (w i : Nat), i < 4 → (s.node (BitVec.ofNat 21 (4 * w + i))).blocked = true →
    (s.node (BitVec.ofNat 21 (4 * w + i))).blockAt + 307200 ≤ s.clk →
    Leads (.nodeGenBlockEnd w) s fun t =>
      t = { s with nodes := t.nodes } ∧ t.node (BitVec.ofNat 21 (4 * w + i)) = { NodeG.reset with relearn := true })

/-! ### DRAM -/

/-- R390, R408, R409, R391, R419, R223: what becomes of the accesses that wait at a controller: a read returns and its request
is answered with the line, an access is withdrawn after 25 µs, a victim enters the write queue, a queued write is performed
in DRAM, and a batch of the read-modify-write unit ends. -/
def Obligations.DramAccesses : Prop :=
  (∀ (s : State) (u : Txn) (pa loc j : Nat), s.txns = [u] → u.phase = .dram → u.ty = .rdOnce → u.kind = .fab → u.copies = [] →
    s.routeFails u.fab.src = false → u.leaf.cls = .priv → u.leaf.stor = u.leaf.view → s.txnLines u = [pa] → s.firstRead u = some (pa, loc) →
    s.dramReady loc = true → (s.keyAt pa).isSome = true → s.queued loc = none → s.markAt loc = none →
    (s.dramLine loc pa).poison = false → s.held pa = none → s.whereIs pa = some (.dram pa) → s.locOf pa = some loc →
    s.portFor u.fab.src u.fab.tag = some j →
    Leads (.dramReadComplete u.id []) s fun t =>
      t.txns = [] ∧ t.dram = s.dram ∧ t.scr = s.scr ∧
      ∃ e : EgMsg, (t.pqos u.part j).egress = (s.pqos u.part j).egress ++ [e] ∧ e.m.ty = tyDataU ∧ e.m.tag = u.fab.tag ∧
        e.m.body = bytesSlots 4 (s.dramLine loc pa).data) ∧
  (∀ (s : State) (id c : Nat) (u : Txn), s.txn id = some u → s.accessSince u = some c → 60000 + c ≤ s.clk →
    (∀ o, (s.dirEnt (u.line * 64)).at (lineIx (u.line * 64)) = (2, o) → s.nodeDead o = false) →
    Leads (.dramAccessWithdrawn id) s fun t =>
      t.txn id = none ∧ t.dram = s.dram ∧ t.scr = s.scr ∧
      ∀ ch, ∀ r ∈ (t.chan ch).subA.rq ++ (t.chan ch).subB.rq, r.txn ≠ id) ∧
  (∀ (s : State) (n i loc : Nat) (v : Victim), (s.sett n).victims[i]? = some v → s.locOf (v.line * 64) = some loc →
    (s.chan (locChan loc)).st = .run → ((s.chan (locChan loc)).sub (locSub loc)).wq.length < 64 →
    ((s.sett n).victims.take i).any (fun x => x.line == v.line) = false → (s.sett n).insQ = [] →
    (∀ u ∈ s.txns, u.sett = n → u.phase ≠ .parked) →
    Leads (.victimQueued n i) s fun t =>
      t = { s with setts := t.setts, chans := t.chans, bur := t.bur } ∧ (t.sett n).victims = dropAt (s.sett n).victims i ∧
      ∃ w, t.queued loc = some w ∧ w.data = v.c.data ∧ w.poison = v.c.poison) ∧
  (∀ (s : State) (ch sub i : Nat) (w : DWrite), ((s.chan ch).sub sub).wq[i]? = some w → s.dramReady w.loc = true →
    s.nextColumn ch sub = some (.inr i) → (s.keyAt (w.line * 64)).isSome = true → Memory.wf s.dram = true →
    w.data.length = 64 →
    Leads (.dramWritePerformed ch sub i) s fun t =>
      cgets t.dram (w.loc / 64 * 64) 64 = w.data ∧ t.scr = s.scr ∧
      ∀ a, a / 64 ≠ w.loc / 64 → cget t.dram a = cget s.dram a) ∧
  (∀ (s : State) (u : Txn) (line loc : Nat) (o : RmwOp), s.locOf (line * 64) = some loc →
    (s.chan (locChan loc)).rmw = [o] → (s.chan (locChan loc)).rmwIn = [] → o.line = line → o.txn = u.id →
    s.dramReady loc = true → (s.keyAt (line * 64)).isSome = true → s.queued loc = none → s.markAt loc = none →
    (s.dramLine loc (line * 64)).poison = false → s.txns = [u] → u.kind = .fab → u.ty = .accWr → u.leaf.cls = .priv →
    u.poisonIn = false → s.counterOf (line * 64) = none → ((s.chan (locChan loc)).sub (locSub loc)).wq.length < 64 →
    s.rmwTurn line loc = true →
    Leads (.rmwBatchDone line []) s fun t =>
      t.txns = [] ∧ t.dram = s.dram ∧ t.scr = s.scr ∧ (t.chan (locChan loc)).rmw = [] ∧
      ∃ w, t.queued loc = some w ∧ w.data = accLine u.op.toNat (s.dramLine loc (line * 64)).data u.data ∧ w.poison = false)

/-- R407, R410–R412, R415, R416: aging, precharge, refresh, mode register 4, alerts and command-bus retraining. -/
def Obligations.DramUpkeep : Prop :=
  (∀ (s : State) (ch sub i : Nat) (r : DRead), ((s.chan ch).sub sub).rq[i]? = some r →
    r.since + (s.chan ch).memClk 2048 ≤ s.clk →
    Leads (.requestAged ch sub i) s fun t =>
      t = { s with chans := t.chans } ∧ ((t.chan ch).sub sub).rq[i]? = some { r with aged := true } ∧
      ((t.chan ch).sub sub).wq = ((s.chan ch).sub sub).wq) ∧
  (∀ (s : State) (ch sub rank bank : Nat), s.queuedLocs ch sub = [] →
    tget 0 ((s.chan ch).sub sub).usedAt (32 * rank + bank) + (s.chan ch).memClk ((s.chan ch).sched.toNat % 256) ≤ s.clk →
    Leads (.bankIdlePrecharge ch sub rank bank) s fun t =>
      t = { s with chans := t.chans } ∧ thas ((t.chan ch).sub sub).open_ (32 * rank + bank) = false) ∧
  (∀ (s : State) (ch sub rank b : Nat), (s.chan ch).st = .run → ((s.chan ch).sub sub).catrain = false → s.queuedLocs ch sub = [] →
    (refBanks rank b).any (thas ((s.chan ch).sub sub).open_) = false →
    tget 0 ((s.chan ch).sub sub).refAt (4 * rank + b) + (s.chan ch).refi rank ≤ s.clk →
    Leads (.refreshDue ch sub rank b) s fun t =>
      t = { s with chans := t.chans } ∧ tget 0 ((t.chan ch).sub sub).unref (4 * rank + b) = 0 ∧
      tget 0 ((t.chan ch).sub sub).refAt (4 * rank + b) = s.clk) ∧
  (∀ (s : State) (ch sub rank b : Nat), (s.chan ch).st = .run → (refBanks rank b).any (thas ((s.chan ch).sub sub).open_) = true →
    tget 0 ((s.chan ch).sub sub).refAt (4 * rank + b) + (s.chan ch).refi rank ≤ s.clk →
    Leads (.refreshDue ch sub rank b) s fun t =>
      t = { s with chans := t.chans } ∧
      tget 0 ((t.chan ch).sub sub).unref (4 * rank + b) = tget 0 ((s.chan ch).sub sub).unref (4 * rank + b) + 1) ∧
  (∀ (s : State) (ch sub rank b : Nat), (s.chan ch).st = .run → ((s.chan ch).sub sub).catrain = false →
    4 ≤ tget 0 ((s.chan ch).sub sub).unref (4 * rank + b) →
    Leads (.refreshForced ch sub rank b) s fun t =>
      t = { s with chans := t.chans } ∧ tget 0 ((t.chan ch).sub sub).unref (4 * rank + b) = 0 ∧
      (refBanks rank b).any (thas ((t.chan ch).sub sub).open_) = false ∧
      (t.chan ch).refForced = sat (s.chan ch).refForced) ∧
  (∀ (s : State) (ch rank : Nat) (d : Bool), (s.chan ch).st = .run → (s.chan ch).catrain = false →
    (s.chan ch).replays 0 s.clk = false → (s.chan ch).replays 1 s.clk = false →
    2400000 + (tget RankS.reset (s.chan ch).ranks rank).mr4At ≤ s.clk →
    Leads (.mr4Poll ch rank d) s fun t =>
      t = { s with chans := t.chans } ∧ (tget RankS.reset (t.chan ch).ranks rank).doubled = d) ∧
  (∀ (s : State) (ch sub : Nat), (s.chan ch).st = .run → ((s.chan ch).sub sub).catrain = false →
    (∀ x ∈ ((s.chan ch).sub sub).retry, (s.chan ch).young s.clk x = true) →
    Leads (.dramAlert ch sub) s fun t =>
      t = { s with chans := t.chans } ∧
      (t.chan ch).sub sub = { (s.chan ch).reissued ((s.chan ch).sub sub) s.clk with alerts := ((s.chan ch).sub sub).alerts + 1 } ∧
      ((t.chan ch).sub sub).retry = ((s.chan ch).sub sub).retry.map (fun x => (x.1, s.clk)) ∧
      (((s.chan ch).sub sub).retry = [] → ((t.chan ch).sub sub).open_ = []) ∧
      (t.chan ch).alerts = sat (s.chan ch).alerts ∧ (t.chan ch).retrying = true) ∧
  (∀ (s : State) (ch : Nat), (s.chan ch).st = .run → (s.chan ch).subA.catrain = false →
    (s.chan ch).retryLimit ≤ (s.chan ch).subA.alerts → (s.chan ch).subA.retrained = false →
    (s.chan ch).subB.alerts < (s.chan ch).retryLimit →
    Leads (.caRetrainStart ch) s fun t =>
      t = { s with chans := t.chans } ∧
      (t.chan ch).subA = { (s.chan ch).subA with catrain := true, catAt := s.clk, alerts := 0 } ∧
      (t.chan ch).subB = (s.chan ch).subB ∧ (t.chan ch).catrains = sat (s.chan ch).catrains) ∧
  (∀ (s : State) (ch : Nat), (s.chan ch).subA.catrain = true → (s.chan ch).subB.catrain = false → (s.chan ch).hold = false →
    Leads (.caRetrainEnd ch true) s fun t =>
      t = { s with chans := t.chans } ∧ (t.chan ch).subB = (s.chan ch).subB ∧ (t.chan ch).subA =
        { (s.chan ch).reissued (s.chan ch).subA s.clk with catrain := false, retrained := true, retired := 0 })

/-- R413, R422–R425, R430, R431, R437: the keyed writes of DRC (hold, timing, the start of a migration), the triggers of a
migration, a mark, and a chunk copied to the spare. -/
def Obligations.DramCommands : Prop :=
  (∀ (s : State) (ch : Nat), ch < 32 → s.CanKey .owl (drcOff ch 0x10) → (s.chan ch).hold = false → (s.chan ch).st = .run →
    s.canDrain ch = true →
    Leads (.drcHold ch true) s fun t => (t.chan ch).hold = true ∧ (t.chan ch).st = .held) ∧
  (∀ (s : State) (ch : Nat), ch < 32 → s.CanKey .owl (drcOff ch 0x10) → (s.chan ch).hold = true → (s.chan ch).st = .held →
    Leads (.drcHold ch false) s fun t =>
      t = { s with arms := t.arms, chans := t.chans, scrubs := t.scrubs } ∧ (t.chan ch).hold = false ∧ (t.chan ch).st = .run) ∧
  (∀ (s : State) (ch r : Nat) (v : W32), ch < 32 → r < 4 → s.CanKey .owl (drcOff ch (0x20 + 4 * r)) → (s.chan ch).st = .held →
    (s.chan ch).tim.length = 4 →
    Leads (.drcTimingWrite ch r v) s fun t =>
      t = { s with arms := t.arms, chans := t.chans } ∧ (t.chan ch).tim[r]? = some v ∧
      ∀ i, i ≠ r → (t.chan ch).tim[i]? = (s.chan ch).tim[i]?) ∧
  (∀ (s : State) (ch r : Nat) (v : W32), ch < 32 → r < 4 → s.CanKey .owl (drcOff ch (0x20 + 4 * r)) → (s.chan ch).st ≠ .held →
    Leads (.drcTimingWrite ch r v) s fun t =>
      t = { s with arms := t.arms, chans := t.chans } ∧ (t.chan ch).tim = (s.chan ch).tim ∧
      (t.chan ch).timRefused = sat (s.chan ch).timRefused) ∧
  (∀ (s : State) (ch : Nat) (r : BitVec 2), ch < 32 → s.CanKey .owl (drcOff ch 0x3C) → (s.chan ch).spareCheck r.toNat = 1 →
    Leads (.spareCmdGo ch r) s fun t =>
      t = { s with arms := t.arms, chans := t.chans } ∧ (t.chan ch).migr = some (r.toNat, 0) ∧ (t.chan ch).spareRes = 1) ∧
  (∀ (s : State) (ch r : Nat), (s.chan ch).auto_ = true →
    (s.chan ch).spareCfg.toNat % 65536 ≤ ((s.chan ch).within s.clk (tget RankS.reset (s.chan ch).ranks r).ce).length →
    (s.chan ch).spareCheck r = 1 →
    Leads (.ceLimitReached ch r) s fun t =>
      t = { s with chans := t.chans } ∧ (t.chan ch).migr = some (r, 0) ∧ (tget RankS.reset (t.chan ch).ranks r).ce = []) ∧
  (∀ (s : State) (ch r d : Nat) (b : Bool),
    b = true ∨ 8 ≤ ((s.chan ch).within s.clk (tget [] (tget RankS.reset (s.chan ch).ranks r).devCor d)).length →
    (tget RankS.reset (s.chan ch).ranks r).markA = none →
    Leads (.deviceMark ch r 0 d b) s fun t =>
      t = { s with chans := t.chans, owl := t.owl, flash := t.flash } ∧
      (tget RankS.reset (t.chan ch).ranks r).markA = some d) ∧
  (∀ (s : State) (ch f n : Nat), (s.chan ch).migr = some (f, n) → (s.chan ch).st = .run → (s.chan ch).migPaused = false →
    (s.chan ch).catrain = false → (s.chan ch).replays 0 s.clk = false → (s.chan ch).replays 1 s.clk = false →
    (s.chan ch).hold = false → n + 1 < 65536 * (s.chan ch).dimm.rankGib.toNat → Memory.wf s.dram = true →
    Leads (.migrationChunkDone ch [] false) s fun t =>
      (t.chan ch).migr = some (f, n + 1) ∧ t.scr = s.scr ∧
      (∀ i < 16384, cget t.dram (locKey ch (s.chan ch).spare.toNat (16384 * n) + i) =
        cget s.dram (locKey ch f (16384 * n) + i)) ∧
      ∀ a, a < locKey ch (s.chan ch).spare.toNat (16384 * n) ∨ locKey ch (s.chan ch).spare.toNat (16384 * n) + 16384 ≤ a →
        cget t.dram a = cget s.dram a)

/-- R450–R453: the scrubbers: an undisturbed read moves on to the line after it, a starved millisecond is counted, and a lap beyond
lap_limit is logged once. -/
def Obligations.Scrubbers : Prop :=
  (∀ (s : State) (ch r k lpr : Nat) (b : BitVec 80), ch < 32 → s.top.ready = true → (s.chan ch).st = .run →
    (s.chan ch).catrain = false → lpr = gib * (s.chan ch).dimm.rankGib.toNat / 64 →
    (s.chan ch).scrubAt (s.scrub ch).pos lpr = some (r, k) → ((s.chan ch).scrubAt (r * lpr + k + 1) lpr).isSome = true →
    (∀ j < 2, ((s.chan ch).sub j).rq = [] ∧ ((s.chan ch).sub j).wq = []) → (∀ loc, s.markAt loc = none) →
    (∀ d, (s.scrub ch).due d ((s.chan ch).memClk s.owl.scrubInt.toNat) s.clk = true) →
    Leads (.scrubRead ch [] b) s fun t =>
      t = { s with scrubs := t.scrubs } ∧ (t.scrub ch).pos = r * lpr + k + 1 ∧ (t.scrub ch).laps = (s.scrub ch).laps) ∧
  (∀ (s : State) (l : List (Nat × Byte)), s.top.ready = true → (s.scrub 32).pos + 1 < 67108864 →
    (s.scrub 32).due ((s.scrub 32).pos % 4) s.owl.burInt.toNat s.clk = true →
    Leads (.scrubRead 32 l 0) s fun t =>
      t = { s with scrubs := t.scrubs } ∧ (t.scrub 32).pos = (s.scrub 32).pos + 1 ∧ (t.scrub 32).laps = (s.scrub 32).laps) ∧
  (∀ (s : State) (u : Nat), s.top.ready = true → s.scrubState u = 0 → 2400000 + (s.scrub u).idleAt ≤ s.clk →
    Leads (.scrubStarvedInterval u) s fun t =>
      t = { s with scrubs := t.scrubs } ∧ (t.scrub u).starved = sat (s.scrub u).starved) ∧
  (∀ (s : State) (u : Nat), s.owl.lapLimit ≠ 0 → (s.scrub u).lapLogged = false →
    2400000000 * s.owl.lapLimit.toNat + (s.scrub u).lapAt < (s.scrub u).pausedAt.getD s.clk →
    Leads (.scrubLapLimit u) s fun t =>
      t = { s with scrubs := t.scrubs, owl := t.owl } ∧ (t.scrub u).lapLogged = true)


/-! ### Translation and invalidation -/

/-- R277, R278, R279, R284: the end of a walk: its leaf enters the overflow cache; or its status, or TIMEOUT after walk_to,
answers the request that waited for it. -/
def Obligations.WalkEnds : Prop :=
  (∀ (s : State) (w : Walk) (x : Xl), s.xlt.walk = [w] → s.overtaken w = false → s.walkers w.asid w.page = [] →
    s.walkDesc w.asid (mib2 * w.page) = none →
    s.walkFor w.asid (mib2 * w.page) = .ok x →
    Leads (.walkComplete w.asid w.page) s fun t =>
      t = { s with xlt := t.xlt } ∧ t.xlt.walk = [] ∧ t.xlt.walks = sat s.xlt.walks ∧
      t.xlt.oc = tcPut 1048576 s.xlt.oc x) ∧
  (∀ (s : State) (w : Walk), s.xlt.walk = [w] → w.stale = true →
    Leads (.walkComplete w.asid w.page) s fun t =>
      t = { s with xlt := t.xlt } ∧ t.xlt.walk = [{ w with stale := false, since := s.clk }] ∧ t.xlt.oc = s.xlt.oc) ∧
  (∀ (s : State) (w : Walk) (u : Txn) (st : Status) (j : Nat), s.xlt.walk = [w] → s.overtaken w = false → s.txns = [u] →
    s.walkers w.asid w.page = [u.id] → s.walkDesc w.asid (mib2 * w.page) = none →
    s.walkFor w.asid (mib2 * w.page) = .error st → u.kind = .fab → u.ty = .rdShared →
    u.copies = [] → s.routeFails u.fab.src = false → (s.countFault u.asid).admission u.asid u.va u.fab.src = .ok →
    s.portFor u.fab.src u.fab.tag = some j →
    Leads (.walkComplete w.asid w.page) s fun t =>
      t.xlt.walk = [] ∧ t.txns = [] ∧ t.xlt.oc = s.xlt.oc ∧
      ∃ e : EgMsg, (t.pqos u.part j).egress = (s.pqos u.part j).egress ++ [e] ∧ e.m.ty = tyCmp ∧ e.m.tag = u.fab.tag ∧
        e.m.info = BitVec.ofNat 16 st.code.toNat) ∧
  (∀ (s : State) (w : Walk) (u : Txn) (j : Nat), s.xlt.walk = [w] → s.txns = [u] → s.walkers w.asid w.page = [u.id] →
    max 1 s.xlt.walkTo.toNat * Config.usClk + w.since ≤ s.clk → u.kind = .fab → u.ty = .rdShared → u.copies = [] →
    s.routeFails u.fab.src = false → (s.countFault u.asid).admission u.asid u.va u.fab.src = .ok →
    s.portFor u.fab.src u.fab.tag = some j →
    Leads (.walkTimeout w.asid w.page) s fun t =>
      t.xlt.walk = [] ∧ t.txns = [] ∧ t.xlt.walkto = sat s.xlt.walkto ∧
      ∃ e : EgMsg, (t.pqos u.part j).egress = (s.pqos u.part j).egress ++ [e] ∧ e.m.ty = tyCmp ∧ e.m.tag = u.fab.tag ∧
        e.m.info = BitVec.ofNat 16 Status.timeout.code.toNat)

/-- R253, R287–R291, R294: invalidations: XLT_INV starts one, a unit that receives it drops the entries it names, units
report drained, the last report ends it, and drain_to fences the engine that has not reported; a publication's ends with
draining cleared in the region's descriptor. -/
def Obligations.Invalidations : Prop :=
  (∀ (s : State) (n : BitVec 24), s.CanKey .owl 0x600018 → s.xlt.go = false →
    Leads (.xltInvAsid n) s fun t =>
      t = { s with arms := t.arms, xlt := t.xlt } ∧ t.xlt.go = true ∧ t.xlt.region = false ∧ t.xlt.target = n ∧
      t.xlt.done = false ∧ t.xlt.drains.length = s.xlt.drains.length + 1) ∧
  (∀ (s : State) (n : BitVec 24), s.CanKey .owl 0x600018 → s.xlt.go = false →
    Leads (.xltInvRegion n) s fun t =>
      t = { s with arms := t.arms, xlt := t.xlt } ∧ t.xlt.go = true ∧ t.xlt.region = true ∧ t.xlt.target = n ∧
      t.xlt.done = false ∧ t.xlt.drains.length = s.xlt.drains.length + 1) ∧
  (∀ (s : State) (n id : Nat) (d : Drain), n < 16 → s.drain id = some d → d.got.contains (.sett n) = false →
    (∀ x ∈ s.earlier d, x.got.contains (.sett n) = true) →
    Leads (.invalidationReceive (.sett n) id) s fun t =>
      t = { s with setts := t.setts, xlt := t.xlt } ∧ (∀ m, m ≠ n → t.sett m = s.sett m) ∧
      (∀ x, x ∈ (t.sett n).tc ↔ x ∈ (s.sett n).tc ∧ d.hits x.asid x.leaf = false) ∧
      ∃ e, t.drain id = some e ∧ e.got.contains (.sett n) = true ∧
        ∀ u ∈ s.txns, u.issuer = .sett n → d.waitsFor u = true → u.id ∈ e.txns) ∧
  (∀ (s : State) (n id : Nat) (d : Drain), n < 64 → s.drain id = some d → d.got.contains (.engine n) = false →
    (∀ x ∈ s.earlier d, x.got.contains (.engine n) = true) →
    Leads (.invalidationReceive (.engine n) id) s fun t =>
      t = { s with engines := t.engines, xlt := t.xlt } ∧
      ∀ x, x ∈ (t.eng n).tc ↔ x ∈ (s.eng n).tc ∧ d.hits x.asid x.leaf = false) ∧
  (∀ (s : State) (id : Nat) (d : Drain), s.drain id = some d → d.got.contains .overflow = false → d.region = false →
    (∀ x ∈ s.earlier d, x.got.contains .overflow = true) →
    Leads (.invalidationReceive .overflow id) s fun t =>
      t = { s with xlt := t.xlt } ∧ ∀ x, x ∈ t.xlt.oc ↔ x ∈ s.xlt.oc ∧ d.hits x.asid x.leaf = false) ∧
  (∀ (s : State) (id : Nat) (d : Drain), s.drain id = some d → d.got.contains .overflow = true →
    d.rep.contains .overflow = false → s.allDrained { d with rep := d.rep ++ [.overflow] } = false →
    (∀ x ∈ s.earlier d, x.rep.contains .overflow = true) → (∀ x ∈ s.xlt.drains, x.id ≠ id → s.allDrained x = false) →
    Leads (.overflowSweepEnd id) s fun t =>
      t = { s with xlt := t.xlt } ∧ t.drain id = some { d with rep := d.rep ++ [.overflow] }) ∧
  (∀ (s : State) (u : InvUnit) (id : Nat) (d : Drain), s.drain id = some d → d.init = 1 → d.timedOut = false →
    s.drained d u = true → d.rep.contains u = false → s.allDrained { d with rep := d.rep ++ [u] } = true → s.earlier d = [] →
    (∀ x ∈ s.xlt.drains, x.id ≠ id → s.allDrained x = false) →
    Leads (.drainReport u id) s fun t =>
      t = { s with xlt := t.xlt } ∧ t.drain id = none ∧ t.xlt.go = false ∧ t.xlt.done = true ∧
      t.xlt.status = Status.ok.code ∧ t.xlt.invs = sat s.xlt.invs) ∧
  (∀ (s : State) (id e : Nat) (d : Drain), s.drain id = some d → d.timedOut = false → e < 64 →
    s.drainTo * Config.usClk + d.since ≤ s.clk → (∀ k < 64, s.countsDrained d (.engine k) = decide (k ≠ e)) →
    (∀ x ∈ s.xlt.drains, x.id ≠ id → s.allDrained x = false) →
    (s.eng e).st = .running →
    Leads (.invalidationDrainTimeout id) s fun t =>
      t = { s with engines := t.engines, xlt := t.xlt } ∧ t.drain id = some { d with timedOut := true } ∧
      (t.eng e).fencing = true ∧ (t.eng e).st = .resetting ∧ ∀ k, k ≠ e → t.eng k = s.eng k) ∧
  (∀ (s : State) (region : BitVec 24) (d : Drain) (p i da : Nat) (v : LineVal),
    (s.xlt.drains.find? fun d => d.region && decide (d.init = 2) && d.target == region.toNat) = some d →
    s.allDrained d = true → s.earlier d = [] → (∀ x ∈ s.xlt.drains, x.id ≠ d.id → s.allDrained x = false) →
    d.timedOut = false → regionOf region = some (p, i) → s.regionDesc p i = some da →
    s.view da = some v → v.data.length = 64 → (s.sett 0).pair ≠ .lost → da % 64 = 0 → s.lineStatus da = .ok →
    ((s.dirEnt da).at (lineIx da)).1 = 0 → s.Free (settOf da) da → (∀ u ∈ s.txns, u.kind = .dev → u.line ≠ da / 64) →
    s.TxnsNumbered → (∀ a, s.whereIs da = some (.dram a) → (s.cached a).isSome = true) →
    Leads (.regionDrainComplete region) s fun t =>
      t.drain d.id = none ∧ t.xlt.invs = sat s.xlt.invs ∧ MemKept s t da ∧
      t.view da = some ⟨overlay v.data 4 [BitVec.ofNat 8 (fld v.data 4 1 &&& 0xFD)], v.poison⟩)

/-! ### Partitions -/

/-- R115–R119, R121, R122, R489, R495: holds, draining and the reset of a partition. -/
def Obligations.Partitions : Prop :=
  (∀ (s : State) (p : Nat), p < 32 → s.CanPage .owl p 0x104 → (s.part p).st = .run →
    Leads (.partOpHold .owl p true) s fun t =>
      t = { s with arms := t.arms, parts := t.parts } ∧ (t.part p).st = .draining ∧ (t.part p).opHold = true ∧
      (t.part p).drainAt = s.clk ∧ ∀ k, k ≠ p → t.part k = s.part k) ∧
  (∀ (s : State) (p : Nat) (v : Bool), p < 32 → s.CanPage .owl p 0x104 → (s.part p).tenantHold = false →
    (s.part p).secBad = false → s.scrubbing p = false → (s.part p).st = .draining ∨ (s.part p).st = .quiesced →
    Leads (.partOpHold .owl p v) s fun t =>
      (t.part p).opHold = v ∧ (t.part p).st = (if v then (s.part p).st else .run)) ∧
  (∀ (s : State) (p : Nat) (v : Bool), p < 32 → s.CanPage (.host p) p 0x104 → (s.part p).secBad = false →
    Leads (.partOpHold (.host p) p v) s fun t => (t.part p).opHold = (s.part p).opHold) ∧
  (∀ (s : State) (path : Path) (p : Nat), p < 32 → s.CanPage path p 0x104 → (s.part p).st = .run →
    Leads (.partTenantHold path p true) s fun t =>
      t = { s with arms := t.arms, parts := t.parts } ∧ (t.part p).st = .draining ∧ (t.part p).tenantHold = true ∧
      ∀ k, k ≠ p → t.part k = s.part k) ∧
  (∀ (s : State) (p : Nat), (s.part p).st = .draining → s.running p = false → (∀ u ∈ s.txns, u.part ≠ p) →
    (∀ e x, (e, x) ∈ s.engines → s.engPart e = some p → x.staged = none) → s.owl.transit = false → s.sec.wipeRun = false →
    Leads (.partitionQuiesced p) s fun t =>
      t = { s with parts := t.parts } ∧ (t.part p).st = .quiesced ∧ ∀ k, k ≠ p → t.part k = s.part k) ∧
  (∀ (s : State) (p : Nat), (s.part p).st = .draining → (s.part p).rec10 = false → Config.ms10Clk + (s.part p).drainAt < s.clk →
    Leads (.partDraining10ms p) s fun t =>
      t = { s with parts := t.parts, owl := t.owl } ∧ (t.part p).rec10 = true ∧
      (t.part p).st = .draining) ∧
  (∀ (s : State) (p : Nat), (s.part p).st = .draining → (s.part p).rec100 = false →
    10 * Config.ms10Clk + (s.part p).drainAt ≤ s.clk →
    Leads (.partDraining100ms p) s fun t =>
      t = { s with parts := t.parts, engines := t.engines, owl := t.owl } ∧ (t.part p).rec100 = true ∧
      ∀ e, (s.eng e).st = .running → s.engPart e = some p → (t.eng e).st = .resetting ∧ (t.eng e).gen = (s.eng e).gen + 1) ∧
  (∀ (s : State) (path : Path) (p : Nat) (r : PartRec), p < 32 → s.CanPage path p 0x108 → s.prec p = some r → r.compat = true →
    (s.part p).st = .quiesced →
    Leads (.partReset path p) s fun t =>
      (t.part p).st = .resetting ∧ (t.part p).resetReq = true ∧
      ∀ e < 64, r.engines.getLsbD e = true → (t.eng e).st = .resetting ∨ (t.eng e).st = .fenced) ∧
  (∀ (s : State) (path : Path) (p : Nat), p < 32 → s.CanPage path p 0x108 → (s.part p).st ≠ .quiesced →
    (s.part p).ring.on = false →
    Leads (.partReset path p) s fun t =>
      t = { s with arms := t.arms, parts := t.parts, owl := t.owl } ∧ (t.part p).st = (s.part p).st) ∧
  (∀ (s : State) (p : Nat) (r : PartRec), s.prec p = some r → (s.part p).st = .resetting →
    (∀ e < 64, r.engines.getLsbD e = true → (s.eng e).st ≠ .resetting) → (s.part p).opHold = true →
    Leads (.partitionResetDone p) s fun t =>
      (t.part p).st = .quiesced ∧ (t.part p).resetReq = false ∧ (t.part p).gen = (s.part p).gen + 1 ∧
      (r.queueCount = 0 → r.fenced = false → ∀ o, s.scrBase p ≤ o → o < s.scrBase p + s.scrQuota p → cget t.scr o = 0))

/-- R396–R400, R454, R457–R459: a partition's Burrow extension and event ring: a setting that passes its checks takes
effect, one that fails is refused and counted. -/
def Obligations.ExtensionAndEventRing : Prop :=
  (∀ (s : State) (p : Nat), p < 32 → s.CanKey .owl (0x701008 + 16 * p) → s.extResult p = 1 →
    Leads (.extensionApply p) s fun t =>
      t = { s with arms := t.arms, parts := t.parts } ∧ (t.part p).ext.base = (s.part p).ext.stBase.toNat ∧
      (t.part p).ext.size = (s.part p).ext.stSize.toNat ∧ (t.part p).ext.result = 1) ∧
  (∀ (s : State) (p : Nat), p < 32 → s.CanKey .owl (0x701008 + 16 * p) → s.extResult p ≠ 1 →
    Leads (.extensionApply p) s fun t =>
      t = { s with arms := t.arms, parts := t.parts, bur := t.bur } ∧ (t.part p).ext.base = (s.part p).ext.base ∧
      (t.part p).ext.size = (s.part p).ext.size ∧ (t.part p).ext.result = BitVec.ofNat 4 (s.extResult p) ∧
      t.bur.extRefused = sat s.bur.extRefused) ∧
  (∀ (s : State) (path : Path) (p n base : Nat) (v : W32), p < 32 → s.CanPage path p 0x6008 → n = v.toNat % 32 → 4 ≤ n → n ≤ 16 →
    base = (s.part p).ring.baseLo.toNat + 2 ^ 32 * (s.part p).ring.baseHi.toNat → base % (32 * 2 ^ n) = 0 →
    s.inOneExtent p base (32 * 2 ^ n) = true → s.meetsSpecial p base (32 * 2 ^ n) = false →
    Leads (.eventRingConfig path p v) s fun t =>
      t = { s with arms := t.arms, parts := t.parts } ∧ (t.part p).ring.on = true ∧ (t.part p).ring.base = base ∧
      (t.part p).ring.log2.toNat = n ∧ (t.part p).ring.prod = 0 ∧ (t.part p).ring.cons = 0) ∧
  (∀ (s : State) (path : Path) (p : Nat) (v : W32), p < 32 → s.CanPage path p 0x6008 → 0 < v.toNat % 32 →
    v.toNat % 32 < 4 ∨ 16 < v.toNat % 32 →
    Leads (.eventRingConfig path p v) s fun t =>
      t = { s with arms := t.arms, parts := t.parts } ∧ (t.part p).ring.refused = sat (s.part p).ring.refused ∧
      (t.part p).ring.on = (s.part p).ring.on ∧ (t.part p).ring.base = (s.part p).ring.base) ∧
  (∀ (s : State) (path : Path) (p : Nat) (v : W32), p < 32 → s.pathUp path = true → Path.toPage path p = true →
    (s.part p).ring.on = true →
    Leads (.eventConsumerWrite path p v) s fun t =>
      t = { s with parts := t.parts } ∧ (∀ k, k ≠ p → t.part k = s.part k) ∧
      (if 2 ^ (s.part p).ring.log2.toNat < ((s.part p).ring.prod - v).toNat
       then (t.part p).ring.cons = (s.part p).ring.cons ∧ (t.part p).ring.refused = sat (s.part p).ring.refused
       else (t.part p).ring.cons = v ∧ (t.part p).ring.refused = (s.part p).ring.refused))

/-! ### Queues -/

/-- R323, R327, R328, R343–R346, R350–R352: the life of a work queue: enabling, disabling and reset, a wake, a fetched
descriptor, a hand-over and a dispatch. -/
def Obligations.WorkQueues : Prop :=
  (∀ (s : State) (path : Path) (p o q a : Nat) (r : PartRec) (l : Bytes), p < 32 → o < 4096 → s.pathUp path = true →
    Path.toPage path p = true → s.prec p = some r → o < r.queueCount → q = r.queueBase + o → (s.queue q).en = false →
    (s.queue q).err = 0 → s.qEntry q = some a → s.devRead a 64 = (l, .ok) →
    Leads (.queueEnable path p o) s fun t =>
      t = { s with queues := t.queues } ∧ (∀ k, k ≠ q → t.queue k = s.queue k) ∧ (t.queue q).en = true ∧
      (s.qCheck p l ≠ 0 → (t.queue q).err = s.qCheck p l ∧ (t.queue q).cfg = (s.queue q).cfg) ∧
      (s.qCheck p l = 0 → (t.queue q).cfg = some (qCfgOf l) ∧ (t.queue q).head = BitVec.ofNat 32 (fld l 24 4) ∧
        (t.queue q).cmpCount = BitVec.ofNat 32 (fld l 28 4))) ∧
  (∀ (s : State) (path : Path) (p o q : Nat) (r : PartRec), p < 32 → o < 4096 → s.pathUp path = true →
    Path.toPage path p = true → s.prec p = some r → o < r.queueCount → q = r.queueBase + o → (s.queue q).en = true →
    (∀ x ∈ s.engines, x.2.staged.all (fun y => y.1 != q) = true) → (s.queue q).toRead = [] → (s.queue q).ready = [] → (s.queue q).hand = [] →
    (s.queue q).chainRd = [] →
    Leads (.queueDisable path p o) s fun t =>
      t = { s with queues := t.queues } ∧ t.queue q = { s.queue q with en := false, wake := false } ∧
      ∀ k, k ≠ q → t.queue k = s.queue k) ∧
  (∀ (s : State) (path : Path) (p o q va pa : Nat) (r : PartRec) (c : QCfg) (x : Xl) (v : LineVal) (d : Desc), p < 32 → o < 4096 →
    s.pathUp path = true → Path.toPage path p = true → s.prec p = some r → o < r.queueCount → q = r.queueBase + o →
    (s.queue q).en = true → (∀ x ∈ s.engines, x.2.staged.all (fun y => y.1 != q) = true) → (s.queue q).toRead = [] → (s.queue q).ready = [d] →
    (s.queue q).hand = [] → (s.queue q).chainRd = [] → s.RecordRoom q c x va pa v →
    Leads (.queueDisable path p o) s fun t =>
      (t.queue q).en = false ∧ (t.queue q).ready = [] ∧ (t.queue q).cmpCount = (s.queue q).cmpCount + 1 ∧
      t.view pa = some ⟨merged (lineMask (va % 64) 32) v.data (overlay (List.replicate 64 0) (va % 64)
        (recordBytes (s.queue q).cmpCount.toNat c.cmpLog2 ⟨.cancelled, false, 0, 0⟩ d 0xFF Status.cancelled.code)), false⟩) ∧
  (∀ (s : State) (path : Path) (p q a : Nat) (o : BitVec 12) (r : PartRec) (bs : Bytes), p < 32 → s.CanPage path p 0x1200 →
    s.prec p = some r → o.toNat < r.queueCount → q = r.queueBase + o.toNat → (s.queue q).en = false →
    (s.queue q).open_ = 0 → s.qEntry q = some a → s.devRead (a + 64) 4 = (bs, .ok) →
    Leads (.queueReset path p o) s fun t =>
      t.queue q = { s.queue q with err := 0, head := BitVec.ofNat 32 (fld bs 0 4)
                                   producer := BitVec.ofNat 32 (fld bs 0 4), toRead := [] } ∧
      ∀ k, k ≠ q → t.queue k = s.queue k) ∧
  (∀ (s : State) (q a : Nat) (c : QCfg) (bs : Bytes) (pr co : W32), (s.queue q).wake = true → s.fetches q = true →
    s.qEntry q = some a → (s.queue q).cfg = some c → s.devRead (a + 64) 8 = (bs, .ok) →
    pr = BitVec.ofNat 32 (fld bs 0 4) → co = BitVec.ofNat 32 (fld bs 4 4) →
    (pr - (s.queue q).head).toNat ≤ 2 ^ c.descLog2 → ((s.queue q).cmpCount - BitVec.ofNat 32 (s.recPending q) - co).toNat ≤ 2 ^ c.cmpLog2 →
    Leads (.queueWake q) s fun t =>
      t = { s with queues := t.queues } ∧ (t.queue q).wake = false ∧ (t.queue q).producer = pr ∧
      (t.queue q).consumer = co ∧ (t.queue q).err = 0 ∧
      (t.queue q).toRead.length + (t.queue q).ready.length ≤ max 8 ((s.queue q).toRead.length + (s.queue q).ready.length) ∧
      ∀ k, k ≠ q → t.queue k = s.queue k) ∧
  (∀ (s : State) (q : Nat) (c : QCfg) (i : W32) (rest : List W32) (bs : Bytes), (s.queue q).toRead = i :: rest →
    (s.queue q).cfg = some c → (s.queue q).err = 0 →
    s.schedRead c.asid (c.descBase + 64 * (i.toNat % 2 ^ c.descLog2)) = .data bs →
    Leads (.descriptorFetched q) s fun t =>
      t.queue q = { s.queue q with toRead := rest, head := i + 1, taken := (s.queue q).taken + 1
                                   ready := (s.queue q).ready ++ [{ bytes := bs, index := i, no := (s.queue q).taken }] } ∧
      ∀ k, k ≠ q → t.queue k = s.queue k) ∧
  (∀ (s : State) (q p line chain : Nat) (g : Byte) (rest : List (Nat × Nat × Byte)),
    (s.queue q).inbox = (line, chain, g) :: rest → s.queuePart q = some p → (s.part p).gen = g →
    Leads (.handOver q) s fun t =>
      (t.queue q).inbox = rest ∧
      (t.queue q).hand = (if s.handStatus p q = .ok then (s.queue q).hand ++ [chain] else (s.queue q).hand) ∧
      ∀ k, k ≠ q → t.queue k = s.queue k) ∧
  (∀ (s : State) (q p e : Nat) (d : Desc), s.queuePart q = some p → s.turn (s.skulkOf p q) = some q →
    (s.queue q).next = some (.ring d) → d.chained = false → fld d.bytes 2 2 = d.index.toNat % 65536 → d.op ≤ 9 → d.op ≠ 0 →
    s.idleEngine (s.setFor p q d) = some e → s.firstStaged q e = none →
    Leads (.descriptorDispatch q) s fun t =>
      t = { s with queues := t.queues, engines := t.engines, sched := t.sched } ∧ (t.eng e).st = .running ∧
      (t.eng e).run = some { q := q, d := d } ∧ (t.queue q).open_ = (s.queue q).open_ + 1 ∧
      (t.queue q).ready = (s.queue q).ready.drop 1 ∧ ∀ k, k ≠ e → t.eng k = s.eng k)

/-- R330, R338, R340, R343: the descriptors that run on the scheduler: a NOP completes with its record, a barrier completes
and releases the later ones, and an invalidation starts, or ends at once for an ASID outside the partition. -/
def Obligations.SchedulerDescriptors : Prop :=
  (∀ (s : State) (q va pa : Nat) (d : Desc) (c : QCfg) (x : Xl) (v : LineVal), (s.queue q).sched = some d → d.op = 0 →
    (fld d.bytes 1 1).testBit 1 = false → s.RecordRoom q c x va pa v →
    Leads (.nop q) s fun t => (t.queue q).sched = none ∧ Recorded s t q c va pa v ⟨.ok, false, 0, 0⟩ d 0xFF) ∧
  (∀ (s : State) (q va pa : Nat) (d : Desc) (c : QCfg) (x : Xl) (v : LineVal), (s.queue q).sched = some d → d.isBarrier = true →
    (fld d.bytes 1 1).testBit 1 = false → s.RecordRoom q c x va pa v →
    Leads (.fenceBarrier q) s fun t =>
      (t.queue q).sched = none ∧ (t.queue q).barrier = false ∧ Recorded s t q c va pa v ⟨.ok, false, 0, 0⟩ d 0xFF) ∧
  (∀ (s : State) (q : Nat) (d : Desc), (s.queue q).sched = some d → d.op = 10 → fld d.bytes 16 1 = 1 →
    d.ctrStatus = .ok → (s.queue q).fence = none → s.asidPart (fld d.bytes 18 2) = s.queuePart q →
    Leads (.fenceInvalidate q) s fun t =>
      t = { s with queues := t.queues, xlt := t.xlt } ∧ (t.queue q).sched = none ∧ (t.queue q).fence = some d ∧
      ∃ y : Drain, t.xlt.drains = s.xlt.drains ++ [y] ∧ y.region = false ∧ y.target = fld d.bytes 18 2 ∧ y.init = 0 ∧
        y.queue = q ∧ y.got = [] ∧ y.rep = []) ∧
  (∀ (s : State) (q va pa : Nat) (d : Desc) (c : QCfg) (x : Xl) (v : LineVal), (s.queue q).sched = some d → d.op = 10 →
    fld d.bytes 16 1 = 1 → d.ctrStatus = .ok → (s.queue q).fence = none → s.asidPart (fld d.bytes 18 2) ≠ s.queuePart q →
    s.RecordRoom q c x va pa v →
    Leads (.fenceInvalidate q) s fun t =>
      (t.queue q).sched = none ∧ (t.queue q).fence = none ∧ t.xlt.drains = s.xlt.drains ∧
      Recorded s t q c va pa v ⟨.permFault, false, 0, 0⟩ d 0xFF)

/-! ### Fox engines -/

/-- R318–R320, R331–R336: one unit of each bulk operation, its input lines in the stream buffer: the engine issues the unit's
writes with the values that the operation gives. -/
def Obligations.EngineUnits : Prop :=
  (∀ (s : State) (e p i a dst : Nat) (r : Run) (c : QCfg), s.Works e 1 r c p → r.d.check = .ok → r.pos < r.d.units →
    i = (if r.d.copyDown then r.d.units - 1 - r.pos else r.pos) →
    a = fld r.d.bytes 16 8 + 64 * i → dst = fld r.d.bytes 24 8 + 64 * i → r.d.copyOverlap dst = false → s.AtHand e [a] →
    s.Misses e c [(dst, BitVec.allOnes 64, s.bufData e a, s.bufPois e a)] →
    Leads (.copy e) s fun t => Issued s t e [(dst, BitVec.allOnes 64, s.bufData e a, s.bufPois e a)]) ∧
  (∀ (s : State) (e p i a dst : Nat) (r : Run) (c : QCfg), s.Works e 1 r c p → r.d.check = .ok → r.pos < r.d.units →
    i = (if r.d.copyDown then r.d.units - 1 - r.pos else r.pos) →
    a = fld r.d.bytes 16 8 + 64 * i → dst = fld r.d.bytes 24 8 + 64 * i → r.d.copyOverlap dst = true →
    s.AtHand e [a] → s.Misses e c [(dst, BitVec.allOnes 64, [], s.bufPois e a)] →
    Leads (.copy e) s fun t => ∃ b, b.length = 64 ∧ Issued s t e [(dst, BitVec.allOnes 64, b, s.bufPois e a)]) ∧
  (∀ (s : State) (e p dst : Nat) (r : Run) (c : QCfg) (ws : List (Nat × W64 × Bytes × Bool)), s.Works e 2 r c p →
    r.d.check = .ok → r.pos < r.d.units → dst = fld r.d.bytes 24 8 + 64 * r.pos →
    ws = [(dst, BitVec.allOnes 64, (List.replicate 8 (slice r.d.bytes 40 8)).flatten, false)] → s.Misses e c ws →
    Leads (.fill e) s fun t => Issued s t e ws) ∧
  (∀ (s : State) (e p n : Nat) (r : Run) (c : QCfg) (l : List Nat) (rnd : Rnd) (ws : List (Nat × W64 × Bytes × Bool)),
    s.Works e 3 r c p → r.d.check = .ok → r.pos < r.d.units → n = min 2048 (fld r.d.bytes 32 8 - 2048 * r.pos) →
    l = linesOf (fld r.d.bytes 16 8 + fmtSize (fld r.d.bytes 40 1) (2048 * r.pos)) (fmtSize (fld r.d.bytes 40 1) n) →
    rnd = (if fld r.d.bytes 42 1 = 0 then .rne else if fld r.d.bytes 42 1 = 1 then .rtz else .stoch) → s.AtHand e l →
    ws = convertWrites (fld r.d.bytes 40 1) (fld r.d.bytes 41 1) (fld r.d.bytes 16 8 + fmtSize (fld r.d.bytes 40 1) (2048 * r.pos))
      (fld r.d.bytes 24 8 + fmtSize (fld r.d.bytes 41 1) (2048 * r.pos)) (s.eng e).sbuf l
      (convertBytes (fld r.d.bytes 40 1) (fld r.d.bytes 41 1) n rnd s.free (l.flatMap (s.bufData e))) →
    ws ≠ [] → s.Misses e c ws →
    Leads (.convert e) s fun t => Issued s t e ws) ∧
  (∀ (s : State) (e p w i o ln src : Nat) (r : Run) (c : QCfg) (ws : List (Nat × W64 × Bytes × Bool)), s.Works e 4 r c p →
    r.d.check = .ok → r.pos < r.d.units → w = 2 ^ (fld r.d.bytes 40 1 - 6) → i = r.pos / w → o = 64 * (r.pos % w) →
    ln = (fld r.d.bytes 16 8 + 4 * i) / 64 * 64 →
    src = fld r.d.bytes 48 8 + indexAt (s.eng e).sbuf (fld r.d.bytes 16 8) i * 2 ^ fld r.d.bytes 40 1 + o →
    s.AtHand e [ln, src] →
    ws = [(fld r.d.bytes 24 8 + i * 2 ^ fld r.d.bytes 40 1 + o, BitVec.allOnes 64, s.bufData e src,
      s.bufPois e src || s.bufPois e ln)] → s.Misses e c ws →
    Leads (.gather e) s fun t => Issued s t e ws) ∧
  (∀ (s : State) (e p w i o ln src : Nat) (r : Run) (c : QCfg) (ws : List (Nat × W64 × Bytes × Bool)), s.Works e 5 r c p →
    r.d.check = .ok → r.pos < r.d.units → w = 2 ^ (fld r.d.bytes 40 1 - 6) → i = r.pos / w → o = 64 * (r.pos % w) →
    ln = (fld r.d.bytes 16 8 + 4 * i) / 64 * 64 → src = fld r.d.bytes 24 8 + i * 2 ^ fld r.d.bytes 40 1 + o →
    s.AtHand e [ln, src] →
    (indexAt (s.eng e).sbuf (fld r.d.bytes 16 8) i ∈ r.seen → Config.freeNat s.free % 2 ≠ 0) →
    ws = [(fld r.d.bytes 48 8 + indexAt (s.eng e).sbuf (fld r.d.bytes 16 8) i * 2 ^ fld r.d.bytes 40 1 + o,
      BitVec.allOnes 64, s.bufData e src, s.bufPois e src || s.bufPois e ln)] → s.Misses e c ws →
    Leads (.scatter e) s fun t => Issued s t e ws) ∧
  (∀ (s : State) (e p w i o ln src : Nat) (r : Run) (c : QCfg), s.Works e 5 r c p →
    r.d.check = .ok → r.pos + 1 = r.d.units → w = 2 ^ (fld r.d.bytes 40 1 - 6) → i = r.pos / w → o = 64 * (r.pos % w) →
    ln = (fld r.d.bytes 16 8 + 4 * i) / 64 * 64 → src = fld r.d.bytes 24 8 + i * 2 ^ fld r.d.bytes 40 1 + o →
    s.AtHand e [ln, src] → indexAt (s.eng e).sbuf (fld r.d.bytes 16 8) i ∈ r.seen →
    Leads (.scatter e) s fun t => Config.freeNat s.free % 2 = 0 → t.txns = s.txns ∧ ∃ r', (t.eng e).run = some r' ∧
      r'.res = some ⟨if r.pois then .poisoned else .ok, false, fld r.d.bytes 32 8, 0⟩) ∧
  (∀ (s : State) (e p n dst : Nat) (r : Run) (c : QCfg) (order src l : List Nat) (old : Option Bytes)
    (ws : List (Nat × W64 × Bytes × Bool)), s.Works e 6 r c p → r.d.check = .ok → r.pos < r.d.units →
    n = fld r.d.bytes 48 2 → dst = fld r.d.bytes 24 8 + 64 * r.pos →
    src = (List.range n).map (fun k => fld r.d.bytes 16 8 + k * fld r.d.bytes 40 8 + 64 * r.pos) →
    l = (if (fld r.d.bytes 51 1).testBit 0 then src ++ [dst] else src) → s.AtHand e l →
    old = (if (fld r.d.bytes 51 1).testBit 0 then some (s.bufData e dst) else none) →
    ws = [(dst, BitVec.allOnes 64, reduceLine (fld r.d.bytes 50 1)
      ((arrivalOrder n order).map fun k => s.bufData e (fld r.d.bytes 16 8 + k * fld r.d.bytes 40 8 + 64 * r.pos)) old,
      l.any (s.bufPois e))] → s.Misses e c ws →
    Leads (.reduce e order) s fun t => Issued s t e ws) ∧
  (∀ (s : State) (e p a : Nat) (r : Run) (c : QCfg), s.Works e 8 r c p → r.d.check = .ok →
    r.pos + 1 < fld r.d.bytes 32 8 / 64 → a = fld r.d.bytes 16 8 + 64 * r.pos → s.AtHand e [a] → s.MissesAt e c [a + 64] →
    Leads (.digest e) s fun t => Asked s t e [a + 64] ∧
      (t.eng e).run = some { r with pos := r.pos + 1, wrote := [], dig := sm3Next r.dig (s.bufData e a) }) ∧
  (∀ (s : State) (e p : Nat) (r : Run) (c : QCfg) (ws : List (Nat × W64 × Bytes × Bool)), s.Works e 8 r c p →
    r.d.check = .ok → 0 < fld r.d.bytes 32 8 → r.pos = fld r.d.bytes 32 8 / 64 →
    ws = [(fld r.d.bytes 24 8, lineMask 0 32, sm3Last r.dig (fld r.d.bytes 32 8) ++ List.replicate 32 0, r.pois)] →
    s.Misses e c ws →
    Leads (.digest e) s fun t => Issued s t e ws) ∧
  (∀ l : List Bytes, (∀ b ∈ l, b.length = 64) → sm3Last (l.foldl sm3Next []) (64 * l.length) = sm3 l.flatten) ∧
  (∀ (last : Option Nat) (l : List (Nat × Nat)),
    ascending last l = true ↔ (∀ x ∈ l, x.1 ≤ x.2) ∧ List.Pairwise (· < ·) (last.toList ++ l.map (·.2))) ∧
  (∀ (s : State) (e p a : Nat) (r : Run) (c : QCfg), s.Works e 9 r c p → r.d.check = .ok → r.pos < r.d.units →
    r.pos < r.d.idxLines → a = fld r.d.bytes 16 8 + 64 * r.pos → s.AtHand e [a] →
    ascending r.seen.head? (r.d.indices r.pos (s.eng e).sbuf) = false →
    Leads (.compact e) s fun t => t = { s with engines := t.engines } ∧ OnlyRun e s t ∧
      (t.eng e).run = some { r with res := some ⟨.badDescriptor, false, 0, 0⟩ }) ∧
  (∀ (s : State) (e p a b : Nat) (r : Run) (c : QCfg), s.Works e 9 r c p → r.d.check = .ok → r.pos < r.d.units →
    r.pos < r.d.idxLines → a = fld r.d.bytes 16 8 + 64 * r.pos → s.AtHand e [a] →
    ascending r.seen.head? (r.d.indices r.pos (s.eng e).sbuf) = true →
    b = (if r.pos + 1 < r.d.idxLines then a + 64 else fld r.d.bytes 16 8) → s.MissesAt e c [b] →
    Leads (.compact e) s fun t => Asked s t e [b] ∧
      (t.eng e).run = some { r with
        pos := r.pos + 1, wrote := [], seen := ((r.d.indices r.pos (s.eng e).sbuf).getLast?.map (·.2)).toList }) ∧
  (∀ (s : State) (e p w m i o src : Nat) (r : Run) (c : QCfg) (ws : List (Nat × W64 × Bytes × Bool)), s.Works e 9 r c p →
    r.d.check = .ok → r.pos < r.d.units → w = 2 ^ (fld r.d.bytes 40 1 - 6) → r.pos = r.d.idxLines + m → i = m / w →
    o = 64 * (m % w) → s.AtHand e [(fld r.d.bytes 16 8 + 4 * i) / 64 * 64] →
    indexAt (s.eng e).sbuf (fld r.d.bytes 16 8) i ≠ i →
    src = fld r.d.bytes 48 8 + indexAt (s.eng e).sbuf (fld r.d.bytes 16 8) i * 2 ^ fld r.d.bytes 40 1 + o → s.AtHand e [src] →
    ws = [(fld r.d.bytes 48 8 + i * 2 ^ fld r.d.bytes 40 1 + o, BitVec.allOnes 64, s.bufData e src,
      s.bufPois e src || s.bufPois e ((fld r.d.bytes 16 8 + 4 * i) / 64 * 64))] → s.Misses e c ws →
    Leads (.compact e) s fun t => Issued s t e ws)

/-- R319, R331, R339–R343, R353, R354: how a descriptor goes on and ends: an answer enters the stream buffer; a failed check, or
the last unit done, ends the run; a run that has ended leaves the engine, with its record; and a packet of the input queue
starts. -/
def Obligations.DescriptorEnds : Prop :=
  (∀ (s : State) (e p op : Nat) (i : Instr) (r : Run) (c : QCfg),
    (op, i) ∈ [(1, Instr.copy e), (2, .fill e), (3, .convert e), (4, .gather e), (5, .scatter e), (6, .reduce e []),
      (8, .digest e), (9, .compact e)] → s.Works e op r c p →
    (r.d.check = .ok → r.d.units ≤ r.pos →
      Leads i s fun t => t = { s with engines := t.engines } ∧ OnlyRun e s t ∧
        (t.eng e).run = some { r with res := some ⟨if r.pois then .poisoned else .ok, false, fld r.d.bytes 32 8, 0⟩ }) ∧
    (r.d.check ≠ .ok →
      Leads i s fun t => t = { s with engines := t.engines } ∧ OnlyRun e s t ∧
        (t.eng e).run = some { r with res := some ⟨r.d.check, false, 0, 0⟩ })) ∧
  (∀ (s : State) (e : Nat) (r : Run) (a : Answer) (rest : List Answer), (s.eng e).ans = a :: rest → (s.eng e).run = some r →
    a.gen = (s.eng e).gen → a.status = .ok → a.data ≠ [] →
    Leads (.engineTransferAnswer e 0) s fun t =>
      t = { s with engines := t.engines } ∧ (∀ k, k ≠ e → t.eng k = s.eng k) ∧
      t.eng e = { s.eng e with
        ans := rest, out := (s.eng e).out.erase a.va, prog0 := s.clk, sbuf := tput (s.eng e).sbuf (a.va / 64) a
        run := some { r with pois := r.pois || a.poison } }) ∧
  (∀ (s : State) (e : Nat) (r : Run) (w : EndRec), (s.eng e).run = some r → r.prog = none → r.res = some w → r.inq = true →
    (s.eng e).st = .running → (s.eng e).gated = false → (s.eng e).halted = false → (s.eng e).staged = none →
    (s.inqOf e).dropping = false →
    Leads (.descriptorComplete e) s fun t =>
      t = { s with engines := t.engines, inq := t.inq } ∧ (t.eng e).run = none ∧ (t.eng e).st = .idle ∧
      (t.eng e).descs = sat (s.eng e).descs ∧
      (t.eng e).faults = (if w.status = .ok then (s.eng e).faults else sat (s.eng e).faults) ∧
      ∃ ws : List FWord, (t.inqOf e).recv = (s.inqOf e).recv ++ ws ∧ ws.map (·.eop) = [false, false, false, false, false, false,
        false, true] ∧
        ws.flatMap (fun x => toLe 4 x.w.toNat) = recordBytes 0 63 w r.d (BitVec.ofNat 8 e) Status.cancelled.code) ∧
  (∀ (s : State) (e va pa : Nat) (r : Run) (w : EndRec) (c : QCfg) (x : Xl) (v : LineVal), (s.eng e).run = some r →
    r.prog = none → r.res = some w → r.inq = false → (s.eng e).st = .running → (s.eng e).gated = false →
    (s.eng e).halted = false → (s.eng e).staged = none → w.status ≠ .ok ∨ (fld r.d.bytes 1 1).testBit 1 = false →
    s.RecordRoom r.q c x va pa v →
    Leads (.descriptorComplete e) s fun t =>
      (t.eng e).run = none ∧ (t.eng e).st = .idle ∧ (t.eng e).descs = sat (s.eng e).descs ∧
      Recorded s t r.q c va pa v w r.d (BitVec.ofNat 8 e)) ∧
  (∀ (s : State) (e : Nat) (pk rest : List FWord) (d : Desc), (s.eng e).run = none → (s.eng e).st = .idle →
    (s.eng e).gated = false → (s.eng e).halted = false → (s.inqOf e).recv.length ≤ 24 →
    takePacket (s.inqOf e).send = some (pk, rest) → pk.length = 16 →
    d = { bytes := pk.flatMap fun w => toLe 4 w.w.toNat } → 1 ≤ d.op → d.op ≤ 9 →
    (fld d.bytes 1 1).testBit 1 = false →
    Leads (.inqDescriptorStart e) s fun t =>
      t = { s with engines := t.engines, inq := t.inq } ∧ (t.eng e).st = .running ∧
      (t.eng e).run = some { inq := true, d := d } ∧ (t.inqOf e).send = rest ∧ ∀ k, k ≠ e → t.eng k = s.eng k)

/-- R337, R355–R364, R380, R381: an element-wise program is loaded once its image and arguments pass their checks; a tile
loads its masked inputs; the end of a tile of pass A moves on; the end of one of pass B issues its outputs. -/
def Obligations.ProgramTiles : Prop :=
  (∀ (s : State) (e : Nat) (r : Run) (h img args : Bytes) (l rest : List Nat), (s.eng e).run = some r →
    (s.eng e).onProgram r = true → r.prog = none → r.flt = none → r.d.progCheck = .ok → r.d.count ≠ 0 →
    l = linesOf r.d.args 256 → h = s.bufData e r.d.prog → rest = linesOf (r.d.prog + 64) (4 * min 64 (fld h 5 1 + fld h 6 1)) →
    s.AtHand e (r.d.prog :: l ++ rest) → img = (r.d.prog :: rest).flatMap (s.bufData e) → args = l.flatMap (s.bufData e) →
    argsOk args = true → argsMatch args (BitVec.ofNat 8 (fld h 7 1)) (BitVec.ofNat 8 (fld h 8 1)) (BitVec.ofNat 8 (fld h 9 1)) = true →
    imageFault r.d.prog img (r.d.pflags.testBit 0) = (.ok, 0) →
    (r.inq = false → ∀ c, (s.queue r.q).cfg = some c → (s.pageFaults c.asid args r.d.count).1 = .ok) →
    Leads (.program e) s fun t =>
      t = { s with engines := t.engines } ∧ (∀ k, k ≠ e → t.eng k = s.eng k) ∧
      (t.eng e).run = some { r with
        prog := some { Prog.load r.d img args with rPois := (r.d.prog :: rest ++ l).any (s.bufPois e) }, issued := false }) ∧
  (∀ (s : State) (e : Nat) (r : Run) (p : Prog), (s.eng e).run = some r → (s.eng e).onProgram r = true → r.prog = some p →
    r.flt = none → p.inTile = false → p.tile < p.tiles →
    (∀ i < 8, p.inMask.getLsbD i = true → s.AtHand e (p.linesAt i)) →
    Leads (.tileStart e) s fun t =>
      t = { s with engines := t.engines } ∧ OnlyRun e s t ∧
      ∃ q : Prog, (t.eng e).run = some { r with prog := some q } ∧
        q = { p with v := q.v, pc := 0, inTile := true, tilePois := q.tilePois } ∧
        (∀ i < 8, p.inMask.getLsbD i = true →
          tget [] q.v i = loadReg (entFmt (argEntry p.args i)) p.lanes ((p.linesAt i).flatMap (s.bufData e))) ∧
        ∀ i, 8 ≤ i ∨ p.inMask.getLsbD i = false → tget [] q.v i = []) ∧
  (∀ (s : State) (e : Nat) (r : Run) (p : Prog), (s.eng e).run = some r → (s.eng e).onProgram r = true → r.prog = some p →
    r.flt = none → r.issued = false → p.inTile = true → p.len ≤ p.pc → p.passB = false → (s.eng e).out = [] →
    Leads (.tileEnd e) s fun t =>
      t = { s with engines := t.engines } ∧ (∀ k, k ≠ e → t.eng k = s.eng k) ∧
      ∃ q : Prog, (t.eng e).run = some { r with prog := some q } ∧ q.inTile = false ∧ q.pc = 0 ∧
        (p.tile + 1 < p.tiles → q.passB = false ∧ q.tile = p.tile + 1 ∧ q.acc = p.acc ∧ q.rr = p.rr) ∧
        (p.tiles ≤ p.tile + 1 → q.passB = true ∧ q.tile = 0 ∧ q.rr = p.acc ∧ q.acc = [0, 0, 0, 0])) ∧
  (∀ (s : State) (e pt : Nat) (r : Run) (c : QCfg) (p : Prog) (ws : List (Nat × W64 × Bytes × Bool)), s.Works e 7 r c pt →
    r.prog = some p → p.inTile = true → p.len ≤ p.pc → p.passB = true →
    ws = ((List.range 4).filter p.outM.getLsbD).flatMap (fun j => p.outWrites j s.free) → s.Misses e c ws →
    Leads (.tileEnd e) s fun t => Issued s t e ws)

/-- R358, R365–R375: the lane-wise instructions: each lane of D gets the result of its lane of A, B and C, a scalar source giving
its value to every lane; pc moves on; every other register and the accumulators are as they were. -/
def Obligations.LaneInstructions : Prop :=
  ∀ (s : State) (e op : Nat) (i : Instr) (f : Nat → Nat → Nat → Nat → Nat → Nat) (r : Run) (p : Prog),
    (op, i, f) ∈ [(0x01, Instr.add e, fun _ a b _ _ => fAdd a b), (0x02, .sub e, fun _ a b _ _ => fSub a b),
      (0x03, .mul e, fun fn a b _ _ => fMul fn a b), (0x04, .fma e, fun fn a b c _ => fFma fn a b c),
      (0x08, .div e, fun _ a b _ _ => fDiv a b), (0x09, .rsqrt e, fun _ a _ _ _ => fRsqrt a),
      (0x0A, .sqrt e, fun _ a _ _ _ => fSqrt a), (0x0B, .exp2 e, fun _ a _ _ _ => fExp2 a),
      (0x0C, .log2 e, fun _ a _ _ _ => fLog2 a), (0x10, .min e, fun _ a b _ _ => fMin a b),
      (0x11, .max e, fun _ a b _ _ => fMax a b), (0x12, .abs e, fun _ a _ _ _ => fAbs a),
      (0x13, .sign e, fun _ a _ _ _ => fSign a), (0x14, .cmp e, fun fn a b _ _ => fCmp fn a b),
      (0x15, .sel e, fun _ a b c _ => fSel a b c), (0x16, .clamp e, fun _ a b c _ => fClamp a b c),
      (0x18, .cvt e, fun fn a _ _ _ => fCvt fn .rne a),
      (0x19, .srnd e, fun fn a _ _ k => fCvt fn (rmode .stoch s.free k) a)] →
    s.atIns e op = some (r, p) →
    Leads i s fun t =>
      t = { s with engines := t.engines, free := t.free } ∧ OnlyRun e s t ∧
      ∃ q : Prog, (t.eng e).run = some { r with prog := some q } ∧ q = { p with v := q.v, pc := p.pc + 1 } ∧
        (∀ x, x ≠ p.next.d → tget [] q.v x = tget [] p.v x) ∧
        ∀ k < 256, (tget [] q.v p.next.d).getD k 0 = BitVec.ofNat 32 (f p.next.fn (p.src p.next.a p.next.sa k)
          (p.src p.next.b p.next.sb k) (p.src p.next.c p.next.sc k) k)

/-- R368, R376, R382: the reductions: the accumulator that fn names takes the sum, the sum of squares or the largest
magnitude of the active lanes with its old value, a NaN lane giving the default NaN; the others and the vector registers
are as they were. -/
def Obligations.ReductionInstructions : Prop :=
  ∀ (s : State) (e op : Nat) (i : Instr) (f : Nat → List Nat → Nat) (r : Run) (p : Prog) (ls : List Nat),
    (op, i, f) ∈ [(0x1C, Instr.rsum e, fun old l => fAdd old (treeSum l)),
      (0x1D, .rssq e, fun old l => fAdd old (treeSum (l.map fun x => fMul 0 x x))), (0x1E, .rmaxa e, maxMag)] →
    s.atIns e op = some (r, p) → p.acc.length = 4 →
    ls = (List.range p.lanes).map (fun k => p.src p.next.a p.next.sa k) →
    Leads i s fun t =>
      t = { s with engines := t.engines } ∧ OnlyRun e s t ∧
      ∃ q : Prog, (t.eng e).run = some { r with prog := some q } ∧
        q = { p with acc := q.acc, accPois := q.accPois, pc := p.pc + 1 } ∧
        ∀ n < 4, q.acc.getD n 0 =
          if n = p.next.fn % 4 then
            BitVec.ofNat 32 (if ls.any fun x => (num x).isNan then fNaN else f (p.acc.getD n 0).toNat ls)
          else p.acc.getD n 0

/-! ### Recovery -/

/-- R483–R488: the reset of an engine: its causes, the purge at each sett, the reports, its end, and fencing after 50 µs. -/
def Obligations.EngineRecovery : Prop :=
  (∀ (s : State) (e : Nat), (s.eng e).st = .running → (s.eng e).halted = false → (s.eng e).gated = false →
    1310720 + (s.eng e).prog0 ≤ s.clk →
    Leads (.engineHang e) s fun t =>
      t = { s with engines := t.engines } ∧ (t.eng e).st = .resetting ∧ (t.eng e).gen = (s.eng e).gen + 1 ∧
      (t.eng e).hangs = sat (s.eng e).hangs ∧ ∀ k, k ≠ e → t.eng k = s.eng k) ∧
  (∀ (s : State) (e : Nat), (s.eng e).st ≠ .resetting → (s.eng e).st ≠ .fenced →
    Leads (.engineCheckerFault e) s fun t =>
      t = { s with engines := t.engines } ∧ (t.eng e).st = .resetting ∧ (t.eng e).gen = (s.eng e).gen + 1 ∧
      ∀ k, k ≠ e → t.eng k = s.eng k) ∧
  (∀ (s : State) (e : Nat), e < 64 → s.CanKey .owl (0x400010 + 0x1000 * e) → (s.eng e).st ≠ .fenced →
    Leads (.foxReset e) s fun t =>
      t = { s with arms := t.arms, engines := t.engines } ∧ (t.eng e).st = .resetting ∧ (t.eng e).resetReq = true ∧
      (t.eng e).gen = (if (s.eng e).st = .resetting then (s.eng e).gen else (s.eng e).gen + 1) ∧
      ∀ k, k ≠ e → t.eng k = s.eng k) ∧
  (∀ (s : State) (n e : Nat), n < 16 → (s.eng e).st = .resetting → (s.eng e).purgeGot.contains n = false →
    Leads (.enginePurge n e) s fun t =>
      t = { s with engines := t.engines, txns := t.txns } ∧ (t.eng e).purgeGot = (s.eng e).purgeGot ++ [n] ∧
      ∀ u, u ∈ t.txns ↔ u ∈ s.txns ∧ ¬(u.isOld n e (s.eng e).purgeGen = true ∧ u.started = false)) ∧
  (∀ (s : State) (n e : Nat), (s.eng e).st = .resetting → (s.eng e).purgeGot.contains n = true →
    (s.eng e).purged.contains n = false → (∀ u ∈ s.txns, u.isOld n e (s.eng e).purgeGen = false) →
    (s.eng e).purged.length ≠ 15 →
    Leads (.purgeReport n e) s fun t =>
      t = { s with engines := t.engines } ∧ (t.eng e).purged = (s.eng e).purged ++ [n] ∧ (t.eng e).st = .resetting) ∧
  (∀ (s : State) (n e : Nat), (s.eng e).st = .resetting → (s.eng e).purgeGot.contains n = true →
    (s.eng e).purged.contains n = false → (∀ u ∈ s.txns, u.isOld n e (s.eng e).purgeGen = false) →
    (s.eng e).purged.length = 15 → (s.eng e).fencing = false → (s.eng e).run = none → (s.eng e).staged = none →
    s.xlt.drains = [] →
    Leads (.purgeReport n e) s fun t =>
      t = { s with engines := t.engines } ∧ (t.eng e).settled = true ∧ (t.eng e).st = .resetting) ∧
  (∀ (s : State) (e : Nat), (s.eng e).st = .resetting → (s.eng e).settled = true → (s.eng e).fencing = false →
    Leads (.engineResetDone e) s fun t =>
      t = { s with engines := t.engines } ∧ (∀ k, k ≠ e → t.eng k = s.eng k) ∧ (t.eng e).st = .idle ∧
      (t.eng e).resetReq = false ∧ (t.eng e).run = none ∧ (t.eng e).staged = none ∧ (t.eng e).sbuf = [] ∧
      (t.eng e).tc = [] ∧ (t.eng e).gen = (s.eng e).gen) ∧
  (∀ (s : State) (e : Nat), (s.eng e).st = .resetting → (s.eng e).fencing = false → 120000 + (s.eng e).rsSince ≤ s.clk →
    (s.eng e).settled = false →
    Leads (.engineResetTimeout e) s fun t =>
      t = { s with engines := t.engines } ∧ (t.eng e).st = .resetting ∧ (t.eng e).fencing = true ∧
      (t.eng e).resetTo = sat (s.eng e).resetTo ∧ ∀ k, k ≠ e → t.eng k = s.eng k) ∧
  (∀ (s : State) (e : Nat), e < 64 → (s.eng e).st = .resetting → (s.eng e).fencing = false →
    120000 + (s.eng e).rsSince ≤ s.clk → (s.eng e).settled = true →
    Leads (.engineResetTimeout e) s fun t => (t.eng e).st = .fenced ∧ t.top.engLive.getLsbD e = false)

/-- R490–R494, R502: a sett's pair: a bad cycle, the watchdog or the command fails the active unit over, a second one loses
the pair; the standby's failure, the self-test, and the end of a resynchronisation. -/
def Obligations.SettPairs : Prop :=
  (∀ (s : State) (n : Nat) (cause : Byte), (s.sett n).pair = .pair →
    Leads (.settBadCycle n cause) s fun t =>
      t = { s with setts := t.setts, owl := t.owl } ∧ OnlySett n s t ∧ (t.sett n).pair = .single ∧
      (t.sett n).act1 = !(s.sett n).act1 ∧ (t.sett n).cause = cause ∧ (t.sett n).failovers = sat (s.sett n).failovers) ∧
  (∀ (s : State) (n : Nat) (cause : Byte), (s.sett n).pair = .single → (∀ u ∈ s.txns, u.sett ≠ n) → s.xlt.drains = [] →
    Leads (.settBadCycle n cause) s fun t =>
      (t.sett n).pair = .lost ∧ (t.sett n).losses = sat (s.sett n).losses ∧ t.txns = s.txns ∧ OnlySett n s t) ∧
  (∀ (s : State) (n : Nat), (s.sett n).pair = .pair →
    Leads (.settCopyWatchdog n) s fun t =>
      t = { s with setts := t.setts, owl := t.owl } ∧ OnlySett n s t ∧ (t.sett n).pair = .single ∧
      (t.sett n).act1 = !(s.sett n).act1 ∧ (t.sett n).cause = 3) ∧
  (∀ (s : State) (n : Nat), (s.sett n).pair = .pair →
    Leads (.settStandbyFail n true) s fun t =>
      t = { s with setts := t.setts } ∧ OnlySett n s t ∧ (t.sett n).pair = .single ∧ (t.sett n).act1 = (s.sett n).act1 ∧
      (t.sett n).unitSt (!(s.sett n).act1) = .failed ∧ (t.sett n).cause = 5) ∧
  (∀ (s : State) (n : Nat), (s.sett n).pair = .single → (s.sett n).unitSt (!(s.sett n).act1) = .failed → (s.sett n).tries < 3 →
    Leads (.settSelfTestEnd n true) s fun t =>
      t = { s with setts := t.setts } ∧ OnlySett n s t ∧ (t.sett n).pair = .resync ∧
      (t.sett n).unitSt (!(s.sett n).act1) = .resync) ∧
  (∀ (s : State) (n : Nat), (s.sett n).pair = .single → (s.sett n).unitSt (!(s.sett n).act1) = .failed → (s.sett n).tries < 3 →
    Leads (.settSelfTestEnd n false) s fun t =>
      (t.sett n).pair = .single ∧ (t.sett n).cause = 7 ∧ (t.sett n).tries = (s.sett n).tries + 1 ∧
      (t.sett n).resyncFails = sat (s.sett n).resyncFails ∧ OnlySett n s t) ∧
  (∀ (s : State) (n : Nat), (s.sett n).pair = .resync →
    Leads (.settResyncDone n) s fun t =>
      t = { s with setts := t.setts } ∧ OnlySett n s t ∧ (t.sett n).pair = .pair ∧ (t.sett n).tries = 0 ∧
      (t.sett n).unitSt (!(s.sett n).act1) = .standby) ∧
  (∀ (s : State) (n : Nat), (s.sett n).pair = .resync → 120000 + (s.sett n).rsSince ≤ s.clk →
    Leads (.settResyncTimeout n) s fun t =>
      t = { s with setts := t.setts, owl := t.owl } ∧ OnlySett n s t ∧ (t.sett n).pair = .single ∧
      (t.sett n).tries = (s.sett n).tries + 1 ∧ (t.sett n).resyncFails = sat (s.sett n).resyncFails) ∧
  (∀ (s : State) (n : Nat), n < 16 → s.CanKey .owl (0x20002C + 0x10000 * n) → (s.sett n).pair = .pair →
    Leads (.settPaircmdFailover n) s fun t =>
      t = { s with arms := t.arms, setts := t.setts, owl := t.owl } ∧ OnlySett n s t ∧
      (t.sett n).pair = .single ∧ (t.sett n).act1 = !(s.sett n).act1 ∧ (t.sett n).cause = 6) ∧
  (∀ (s : State) (n : Nat), n < 16 → s.CanKey .owl (0x20002C + 0x10000 * n) →
    (s.sett n).unit0 = .failed ∨ (s.sett n).unit1 = .failed →
    Leads (.settPaircmdResync n) s fun t =>
      t = { s with arms := t.arms, setts := t.setts } ∧ OnlySett n s t ∧ (t.sett n).cmdResync = true ∧
      (t.sett n).pair = (s.sett n).pair)

/-! ### Traffic -/

/-- R188, R460, R466–R471, R473, R475–R479: traffic: the refill of the buckets, a departure from an egress queue, the depth sample, a
slot of the gate and its cutoff, the clearing of maxima, and an apply. -/
def Obligations.TrafficControls : Prop :=
  (∀ (s : State) (p k : Nat) (q : PortQos), s.due 0 16 = true → s.partList = [p] → k < 10 → q = (s.pqos p k).takeApply →
    Leads .policerRefill s fun t =>
      t = { s with parts := t.parts, cadence := t.cadence } ∧ (t.pqos p k).inForce = q.inForce ∧ (t.pqos p k).egress = (s.pqos p k).egress ∧
      (q.inForce.ctrl.getLsbD 0 = true →
        (t.pqos p k).committed = min ((s.pqos p k).committed + q.inForce.cir.toNat) (burstOf k q.inForce.cbs * 1200) ∧
        (t.pqos p k).peak = min ((s.pqos p k).peak + q.inForce.pir.toNat) (burstOf k q.inForce.pbs * 1200)) ∧
      (q.inForce.ctrl.getLsbD 2 = true →
        (t.pqos p k).shaper = min ((s.pqos p k).shaper + q.inForce.srate.toNat) (burstOf k q.inForce.sburst * 1200))) ∧
  (∀ (s : State) (k p : Nat) (e : EgMsg) (rest : List EgMsg) (visits : List (Nat × Nat)), (s.pqos p k).egress = e :: rest →
    e.frame = none → s.portTakes k e = true → s.staleMsg e = false → e.size * 1200 ≤ (s.pqos p k).shaper →
    s.nextEgress k = some (p, visits) →
    Leads (.egressDepart k p) s fun t =>
      t = { s with parts := t.parts, ports := t.ports, qos := { s.qos with turn := tput s.qos.turn k p } } ∧
      (∀ j, j ≠ k → t.port j = s.port j) ∧
      t.port k = (s.port k).sendMsg s.clk e.m ∧ (t.pqos p k).egress = rest ∧
      (t.pqos p k).shaper = (s.pqos p k).shaper - e.size * 1200 ∧
      (t.pqos p k).shpBytes = satAdd (s.pqos p k).shpBytes e.size ∧
      ∀ n, (p, n) ∈ visits →
        (t.pqos p k).deficit = if rest = [] then 0 else (s.pqos p k).deficit + n * s.quantum p k - e.size) ∧
  (∀ (s : State) (k p : Nat) (e : EgMsg) (rest : List EgMsg), (s.pqos p k).egress = e :: rest → s.staleMsg e = true →
    Leads (.egressDepart k p) s fun t =>
      t = { s with parts := t.parts, ports := t.ports } ∧ (t.pqos p k).egress = rest ∧
      (t.port e.arrPort).rspDrop = sat (s.port e.arrPort).rspDrop) ∧
  (∀ (s : State) (k p : Nat) (e : EgMsg) (rest : List EgMsg), (s.pqos p k).egress = e :: rest → e.frame = none →
    s.portTakes k e = true → s.staleMsg e = false → (s.pqos p k).shaper < e.size * 1200 → (s.pqos p k).waited = false →
    Leads (.egressDepart k p) s fun t =>
      t = { s with parts := t.parts } ∧
      t.pqos p k = { s.pqos p k with waited := true, shpWaits := sat (s.pqos p k).shpWaits }) ∧
  (∀ (s : State) (p k : Nat), s.due 1 1024 = true → s.partList = [p] → k < 10 →
    Leads .queueDepthSample s fun t =>
      t = { s with parts := t.parts, cadence := t.cadence } ∧ (t.pqos p k).egress = (s.pqos p k).egress ∧
      (t.pqos p k).samples = sat (s.pqos p k).samples ∧
      (t.pqos p k).depthSum = satAdd (s.pqos p k).depthSum (((s.pqos p k).egress.map (·.size)).foldl (· + ·) 0)) ∧
  (∀ s : State, s.lay ≠ none → 32 ≤ slotOwner s.gateSlots s.qos.gate ∨ 32 < slotLeft s.gateSlots s.qos.gate →
    (∀ u ∈ s.txns, u.phase ≠ .parked) →
    Leads .gateSlotStart s fun t => t = { s with qos := { s.qos with gateOpen := true } }) ∧
  (∀ s : State, slotOwner s.gateSlots s.qos.gate < 32 → slotLeft s.gateSlots s.qos.gate ≤ 32 →
    Leads .gateSlotCutoff s fun t => t = { s with qos := { s.qos with gateOpen := false } }) ∧
  (∀ (s : State) (path : Path) (p k : Nat), p < 32 → k < 10 → s.pathUp path = true → Path.toPage path p = true →
    Leads (.maxclrDepth path p k) s fun t =>
      t = { s with parts := t.parts } ∧
      t.pqos p k = { s.pqos p k with depthMax := if (s.pqos p k).depthAt = some s.clk then (s.pqos p k).depthMax else 0 }) ∧
  (∀ (s : State) (path : Path) (p k : Nat), p < 32 → k < 10 → s.pathUp path = true → Path.toPage path p = true →
    Leads (.maxclrDelay path p k) s fun t =>
      t = { s with parts := t.parts } ∧
      t.pqos p k = { s.pqos p k with delayMax := if (s.pqos p k).delayAt = some s.clk then (s.pqos p k).delayMax else 0 }) ∧
  (∀ (s : State) (p k : Nat), p < 32 → k < 10 → s.CanKey .owl (0xA0101C + 0x400 * p + 0x40 * k) → s.applyResult p k = 1 →
    Leads (.qosApply p k) s fun t =>
      t = { s with arms := t.arms, parts := t.parts } ∧ t.pqos p k = { s.pqos p k with result := 1, applyDue := true, applied := (s.pqos p k).staged }) ∧
  (∀ (s : State) (p k : Nat), p < 32 → k < 10 → s.CanKey .owl (0xA0101C + 0x400 * p + 0x40 * k) → s.applyResult p k ≠ 1 →
    Leads (.qosApply p k) s fun t =>
      t = { s with arms := t.arms, parts := t.parts, qos := t.qos } ∧
      t.pqos p k = { s.pqos p k with result := BitVec.ofNat 4 (s.applyResult p k) } ∧
      t.qos.refused = sat s.qos.refused)

/-! ### The tenant's consent -/

/-- R522–R525, R529: the consent key, a token's installation or refusal, its revocation and lapse, and Owl's request. -/
def Obligations.Consent : Prop :=
  (∀ (s : State) (p : Nat) (k : Bytes), p < 32 → s.CanPage (.host p) p 0x7004 →
    k = (List.range 16).flatMap (fun i => toLe 4 (tget 0 (s.part p).dbg.ckey i).toNat) →
    Leads (.consentKeySet (.host p) p) s fun t =>
      t = { s with arms := t.arms, parts := t.parts } ∧ (t.part p).dbg.token = none ∧
      (t.part p).dbg.key = (if k.all (· == 0) then none else some k) ∧ ∀ j, j ≠ p → t.part j = s.part j) ∧
  (∀ (s : State) (p : Nat) (b : Bytes), p < 32 → s.CanPage (.host p) p 0x7004 → s.tokenResult p = 1 →
    b = (s.part p).dbg.tokenBytes →
    Leads (.tokenInstall (.host p) p) s fun t =>
      t = { s with arms := t.arms, parts := t.parts } ∧ (t.part p).dbg.result = 1 ∧
      (t.part p).dbg.token = some ⟨BitVec.ofNat 3 (fld b 9 1), fld b 10 1, fld b 32 8⟩) ∧
  (∀ (s : State) (p : Nat), p < 32 → s.CanPage (.host p) p 0x7004 → s.tokenResult p ≠ 1 →
    Leads (.tokenInstall (.host p) p) s fun t =>
      t = { s with arms := t.arms, parts := t.parts, sec := t.sec } ∧ (t.part p).dbg.token = (s.part p).dbg.token ∧
      (t.part p).dbg.result = BitVec.ofNat 3 (s.tokenResult p) ∧ (t.part p).dbg.tokRefused = sat (s.part p).dbg.tokRefused ∧
      t.sec.tokRefused = sat s.sec.tokRefused) ∧
  (∀ (s : State) (p : Nat), p < 32 → s.CanPage (.host p) p 0x7004 →
    Leads (.tokenRevoke (.host p) p) s fun t =>
      t = { s with arms := t.arms, parts := t.parts } ∧ (t.part p).dbg.token = none ∧
      (t.part p).dbg.key = (s.part p).dbg.key) ∧
  (∀ (s : State) (p : Nat), p < 32 → Leads (.consentKeySet .owl p) s fun t => t = s) ∧
  (∀ (s : State) (p : Nat) (x : Token), (s.part p).dbg.token = some x → x.limit ≤ s.top.tick.toNat →
    Leads (.tokenLapse p) s fun t =>
      t = { s with parts := t.parts } ∧ (t.part p).dbg.token = none ∧ (t.part p).dbg.key = (s.part p).dbg.key) ∧
  (∀ (s : State) (v : W32), s.CanKey .owl 0xD00024 →
    Leads (.d1Request v) s fun t => t = { s with arms := t.arms, sec := { s.sec with d1req := v } })

/-! ### Owl's sessions and commands -/

/-- R533–R537, R539: sessions open and close, what the management port does with a frame, chunks of a command, an unknown
code, and what a SCRAPPED device answers. -/
def Obligations.Sessions : Prop :=
  (∀ (s : State) (o : TlsOffer) (i n : Nat) (d : Bytes), s.mgtUp = true → s.freeSession = some i → tlsOk o = true → 1 ≤ n → n ≤ 4 →
    s.chainOk d = true →
    Leads (.tlsHandshake o n d) s fun t =>
      t = { s with owl := t.owl } ∧ s.sessOpen i = false ∧ t.sessOpen i = true ∧ t.owl.evq.length = s.owl.evq.length + 1 ∧
      t.owl.tlsSent = s.owl.tlsSent ++ [(.chain, s.certs)]) ∧
  (∀ (s : State) (o : TlsOffer) (n : Nat) (d : Bytes), s.mgtUp = true →
    s.freeSession = none ∨ tlsOk o = false ∨ n = 0 ∨ 4 < n ∨ s.chainOk d = false →
    Leads (.tlsHandshake o n d) s fun t =>
      t = { s with owl := t.owl } ∧ t.owl.sessions = s.owl.sessions ∧ t.owl.evq.length = s.owl.evq.length + 1 ∧
      t.owl.tlsSent = s.owl.tlsSent ++ [(.alert, [])]) ∧
  (∀ (s : State) (i : Nat), i < 4 → s.sessOpen i = true → s.owl.mgtNew = none →
    Leads (.sessionClose i) s fun t =>
      t = { s with owl := t.owl } ∧ t.sessOpen i = false ∧ ∀ j, j ≠ i → t.sessOpen j = s.sessOpen j) ∧
  (∀ (s : State) (i : Nat) (m : Bytes), i < 4 → s.sessOpen i = true → s.owl.mgtNew = some m →
    (∀ j < 4, j ≠ i → s.sessOpen j = false) →
    Leads (.sessionClose i) s fun t => t.owl.mgt = m ∧ t.owl.mgtNew = none ∧ t.sessOpen i = false) ∧
  (∀ (s : State) (i : Nat), i < 4 → s.sessOpen i = true → s.owl.mgtNew = none →
    1440000000000 + (s.sess i).lastCmd ≤ s.clk →
    Leads (.sessionIdleTimeout i) s fun t =>
      t = { s with owl := t.owl } ∧ t.sessOpen i = false ∧ ∀ j, j ≠ i → t.sessOpen j = s.sessOpen j) ∧
  (∀ (s : State) (k : MgtKind) (f g : Frame) (port : BitVec 16), s.mgtUp = true → f.fcsOk = true → s.mgtMine f = true →
    f.dstMac = s.mgtMac → (k = .arp ∧ f.v6 = false) ∨ (k = .ndp ∧ f.v6 = true) ∨ k = .echo →
    g = { f with srcMac := f.dstMac, dstMac := f.srcMac, srcIp := f.dstIp, dstIp := f.srcIp } →
    Leads (.mgtFrame k f port) s fun t => t = { s with owl := { s.owl with mgtSent := s.owl.mgtSent ++ [(k, g)] } }) ∧
  (∀ (s : State) (f : Frame) (port : BitVec 16), s.mgtUp = true → f.fcsOk = true → s.mgtMine f = true →
    f.dstMac = s.mgtMac → port.toNat = s.mgtTcp →
    Leads (.mgtFrame .tcp f port) s fun t => t = { s with owl := { s.owl with tcpIn := s.owl.tcpIn ++ [f.payload] } }) ∧
  (∀ (s : State) (f : Frame) (port : BitVec 16), s.mgtDhcp = false → s.mgtSlaac = false →
    exec (.mgtFrame .dhcp f port) s = .next s ∧ exec (.mgtFrame .ra f port) s = .next s) ∧
  (∀ (s : State) (f : Frame) (port : BitVec 16), exec (.mgtFrame .other f port) s = .next s) ∧
  (∀ (s : State) (sess : Nat) (code : BitVec 16) (tag : W32) (body : Bytes), s.Hears sess →
    s.chunkStatus sess code body = .ok →
    Leads (.commandChunk sess code tag body) s fun t =>
      t = { s with owl := t.owl } ∧ Replied s t sess code tag .ok [] ∧
      (t.sess sess).held code = (s.sess sess).held code ++ body.drop 4) ∧
  (∀ (s : State) (sess : Nat) (code : BitVec 16) (tag : W32) (body : Bytes), s.Hears sess →
    s.chunkStatus sess code body = .conflict →
    Leads (.commandChunk sess code tag body) s fun t =>
      t = { s with owl := t.owl } ∧ Replied s t sess code tag .conflict [] ∧ (t.sess sess).held code = []) ∧
  (∀ (s : State) (sess : Nat) (c : CmdHead) (tag : W32), s.Hears sess →
    Leads (.unknownCommand sess c tag) s fun t => t = { s with owl := t.owl } ∧
      Replied s t sess c.code tag (if c.length ≤ bodyMax then .unsupported else .badDescriptor) []) ∧
  (∀ (s : State) (sess : Nat) (tag : W32) (body : Bytes), s.sessOpen sess = true → s.owl.st = .run → s.life = 4 →
    Leads (.scrubStatus sess tag body) s fun t => t = { s with owl := t.owl } ∧ Replied s t sess cScrubStatus tag .fenced [])

/-- R453, R540, R541: the commands that read: the device's information, registers, the event log, the ledger and the
scrubbers; a keyed write of a register; and the scrubbers' settings. -/
def Obligations.OwlReads : Prop :=
  (∀ (s : State) (sess : Nat) (tag : W32), s.Hears sess →
    Leads (.info sess tag []) s fun t => t = { s with owl := t.owl } ∧ Replied s t sess cInfo tag .ok s.infoBody) ∧
  (∀ (s : State) (sess : Nat) (tag : W32) (b : Byte) (bs : Bytes), s.Hears sess →
    Leads (.info sess tag (b :: bs)) s fun t =>
      t = { s with owl := t.owl } ∧ Replied s t sess cInfo tag .badDescriptor []) ∧
  (∀ (s h : State) (sess : Nat) (tag : W32) (off n : Nat), s.Hears sess → rangeOk off n = true → s.lateBlock off n = false →
    h = s.setSess sess { s.sess sess with lastCmd := s.clk } →
    Leads (.regRead sess tag (toLe 4 off ++ toLe 4 n)) s fun t =>
      t = { s with owl := t.owl } ∧
      Replied s t sess cRegRead tag .ok ((h.regReads .owl off n).flatMap fun w => toLe 4 w.toNat)) ∧
  (∀ (s : State) (sess : Nat) (tag v : W32), s.Hears sess →
    Leads (.regWrite sess tag true (toLe 4 0x64 ++ toLe 4 1 ++ toLe 4 v.toNat)) s fun t =>
      t = { s with arms := t.arms, owl := t.owl, top := { s.top with scratch := v } } ∧ Replied s t sess cRegWrite tag .ok []) ∧
  (∀ (s : State) (sess m : Nat) (tag first : W32) (out : List EvRec), s.Hears sess → 1 ≤ m → m ≤ 4096 →
    (s.flash.logSeq - first).toNat ≤ s.flash.log.length →
    out = (s.flash.log.drop (s.flash.log.length - (s.flash.logSeq - first).toNat)).take (min m ((replyMax sess - 8) / 32)) →
    Leads (.eventRead sess tag (toLe 4 first.toNat ++ toLe 2 m ++ [0, 0])) s fun t =>
      t = { s with owl := t.owl } ∧
      Replied s t sess cEventRead tag .ok (toLe 4 first.toNat ++ toLe 2 out.length ++ [0, 0] ++
        out.zipIdx.flatMap fun (r, i) => logBytes (first + BitVec.ofNat 32 i).toNat r)) ∧
  (∀ (s : State) (sess m first : Nat) (tag : W32) (out : List LedEnt), s.Hears sess → 4096 ≤ m → m ≤ bodyMax - 8 → first < 2 ^ 32 →
    out = fitting (min m (replyMax sess - 8)) (s.flash.ledger.drop first) →
    Leads (.ledgerRead sess tag (toLe 4 first ++ toLe 4 m)) s fun t =>
      t = { s with owl := t.owl } ∧
      Replied s t sess cLedgerRead tag .ok (toLe 4 out.length ++ toLe 4 (first + out.length) ++ out.flatMap (·.bytes))) ∧
  (∀ (s : State) (sess : Nat) (tag : W32), s.Hears sess →
    Leads (.scrubStatus sess tag []) s fun t =>
      t = { s with owl := t.owl } ∧ Replied s t sess cScrubStatus tag .ok ((List.range 33).flatMap s.scrubEntry)) ∧
  (∀ (s : State) (sess d b : Nat) (tag lim : W32), s.Hears sess → 8 ≤ d → d ≤ 4096 → 4 ≤ b → b ≤ 4096 →
    Leads (.scrubConfig sess tag (toLe 2 d ++ toLe 2 b ++ toLe 4 lim.toNat)) s fun t =>
      t = { s with owl := t.owl } ∧ Replied s t sess cScrubConfig tag .ok [] ∧ t.owl.scrubInt = BitVec.ofNat 16 d ∧
      t.owl.burInt = BitVec.ofNat 16 b ∧ t.owl.lapLimit = lim) ∧
  (∀ (s : State) (sess d b : Nat) (tag lim : W32), s.Hears sess → d < 8 ∨ b < 4 → d < 65536 → b < 65536 →
    Leads (.scrubConfig sess tag (toLe 2 d ++ toLe 2 b ++ toLe 4 lim.toNat)) s fun t =>
      t = { s with owl := t.owl } ∧ Replied s t sess cScrubConfig tag .badDescriptor [] ∧ t.owl.scrubInt = s.owl.scrubInt ∧
      t.owl.burInt = s.owl.burInt ∧ t.owl.lapLimit = s.owl.lapLimit)

/-- R80, R81, R85–R88, R538, R541, R545: layouts at run time: a section loaded into a quiesced partition or rejected, an image
staged, rejected, or written to the bank that does not run; and the anti-rollback counters. -/
def Obligations.OwlLayouts : Prop :=
  (∀ (s : State) (sess p : Nat) (tag : W32) (w : Bytes) (c : PartSec), s.Hears sess → (s.sess sess).held cLayoutLoad = [] →
    s.loadCheck w = .ok c → p = sectPart w → (s.lay.getD Layout.reset).builtin = false → s.inWarm = false →
    (s.part p).st = .quiesced → p ∉ s.owl.scrubs → (s.part p).secBad = false → c.tenant = s.tenant p →
    Leads (.layoutLoad sess tag (toLe 4 0 ++ w)) s fun t =>
      t.secOf p = some c ∧ Replied s t sess cLayoutLoad tag .ok (t.loadBody 0 p) ∧ t.dram = s.dram ∧ t.scr = s.scr ∧
      ∀ j, j ≠ p → t.secOf j = s.secOf j) ∧
  (∀ (s : State) (sess p : Nat) (tag : W32) (w : Bytes) (c : PartSec), s.Hears sess → (s.sess sess).held cLayoutLoad = [] →
    s.loadCheck w = .ok c → p = sectPart w → (s.lay.getD Layout.reset).builtin = false → s.inWarm = false →
    (s.part p).st = .quiesced → p ∉ s.owl.scrubs → (s.prec p).isSome = true → c.tenant ≠ s.tenant p →
    Leads (.layoutLoad sess tag (toLe 4 0 ++ w)) s fun t =>
      t.owl.repl = some ⟨p, c, sess, tag⟩ ∧ t.owl.replies = s.owl.replies ∧ t.secOf p = s.secOf p ∧ t.scrubbing p = true) ∧
  (∀ (s : State) (sess : Nat) (tag : W32) (c : CmdHead) (r : Repl), s.sessOpen sess = true → s.owl.st = .run → s.life ≠ 4 →
    runsAlone c.code = true → c.length ≤ bodyMax → s.owl.repl = some r → r.sec.part = r.part → s.sessOpen r.sess = true →
    Leads (.unknownCommand sess c tag) s fun t =>
      t.owl.repl = none ∧ t.secOf r.part = some r.sec ∧
      t.owl.replies = s.owl.replies ++
        [⟨r.sess, cLayoutLoad, r.tag, .ok, t.loadBody 0 r.part⟩, ⟨sess, c.code, tag, .unsupported, []⟩]) ∧
  (∀ (s : State) (sess : Nat) (tag : W32) (w : Bytes) (e : Status) (x : LayErr), s.Hears sess →
    (s.sess sess).held cLayoutLoad = [] → w.length + 4 ≤ bodyMax → s.loadCheck w = .error (e, x) → e ≠ .ok →
    (s.lay.getD Layout.reset).builtin = false → s.inWarm = false → (s.part (sectPart w)).st = .quiesced →
    sectPart w ∉ s.owl.scrubs →
    Leads (.layoutLoad sess tag (toLe 4 0 ++ w)) s fun t =>
      t = { s with owl := t.owl } ∧ Replied s t sess cLayoutLoad tag e (s.loadBody x.check (sectPart w))) ∧
  (∀ (s : State) (sess : Nat) (tag : W32) (w : Bytes), s.Hears sess → (s.sess sess).held cLayoutStage = [] →
    w.length + 4 ≤ bodyMax → s.imageForm w = none → s.phase ≠ .waitImage → s.top.layoutOk = true →
    Leads (.layoutStage sess tag (toLe 4 0 ++ w)) s fun t =>
      t = { s with owl := t.owl } ∧ t.owl.staged = some w ∧ Replied s t sess cLayoutStage tag .ok (layBody none)) ∧
  (∀ (s : State) (sess : Nat) (tag : W32) (w : Bytes) (e : LayErr), s.Hears sess → (s.sess sess).held cLayoutStage = [] →
    w.length + 4 ≤ bodyMax → s.imageForm w = some e →
    Leads (.layoutStage sess tag (toLe 4 0 ++ w)) s fun t =>
      t = { s with owl := t.owl } ∧ t.owl.staged = s.owl.staged ∧
      Replied s t sess cLayoutStage tag (s.formStatus w e) (layBody (some e))) ∧
  (∀ (s : State) (sess : Nat) (tag : W32) (w : Bytes), s.Hears sess → (s.sess sess).held cLayoutFlash = [] →
    w.length + 4 ≤ bodyMax → s.imageForm w = none →
    Leads (.layoutFlash sess tag (toLe 4 0 ++ w)) s fun t =>
      Replied s t sess cLayoutFlash tag .ok (layBody none) ∧
      t = { s with owl := t.owl, flash :=
        if s.owl.bankB then { s.flash with a := { s.flash.a with lay := w } } else { s.flash with b := { s.flash.b with lay := w } } }) ∧
  (∀ (s : State) (sess : Nat) (tag : W32), s.Hears sess →
    Leads (.rollbackAdvance sess tag [0]) s fun t =>
      t = { s with owl := t.owl, flash := t.flash, fuse := { s.fuse with fwCnt := max s.fuse.fwCnt s.runningFw.1 } } ∧
      Replied s t sess cRollback tag .ok (toLe 1 t.fuse.fwCnt)) ∧
  (∀ (s : State) (sess : Nat) (tag : W32) (l : Layout), s.Hears sess → s.lay = some l →
    Leads (.rollbackAdvance sess tag [1]) s fun t =>
      t = { s with owl := t.owl, flash := t.flash, fuse := { s.fuse with layCnt := max s.fuse.layCnt l.rollback } } ∧
      Replied s t sess cRollback tag .ok (toLe 1 t.fuse.layCnt))

/-- R541–R546, R549: keys, firmware banks, a restart of Owl, the WARM_RESET command, and the power cap's setting. -/
def Obligations.OwlFirmware : Prop :=
  (∀ (s : State) (sess i : Nat) (tag : W32) (b : Bytes), s.Hears sess → b.length = 160 → keyBodyOk b = true →
    s.keyStatus b = .ok → fld b 0 1 = 1 → i = fld b 1 1 →
    Leads (.keyInstall sess tag b) s fun t =>
      t = { s with owl := t.owl, flash := { s.flash.rewritten s.clk with layKeys := t.flash.layKeys } } ∧
      Replied s t sess cKeyInstall tag .ok [] ∧
      thas t.flash.layKeys i = true ∧ tget [] t.flash.layKeys i = slice b 24 64) ∧
  (∀ (s : State) (sess i : Nat) (tag : W32) (b : Bytes), s.Hears sess → b.length = 160 → keyBodyOk b = true →
    s.keyStatus b = .ok → fld b 0 1 = 2 → i = fld b 1 1 →
    Leads (.keyInstall sess tag b) s fun t =>
      t = { s with owl := t.owl, flash := { s.flash.rewritten s.clk with layKeys := t.flash.layKeys } } ∧
      Replied s t sess cKeyInstall tag .ok [] ∧
      thas t.flash.layKeys i = false) ∧
  (∀ (s : State) (sess : Nat) (tag : W32) (b : Bytes), s.Hears sess → b.length = 160 → keyBodyOk b = true → s.keyStatus b ≠ .ok →
    Leads (.keyInstall sess tag b) s fun t =>
      t = { s with owl := t.owl } ∧ Replied s t sess cKeyInstall tag (s.keyStatus b) []) ∧
  (∀ (s : State) (sess v : Nat) (tag : W32) (w : Bytes), s.Hears sess → (s.sess sess).held cFwWrite = [] →
    w.length + 4 ≤ bodyMax → s.fwStatus w = .ok → v = (Config.fwHeader (slice w 0 256)).2.1 →
    Leads (.fwWrite sess tag (toLe 4 0 ++ w)) s fun t =>
      t = { s with owl := t.owl, flash := t.flash } ∧ Replied s t sess cFwWrite tag .ok [] ∧
      (s.owl.bankB = true → t.flash.a = { s.flash.a with fw := some (v, w) } ∧ t.flash.b = s.flash.b) ∧
      (s.owl.bankB = false → t.flash.b = { s.flash.b with fw := some (v, w) } ∧ t.flash.a = s.flash.a)) ∧
  (∀ (s : State) (sess : Nat) (tag : W32) (w : Bytes), s.Hears sess → (s.sess sess).held cFwWrite = [] →
    w.length + 4 ≤ bodyMax → s.fwStatus w ≠ .ok →
    Leads (.fwWrite sess tag (toLe 4 0 ++ w)) s fun t =>
      t = { s with owl := t.owl } ∧ Replied s t sess cFwWrite tag (s.fwStatus w) []) ∧
  (∀ (s : State) (sess : Nat) (tag : W32) (b : Bool), s.Hears sess → s.bootMode ≠ 1 →
    Leads (.fwSelect sess tag [if b then 1 else 0]) s fun t =>
      t = { s with owl := t.owl, flash := { s.flash.rewritten s.clk with preferB := b } } ∧
      Replied s t sess cFwSelect tag .ok []) ∧
  (∀ (s : State) (sess : Nat) (tag : W32) (b : Bool), s.Hears sess → s.bootMode = 1 →
    Leads (.fwSelect sess tag [if b then 1 else 0]) s fun t =>
      t = { s with owl := t.owl } ∧ Replied s t sess cFwSelect tag .unsupported []) ∧
  (∀ (s : State) (sess : Nat) (tag : W32), s.Hears sess → s.noRestart = false →
    Leads (.owlRestart sess tag []) s fun t =>
      t = { s with owl := t.owl, flash := t.flash, top := { s.top with owlUp := false } } ∧ Replied s t sess cOwlRestart tag .ok [] ∧
      t.owl.st = .restarting ∧ t.owl.sessions = [] ∧ t.owl.failA = false ∧ t.owl.failB = false) ∧
  (∀ (s : State) (sess : Nat) (tag : W32), s.sessOpen sess = true → s.owl.st = .run → s.life ≠ 4 → s.noRestart = true →
    Leads (.owlRestart sess tag []) s fun t => t = { s with owl := t.owl } ∧ Replied s t sess cOwlRestart tag .retryLater []) ∧
  (∀ (s : State) (sess : Nat) (tag : W32), s.Hears sess → s.pwrgood = true → s.thermtrip = false → s.phase = .running →
    s.top.ready = true → s.sec.wipeRun = false → s.owl.pwr = .run → s.owl.transit = false → s.owl.hibWbk = [] →
    Leads (.warmReset sess tag []) s fun t =>
      t.top.ready = false ∧ t.phase = .warmFlush ∧ t.arms = [] ∧ Replied s t sess cWarmReset tag .ok [] ∧ t.flash = s.flash ∧
      t.fuse = s.fuse) ∧
  (∀ (s : State) (sess w : Nat) (tag : W32), s.Hears sess → w = 0 ∨ (400 ≤ w ∧ w ≤ 1150) →
    Leads (.powerCap sess tag (toLe 2 w)) s fun t =>
      t = { s with owl := t.owl } ∧ t.owl.cap = w ∧ Replied s t sess cPowerCap tag .ok (toLe 2 w)) ∧
  (∀ (s : State) (sess w : Nat) (tag : W32), s.Hears sess → 0 < w → w < 400 ∨ 1150 < w → w < 65536 →
    Leads (.powerCap sess tag (toLe 2 w)) s fun t =>
      t = { s with owl := t.owl } ∧ t.owl.cap = s.owl.cap ∧ Replied s t sess cPowerCap tag .badDescriptor [])

/-- R503–R506, R514, R518, R524, R526, R542: lifecycle orders, the end of the refurbishment wipe, attestation, and the debug
commands. -/
def Obligations.OwlSecurity : Prop :=
  (∀ (s : State) (sess : Nat) (tag : W32) (b : Bytes), s.Hears sess → s.orderStatus b ≠ .ok →
    Leads (.lifecycle sess tag b) s fun t =>
      t = { s with owl := t.owl, sec := { s.sec with ordRefused := sat s.sec.ordRefused, evstat := setBit s.sec.evstat 0 } } ∧
      Replied s t sess cLifecycle tag (s.orderStatus b)
        (if s.orderStatus b = .conflict then toLe 4 (lcCount s.sec.life) ++ toLe 4 s.flash.bootcnt.toNat else [])) ∧
  (∀ (s : State) (sess i : Nat) (tag : W32) (b : Bytes), s.Hears sess → s.orderStatus b = .ok → fld b 4 1 = 2 → s.life ≠ 2 →
    s.nextFuse = some i →
    Leads (.lifecycle sess tag b) s fun t =>
      Replied s t sess cLifecycle tag .ok [] ∧ t.fuse = { s.fuse with life := setBit s.fuse.life i } ∧
      t.sec = { s.sec with life := setBit s.fuse.life i } ∧ t.dram = s.dram ∧ t.scr = s.scr ∧ t.parts = s.parts) ∧
  (∀ (s : State) (sess i : Nat) (tag : W32) (b : Bytes), s.Hears sess → s.orderStatus b = .ok → fld b 4 1 = 3 → s.life ≠ 3 →
    s.nextFuse = some i →
    Leads (.lifecycle sess tag b) s fun t =>
      Replied s t sess cLifecycle tag .ok [] ∧ t.fuse = { s.fuse with life := setBit s.fuse.life i } ∧
      t.sec.wipeRun = true ∧ t.sec.wipeDone = false ∧ t.flash.wiped = false ∧
      ∀ p ∈ s.partList, (t.part p).opHold = true) ∧
  (∀ (s : State) (sess : Nat) (tag : W32) (b : Bytes), s.Hears sess → s.orderStatus b = .ok → fld b 4 1 = 4 →
    Leads (.lifecycle sess tag b) s fun t =>
      Replied s t sess cLifecycle tag .ok [] ∧
      t.fuse = { s.fuse with life := setBit s.fuse.life 127, ones := true } ∧ t.sec.slots = []) ∧
  (∀ (s : State) (sess : Nat) (tag : W32) (b : Bytes), s.Hears sess → s.orderStatus b = .ok → fld b 4 1 = s.life →
    State.openD2 b = true →
    Leads (.lifecycle sess tag b) s fun t =>
      Replied s t sess cLifecycle tag .ok [] ∧ t.sec = { s.sec with d2 := true, slots := [] } ∧ t.fuse = s.fuse ∧
      ∀ p < 32, (t.part p).dbg.key = none ∧ (t.part p).dbg.token = none) ∧
  (∀ (s : State) (sess : Nat) (tag : W32) (b : Bytes), s.Hears sess → s.orderStatus b = .ok → fld b 4 1 = s.life →
    State.newRoot b = true → State.openD2 b = false →
    Leads (.lifecycle sess tag b) s fun t =>
      t = { s with owl := t.owl, flash := { s.flash.rewritten s.clk with root := some (slice b 128 64) } } ∧
      Replied s t sess cLifecycle tag .ok []) ∧
  (∀ s : State, s.sec.wipeRun = true → s.sec.wipeKeys = true → s.owl.warmHeld = false →
    Leads .wipeComplete s fun t =>
      t.flash.wiped = true ∧ t.sec.wipeRun = false ∧ t.sec.wipeDone = true ∧ t.scr = [] ∧ t.fuse = s.fuse ∧
      ∀ a, (s.chan (locChan a)).st ≠ .failed → (s.chan (locChan a)).out.getLsbD (locRank a) = false → cget t.dram a = 0) ∧
  (∀ (s : State) (sess : Nat) (tag : W32), s.Hears sess →
    Leads (.spdm sess tag [0x10, 0x84, 0, 0]) s fun t =>
      t = { s with owl := t.owl } ∧ Replied s t sess cSpdm tag .ok [0x10, 0x04, 0, 0, 0, 1, 0, 0x12] ∧
      (t.sess sess).spdm.stage = 1) ∧
  (∀ (s : State) (sess : Nat) (tag : W32), s.sessOpen sess = true → s.owl.st = .run → s.life = 4 →
    Leads (.spdm sess tag [0x10, 0x84, 0, 0]) s fun t =>
      t = { s with owl := t.owl } ∧ Replied s t sess cSpdm tag .ok [0x12, 0x7F, 5, 0]) ∧
  (∀ (s : State) (sess p k : Nat) (tag first : W32), s.Hears sess → p < 32 → 1 ≤ k → k ≤ 3 → s.d1 p (k - 1) = true →
    Leads (.debugRead sess tag (toLe 1 p ++ toLe 1 k ++ [0, 0] ++ toLe 4 first.toNat)) s fun t =>
      t = { s with owl := t.owl } ∧ Replied s t sess cDebugRead tag .ok (s.debugBody sess p k first)) ∧
  (∀ (s : State) (sess p k : Nat) (tag first : W32), s.Hears sess → p < 32 → 1 ≤ k → k ≤ 3 → s.d1 p (k - 1) = false →
    Leads (.debugRead sess tag (toLe 1 p ++ toLe 1 k ++ [0, 0] ++ toLe 4 first.toNat)) s fun t =>
      t = { s with owl := t.owl } ∧ Replied s t sess cDebugRead tag .permFault []) ∧
  (∀ (s : State) (sess : Nat) (tag : W32) (b : Bytes), s.Hears sess → 16 ≤ b.length → s.sec.d2 = false →
    (s.haltOk sess 1 b = true → Leads (.debugHaltHalt sess tag b) s fun t => Replied s t sess cDebugHalt tag .permFault []) ∧
    (s.haltOk sess 2 b = true → Leads (.debugHaltResume sess tag b) s fun t => Replied s t sess cDebugHalt tag .permFault []) ∧
    (s.haltOk sess 3 b = true → Leads (.debugHaltRead sess tag b) s fun t => Replied s t sess cDebugHalt tag .permFault []) ∧
    (s.haltOk sess 4 b = true → Leads (.debugHaltWrite sess tag b) s fun t =>
      t = { s with owl := t.owl } ∧ Replied s t sess cDebugHalt tag .permFault [])) ∧
  (∀ (s : State) (sess e : Nat) (tag : W32) (b : Bytes), s.Hears sess → 16 ≤ b.length → s.sec.d2 = true →
    s.haltOk sess 1 b = true → fld b 1 1 = 1 → e = fld b 2 2 →
    Leads (.debugHaltHalt sess tag b) s fun t =>
      t = { s with owl := t.owl, engines := t.engines } ∧ t.eng e = { s.eng e with halted := true } ∧
      (∀ j, j ≠ e → t.eng j = s.eng j) ∧ Replied s t sess cDebugHalt tag .ok []) ∧
  (∀ (s : State) (sess e : Nat) (tag : W32) (b : Bytes), s.Hears sess → 16 ≤ b.length → s.sec.d2 = true →
    s.haltOk sess 2 b = true → fld b 1 1 = 1 → e = fld b 2 2 → (∀ u ∈ s.txns, u.phase ≠ .parked) →
    Leads (.debugHaltResume sess tag b) s fun t =>
      t = { s with owl := t.owl, engines := t.engines } ∧ t.eng e = { s.eng e with halted := false } ∧
      (∀ j, j ≠ e → t.eng j = s.eng j) ∧ Replied s t sess cDebugHalt tag .ok []) ∧
  (∀ (s : State) (sess a n : Nat) (tag : W32) (b : Bytes), s.Hears sess → 16 ≤ b.length → s.sec.d2 = true →
    s.haltOk sess 3 b = true → fld b 1 1 = 4 → a = fld b 8 8 → n = fld b 4 4 → s.scrArea.1 ≤ a →
    a + n ≤ s.scrArea.1 + s.scrArea.2 →
    Leads (.debugHaltRead sess tag b) s fun t =>
      t = { s with owl := t.owl, free := t.free } ∧ Replied s t sess cDebugHalt tag .ok (cgets s.scr (a - s.scrArea.1) n)) ∧
  (∀ (s : State) (sess a : Nat) (tag : W32) (b : Bytes), s.Hears sess → 16 ≤ b.length → s.sec.d2 = true →
    s.haltOk sess 4 b = true → fld b 1 1 = 4 → a = fld b 8 8 → s.scrArea.1 ≤ a →
    a + (b.length - 16) ≤ s.scrArea.1 + s.scrArea.2 →
    Leads (.debugHaltWrite sess tag b) s fun t =>
      t = { s with owl := t.owl, scr := cputs s.scr (a - s.scrArea.1) (b.drop 16), scrPois := t.scrPois } ∧
      Replied s t sess cDebugHalt tag .ok [])

/-- R537, R542, R547–R555: the board: PMBus transactions, the management settings, sensors, the power cap, regulators, the
event log and the ledger's timed entries, and the SMBus target. -/
def Obligations.OwlBoard : Prop :=
  (∀ (s : State) (sess : Nat) (tag : W32) (b d : Bytes), s.Hears sess → 4 ≤ b.length → s.pmOk b = true →
    (Leads (.pmbus sess tag b (some d)) s fun t =>
      t = { s with owl := t.owl } ∧ t.owl.pmOut = s.owl.pmOut ++ [b] ∧ Replied s t sess cPmbus tag .ok (pmData (fld b 2 1) d)) ∧
    Leads (.pmbus sess tag b none) s fun t =>
      t = { s with owl := t.owl } ∧ t.owl.pmOut = s.owl.pmOut ++ [b] ∧ Replied s t sess cPmbus tag .timeout []) ∧
  (∀ (s : State) (sess : Nat) (tag : W32) (b : Bytes) (r : Option Bytes), s.Hears sess → b.length < 4 ∨ s.pmOk b = false →
    Leads (.pmbus sess tag b r) s fun t =>
      t = { s with owl := t.owl } ∧ t.owl.pmOut = s.owl.pmOut ∧ Replied s t sess cPmbus tag .badDescriptor []) ∧
  (∀ (s : State) (sess : Nat) (tag : W32) (b : Bytes), s.Hears sess → sess < 4 → b.length = 64 → fld b 0 1 ≤ 3 → fld b 3 1 = 0 →
    fld b 6 2 = 0 → fld b 14 2 = 0 → fld b 56 8 = 0 →
    Leads (.mgtConfig sess tag b) s fun t =>
      t = { s with owl := t.owl, flash := { s.flash.rewritten s.clk with mgt := b } } ∧ t.owl.mgtNew = some b ∧ t.owl.mgt = s.owl.mgt ∧
      Replied s t sess cMgtConfig tag .ok []) ∧
  (∀ (s : State) (temps : List Int) (mv : List Nat), s.owl.st = .run → s.due 2 Config.msClk = true →
    Leads (.sensorSample temps mv) s fun t =>
      t = { s with owl := t.owl, cadence := t.cadence } ∧ t.owl.temps = temps ∧ t.owl.mv = mv ∧ t.owl.smTemps = temps ∧ t.owl.smMv = mv ∧
      t.owl.smP = s.devPower ∧ t.owl.smStale = false ∧ t.owl.upMs = s.owl.upMs + 1) ∧
  (∀ (s : State) (share : Nat), s.owl.st = .run → s.due 3 Config.msClk = true →
    share = shareStep s.owl.cap s.devPower (maxTemp s.owl.temps) s.owl.engShare.toNat →
    Leads .powerCapUpdate s fun t =>
      t = { s with owl := t.owl, cadence := t.cadence } ∧ t.owl.engShare = BitVec.ofNat 8 share ∧ t.owl.active = decide (share < 128) ∧
      t.owl.energy = s.owl.energy + s.devPower ∧
      t.owl.evq.length = s.owl.evq.length + (if s.owl.active = decide (share < 128) then 0 else 1)) ∧
  (∀ (s : State) (i p : Nat) (w : BitVec 16), s.owl.st = .run → s.flash.regNamed.contains i = true → s.flash.regs.contains i = true →
    s.due (16 + i) Config.msClk = true → s.due (32 + i) (100 * Config.msClk) = true →
    Leads (.regulatorPoll i p w) s fun t =>
      t = { s with owl := t.owl, cadence := t.cadence } ∧ tget 0 t.owl.pout i = p ∧
      t.owl.evq.length = s.owl.evq.length + (if w &&& statusFaults = 0 then 0 else 1)) ∧
  (∀ s : State, s.owl.st = .run →
    Leads .eventLogFlush s fun t =>
      t = { s with owl := { s.owl with evq := [] }, flash := t.flash } ∧
      t.flash.log = lastN 32768 (s.flash.log ++ s.owl.evq) ∧
      t.flash.logSeq = s.flash.logSeq + BitVec.ofNat 32 s.owl.evq.length) ∧
  (∀ s : State, s.owl.st = .run → s.due 4 hourClk = true → s.owl.summaries < 23 → 1048576 + s.ledgerBytes ≤ 67108864 →
    Leads .ledgerSummary s fun t => ∃ e : LedEnt, e.ty = 1 ∧
      t = { s with
        cadence := t.cadence
        owl := { s.owl with summaries := s.owl.summaries + 1 }, flash := { s.flash with ledger := s.flash.ledger ++ [e] } }) ∧
  (∀ s : State, Config.ms10Clk + s.owl.smSince ≤ s.clk →
    exec .smbusStale s = .next { s with owl := { s.owl with smStale := true } }) ∧
  (∀ s : State, s.clk < Config.ms10Clk + s.owl.smSince → exec .smbusStale s = .next s) ∧
  (∀ (s : State) (code v : Byte), s.pwrgood = true → s.thermtrip = false →
    exec (.smbusRead code) s = .next { s with owl := { s.owl with smOut := s.owl.smOut ++ [s.smValue code] } } ∧
    exec (.smbusWrite code v) s = .next { s with owl := { s.owl with smOut := s.owl.smOut ++ [[]] } })

/-! ### The host interface -/

/-- R101, R557–R559, R575, R577: a host port's enable and link, the frames that it answers or drops, and priority flow control. -/
def Obligations.HostPorts : Prop :=
  (∀ (s : State) (k : Nat) (v : Bool), k < 2 → s.CanKey .owl (0xB01004 + 0x100 * k) →
    Leads (.hostPortEnable k v) s fun t =>
      OnlyHost k { s with arms := t.arms } t ∧ (t.hport k).ctrl.getLsbD 0 = v ∧
      (t.hport k).up = ((s.hport k).up && v) ∧ (t.hport k).mac = (s.hport k).mac) ∧
  (∀ (s : State) (k : Nat), s.top.layoutOk = false ∨ (s.hport k).ctrl.getLsbD 0 = false → exec (.hostLinkUp k) s = .next s) ∧
  (∀ (s : State) (k : Nat), (s.hport k).ctrl.getLsbD 0 = true → s.top.layoutOk = true →
    Leads (.hostLinkUp k) s fun t =>
      OnlyHost k s t ∧ t.hport k = { s.hport k with
        width := if (s.hport k).ctrl.getLsbD 1 then 2 else 1, align := true, up := true }) ∧
  (∀ (s : State) (k : Nat),
    Leads (.hostLinkDown k) s fun t =>
      OnlyHost k s t ∧ t.hport k = { s.hport k with width := 0, align := false, up := false }) ∧
  (∀ (s : State) (k : Nat) (f : Frame) (kind : Nat) (c : Instr), (s.hport k).up = true → (s.hport k).takes f = true →
    f.fragment = false → f.dstMac = (s.hport k).mac → (s.hport k).mine f = true →
    (c = .arpRequest k f ∧ f.v6 = false ∧ kind = 0) ∨ (c = .neighbourSolicitation k f ∧ f.v6 = true ∧ kind = 1) ∨
      (c = .echoRequest k f ∧ kind = 2) →
    Leads c s fun t =>
      OnlyHost k s t ∧ ∃ g : HSent, t.hport k = { s.hport k with sent := (s.hport k).sent ++ [g] } ∧ g.kind = kind ∧
        g.srcMac = (s.hport k).mac ∧ g.dstMac = f.srcMac ∧ g.data = f.payload) ∧
  (∀ (s : State) (k : Nat) (f : Frame) (c : Instr), (s.hport k).up = true → (s.hport k).takes f = false →
    c = .arpRequest k f ∨ c = .neighbourSolicitation k f ∨ c = .echoRequest k f →
    Leads c s fun t => OnlyHost k s t ∧ t.hport k = { s.hport k with rxdrop := sat (s.hport k).rxdrop }) ∧
  (∀ (s : State) (k i : Nat) (n : BitVec 16), i < 8 → (s.hport k).up = true → n ≠ 0 →
    Leads (.pfcFrame k (List.replicate i none ++ [some n])) s fun t =>
      OnlyHost k s t ∧ thas (t.hport k).paused i = true ∧
      tget 0 (t.hport k).paused i = s.clk + pauseClks (s.hport k).width n.toNat) ∧
  (∀ (s : State) (k i : Nat), i < 8 → (s.hport k).up = true →
    Leads (.pfcFrame k (List.replicate i none ++ [some 0])) s fun t => OnlyHost k s t ∧ thas (t.hport k).paused i = false) ∧
  (∀ (s : State) (k : Nat), (s.hport k).xoffed = true → s.rxLoad k ≤ (s.hport k).xon * 1024 →
    Leads (.pfcXon k) s fun t => OnlyHost k s t ∧ t.hport k = { s.hport k with
      xoffed := false, sent := (s.hport k).sent ++ if (s.hport k).up then [(s.hport k).pfcFrame 9] else [] }) ∧
  (∀ (s : State) (k i : Nat), thas (s.hport k).paused i = true → tget 0 (s.hport k).paused i ≤ s.clk →
    Leads (.pfcPauseExpiry k i) s fun t => OnlyHost k s t ∧ thas (t.hport k).paused i = false)

/-- R560–R569, R571–R576: RoCEv2 requests: writes, reads and atomics ask their lines of the pool and take their PSNs; a packet
out of sequence, of an unsupported opcode, or repeated is answered; CNPs, ACKs, and the states of a queue pair. -/
def Obligations.HostRequests : Prop :=
  (∀ (s : State) (k q : Nat) (pk : Packet) (a : BitVec 16), s.Next k q pk → (s.qp q).wrOn = false →
    s.keyCheck (s.qp q) pk.rkey pk.va.toNat pk.dmaLen.toNat 8 false = .ok (false, a) → 1 ≤ pk.data.length →
    pk.data.length = pk.dmaLen.toNat → pk.data.length ≤ (s.qp q).mtu →
    s.HostMisses q a ((lineWrites pk.va.toNat pk.data).map (·.1)) →
    Leads (.rdmaWriteOnly k pk) s fun t =>
      HostIssued s t q a (lineWrites pk.va.toNat pk.data) ∧ (t.qp q).epsn = (s.qp q).epsn + 1 ∧ (t.qp q).wrOn = false) ∧
  (∀ (s : State) (k q : Nat) (pk : Packet) (a : BitVec 16), s.Next k q pk → (s.qp q).wrOn = false →
    s.keyCheck (s.qp q) pk.rkey pk.va.toNat pk.dmaLen.toNat 8 false = .ok (false, a) → pk.data.length = (s.qp q).mtu →
    pk.data.length < pk.dmaLen.toNat → s.HostMisses q a ((lineWrites pk.va.toNat pk.data).map (·.1)) →
    Leads (.rdmaWriteFirst k pk) s fun t =>
      HostIssued s t q a (lineWrites pk.va.toNat pk.data) ∧ (t.qp q).epsn = (s.qp q).epsn + 1 ∧ (t.qp q).wrOn = true ∧
      (t.qp q).wrVa = pk.va.toNat + pk.data.length ∧ (t.qp q).wrLeft = pk.dmaLen.toNat - pk.data.length) ∧
  (∀ (s : State) (k q : Nat) (pk : Packet) (a : BitVec 16), s.Next k q pk → (s.qp q).wrOn = true → (s.qp q).wrKey.toNat < 65536 →
    a = BitVec.ofNat 16 (s.qp q).wrKey.toNat → pk.data.length = (s.qp q).mtu → pk.data.length < (s.qp q).wrLeft →
    s.HostMisses q a ((lineWrites (s.qp q).wrVa pk.data).map (·.1)) →
    Leads (.rdmaWriteMiddle k pk) s fun t =>
      HostIssued s t q a (lineWrites (s.qp q).wrVa pk.data) ∧ (t.qp q).epsn = (s.qp q).epsn + 1 ∧ (t.qp q).wrOn = true ∧
      (t.qp q).wrVa = (s.qp q).wrVa + pk.data.length ∧ (t.qp q).wrLeft = (s.qp q).wrLeft - pk.data.length) ∧
  (∀ (s : State) (k q : Nat) (pk : Packet) (a : BitVec 16), s.Next k q pk → (s.qp q).wrOn = true → (s.qp q).wrKey.toNat < 65536 →
    a = BitVec.ofNat 16 (s.qp q).wrKey.toNat → 1 ≤ pk.data.length → pk.data.length ≤ (s.qp q).mtu →
    pk.data.length = (s.qp q).wrLeft → s.HostMisses q a ((lineWrites (s.qp q).wrVa pk.data).map (·.1)) →
    Leads (.rdmaWriteLast k pk) s fun t =>
      HostIssued s t q a (lineWrites (s.qp q).wrVa pk.data) ∧ (t.qp q).epsn = (s.qp q).epsn + 1 ∧ (t.qp q).wrOn = false) ∧
  (∀ (s : State) (k q n : Nat) (pk : Packet) (a : BitVec 16), s.Next k q pk → (s.qp q).wrOn = false → n = pk.dmaLen.toNat → 1 ≤ n →
    s.keyCheck (s.qp q) pk.rkey pk.va.toNat n 4 false = .ok (false, a) →
    s.HostMisses q a ((piecesOf pk.va.toNat n []).map (·.va)) →
    Leads (.rdmaReadRequest k pk) s fun t =>
      (t.qp q).epsn = (s.qp q).epsn + BitVec.ofNat 24 (max 1 ((n + (s.qp q).mtu - 1) / (s.qp q).mtu)) ∧
      ∃ us, t.txns = s.txns ++ us ∧ us.map (·.va) = (piecesOf pk.va.toNat n []).map (·.va) ∧
        ∀ u ∈ us, u.kind = .host ∧ u.unit = q ∧ u.asid = a ∧ u.ty = .rdOnce) ∧
  (∀ (s : State) (k q : Nat) (pk : Packet) (pg : Bool) (a : BitVec 16), s.Next k q pk → (s.qp q).wrOn = false →
    s.keyCheck (s.qp q) pk.rkey pk.va.toNat 8 28 true = .ok (pg, a) → s.HostMisses q a [pk.va.toNat] →
    (Leads (.compareSwap k pk) s fun t =>
      (t.qp q).epsn = (s.qp q).epsn + 1 ∧ ∃ u, t.txns = s.txns ++ [u] ∧ u.kind = .host ∧ u.unit = q ∧ u.asid = a ∧
        u.ty = .atomic ∧ u.op = 9 ∧ u.va = pk.va.toNat ∧ u.opnd = [pk.swap ++ pk.cmp]) ∧
    Leads (.fetchAdd k pk) s fun t =>
      (t.qp q).epsn = (s.qp q).epsn + 1 ∧ ∃ u, t.txns = s.txns ++ [u] ∧ u.kind = .host ∧ u.unit = q ∧ u.asid = a ∧
        u.ty = .atomic ∧ u.op = 0 ∧ u.va = pk.va.toNat ∧ u.opnd = [pk.swap.setWidth 128]) ∧
  (∀ (s : State) (k q : Nat) (pk : Packet) (v : W64), s.Takes k q pk → psnPlace pk.psn (s.qp q).epsn = 2 →
    (s.qp q).atomics.find? (fun e => e.1 == pk.psn) = some (pk.psn, v) →
    (Leads (.compareSwap k pk) s fun t => Sends s t k q 6 pk.psn 0 (toLe 8 v.toNat) ∧ t.txns = s.txns) ∧
    Leads (.fetchAdd k pk) s fun t => Sends s t k q 6 pk.psn 0 (toLe 8 v.toNat) ∧ t.txns = s.txns) ∧
  (∀ (s : State) (k q : Nat) (pk : Packet), s.Takes k q pk → psnPlace pk.psn (s.qp q).epsn = 1 → (s.qp q).nakSent = false →
    Leads (.rdmaWriteOnly k pk) s fun t =>
      Sends s t k q 4 (s.qp q).epsn 0x60 [] ∧ t.qp q = { s.qp q with nakSent := true } ∧ t.txns = s.txns) ∧
  (∀ (s : State) (k q : Nat) (pk : Packet), s.Next k q pk → (s.qp q).ackDue = none →
    Leads (.unsupportedOpcode k pk) s fun t =>
      Sends s t k q 4 pk.psn 0x61 [] ∧ (t.qp q).error = true ∧ (t.qp q).pend = [] ∧ t.hst.evstat = true ∧
      t.hst.qperrs = sat s.hst.qperrs ∧ t.txns = s.txns) ∧
  (∀ (s : State) (k q : Nat) (pk : Packet), s.Takes k q pk →
    Leads (.cnpReceive k pk) s fun t => t.qp q = { s.qp q with rate := (s.qp q).rate / 2, cnpIn := s.clk } ∧ t.txns = s.txns) ∧
  (∀ (s : State) (q : Nat), 55 * Config.usClk + (s.qp q).cnpIn ≤ s.clk →
    Leads (.cnpRateRecovery q) s fun t =>
      t = { s with hst := { s.hst with qps := t.hst.qps } } ∧ (∀ j, j ≠ q → t.qp j = s.qp j) ∧
      t.qp q = { s.qp q with rate := (s.qp q).rate + (65536 - (s.qp q).rate) / 8, cnpIn := s.clk }) ∧
  (∀ (s : State) (q : Nat) (psn : BitVec 24), (s.qp q).pend = [] → (s.qp q).ackDue = some psn →
    Leads (.hostAck q) s fun t =>
      t = { s with hst := t.hst, parts := t.parts } ∧ t.qp q = { s.qp q with ackDue := none } ∧
      Sends s t (s.qp q).ackPort q 3 psn 0 []) ∧
  (∀ (s : State) (q : Nat) (p : Pend), (s.qp q).pend = [p] → p.done = true → p.kind = 0 → p.worst = .ok → p.ack = true →
    Leads (.hostAck q) s fun t =>
      t = { s with hst := t.hst, parts := t.parts } ∧ (t.qp q).pend = [] ∧ (t.qp q).ackDue = none ∧
      Sends s t p.port q 3 p.psn 0 []) ∧
  (∀ (s : State) (q : Nat), q < 1024 → s.CanKey .owl (0xB10000 + 32 * q) → (s.qp q).ready = false → (s.qp q).error = false →
    Leads (.qpReady q) s fun t =>
      t = { s with arms := t.arms, hst := t.hst } ∧ (t.qp q).ready = true ∧ (∀ i, i ≠ 0 → (t.qp q).byte i = (s.qp q).byte i) ∧
      ∀ j, j ≠ q → t.qp j = s.qp j) ∧
  (∀ (s : State) (q : Nat), q < 1024 → s.CanKey .owl (0xB10000 + 32 * q) →
    Leads (.qpReset q) s fun t =>
      t = { s with arms := t.arms, hst := t.hst } ∧ (t.qp q).ready = false ∧ (t.qp q).error = false ∧
      ((s.qp q).ready = true ∨ (s.qp q).error = true → (t.qp q).pend = [] ∧ (t.qp q).ackDue = none) ∧
      ∀ j, j ≠ q → t.qp j = s.qp j)

/-! ### The test access port -/

/-- R45, R521, R526, R556: the test access port: BYPASS and IDCODE select themselves, outside D2 every other instruction selects BYPASS, and
nothing else changes. In D2 a push appends a word to the mailbox and the word that ends a packet has it answered; an instruction that the
manual does not name is selected and changes nothing else (the model's choice, log 27). -/
def Obligations.TestAccessPort : Prop :=
  (∀ s : State, exec (.testAccessPortInstruction .bypass) s = .next (s.tapSelect .bypass) ∧
    exec (.testAccessPortInstruction .idcode) s = .next (s.tapSelect .idcode)) ∧
  (∀ (s : State) (ir : TapInstr), s.sec.d2 = false → ir ≠ .idcode →
    exec (.testAccessPortInstruction ir) s = .next (s.tapSelect .bypass)) ∧
  (∀ (s : State) (t : TapSel), s.tapSelect t = { s with sec := { s.sec with tap := t } }) ∧
  (∀ (s : State) (w : W32), s.sec.d2 = true → s.owl.fifo.over_ = false → s.owl.fifo.send.length < 1028 →
    (∀ x ∈ s.owl.fifo.send, x.eop = false) →
    exec (.testAccessPortInstruction (.push w false)) s =
      .next { s.tapSelect .push with
        owl := { s.owl with fifo := { s.owl.fifo with send := s.owl.fifo.send ++ [⟨w, false⟩] } } }) ∧
  (∀ (s : State) (w : W32) (eop : Bool), s.sec.d2 = true → s.owl.fifo.over_ = false → s.owl.fifo.send.length < 1028 →
    s.owl.fifo.recv ≠ [] →
    exec (.testAccessPortInstruction (.push w eop)) s =
      .next { s.tapSelect .push with
        owl := { s.owl with fifo := { s.owl.fifo with send := s.owl.fifo.send ++ [⟨w, eop⟩] } } }) ∧
  (∀ (s : State) (tag : W32), s.Hears mboxSess → s.owl.fifo.over_ = false → s.owl.fifo.recv = [] → s.owl.fifo.dropping = false →
    s.owl.fifo.send = [⟨0x72000C3D, false⟩, ⟨1, false⟩, ⟨0, false⟩] →
    Leads (.testAccessPortInstruction (.push tag true)) s fun t =>
      t = { s.tapSelect .push with owl := t.owl } ∧ t.owl.fifo.send = [] ∧ Replied s t mboxSess cInfo tag .ok s.infoBody) ∧
  (∀ (s : State) (ir : Nat), s.sec.d2 = true →
    exec (.testAccessPortInstruction (.other ir)) s = .next (s.tapSelect (.other ir)))

/-! ### Rules of the manual, as such -/

/-- Every step keeps the numbering of the open requests: each number lies below the next. -/
def Obligations.StepKeepsTxnsNumbered : Prop :=
  ∀ s t : State, s.TxnsNumbered → step s = .next t → t.TxnsNumbered

/-- R49: of several conditions the one reported is the first in the manual's order, which the list writes out. -/
def Obligations.StatusPrecedence : Prop :=
  (∀ l : List Status, (Status.first l ∈ l ∨ l = [] ∧ Status.first l = .ok) ∧ ∀ x ∈ l, (Status.first l).rank ≤ x.rank) ∧
  ([.fenced, .unavailable, .badDescriptor, .unsupported, .alignFault, .badRegion, .xlateFault, .permFault, .keyLost, .formatFault,
    .quota, .retryLater, .epochLost, .conflict, .countOverrun, .timeout, .programFault, .engineLost, .cancelled, .poisoned,
    .ok] : List Status).map Status.rank = List.range 21

/-- R461: the colour of a unit of b bytes and what is taken from the buckets, which count in 1/1,200 of a byte. -/
def Obligations.TokenBuckets : Prop :=
  ∀ (s : State) (p k b arr c : Nat) (rs : Bool) (pol : PolIn) (t : State), s.policer p k = some pol → s.police p k b arr rs = (c, t) →
    ((pol.aware = false ∨ arr = 0) →
      if (s.pqos p k).peak < 1200 * b then
        c = 2 ∧ (t.pqos p k).peak = (s.pqos p k).peak ∧ (t.pqos p k).committed = (s.pqos p k).committed
      else if (s.pqos p k).committed < 1200 * b then
        c = 1 ∧ (t.pqos p k).peak = (s.pqos p k).peak - 1200 * b ∧ (t.pqos p k).committed = (s.pqos p k).committed
      else
        c = 0 ∧ (t.pqos p k).peak = (s.pqos p k).peak - 1200 * b ∧
          (t.pqos p k).committed = (s.pqos p k).committed - 1200 * b) ∧
    (pol.aware = true → arr = 2 →
      c = 2 ∧ (t.pqos p k).peak = (s.pqos p k).peak ∧ (t.pqos p k).committed = (s.pqos p k).committed) ∧
    (pol.aware = true → arr = 1 →
      (t.pqos p k).committed = (s.pqos p k).committed ∧
      if (s.pqos p k).peak < 1200 * b then c = 2 ∧ (t.pqos p k).peak = (s.pqos p k).peak
      else c = 1 ∧ (t.pqos p k).peak = (s.pqos p k).peak - 1200 * b)

/-- R373: the relations of CMP over FP32 codes, by their place in the order of values; its reserved codes are refused. -/
def Obligations.Comparisons : Prop :=
  (∀ (fn : Nat) (a b : W32), fn < 6 → fpNaN a = true ∨ fpNaN b = true → relHolds fn a.toNat b.toNat = decide (fn = 1)) ∧
  (∀ a b : W32, fpNaN a = false → fpNaN b = false →
    relHolds 0 a.toNat b.toNat = decide (fpPlace a = fpPlace b) ∧ relHolds 1 a.toNat b.toNat = decide (fpPlace a ≠ fpPlace b) ∧
    relHolds 2 a.toNat b.toNat = decide (fpPlace a < fpPlace b) ∧ relHolds 3 a.toNat b.toNat = decide (fpPlace a ≤ fpPlace b) ∧
    relHolds 4 a.toNat b.toNat = decide (fpPlace b < fpPlace a) ∧ relHolds 5 a.toNat b.toNat = decide (fpPlace b ≤ fpPlace a)) ∧
  (∀ fn a b : Nat, fCmp fn a b = if relHolds fn a b then 0x3F800000 else 0) ∧
  (∀ (w : W32) (passA : Bool), (insOf w).op = 0x14 → 6 ≤ (insOf w).fn → insOk passA w = false)
end

