-- ==== Sys2Proof/Laws/Memory.lean ====
section
/-! SUPPORT. Memory cells: what each operation leaves to be read, that it keeps the canonical form, and that two canonical
lists that read alike are equal. -/

namespace Sys2Proof.Machine
open Sys2Proof

variable (m : List Host.Cell)

@[simp] theorem cget_nil (a : Nat) : cget [] a = 0 := rfl

theorem cget_filter_addr (p : Nat → Bool) (a : Nat) :
    cget (m.filter fun c => p c.1) a = if p a then cget m a else 0 := by
  induction m with
  | nil => simp [cget]
  | cons c t ih =>
    by_cases hp : p c.1 <;> by_cases ha : c.1 = a <;> simp_all [cget]

theorem cget_cins (a b : Nat) (v : Byte) : cget (cins m a v) b = if a = b then v else cget m b := by
  induction m with
  | nil => simp [cins, cget]
  | cons c t ih =>
    simp only [cins]
    split
    · subst a; simp only [cget]; split <;> rfl
    · split
      · simp [cget]
      · simp only [cget, ih]; split <;> split <;> simp_all

/-- What is read after a byte is written. -/
theorem cget_cput (a b : Nat) (v : Byte) : cget (cput m a v) b = if a = b then v else cget m b := by
  unfold cput
  split
  · rw [cget_filter_addr m (fun x => x != a)]
    by_cases h : a = b
    · simp_all
    · simp [h, Ne.symm h]
  · exact cget_cins m a b v

/-- What is read after bytes are written from `a` on. -/
theorem cget_cputs (a b : Nat) (bs : Bytes) :
    cget (cputs m a bs) b = if a ≤ b ∧ b < a + bs.length then bs.getD (b - a) 0 else cget m b := by
  induction bs generalizing m a with
  | nil => simp only [cputs, List.length_nil]; rw [if_neg (by omega)]
  | cons v bs ih =>
    simp only [cputs, ih, cget_cput, List.length_cons]
    rcases Nat.lt_trichotomy a b with h | h | h
    · have : b - a = (b - (a + 1)) + 1 := by omega
      simp only [this, List.getD_cons_succ]
      have hiff : (a + 1 ≤ b ∧ b < a + 1 + bs.length) ↔ (a ≤ b ∧ b < a + (bs.length + 1)) := by omega
      simp only [hiff, Nat.ne_of_lt h, if_false]
    · subst h; simp
    · simp [show ¬ a ≤ b by omega, show ¬ a + 1 ≤ b by omega, show a ≠ b by omega]

theorem cgets_cputs_same (a : Nat) (bs : Bytes) : cgets (cputs m a bs) a bs.length = bs := by
  have get (n k : Nat) (h : k < n) (x : List Host.Cell) (b : Nat) : (cgets x b n)[k]? = some (cget x (b + k)) := by
    induction n generalizing k b with
    | zero => omega
    | succ n ih =>
      cases k with
      | zero => simp [cgets]
      | succ k => simp [cgets, ih k (by omega), Nat.add_comm, Nat.add_left_comm]
  have len (n : Nat) (x : List Host.Cell) (b : Nat) : (cgets x b n).length = n := by
    induction n generalizing b with
    | zero => rfl
    | succ n ih => simp [cgets, ih]
  apply List.ext_getElem?
  intro k
  by_cases h : k < bs.length
  · rw [get _ _ h, cget_cputs, if_pos (by omega)]; simp [h]
  · rw [List.getElem?_eq_none (by simp [len]; omega), List.getElem?_eq_none (by omega)]

/-- What is read after the bytes `[a, a + n)` are zeroed. -/
theorem cget_czero (a n b : Nat) : cget (czero m a n) b = if a ≤ b ∧ b < a + n then 0 else cget m b := by
  unfold czero
  rw [cget_filter_addr m (fun x => !(decide (a ≤ x) && decide (x < a + n)))]
  by_cases h : a ≤ b ∧ b < a + n
  · simp [h]
  · rw [if_neg h, if_pos]; simpa [-not_and, not_and_or] using h

/-! ### The canonical form -/

theorem cwfFrom_filter (p : Nat → Bool) (lo : Option Nat) (h : cwfFrom lo m = true) :
    cwfFrom lo (m.filter fun c => p c.1) = true := by
  induction m generalizing lo with
  | nil => rfl
  | cons c t ih =>
    simp only [cwfFrom, Bool.and_eq_true, bne_iff_ne] at h
    by_cases hp : p c.1
    · simp only [List.filter_cons, hp, if_true, cwfFrom, Bool.and_eq_true, bne_iff_ne]
      exact ⟨h.1, ih _ h.2⟩
    · simp only [List.filter_cons, hp]
      apply ih
      cases t with
      | nil => rfl
      | cons d t =>
        simp only [cwfFrom, Bool.and_eq_true, bne_iff_ne, decide_eq_true_eq] at h ⊢
        refine ⟨⟨?_, h.2.1.2⟩, h.2.2⟩
        cases lo with
        | none => rfl
        | some l => simp only [decide_eq_true_eq] at *; omega

theorem cwfFrom_cins (lo : Option Nat) (a : Nat) (v : Byte) (hv : v ≠ 0) (hlo : ∀ l, lo = some l → l < a)
    (h : cwfFrom lo m = true) : cwfFrom lo (cins m a v) = true := by
  induction m generalizing lo with
  | nil => simp only [cins, cwfFrom, Bool.and_true, Bool.and_eq_true, bne_iff_ne]; cases lo <;> simp_all
  | cons c t ih =>
    have hc := h
    simp only [cwfFrom, Bool.and_eq_true, bne_iff_ne] at hc
    simp only [cins]
    split
    · rename_i e; subst e
      simp only [cwfFrom, Bool.and_eq_true, bne_iff_ne]; exact ⟨⟨by cases lo <;> simp_all, hv⟩, hc.2⟩
    · split
      · rename_i hlt
        simp only [cwfFrom, Bool.and_eq_true, bne_iff_ne, decide_eq_true_eq]
        exact ⟨⟨by cases lo <;> simp_all, hv⟩, ⟨hlt, hc.1.2⟩, hc.2⟩
      · simp only [cwfFrom, Bool.and_eq_true, bne_iff_ne]
        exact ⟨hc.1, ih _ (by intro l e; cases e; omega) hc.2⟩

/-- A write of a byte keeps the canonical form. -/
theorem cput_wf (a : Nat) (v : Byte) (h : Memory.wf m = true) : Memory.wf (cput m a v) = true := by
  unfold cput
  split
  · exact cwfFrom_filter m (fun x => x != a) none h
  · exact cwfFrom_cins m none a v (by assumption) nofun h

/-- So does a write of bytes. -/
theorem cputs_wf (a : Nat) (bs : Bytes) (h : Memory.wf m = true) : Memory.wf (cputs m a bs) = true := by
  induction bs generalizing m a with
  | nil => exact h
  | cons v bs ih => exact ih _ _ (cput_wf m a v h)

/-- So does the zeroing of a range. -/
theorem czero_wf (a n : Nat) (h : Memory.wf m = true) : Memory.wf (czero m a n) = true :=
  cwfFrom_filter m (fun x => !(decide (a ≤ x) && decide (x < a + n))) none h

theorem cget_of_cwfFrom (lo : Nat) (h : cwfFrom (some lo) m = true) (a : Nat) (ha : a ≤ lo) : cget m a = 0 := by
  induction m generalizing lo with
  | nil => rfl
  | cons c t ih =>
    simp only [cwfFrom, Bool.and_eq_true, decide_eq_true_eq] at h
    simp only [cget, show c.1 ≠ a by omega, if_false]
    exact ih _ h.2 (by omega)

/-- Canonical cells that read alike are the same list: equal memories are equal data. -/
theorem Memory.wf_ext (m' : List Host.Cell) (h : Memory.wf m = true) (h' : Memory.wf m' = true)
    (e : ∀ a, cget m a = cget m' a) : m = m' := by
  suffices go : ∀ lo, cwfFrom lo m = true → cwfFrom lo m' = true → m = m' from go none h h'
  clear h h'
  induction m generalizing m' with
  | nil =>
    intro lo _ h'
    cases m' with
    | nil => rfl
    | cons c t =>
      have := e c.1
      simp only [cwfFrom, Bool.and_eq_true, bne_iff_ne] at h'
      simp [cget] at this; exact absurd this.symm h'.1.2
  | cons c t ih =>
    intro lo h h'
    simp only [cwfFrom, Bool.and_eq_true, bne_iff_ne] at h
    cases m' with
    | nil => have := e c.1; simp [cget] at this; exact absurd this h.1.2
    | cons d u =>
      simp only [cwfFrom, Bool.and_eq_true, bne_iff_ne] at h'
      have hk : c.1 = d.1 := by
        rcases Nat.lt_trichotomy c.1 d.1 with g | g | g
        · have := e c.1
          simp only [cget, if_true, show d.1 ≠ c.1 by omega, if_false] at this
          rw [cget_of_cwfFrom u _ h'.2 _ (by omega)] at this; exact absurd this h.1.2
        · exact g
        · have := e d.1
          simp only [cget, if_true, show c.1 ≠ d.1 by omega, if_false] at this
          rw [cget_of_cwfFrom t _ h.2 _ (by omega)] at this; exact absurd this.symm h'.1.2
      have hv : c.2 = d.2 := by have := e c.1; simpa [cget, hk] using this
      have tail : t = u := by
        refine ih u (fun a => ?_) (some c.1) h.2 (hk ▸ h'.2)
        by_cases ha : c.1 = a
        · rw [cget_of_cwfFrom t _ h.2 _ (by omega), cget_of_cwfFrom u _ h'.2 _ (by omega)]
        · have := e a
          simpa only [cget, ha, hk ▸ ha, if_false] using this
      rw [tail, show c = d from Prod.ext hk hv]

/-- The memory of the state after reset is canonical: it lists nothing. -/
theorem State.reset_memory_wf : Memory.wf State.reset.scr = true ∧ Memory.wf State.reset.dram = true := ⟨rfl, rfl⟩

end Sys2Proof.Machine
end

