-- ==== Sys2Proof/Laws/Tables.lean ====
section
/-! SUPPORT. Sparse tables: what is read after an entry is set or taken back to its reset value. -/

namespace Sys2Proof.Machine
open Sys2Proof

variable {α : Type}

/-- What is read after entry `i` is set. -/
theorem tget_tput (d : α) (t : Tab α) (i j : Nat) (v : α) : tget d (tput t i v) j = if i = j then v else tget d t j := by
  induction t with
  | nil => simp [tput, tget]
  | cons c t ih =>
    simp only [tput]
    split
    · subst i; simp only [tget]; split <;> rfl
    · split
      · simp [tget]
      · simp only [tget, ih]; split <;> split <;> simp_all

@[simp] theorem tget_tput_same (d : α) (t : Tab α) (i : Nat) (v : α) : tget d (tput t i v) i = v := by simp [tget_tput]

theorem tget_tput_other (d : α) (t : Tab α) {i j : Nat} (v : α) (h : i ≠ j) : tget d (tput t i v) j = tget d t j := by
  simp [tget_tput, h]

/-- What is read after entry `i` is back at its reset value. -/
theorem tget_tdel (d : α) (t : Tab α) (i j : Nat) : tget d (tdel t i) j = if i = j then d else tget d t j := by
  induction t with
  | nil => simp [tdel, tget]
  | cons c t ih =>
    simp only [tdel, List.filter_cons, bne_iff_ne, tget] at *
    by_cases h : c.1 = i <;> by_cases g : c.1 = j <;> by_cases e : i = j <;> simp_all [tget]

@[simp] theorem tget_nil (d : α) (i : Nat) : tget d [] i = d := rfl

/-- Whether entry `j` is listed after entry `i` is set. -/
theorem thas_tput (t : Tab α) (i j : Nat) (v : α) : thas (tput t i v) j = (i == j || thas t j) := by
  induction t with
  | nil => simp [tput, thas]
  | cons c t ih =>
    simp only [thas] at ih
    simp only [tput, thas]
    split
    · simp_all
    · split <;> simp_all [Bool.or_left_comm]

theorem thas_tdel (t : Tab α) (i j : Nat) : thas (tdel t i) j = (i != j && thas t j) := by
  rw [Bool.eq_iff_iff]
  simp only [thas, tdel, List.any_eq_true, List.mem_filter, bne_iff_ne, beq_iff_eq, Bool.and_eq_true]
  constructor
  · rintro ⟨x, ⟨hx, hi⟩, hj⟩; exact ⟨fun e => hi (hj.trans e.symm), x, hx, hj⟩
  · rintro ⟨hij, x, hx, hj⟩; exact ⟨x, ⟨hx, fun e => hij (e.symm.trans hj)⟩, hj⟩

/-- An entry that is not listed reads as its reset value. -/
theorem tget_of_not_thas (d : α) (t : Tab α) (i : Nat) (h : thas t i = false) : tget d t i = d := by
  induction t with
  | nil => rfl
  | cons c t ih =>
    simp only [thas, List.any_cons, Bool.or_eq_false_iff, beq_eq_false_iff_ne] at h ih
    simp only [tget, h.1, if_false]; exact ih h.2

end Sys2Proof.Machine
end

