-- ==== Sys2Proof/Laws/State.lean ====
section
/-! SUPPORT. What each update of a bank of `State` leaves to be read: one lemma for each field and each update, and one
for each bank and each update. No proof needs to unfold a record update. -/

namespace Sys2Proof.Machine
open Sys2Proof

variable (s : State) (i j : Nat)

/-! ### `withPending` -/

section
variable (q : List Instr)

@[simp] theorem State.withPending_pwrgood : (s.withPending q).pwrgood = s.pwrgood := rfl
@[simp] theorem State.withPending_wrstN : (s.withPending q).wrstN = s.wrstN := rfl
@[simp] theorem State.withPending_pll : (s.withPending q).pll = s.pll := rfl
@[simp] theorem State.withPending_phase : (s.withPending q).phase = s.phase := rfl
@[simp] theorem State.withPending_clkLost : (s.withPending q).clkLost = s.clkLost := rfl
@[simp] theorem State.withPending_thermtrip : (s.withPending q).thermtrip = s.thermtrip := rfl
@[simp] theorem State.withPending_clk : (s.withPending q).clk = s.clk := rfl
@[simp] theorem State.withPending_top : (s.withPending q).top = s.top := rfl
@[simp] theorem State.withPending_arms : (s.withPending q).arms = s.arms := rfl
@[simp] theorem State.withPending_rwt : (s.withPending q).rwt = s.rwt := rfl
@[simp] theorem State.withPending_lay : (s.withPending q).lay = s.lay := rfl
@[simp] theorem State.withPending_parts : (s.withPending q).parts = s.parts := rfl
@[simp] theorem State.withPending_ports : (s.withPending q).ports = s.ports := rfl
@[simp] theorem State.withPending_setts : (s.withPending q).setts = s.setts := rfl
@[simp] theorem State.withPending_engines : (s.withPending q).engines = s.engines := rfl
@[simp] theorem State.withPending_inq : (s.withPending q).inq = s.inq := rfl
@[simp] theorem State.withPending_sched : (s.withPending q).sched = s.sched := rfl
@[simp] theorem State.withPending_queues : (s.withPending q).queues = s.queues := rfl
@[simp] theorem State.withPending_chans : (s.withPending q).chans = s.chans := rfl
@[simp] theorem State.withPending_scrubs : (s.withPending q).scrubs = s.scrubs := rfl
@[simp] theorem State.withPending_xlt : (s.withPending q).xlt = s.xlt := rfl
@[simp] theorem State.withPending_bur : (s.withPending q).bur = s.bur := rfl
@[simp] theorem State.withPending_qos : (s.withPending q).qos = s.qos := rfl
@[simp] theorem State.withPending_hst : (s.withPending q).hst = s.hst := rfl
@[simp] theorem State.withPending_owl : (s.withPending q).owl = s.owl := rfl
@[simp] theorem State.withPending_flash : (s.withPending q).flash = s.flash := rfl
@[simp] theorem State.withPending_fuse : (s.withPending q).fuse = s.fuse := rfl
@[simp] theorem State.withPending_sec : (s.withPending q).sec = s.sec := rfl
@[simp] theorem State.withPending_txns : (s.withPending q).txns = s.txns := rfl
@[simp] theorem State.withPending_nextTxn : (s.withPending q).nextTxn = s.nextTxn := rfl
@[simp] theorem State.withPending_txn0 : (s.withPending q).txn0 = s.txn0 := rfl
@[simp] theorem State.withPending_dedup : (s.withPending q).dedup = s.dedup := rfl
@[simp] theorem State.withPending_nodes : (s.withPending q).nodes = s.nodes := rfl
@[simp] theorem State.withPending_scr : (s.withPending q).scr = s.scr := rfl
@[simp] theorem State.withPending_scrPois : (s.withPending q).scrPois = s.scrPois := rfl
@[simp] theorem State.withPending_dram : (s.withPending q).dram = s.dram := rfl
@[simp] theorem State.withPending_dramPois : (s.withPending q).dramPois = s.dramPois := rfl
@[simp] theorem State.withPending_dramKey : (s.withPending q).dramKey = s.dramKey := rfl
@[simp] theorem State.withPending_cadence : (s.withPending q).cadence = s.cadence := rfl
@[simp] theorem State.withPending_free : (s.withPending q).free = s.free := rfl
@[simp] theorem State.withPending_fills : (s.withPending q).fills = s.fills := rfl
@[simp] theorem State.withPending_stops : (s.withPending q).stops = s.stops := rfl
@[simp] theorem State.withPending_pending : (s.withPending q).pending = q := rfl
@[simp] theorem State.withPending_get_part : (s.withPending q).part i = s.part i := rfl
@[simp] theorem State.withPending_get_port : (s.withPending q).port i = s.port i := rfl
@[simp] theorem State.withPending_get_sett : (s.withPending q).sett i = s.sett i := rfl
@[simp] theorem State.withPending_get_eng : (s.withPending q).eng i = s.eng i := rfl
@[simp] theorem State.withPending_get_inqOf : (s.withPending q).inqOf i = s.inqOf i := rfl
@[simp] theorem State.withPending_get_queue : (s.withPending q).queue i = s.queue i := rfl
@[simp] theorem State.withPending_get_chan : (s.withPending q).chan i = s.chan i := rfl
@[simp] theorem State.withPending_get_scrub : (s.withPending q).scrub i = s.scrub i := rfl
@[simp] theorem State.withPending_get_hport : (s.withPending q).hport i = s.hport i := rfl
@[simp] theorem State.withPending_get_qp : (s.withPending q).qp i = s.qp i := rfl
@[simp] theorem State.withPending_get_rkey : (s.withPending q).rkey i = s.rkey i := rfl

end

/-! ### `setPart` -/

section
variable (x : PartS)

@[simp] theorem State.setPart_pwrgood : (s.setPart i x).pwrgood = s.pwrgood := rfl
@[simp] theorem State.setPart_wrstN : (s.setPart i x).wrstN = s.wrstN := rfl
@[simp] theorem State.setPart_pll : (s.setPart i x).pll = s.pll := rfl
@[simp] theorem State.setPart_phase : (s.setPart i x).phase = s.phase := rfl
@[simp] theorem State.setPart_clkLost : (s.setPart i x).clkLost = s.clkLost := rfl
@[simp] theorem State.setPart_thermtrip : (s.setPart i x).thermtrip = s.thermtrip := rfl
@[simp] theorem State.setPart_clk : (s.setPart i x).clk = s.clk := rfl
@[simp] theorem State.setPart_top : (s.setPart i x).top = s.top := rfl
@[simp] theorem State.setPart_arms : (s.setPart i x).arms = s.arms := rfl
@[simp] theorem State.setPart_rwt : (s.setPart i x).rwt = s.rwt := rfl
@[simp] theorem State.setPart_lay : (s.setPart i x).lay = s.lay := rfl
@[simp] theorem State.setPart_parts : (s.setPart i x).parts = tput s.parts i x := rfl
@[simp] theorem State.setPart_ports : (s.setPart i x).ports = s.ports := rfl
@[simp] theorem State.setPart_setts : (s.setPart i x).setts = s.setts := rfl
@[simp] theorem State.setPart_engines : (s.setPart i x).engines = s.engines := rfl
@[simp] theorem State.setPart_inq : (s.setPart i x).inq = s.inq := rfl
@[simp] theorem State.setPart_sched : (s.setPart i x).sched = s.sched := rfl
@[simp] theorem State.setPart_queues : (s.setPart i x).queues = s.queues := rfl
@[simp] theorem State.setPart_chans : (s.setPart i x).chans = s.chans := rfl
@[simp] theorem State.setPart_scrubs : (s.setPart i x).scrubs = s.scrubs := rfl
@[simp] theorem State.setPart_xlt : (s.setPart i x).xlt = s.xlt := rfl
@[simp] theorem State.setPart_bur : (s.setPart i x).bur = s.bur := rfl
@[simp] theorem State.setPart_qos : (s.setPart i x).qos = s.qos := rfl
@[simp] theorem State.setPart_hst : (s.setPart i x).hst = s.hst := rfl
@[simp] theorem State.setPart_owl : (s.setPart i x).owl = s.owl := rfl
@[simp] theorem State.setPart_flash : (s.setPart i x).flash = s.flash := rfl
@[simp] theorem State.setPart_fuse : (s.setPart i x).fuse = s.fuse := rfl
@[simp] theorem State.setPart_sec : (s.setPart i x).sec = s.sec := rfl
@[simp] theorem State.setPart_txns : (s.setPart i x).txns = s.txns := rfl
@[simp] theorem State.setPart_nextTxn : (s.setPart i x).nextTxn = s.nextTxn := rfl
@[simp] theorem State.setPart_txn0 : (s.setPart i x).txn0 = s.txn0 := rfl
@[simp] theorem State.setPart_dedup : (s.setPart i x).dedup = s.dedup := rfl
@[simp] theorem State.setPart_nodes : (s.setPart i x).nodes = s.nodes := rfl
@[simp] theorem State.setPart_scr : (s.setPart i x).scr = s.scr := rfl
@[simp] theorem State.setPart_scrPois : (s.setPart i x).scrPois = s.scrPois := rfl
@[simp] theorem State.setPart_dram : (s.setPart i x).dram = s.dram := rfl
@[simp] theorem State.setPart_dramPois : (s.setPart i x).dramPois = s.dramPois := rfl
@[simp] theorem State.setPart_dramKey : (s.setPart i x).dramKey = s.dramKey := rfl
@[simp] theorem State.setPart_cadence : (s.setPart i x).cadence = s.cadence := rfl
@[simp] theorem State.setPart_free : (s.setPart i x).free = s.free := rfl
@[simp] theorem State.setPart_fills : (s.setPart i x).fills = s.fills := rfl
@[simp] theorem State.setPart_stops : (s.setPart i x).stops = s.stops := rfl
@[simp] theorem State.setPart_pending : (s.setPart i x).pending = s.pending := rfl
theorem State.setPart_get_part : (s.setPart i x).part j = if i = j then x else s.part j := tget_tput ..
@[simp] theorem State.setPart_get_part_same : (s.setPart i x).part i = x := tget_tput_same ..
@[simp] theorem State.setPart_get_port : (s.setPart i x).port j = s.port j := rfl
@[simp] theorem State.setPart_get_sett : (s.setPart i x).sett j = s.sett j := rfl
@[simp] theorem State.setPart_get_eng : (s.setPart i x).eng j = s.eng j := rfl
@[simp] theorem State.setPart_get_inqOf : (s.setPart i x).inqOf j = s.inqOf j := rfl
@[simp] theorem State.setPart_get_queue : (s.setPart i x).queue j = s.queue j := rfl
@[simp] theorem State.setPart_get_chan : (s.setPart i x).chan j = s.chan j := rfl
@[simp] theorem State.setPart_get_scrub : (s.setPart i x).scrub j = s.scrub j := rfl
@[simp] theorem State.setPart_get_hport : (s.setPart i x).hport j = s.hport j := rfl
@[simp] theorem State.setPart_get_qp : (s.setPart i x).qp j = s.qp j := rfl
@[simp] theorem State.setPart_get_rkey : (s.setPart i x).rkey j = s.rkey j := rfl

end

/-! ### `setPort` -/

section
variable (x : Port)

@[simp] theorem State.setPort_pwrgood : (s.setPort i x).pwrgood = s.pwrgood := rfl
@[simp] theorem State.setPort_wrstN : (s.setPort i x).wrstN = s.wrstN := rfl
@[simp] theorem State.setPort_pll : (s.setPort i x).pll = s.pll := rfl
@[simp] theorem State.setPort_phase : (s.setPort i x).phase = s.phase := rfl
@[simp] theorem State.setPort_clkLost : (s.setPort i x).clkLost = s.clkLost := rfl
@[simp] theorem State.setPort_thermtrip : (s.setPort i x).thermtrip = s.thermtrip := rfl
@[simp] theorem State.setPort_clk : (s.setPort i x).clk = s.clk := rfl
@[simp] theorem State.setPort_top : (s.setPort i x).top = s.top := rfl
@[simp] theorem State.setPort_arms : (s.setPort i x).arms = s.arms := rfl
@[simp] theorem State.setPort_rwt : (s.setPort i x).rwt = s.rwt := rfl
@[simp] theorem State.setPort_lay : (s.setPort i x).lay = s.lay := rfl
@[simp] theorem State.setPort_parts : (s.setPort i x).parts = s.parts := rfl
@[simp] theorem State.setPort_ports : (s.setPort i x).ports = tput s.ports i x := rfl
@[simp] theorem State.setPort_setts : (s.setPort i x).setts = s.setts := rfl
@[simp] theorem State.setPort_engines : (s.setPort i x).engines = s.engines := rfl
@[simp] theorem State.setPort_inq : (s.setPort i x).inq = s.inq := rfl
@[simp] theorem State.setPort_sched : (s.setPort i x).sched = s.sched := rfl
@[simp] theorem State.setPort_queues : (s.setPort i x).queues = s.queues := rfl
@[simp] theorem State.setPort_chans : (s.setPort i x).chans = s.chans := rfl
@[simp] theorem State.setPort_scrubs : (s.setPort i x).scrubs = s.scrubs := rfl
@[simp] theorem State.setPort_xlt : (s.setPort i x).xlt = s.xlt := rfl
@[simp] theorem State.setPort_bur : (s.setPort i x).bur = s.bur := rfl
@[simp] theorem State.setPort_qos : (s.setPort i x).qos = s.qos := rfl
@[simp] theorem State.setPort_hst : (s.setPort i x).hst = s.hst := rfl
@[simp] theorem State.setPort_owl : (s.setPort i x).owl = s.owl := rfl
@[simp] theorem State.setPort_flash : (s.setPort i x).flash = s.flash := rfl
@[simp] theorem State.setPort_fuse : (s.setPort i x).fuse = s.fuse := rfl
@[simp] theorem State.setPort_sec : (s.setPort i x).sec = s.sec := rfl
@[simp] theorem State.setPort_txns : (s.setPort i x).txns = s.txns := rfl
@[simp] theorem State.setPort_nextTxn : (s.setPort i x).nextTxn = s.nextTxn := rfl
@[simp] theorem State.setPort_txn0 : (s.setPort i x).txn0 = s.txn0 := rfl
@[simp] theorem State.setPort_dedup : (s.setPort i x).dedup = s.dedup := rfl
@[simp] theorem State.setPort_nodes : (s.setPort i x).nodes = s.nodes := rfl
@[simp] theorem State.setPort_scr : (s.setPort i x).scr = s.scr := rfl
@[simp] theorem State.setPort_scrPois : (s.setPort i x).scrPois = s.scrPois := rfl
@[simp] theorem State.setPort_dram : (s.setPort i x).dram = s.dram := rfl
@[simp] theorem State.setPort_dramPois : (s.setPort i x).dramPois = s.dramPois := rfl
@[simp] theorem State.setPort_dramKey : (s.setPort i x).dramKey = s.dramKey := rfl
@[simp] theorem State.setPort_cadence : (s.setPort i x).cadence = s.cadence := rfl
@[simp] theorem State.setPort_free : (s.setPort i x).free = s.free := rfl
@[simp] theorem State.setPort_fills : (s.setPort i x).fills = s.fills := rfl
@[simp] theorem State.setPort_stops : (s.setPort i x).stops = s.stops := rfl
@[simp] theorem State.setPort_pending : (s.setPort i x).pending = s.pending := rfl
@[simp] theorem State.setPort_get_part : (s.setPort i x).part j = s.part j := rfl
theorem State.setPort_get_port : (s.setPort i x).port j = if i = j then x else s.port j := tget_tput ..
@[simp] theorem State.setPort_get_port_same : (s.setPort i x).port i = x := tget_tput_same ..
@[simp] theorem State.setPort_get_sett : (s.setPort i x).sett j = s.sett j := rfl
@[simp] theorem State.setPort_get_eng : (s.setPort i x).eng j = s.eng j := rfl
@[simp] theorem State.setPort_get_inqOf : (s.setPort i x).inqOf j = s.inqOf j := rfl
@[simp] theorem State.setPort_get_queue : (s.setPort i x).queue j = s.queue j := rfl
@[simp] theorem State.setPort_get_chan : (s.setPort i x).chan j = s.chan j := rfl
@[simp] theorem State.setPort_get_scrub : (s.setPort i x).scrub j = s.scrub j := rfl
@[simp] theorem State.setPort_get_hport : (s.setPort i x).hport j = s.hport j := rfl
@[simp] theorem State.setPort_get_qp : (s.setPort i x).qp j = s.qp j := rfl
@[simp] theorem State.setPort_get_rkey : (s.setPort i x).rkey j = s.rkey j := rfl

end

/-! ### `setSett` -/

section
variable (x : Sett)

@[simp] theorem State.setSett_pwrgood : (s.setSett i x).pwrgood = s.pwrgood := rfl
@[simp] theorem State.setSett_wrstN : (s.setSett i x).wrstN = s.wrstN := rfl
@[simp] theorem State.setSett_pll : (s.setSett i x).pll = s.pll := rfl
@[simp] theorem State.setSett_phase : (s.setSett i x).phase = s.phase := rfl
@[simp] theorem State.setSett_clkLost : (s.setSett i x).clkLost = s.clkLost := rfl
@[simp] theorem State.setSett_thermtrip : (s.setSett i x).thermtrip = s.thermtrip := rfl
@[simp] theorem State.setSett_clk : (s.setSett i x).clk = s.clk := rfl
@[simp] theorem State.setSett_top : (s.setSett i x).top = s.top := rfl
@[simp] theorem State.setSett_arms : (s.setSett i x).arms = s.arms := rfl
@[simp] theorem State.setSett_rwt : (s.setSett i x).rwt = s.rwt := rfl
@[simp] theorem State.setSett_lay : (s.setSett i x).lay = s.lay := rfl
@[simp] theorem State.setSett_parts : (s.setSett i x).parts = s.parts := rfl
@[simp] theorem State.setSett_ports : (s.setSett i x).ports = s.ports := rfl
@[simp] theorem State.setSett_setts : (s.setSett i x).setts = tput s.setts i x := rfl
@[simp] theorem State.setSett_engines : (s.setSett i x).engines = s.engines := rfl
@[simp] theorem State.setSett_inq : (s.setSett i x).inq = s.inq := rfl
@[simp] theorem State.setSett_sched : (s.setSett i x).sched = s.sched := rfl
@[simp] theorem State.setSett_queues : (s.setSett i x).queues = s.queues := rfl
@[simp] theorem State.setSett_chans : (s.setSett i x).chans = s.chans := rfl
@[simp] theorem State.setSett_scrubs : (s.setSett i x).scrubs = s.scrubs := rfl
@[simp] theorem State.setSett_xlt : (s.setSett i x).xlt = s.xlt := rfl
@[simp] theorem State.setSett_bur : (s.setSett i x).bur = s.bur := rfl
@[simp] theorem State.setSett_qos : (s.setSett i x).qos = s.qos := rfl
@[simp] theorem State.setSett_hst : (s.setSett i x).hst = s.hst := rfl
@[simp] theorem State.setSett_owl : (s.setSett i x).owl = s.owl := rfl
@[simp] theorem State.setSett_flash : (s.setSett i x).flash = s.flash := rfl
@[simp] theorem State.setSett_fuse : (s.setSett i x).fuse = s.fuse := rfl
@[simp] theorem State.setSett_sec : (s.setSett i x).sec = s.sec := rfl
@[simp] theorem State.setSett_txns : (s.setSett i x).txns = s.txns := rfl
@[simp] theorem State.setSett_nextTxn : (s.setSett i x).nextTxn = s.nextTxn := rfl
@[simp] theorem State.setSett_txn0 : (s.setSett i x).txn0 = s.txn0 := rfl
@[simp] theorem State.setSett_dedup : (s.setSett i x).dedup = s.dedup := rfl
@[simp] theorem State.setSett_nodes : (s.setSett i x).nodes = s.nodes := rfl
@[simp] theorem State.setSett_scr : (s.setSett i x).scr = s.scr := rfl
@[simp] theorem State.setSett_scrPois : (s.setSett i x).scrPois = s.scrPois := rfl
@[simp] theorem State.setSett_dram : (s.setSett i x).dram = s.dram := rfl
@[simp] theorem State.setSett_dramPois : (s.setSett i x).dramPois = s.dramPois := rfl
@[simp] theorem State.setSett_dramKey : (s.setSett i x).dramKey = s.dramKey := rfl
@[simp] theorem State.setSett_cadence : (s.setSett i x).cadence = s.cadence := rfl
@[simp] theorem State.setSett_free : (s.setSett i x).free = s.free := rfl
@[simp] theorem State.setSett_fills : (s.setSett i x).fills = s.fills := rfl
@[simp] theorem State.setSett_stops : (s.setSett i x).stops = s.stops := rfl
@[simp] theorem State.setSett_pending : (s.setSett i x).pending = s.pending := rfl
@[simp] theorem State.setSett_get_part : (s.setSett i x).part j = s.part j := rfl
@[simp] theorem State.setSett_get_port : (s.setSett i x).port j = s.port j := rfl
theorem State.setSett_get_sett : (s.setSett i x).sett j = if i = j then x else s.sett j := tget_tput ..
@[simp] theorem State.setSett_get_sett_same : (s.setSett i x).sett i = x := tget_tput_same ..
@[simp] theorem State.setSett_get_eng : (s.setSett i x).eng j = s.eng j := rfl
@[simp] theorem State.setSett_get_inqOf : (s.setSett i x).inqOf j = s.inqOf j := rfl
@[simp] theorem State.setSett_get_queue : (s.setSett i x).queue j = s.queue j := rfl
@[simp] theorem State.setSett_get_chan : (s.setSett i x).chan j = s.chan j := rfl
@[simp] theorem State.setSett_get_scrub : (s.setSett i x).scrub j = s.scrub j := rfl
@[simp] theorem State.setSett_get_hport : (s.setSett i x).hport j = s.hport j := rfl
@[simp] theorem State.setSett_get_qp : (s.setSett i x).qp j = s.qp j := rfl
@[simp] theorem State.setSett_get_rkey : (s.setSett i x).rkey j = s.rkey j := rfl

end

/-! ### `setEng` -/

section
variable (x : Engine)

@[simp] theorem State.setEng_pwrgood : (s.setEng i x).pwrgood = s.pwrgood := rfl
@[simp] theorem State.setEng_wrstN : (s.setEng i x).wrstN = s.wrstN := rfl
@[simp] theorem State.setEng_pll : (s.setEng i x).pll = s.pll := rfl
@[simp] theorem State.setEng_phase : (s.setEng i x).phase = s.phase := rfl
@[simp] theorem State.setEng_clkLost : (s.setEng i x).clkLost = s.clkLost := rfl
@[simp] theorem State.setEng_thermtrip : (s.setEng i x).thermtrip = s.thermtrip := rfl
@[simp] theorem State.setEng_clk : (s.setEng i x).clk = s.clk := rfl
@[simp] theorem State.setEng_top : (s.setEng i x).top = s.top := rfl
@[simp] theorem State.setEng_arms : (s.setEng i x).arms = s.arms := rfl
@[simp] theorem State.setEng_rwt : (s.setEng i x).rwt = s.rwt := rfl
@[simp] theorem State.setEng_lay : (s.setEng i x).lay = s.lay := rfl
@[simp] theorem State.setEng_parts : (s.setEng i x).parts = s.parts := rfl
@[simp] theorem State.setEng_ports : (s.setEng i x).ports = s.ports := rfl
@[simp] theorem State.setEng_setts : (s.setEng i x).setts = s.setts := rfl
@[simp] theorem State.setEng_engines : (s.setEng i x).engines = tput s.engines i x := rfl
@[simp] theorem State.setEng_inq : (s.setEng i x).inq = s.inq := rfl
@[simp] theorem State.setEng_sched : (s.setEng i x).sched = s.sched := rfl
@[simp] theorem State.setEng_queues : (s.setEng i x).queues = s.queues := rfl
@[simp] theorem State.setEng_chans : (s.setEng i x).chans = s.chans := rfl
@[simp] theorem State.setEng_scrubs : (s.setEng i x).scrubs = s.scrubs := rfl
@[simp] theorem State.setEng_xlt : (s.setEng i x).xlt = s.xlt := rfl
@[simp] theorem State.setEng_bur : (s.setEng i x).bur = s.bur := rfl
@[simp] theorem State.setEng_qos : (s.setEng i x).qos = s.qos := rfl
@[simp] theorem State.setEng_hst : (s.setEng i x).hst = s.hst := rfl
@[simp] theorem State.setEng_owl : (s.setEng i x).owl = s.owl := rfl
@[simp] theorem State.setEng_flash : (s.setEng i x).flash = s.flash := rfl
@[simp] theorem State.setEng_fuse : (s.setEng i x).fuse = s.fuse := rfl
@[simp] theorem State.setEng_sec : (s.setEng i x).sec = s.sec := rfl
@[simp] theorem State.setEng_txns : (s.setEng i x).txns = s.txns := rfl
@[simp] theorem State.setEng_nextTxn : (s.setEng i x).nextTxn = s.nextTxn := rfl
@[simp] theorem State.setEng_txn0 : (s.setEng i x).txn0 = s.txn0 := rfl
@[simp] theorem State.setEng_dedup : (s.setEng i x).dedup = s.dedup := rfl
@[simp] theorem State.setEng_nodes : (s.setEng i x).nodes = s.nodes := rfl
@[simp] theorem State.setEng_scr : (s.setEng i x).scr = s.scr := rfl
@[simp] theorem State.setEng_scrPois : (s.setEng i x).scrPois = s.scrPois := rfl
@[simp] theorem State.setEng_dram : (s.setEng i x).dram = s.dram := rfl
@[simp] theorem State.setEng_dramPois : (s.setEng i x).dramPois = s.dramPois := rfl
@[simp] theorem State.setEng_dramKey : (s.setEng i x).dramKey = s.dramKey := rfl
@[simp] theorem State.setEng_cadence : (s.setEng i x).cadence = s.cadence := rfl
@[simp] theorem State.setEng_free : (s.setEng i x).free = s.free := rfl
@[simp] theorem State.setEng_fills : (s.setEng i x).fills = s.fills := rfl
@[simp] theorem State.setEng_stops : (s.setEng i x).stops = s.stops := rfl
@[simp] theorem State.setEng_pending : (s.setEng i x).pending = s.pending := rfl
@[simp] theorem State.setEng_get_part : (s.setEng i x).part j = s.part j := rfl
@[simp] theorem State.setEng_get_port : (s.setEng i x).port j = s.port j := rfl
@[simp] theorem State.setEng_get_sett : (s.setEng i x).sett j = s.sett j := rfl
theorem State.setEng_get_eng : (s.setEng i x).eng j = if i = j then x else s.eng j := tget_tput ..
@[simp] theorem State.setEng_get_eng_same : (s.setEng i x).eng i = x := tget_tput_same ..
@[simp] theorem State.setEng_get_inqOf : (s.setEng i x).inqOf j = s.inqOf j := rfl
@[simp] theorem State.setEng_get_queue : (s.setEng i x).queue j = s.queue j := rfl
@[simp] theorem State.setEng_get_chan : (s.setEng i x).chan j = s.chan j := rfl
@[simp] theorem State.setEng_get_scrub : (s.setEng i x).scrub j = s.scrub j := rfl
@[simp] theorem State.setEng_get_hport : (s.setEng i x).hport j = s.hport j := rfl
@[simp] theorem State.setEng_get_qp : (s.setEng i x).qp j = s.qp j := rfl
@[simp] theorem State.setEng_get_rkey : (s.setEng i x).rkey j = s.rkey j := rfl

end

/-! ### `setInq` -/

section
variable (x : Fifo)

@[simp] theorem State.setInq_pwrgood : (s.setInq i x).pwrgood = s.pwrgood := rfl
@[simp] theorem State.setInq_wrstN : (s.setInq i x).wrstN = s.wrstN := rfl
@[simp] theorem State.setInq_pll : (s.setInq i x).pll = s.pll := rfl
@[simp] theorem State.setInq_phase : (s.setInq i x).phase = s.phase := rfl
@[simp] theorem State.setInq_clkLost : (s.setInq i x).clkLost = s.clkLost := rfl
@[simp] theorem State.setInq_thermtrip : (s.setInq i x).thermtrip = s.thermtrip := rfl
@[simp] theorem State.setInq_clk : (s.setInq i x).clk = s.clk := rfl
@[simp] theorem State.setInq_top : (s.setInq i x).top = s.top := rfl
@[simp] theorem State.setInq_arms : (s.setInq i x).arms = s.arms := rfl
@[simp] theorem State.setInq_rwt : (s.setInq i x).rwt = s.rwt := rfl
@[simp] theorem State.setInq_lay : (s.setInq i x).lay = s.lay := rfl
@[simp] theorem State.setInq_parts : (s.setInq i x).parts = s.parts := rfl
@[simp] theorem State.setInq_ports : (s.setInq i x).ports = s.ports := rfl
@[simp] theorem State.setInq_setts : (s.setInq i x).setts = s.setts := rfl
@[simp] theorem State.setInq_engines : (s.setInq i x).engines = s.engines := rfl
@[simp] theorem State.setInq_inq : (s.setInq i x).inq = tput s.inq i x := rfl
@[simp] theorem State.setInq_sched : (s.setInq i x).sched = s.sched := rfl
@[simp] theorem State.setInq_queues : (s.setInq i x).queues = s.queues := rfl
@[simp] theorem State.setInq_chans : (s.setInq i x).chans = s.chans := rfl
@[simp] theorem State.setInq_scrubs : (s.setInq i x).scrubs = s.scrubs := rfl
@[simp] theorem State.setInq_xlt : (s.setInq i x).xlt = s.xlt := rfl
@[simp] theorem State.setInq_bur : (s.setInq i x).bur = s.bur := rfl
@[simp] theorem State.setInq_qos : (s.setInq i x).qos = s.qos := rfl
@[simp] theorem State.setInq_hst : (s.setInq i x).hst = s.hst := rfl
@[simp] theorem State.setInq_owl : (s.setInq i x).owl = s.owl := rfl
@[simp] theorem State.setInq_flash : (s.setInq i x).flash = s.flash := rfl
@[simp] theorem State.setInq_fuse : (s.setInq i x).fuse = s.fuse := rfl
@[simp] theorem State.setInq_sec : (s.setInq i x).sec = s.sec := rfl
@[simp] theorem State.setInq_txns : (s.setInq i x).txns = s.txns := rfl
@[simp] theorem State.setInq_nextTxn : (s.setInq i x).nextTxn = s.nextTxn := rfl
@[simp] theorem State.setInq_txn0 : (s.setInq i x).txn0 = s.txn0 := rfl
@[simp] theorem State.setInq_dedup : (s.setInq i x).dedup = s.dedup := rfl
@[simp] theorem State.setInq_nodes : (s.setInq i x).nodes = s.nodes := rfl
@[simp] theorem State.setInq_scr : (s.setInq i x).scr = s.scr := rfl
@[simp] theorem State.setInq_scrPois : (s.setInq i x).scrPois = s.scrPois := rfl
@[simp] theorem State.setInq_dram : (s.setInq i x).dram = s.dram := rfl
@[simp] theorem State.setInq_dramPois : (s.setInq i x).dramPois = s.dramPois := rfl
@[simp] theorem State.setInq_dramKey : (s.setInq i x).dramKey = s.dramKey := rfl
@[simp] theorem State.setInq_cadence : (s.setInq i x).cadence = s.cadence := rfl
@[simp] theorem State.setInq_free : (s.setInq i x).free = s.free := rfl
@[simp] theorem State.setInq_fills : (s.setInq i x).fills = s.fills := rfl
@[simp] theorem State.setInq_stops : (s.setInq i x).stops = s.stops := rfl
@[simp] theorem State.setInq_pending : (s.setInq i x).pending = s.pending := rfl
@[simp] theorem State.setInq_get_part : (s.setInq i x).part j = s.part j := rfl
@[simp] theorem State.setInq_get_port : (s.setInq i x).port j = s.port j := rfl
@[simp] theorem State.setInq_get_sett : (s.setInq i x).sett j = s.sett j := rfl
@[simp] theorem State.setInq_get_eng : (s.setInq i x).eng j = s.eng j := rfl
theorem State.setInq_get_inqOf : (s.setInq i x).inqOf j = if i = j then x else s.inqOf j := tget_tput ..
@[simp] theorem State.setInq_get_inqOf_same : (s.setInq i x).inqOf i = x := tget_tput_same ..
@[simp] theorem State.setInq_get_queue : (s.setInq i x).queue j = s.queue j := rfl
@[simp] theorem State.setInq_get_chan : (s.setInq i x).chan j = s.chan j := rfl
@[simp] theorem State.setInq_get_scrub : (s.setInq i x).scrub j = s.scrub j := rfl
@[simp] theorem State.setInq_get_hport : (s.setInq i x).hport j = s.hport j := rfl
@[simp] theorem State.setInq_get_qp : (s.setInq i x).qp j = s.qp j := rfl
@[simp] theorem State.setInq_get_rkey : (s.setInq i x).rkey j = s.rkey j := rfl

end

/-! ### `setQueue` -/

section
variable (x : Queue)

@[simp] theorem State.setQueue_pwrgood : (s.setQueue i x).pwrgood = s.pwrgood := rfl
@[simp] theorem State.setQueue_wrstN : (s.setQueue i x).wrstN = s.wrstN := rfl
@[simp] theorem State.setQueue_pll : (s.setQueue i x).pll = s.pll := rfl
@[simp] theorem State.setQueue_phase : (s.setQueue i x).phase = s.phase := rfl
@[simp] theorem State.setQueue_clkLost : (s.setQueue i x).clkLost = s.clkLost := rfl
@[simp] theorem State.setQueue_thermtrip : (s.setQueue i x).thermtrip = s.thermtrip := rfl
@[simp] theorem State.setQueue_clk : (s.setQueue i x).clk = s.clk := rfl
@[simp] theorem State.setQueue_top : (s.setQueue i x).top = s.top := rfl
@[simp] theorem State.setQueue_arms : (s.setQueue i x).arms = s.arms := rfl
@[simp] theorem State.setQueue_rwt : (s.setQueue i x).rwt = s.rwt := rfl
@[simp] theorem State.setQueue_lay : (s.setQueue i x).lay = s.lay := rfl
@[simp] theorem State.setQueue_parts : (s.setQueue i x).parts = s.parts := rfl
@[simp] theorem State.setQueue_ports : (s.setQueue i x).ports = s.ports := rfl
@[simp] theorem State.setQueue_setts : (s.setQueue i x).setts = s.setts := rfl
@[simp] theorem State.setQueue_engines : (s.setQueue i x).engines = s.engines := rfl
@[simp] theorem State.setQueue_inq : (s.setQueue i x).inq = s.inq := rfl
@[simp] theorem State.setQueue_sched : (s.setQueue i x).sched = s.sched := rfl
@[simp] theorem State.setQueue_queues : (s.setQueue i x).queues = tput s.queues i x := rfl
@[simp] theorem State.setQueue_chans : (s.setQueue i x).chans = s.chans := rfl
@[simp] theorem State.setQueue_scrubs : (s.setQueue i x).scrubs = s.scrubs := rfl
@[simp] theorem State.setQueue_xlt : (s.setQueue i x).xlt = s.xlt := rfl
@[simp] theorem State.setQueue_bur : (s.setQueue i x).bur = s.bur := rfl
@[simp] theorem State.setQueue_qos : (s.setQueue i x).qos = s.qos := rfl
@[simp] theorem State.setQueue_hst : (s.setQueue i x).hst = s.hst := rfl
@[simp] theorem State.setQueue_owl : (s.setQueue i x).owl = s.owl := rfl
@[simp] theorem State.setQueue_flash : (s.setQueue i x).flash = s.flash := rfl
@[simp] theorem State.setQueue_fuse : (s.setQueue i x).fuse = s.fuse := rfl
@[simp] theorem State.setQueue_sec : (s.setQueue i x).sec = s.sec := rfl
@[simp] theorem State.setQueue_txns : (s.setQueue i x).txns = s.txns := rfl
@[simp] theorem State.setQueue_nextTxn : (s.setQueue i x).nextTxn = s.nextTxn := rfl
@[simp] theorem State.setQueue_txn0 : (s.setQueue i x).txn0 = s.txn0 := rfl
@[simp] theorem State.setQueue_dedup : (s.setQueue i x).dedup = s.dedup := rfl
@[simp] theorem State.setQueue_nodes : (s.setQueue i x).nodes = s.nodes := rfl
@[simp] theorem State.setQueue_scr : (s.setQueue i x).scr = s.scr := rfl
@[simp] theorem State.setQueue_scrPois : (s.setQueue i x).scrPois = s.scrPois := rfl
@[simp] theorem State.setQueue_dram : (s.setQueue i x).dram = s.dram := rfl
@[simp] theorem State.setQueue_dramPois : (s.setQueue i x).dramPois = s.dramPois := rfl
@[simp] theorem State.setQueue_dramKey : (s.setQueue i x).dramKey = s.dramKey := rfl
@[simp] theorem State.setQueue_cadence : (s.setQueue i x).cadence = s.cadence := rfl
@[simp] theorem State.setQueue_free : (s.setQueue i x).free = s.free := rfl
@[simp] theorem State.setQueue_fills : (s.setQueue i x).fills = s.fills := rfl
@[simp] theorem State.setQueue_stops : (s.setQueue i x).stops = s.stops := rfl
@[simp] theorem State.setQueue_pending : (s.setQueue i x).pending = s.pending := rfl
@[simp] theorem State.setQueue_get_part : (s.setQueue i x).part j = s.part j := rfl
@[simp] theorem State.setQueue_get_port : (s.setQueue i x).port j = s.port j := rfl
@[simp] theorem State.setQueue_get_sett : (s.setQueue i x).sett j = s.sett j := rfl
@[simp] theorem State.setQueue_get_eng : (s.setQueue i x).eng j = s.eng j := rfl
@[simp] theorem State.setQueue_get_inqOf : (s.setQueue i x).inqOf j = s.inqOf j := rfl
theorem State.setQueue_get_queue : (s.setQueue i x).queue j = if i = j then x else s.queue j := tget_tput ..
@[simp] theorem State.setQueue_get_queue_same : (s.setQueue i x).queue i = x := tget_tput_same ..
@[simp] theorem State.setQueue_get_chan : (s.setQueue i x).chan j = s.chan j := rfl
@[simp] theorem State.setQueue_get_scrub : (s.setQueue i x).scrub j = s.scrub j := rfl
@[simp] theorem State.setQueue_get_hport : (s.setQueue i x).hport j = s.hport j := rfl
@[simp] theorem State.setQueue_get_qp : (s.setQueue i x).qp j = s.qp j := rfl
@[simp] theorem State.setQueue_get_rkey : (s.setQueue i x).rkey j = s.rkey j := rfl

end

/-! ### `setChan` -/

section
variable (x : Chan)

@[simp] theorem State.setChan_pwrgood : (s.setChan i x).pwrgood = s.pwrgood := rfl
@[simp] theorem State.setChan_wrstN : (s.setChan i x).wrstN = s.wrstN := rfl
@[simp] theorem State.setChan_pll : (s.setChan i x).pll = s.pll := rfl
@[simp] theorem State.setChan_phase : (s.setChan i x).phase = s.phase := rfl
@[simp] theorem State.setChan_clkLost : (s.setChan i x).clkLost = s.clkLost := rfl
@[simp] theorem State.setChan_thermtrip : (s.setChan i x).thermtrip = s.thermtrip := rfl
@[simp] theorem State.setChan_clk : (s.setChan i x).clk = s.clk := rfl
@[simp] theorem State.setChan_top : (s.setChan i x).top = s.top := rfl
@[simp] theorem State.setChan_arms : (s.setChan i x).arms = s.arms := rfl
@[simp] theorem State.setChan_rwt : (s.setChan i x).rwt = s.rwt := rfl
@[simp] theorem State.setChan_lay : (s.setChan i x).lay = s.lay := rfl
@[simp] theorem State.setChan_parts : (s.setChan i x).parts = s.parts := rfl
@[simp] theorem State.setChan_ports : (s.setChan i x).ports = s.ports := rfl
@[simp] theorem State.setChan_setts : (s.setChan i x).setts = s.setts := rfl
@[simp] theorem State.setChan_engines : (s.setChan i x).engines = s.engines := rfl
@[simp] theorem State.setChan_inq : (s.setChan i x).inq = s.inq := rfl
@[simp] theorem State.setChan_sched : (s.setChan i x).sched = s.sched := rfl
@[simp] theorem State.setChan_queues : (s.setChan i x).queues = s.queues := rfl
@[simp] theorem State.setChan_chans : (s.setChan i x).chans = tput s.chans i x := rfl
@[simp] theorem State.setChan_scrubs : (s.setChan i x).scrubs = s.scrubs := rfl
@[simp] theorem State.setChan_xlt : (s.setChan i x).xlt = s.xlt := rfl
@[simp] theorem State.setChan_bur : (s.setChan i x).bur = s.bur := rfl
@[simp] theorem State.setChan_qos : (s.setChan i x).qos = s.qos := rfl
@[simp] theorem State.setChan_hst : (s.setChan i x).hst = s.hst := rfl
@[simp] theorem State.setChan_owl : (s.setChan i x).owl = s.owl := rfl
@[simp] theorem State.setChan_flash : (s.setChan i x).flash = s.flash := rfl
@[simp] theorem State.setChan_fuse : (s.setChan i x).fuse = s.fuse := rfl
@[simp] theorem State.setChan_sec : (s.setChan i x).sec = s.sec := rfl
@[simp] theorem State.setChan_txns : (s.setChan i x).txns = s.txns := rfl
@[simp] theorem State.setChan_nextTxn : (s.setChan i x).nextTxn = s.nextTxn := rfl
@[simp] theorem State.setChan_txn0 : (s.setChan i x).txn0 = s.txn0 := rfl
@[simp] theorem State.setChan_dedup : (s.setChan i x).dedup = s.dedup := rfl
@[simp] theorem State.setChan_nodes : (s.setChan i x).nodes = s.nodes := rfl
@[simp] theorem State.setChan_scr : (s.setChan i x).scr = s.scr := rfl
@[simp] theorem State.setChan_scrPois : (s.setChan i x).scrPois = s.scrPois := rfl
@[simp] theorem State.setChan_dram : (s.setChan i x).dram = s.dram := rfl
@[simp] theorem State.setChan_dramPois : (s.setChan i x).dramPois = s.dramPois := rfl
@[simp] theorem State.setChan_dramKey : (s.setChan i x).dramKey = s.dramKey := rfl
@[simp] theorem State.setChan_cadence : (s.setChan i x).cadence = s.cadence := rfl
@[simp] theorem State.setChan_free : (s.setChan i x).free = s.free := rfl
@[simp] theorem State.setChan_fills : (s.setChan i x).fills = s.fills := rfl
@[simp] theorem State.setChan_stops : (s.setChan i x).stops = s.stops := rfl
@[simp] theorem State.setChan_pending : (s.setChan i x).pending = s.pending := rfl
@[simp] theorem State.setChan_get_part : (s.setChan i x).part j = s.part j := rfl
@[simp] theorem State.setChan_get_port : (s.setChan i x).port j = s.port j := rfl
@[simp] theorem State.setChan_get_sett : (s.setChan i x).sett j = s.sett j := rfl
@[simp] theorem State.setChan_get_eng : (s.setChan i x).eng j = s.eng j := rfl
@[simp] theorem State.setChan_get_inqOf : (s.setChan i x).inqOf j = s.inqOf j := rfl
@[simp] theorem State.setChan_get_queue : (s.setChan i x).queue j = s.queue j := rfl
theorem State.setChan_get_chan : (s.setChan i x).chan j = if i = j then x else s.chan j := tget_tput ..
@[simp] theorem State.setChan_get_chan_same : (s.setChan i x).chan i = x := tget_tput_same ..
@[simp] theorem State.setChan_get_scrub : (s.setChan i x).scrub j = s.scrub j := rfl
@[simp] theorem State.setChan_get_hport : (s.setChan i x).hport j = s.hport j := rfl
@[simp] theorem State.setChan_get_qp : (s.setChan i x).qp j = s.qp j := rfl
@[simp] theorem State.setChan_get_rkey : (s.setChan i x).rkey j = s.rkey j := rfl

end

/-! ### `setScrub` -/

section
variable (x : Scrub)

@[simp] theorem State.setScrub_pwrgood : (s.setScrub i x).pwrgood = s.pwrgood := rfl
@[simp] theorem State.setScrub_wrstN : (s.setScrub i x).wrstN = s.wrstN := rfl
@[simp] theorem State.setScrub_pll : (s.setScrub i x).pll = s.pll := rfl
@[simp] theorem State.setScrub_phase : (s.setScrub i x).phase = s.phase := rfl
@[simp] theorem State.setScrub_clkLost : (s.setScrub i x).clkLost = s.clkLost := rfl
@[simp] theorem State.setScrub_thermtrip : (s.setScrub i x).thermtrip = s.thermtrip := rfl
@[simp] theorem State.setScrub_clk : (s.setScrub i x).clk = s.clk := rfl
@[simp] theorem State.setScrub_top : (s.setScrub i x).top = s.top := rfl
@[simp] theorem State.setScrub_arms : (s.setScrub i x).arms = s.arms := rfl
@[simp] theorem State.setScrub_rwt : (s.setScrub i x).rwt = s.rwt := rfl
@[simp] theorem State.setScrub_lay : (s.setScrub i x).lay = s.lay := rfl
@[simp] theorem State.setScrub_parts : (s.setScrub i x).parts = s.parts := rfl
@[simp] theorem State.setScrub_ports : (s.setScrub i x).ports = s.ports := rfl
@[simp] theorem State.setScrub_setts : (s.setScrub i x).setts = s.setts := rfl
@[simp] theorem State.setScrub_engines : (s.setScrub i x).engines = s.engines := rfl
@[simp] theorem State.setScrub_inq : (s.setScrub i x).inq = s.inq := rfl
@[simp] theorem State.setScrub_sched : (s.setScrub i x).sched = s.sched := rfl
@[simp] theorem State.setScrub_queues : (s.setScrub i x).queues = s.queues := rfl
@[simp] theorem State.setScrub_chans : (s.setScrub i x).chans = s.chans := rfl
@[simp] theorem State.setScrub_scrubs : (s.setScrub i x).scrubs = tput s.scrubs i x := rfl
@[simp] theorem State.setScrub_xlt : (s.setScrub i x).xlt = s.xlt := rfl
@[simp] theorem State.setScrub_bur : (s.setScrub i x).bur = s.bur := rfl
@[simp] theorem State.setScrub_qos : (s.setScrub i x).qos = s.qos := rfl
@[simp] theorem State.setScrub_hst : (s.setScrub i x).hst = s.hst := rfl
@[simp] theorem State.setScrub_owl : (s.setScrub i x).owl = s.owl := rfl
@[simp] theorem State.setScrub_flash : (s.setScrub i x).flash = s.flash := rfl
@[simp] theorem State.setScrub_fuse : (s.setScrub i x).fuse = s.fuse := rfl
@[simp] theorem State.setScrub_sec : (s.setScrub i x).sec = s.sec := rfl
@[simp] theorem State.setScrub_txns : (s.setScrub i x).txns = s.txns := rfl
@[simp] theorem State.setScrub_nextTxn : (s.setScrub i x).nextTxn = s.nextTxn := rfl
@[simp] theorem State.setScrub_txn0 : (s.setScrub i x).txn0 = s.txn0 := rfl
@[simp] theorem State.setScrub_dedup : (s.setScrub i x).dedup = s.dedup := rfl
@[simp] theorem State.setScrub_nodes : (s.setScrub i x).nodes = s.nodes := rfl
@[simp] theorem State.setScrub_scr : (s.setScrub i x).scr = s.scr := rfl
@[simp] theorem State.setScrub_scrPois : (s.setScrub i x).scrPois = s.scrPois := rfl
@[simp] theorem State.setScrub_dram : (s.setScrub i x).dram = s.dram := rfl
@[simp] theorem State.setScrub_dramPois : (s.setScrub i x).dramPois = s.dramPois := rfl
@[simp] theorem State.setScrub_dramKey : (s.setScrub i x).dramKey = s.dramKey := rfl
@[simp] theorem State.setScrub_cadence : (s.setScrub i x).cadence = s.cadence := rfl
@[simp] theorem State.setScrub_free : (s.setScrub i x).free = s.free := rfl
@[simp] theorem State.setScrub_fills : (s.setScrub i x).fills = s.fills := rfl
@[simp] theorem State.setScrub_stops : (s.setScrub i x).stops = s.stops := rfl
@[simp] theorem State.setScrub_pending : (s.setScrub i x).pending = s.pending := rfl
@[simp] theorem State.setScrub_get_part : (s.setScrub i x).part j = s.part j := rfl
@[simp] theorem State.setScrub_get_port : (s.setScrub i x).port j = s.port j := rfl
@[simp] theorem State.setScrub_get_sett : (s.setScrub i x).sett j = s.sett j := rfl
@[simp] theorem State.setScrub_get_eng : (s.setScrub i x).eng j = s.eng j := rfl
@[simp] theorem State.setScrub_get_inqOf : (s.setScrub i x).inqOf j = s.inqOf j := rfl
@[simp] theorem State.setScrub_get_queue : (s.setScrub i x).queue j = s.queue j := rfl
@[simp] theorem State.setScrub_get_chan : (s.setScrub i x).chan j = s.chan j := rfl
theorem State.setScrub_get_scrub : (s.setScrub i x).scrub j = if i = j then x else s.scrub j := tget_tput ..
@[simp] theorem State.setScrub_get_scrub_same : (s.setScrub i x).scrub i = x := tget_tput_same ..
@[simp] theorem State.setScrub_get_hport : (s.setScrub i x).hport j = s.hport j := rfl
@[simp] theorem State.setScrub_get_qp : (s.setScrub i x).qp j = s.qp j := rfl
@[simp] theorem State.setScrub_get_rkey : (s.setScrub i x).rkey j = s.rkey j := rfl

end

/-! ### `setHport` -/

section
variable (x : HPort)

@[simp] theorem State.setHport_pwrgood : (s.setHport i x).pwrgood = s.pwrgood := rfl
@[simp] theorem State.setHport_wrstN : (s.setHport i x).wrstN = s.wrstN := rfl
@[simp] theorem State.setHport_pll : (s.setHport i x).pll = s.pll := rfl
@[simp] theorem State.setHport_phase : (s.setHport i x).phase = s.phase := rfl
@[simp] theorem State.setHport_clkLost : (s.setHport i x).clkLost = s.clkLost := rfl
@[simp] theorem State.setHport_thermtrip : (s.setHport i x).thermtrip = s.thermtrip := rfl
@[simp] theorem State.setHport_clk : (s.setHport i x).clk = s.clk := rfl
@[simp] theorem State.setHport_top : (s.setHport i x).top = s.top := rfl
@[simp] theorem State.setHport_arms : (s.setHport i x).arms = s.arms := rfl
@[simp] theorem State.setHport_rwt : (s.setHport i x).rwt = s.rwt := rfl
@[simp] theorem State.setHport_lay : (s.setHport i x).lay = s.lay := rfl
@[simp] theorem State.setHport_parts : (s.setHport i x).parts = s.parts := rfl
@[simp] theorem State.setHport_ports : (s.setHport i x).ports = s.ports := rfl
@[simp] theorem State.setHport_setts : (s.setHport i x).setts = s.setts := rfl
@[simp] theorem State.setHport_engines : (s.setHport i x).engines = s.engines := rfl
@[simp] theorem State.setHport_inq : (s.setHport i x).inq = s.inq := rfl
@[simp] theorem State.setHport_sched : (s.setHport i x).sched = s.sched := rfl
@[simp] theorem State.setHport_queues : (s.setHport i x).queues = s.queues := rfl
@[simp] theorem State.setHport_chans : (s.setHport i x).chans = s.chans := rfl
@[simp] theorem State.setHport_scrubs : (s.setHport i x).scrubs = s.scrubs := rfl
@[simp] theorem State.setHport_xlt : (s.setHport i x).xlt = s.xlt := rfl
@[simp] theorem State.setHport_bur : (s.setHport i x).bur = s.bur := rfl
@[simp] theorem State.setHport_qos : (s.setHport i x).qos = s.qos := rfl
@[simp] theorem State.setHport_hst_ports : (s.setHport i x).hst.ports = tput s.hst.ports i x := rfl
@[simp] theorem State.setHport_hst_qps : (s.setHport i x).hst.qps = s.hst.qps := rfl
@[simp] theorem State.setHport_hst_rkeys : (s.setHport i x).hst.rkeys = s.hst.rkeys := rfl
@[simp] theorem State.setHport_hst_evstat : (s.setHport i x).hst.evstat = s.hst.evstat := rfl
@[simp] theorem State.setHport_hst_qperrs : (s.setHport i x).hst.qperrs = s.hst.qperrs := rfl
@[simp] theorem State.setHport_owl : (s.setHport i x).owl = s.owl := rfl
@[simp] theorem State.setHport_flash : (s.setHport i x).flash = s.flash := rfl
@[simp] theorem State.setHport_fuse : (s.setHport i x).fuse = s.fuse := rfl
@[simp] theorem State.setHport_sec : (s.setHport i x).sec = s.sec := rfl
@[simp] theorem State.setHport_txns : (s.setHport i x).txns = s.txns := rfl
@[simp] theorem State.setHport_nextTxn : (s.setHport i x).nextTxn = s.nextTxn := rfl
@[simp] theorem State.setHport_txn0 : (s.setHport i x).txn0 = s.txn0 := rfl
@[simp] theorem State.setHport_dedup : (s.setHport i x).dedup = s.dedup := rfl
@[simp] theorem State.setHport_nodes : (s.setHport i x).nodes = s.nodes := rfl
@[simp] theorem State.setHport_scr : (s.setHport i x).scr = s.scr := rfl
@[simp] theorem State.setHport_scrPois : (s.setHport i x).scrPois = s.scrPois := rfl
@[simp] theorem State.setHport_dram : (s.setHport i x).dram = s.dram := rfl
@[simp] theorem State.setHport_dramPois : (s.setHport i x).dramPois = s.dramPois := rfl
@[simp] theorem State.setHport_dramKey : (s.setHport i x).dramKey = s.dramKey := rfl
@[simp] theorem State.setHport_cadence : (s.setHport i x).cadence = s.cadence := rfl
@[simp] theorem State.setHport_free : (s.setHport i x).free = s.free := rfl
@[simp] theorem State.setHport_fills : (s.setHport i x).fills = s.fills := rfl
@[simp] theorem State.setHport_stops : (s.setHport i x).stops = s.stops := rfl
@[simp] theorem State.setHport_pending : (s.setHport i x).pending = s.pending := rfl
@[simp] theorem State.setHport_get_part : (s.setHport i x).part j = s.part j := rfl
@[simp] theorem State.setHport_get_port : (s.setHport i x).port j = s.port j := rfl
@[simp] theorem State.setHport_get_sett : (s.setHport i x).sett j = s.sett j := rfl
@[simp] theorem State.setHport_get_eng : (s.setHport i x).eng j = s.eng j := rfl
@[simp] theorem State.setHport_get_inqOf : (s.setHport i x).inqOf j = s.inqOf j := rfl
@[simp] theorem State.setHport_get_queue : (s.setHport i x).queue j = s.queue j := rfl
@[simp] theorem State.setHport_get_chan : (s.setHport i x).chan j = s.chan j := rfl
@[simp] theorem State.setHport_get_scrub : (s.setHport i x).scrub j = s.scrub j := rfl
theorem State.setHport_get_hport : (s.setHport i x).hport j = if i = j then x else s.hport j := tget_tput ..
@[simp] theorem State.setHport_get_hport_same : (s.setHport i x).hport i = x := tget_tput_same ..
@[simp] theorem State.setHport_get_qp : (s.setHport i x).qp j = s.qp j := rfl
@[simp] theorem State.setHport_get_rkey : (s.setHport i x).rkey j = s.rkey j := rfl

end

/-! ### `setQp` -/

section
variable (x : QP)

@[simp] theorem State.setQp_pwrgood : (s.setQp i x).pwrgood = s.pwrgood := rfl
@[simp] theorem State.setQp_wrstN : (s.setQp i x).wrstN = s.wrstN := rfl
@[simp] theorem State.setQp_pll : (s.setQp i x).pll = s.pll := rfl
@[simp] theorem State.setQp_phase : (s.setQp i x).phase = s.phase := rfl
@[simp] theorem State.setQp_clkLost : (s.setQp i x).clkLost = s.clkLost := rfl
@[simp] theorem State.setQp_thermtrip : (s.setQp i x).thermtrip = s.thermtrip := rfl
@[simp] theorem State.setQp_clk : (s.setQp i x).clk = s.clk := rfl
@[simp] theorem State.setQp_top : (s.setQp i x).top = s.top := rfl
@[simp] theorem State.setQp_arms : (s.setQp i x).arms = s.arms := rfl
@[simp] theorem State.setQp_rwt : (s.setQp i x).rwt = s.rwt := rfl
@[simp] theorem State.setQp_lay : (s.setQp i x).lay = s.lay := rfl
@[simp] theorem State.setQp_parts : (s.setQp i x).parts = s.parts := rfl
@[simp] theorem State.setQp_ports : (s.setQp i x).ports = s.ports := rfl
@[simp] theorem State.setQp_setts : (s.setQp i x).setts = s.setts := rfl
@[simp] theorem State.setQp_engines : (s.setQp i x).engines = s.engines := rfl
@[simp] theorem State.setQp_inq : (s.setQp i x).inq = s.inq := rfl
@[simp] theorem State.setQp_sched : (s.setQp i x).sched = s.sched := rfl
@[simp] theorem State.setQp_queues : (s.setQp i x).queues = s.queues := rfl
@[simp] theorem State.setQp_chans : (s.setQp i x).chans = s.chans := rfl
@[simp] theorem State.setQp_scrubs : (s.setQp i x).scrubs = s.scrubs := rfl
@[simp] theorem State.setQp_xlt : (s.setQp i x).xlt = s.xlt := rfl
@[simp] theorem State.setQp_bur : (s.setQp i x).bur = s.bur := rfl
@[simp] theorem State.setQp_qos : (s.setQp i x).qos = s.qos := rfl
@[simp] theorem State.setQp_hst_ports : (s.setQp i x).hst.ports = s.hst.ports := rfl
@[simp] theorem State.setQp_hst_qps : (s.setQp i x).hst.qps = tput s.hst.qps i x := rfl
@[simp] theorem State.setQp_hst_rkeys : (s.setQp i x).hst.rkeys = s.hst.rkeys := rfl
@[simp] theorem State.setQp_hst_evstat : (s.setQp i x).hst.evstat = s.hst.evstat := rfl
@[simp] theorem State.setQp_hst_qperrs : (s.setQp i x).hst.qperrs = s.hst.qperrs := rfl
@[simp] theorem State.setQp_owl : (s.setQp i x).owl = s.owl := rfl
@[simp] theorem State.setQp_flash : (s.setQp i x).flash = s.flash := rfl
@[simp] theorem State.setQp_fuse : (s.setQp i x).fuse = s.fuse := rfl
@[simp] theorem State.setQp_sec : (s.setQp i x).sec = s.sec := rfl
@[simp] theorem State.setQp_txns : (s.setQp i x).txns = s.txns := rfl
@[simp] theorem State.setQp_nextTxn : (s.setQp i x).nextTxn = s.nextTxn := rfl
@[simp] theorem State.setQp_txn0 : (s.setQp i x).txn0 = s.txn0 := rfl
@[simp] theorem State.setQp_dedup : (s.setQp i x).dedup = s.dedup := rfl
@[simp] theorem State.setQp_nodes : (s.setQp i x).nodes = s.nodes := rfl
@[simp] theorem State.setQp_scr : (s.setQp i x).scr = s.scr := rfl
@[simp] theorem State.setQp_scrPois : (s.setQp i x).scrPois = s.scrPois := rfl
@[simp] theorem State.setQp_dram : (s.setQp i x).dram = s.dram := rfl
@[simp] theorem State.setQp_dramPois : (s.setQp i x).dramPois = s.dramPois := rfl
@[simp] theorem State.setQp_dramKey : (s.setQp i x).dramKey = s.dramKey := rfl
@[simp] theorem State.setQp_cadence : (s.setQp i x).cadence = s.cadence := rfl
@[simp] theorem State.setQp_free : (s.setQp i x).free = s.free := rfl
@[simp] theorem State.setQp_fills : (s.setQp i x).fills = s.fills := rfl
@[simp] theorem State.setQp_stops : (s.setQp i x).stops = s.stops := rfl
@[simp] theorem State.setQp_pending : (s.setQp i x).pending = s.pending := rfl
@[simp] theorem State.setQp_get_part : (s.setQp i x).part j = s.part j := rfl
@[simp] theorem State.setQp_get_port : (s.setQp i x).port j = s.port j := rfl
@[simp] theorem State.setQp_get_sett : (s.setQp i x).sett j = s.sett j := rfl
@[simp] theorem State.setQp_get_eng : (s.setQp i x).eng j = s.eng j := rfl
@[simp] theorem State.setQp_get_inqOf : (s.setQp i x).inqOf j = s.inqOf j := rfl
@[simp] theorem State.setQp_get_queue : (s.setQp i x).queue j = s.queue j := rfl
@[simp] theorem State.setQp_get_chan : (s.setQp i x).chan j = s.chan j := rfl
@[simp] theorem State.setQp_get_scrub : (s.setQp i x).scrub j = s.scrub j := rfl
@[simp] theorem State.setQp_get_hport : (s.setQp i x).hport j = s.hport j := rfl
theorem State.setQp_get_qp : (s.setQp i x).qp j = if i = j then x else s.qp j := tget_tput ..
@[simp] theorem State.setQp_get_qp_same : (s.setQp i x).qp i = x := tget_tput_same ..
@[simp] theorem State.setQp_get_rkey : (s.setQp i x).rkey j = s.rkey j := rfl

end

/-! ### `setRkey` -/

section
variable (x : RKey)

@[simp] theorem State.setRkey_pwrgood : (s.setRkey i x).pwrgood = s.pwrgood := rfl
@[simp] theorem State.setRkey_wrstN : (s.setRkey i x).wrstN = s.wrstN := rfl
@[simp] theorem State.setRkey_pll : (s.setRkey i x).pll = s.pll := rfl
@[simp] theorem State.setRkey_phase : (s.setRkey i x).phase = s.phase := rfl
@[simp] theorem State.setRkey_clkLost : (s.setRkey i x).clkLost = s.clkLost := rfl
@[simp] theorem State.setRkey_thermtrip : (s.setRkey i x).thermtrip = s.thermtrip := rfl
@[simp] theorem State.setRkey_clk : (s.setRkey i x).clk = s.clk := rfl
@[simp] theorem State.setRkey_top : (s.setRkey i x).top = s.top := rfl
@[simp] theorem State.setRkey_arms : (s.setRkey i x).arms = s.arms := rfl
@[simp] theorem State.setRkey_rwt : (s.setRkey i x).rwt = s.rwt := rfl
@[simp] theorem State.setRkey_lay : (s.setRkey i x).lay = s.lay := rfl
@[simp] theorem State.setRkey_parts : (s.setRkey i x).parts = s.parts := rfl
@[simp] theorem State.setRkey_ports : (s.setRkey i x).ports = s.ports := rfl
@[simp] theorem State.setRkey_setts : (s.setRkey i x).setts = s.setts := rfl
@[simp] theorem State.setRkey_engines : (s.setRkey i x).engines = s.engines := rfl
@[simp] theorem State.setRkey_inq : (s.setRkey i x).inq = s.inq := rfl
@[simp] theorem State.setRkey_sched : (s.setRkey i x).sched = s.sched := rfl
@[simp] theorem State.setRkey_queues : (s.setRkey i x).queues = s.queues := rfl
@[simp] theorem State.setRkey_chans : (s.setRkey i x).chans = s.chans := rfl
@[simp] theorem State.setRkey_scrubs : (s.setRkey i x).scrubs = s.scrubs := rfl
@[simp] theorem State.setRkey_xlt : (s.setRkey i x).xlt = s.xlt := rfl
@[simp] theorem State.setRkey_bur : (s.setRkey i x).bur = s.bur := rfl
@[simp] theorem State.setRkey_qos : (s.setRkey i x).qos = s.qos := rfl
@[simp] theorem State.setRkey_hst_ports : (s.setRkey i x).hst.ports = s.hst.ports := rfl
@[simp] theorem State.setRkey_hst_qps : (s.setRkey i x).hst.qps = s.hst.qps := rfl
@[simp] theorem State.setRkey_hst_rkeys : (s.setRkey i x).hst.rkeys = tput s.hst.rkeys i x := rfl
@[simp] theorem State.setRkey_hst_evstat : (s.setRkey i x).hst.evstat = s.hst.evstat := rfl
@[simp] theorem State.setRkey_hst_qperrs : (s.setRkey i x).hst.qperrs = s.hst.qperrs := rfl
@[simp] theorem State.setRkey_owl : (s.setRkey i x).owl = s.owl := rfl
@[simp] theorem State.setRkey_flash : (s.setRkey i x).flash = s.flash := rfl
@[simp] theorem State.setRkey_fuse : (s.setRkey i x).fuse = s.fuse := rfl
@[simp] theorem State.setRkey_sec : (s.setRkey i x).sec = s.sec := rfl
@[simp] theorem State.setRkey_txns : (s.setRkey i x).txns = s.txns := rfl
@[simp] theorem State.setRkey_nextTxn : (s.setRkey i x).nextTxn = s.nextTxn := rfl
@[simp] theorem State.setRkey_txn0 : (s.setRkey i x).txn0 = s.txn0 := rfl
@[simp] theorem State.setRkey_dedup : (s.setRkey i x).dedup = s.dedup := rfl
@[simp] theorem State.setRkey_nodes : (s.setRkey i x).nodes = s.nodes := rfl
@[simp] theorem State.setRkey_scr : (s.setRkey i x).scr = s.scr := rfl
@[simp] theorem State.setRkey_scrPois : (s.setRkey i x).scrPois = s.scrPois := rfl
@[simp] theorem State.setRkey_dram : (s.setRkey i x).dram = s.dram := rfl
@[simp] theorem State.setRkey_dramPois : (s.setRkey i x).dramPois = s.dramPois := rfl
@[simp] theorem State.setRkey_dramKey : (s.setRkey i x).dramKey = s.dramKey := rfl
@[simp] theorem State.setRkey_cadence : (s.setRkey i x).cadence = s.cadence := rfl
@[simp] theorem State.setRkey_free : (s.setRkey i x).free = s.free := rfl
@[simp] theorem State.setRkey_fills : (s.setRkey i x).fills = s.fills := rfl
@[simp] theorem State.setRkey_stops : (s.setRkey i x).stops = s.stops := rfl
@[simp] theorem State.setRkey_pending : (s.setRkey i x).pending = s.pending := rfl
@[simp] theorem State.setRkey_get_part : (s.setRkey i x).part j = s.part j := rfl
@[simp] theorem State.setRkey_get_port : (s.setRkey i x).port j = s.port j := rfl
@[simp] theorem State.setRkey_get_sett : (s.setRkey i x).sett j = s.sett j := rfl
@[simp] theorem State.setRkey_get_eng : (s.setRkey i x).eng j = s.eng j := rfl
@[simp] theorem State.setRkey_get_inqOf : (s.setRkey i x).inqOf j = s.inqOf j := rfl
@[simp] theorem State.setRkey_get_queue : (s.setRkey i x).queue j = s.queue j := rfl
@[simp] theorem State.setRkey_get_chan : (s.setRkey i x).chan j = s.chan j := rfl
@[simp] theorem State.setRkey_get_scrub : (s.setRkey i x).scrub j = s.scrub j := rfl
@[simp] theorem State.setRkey_get_hport : (s.setRkey i x).hport j = s.hport j := rfl
@[simp] theorem State.setRkey_get_qp : (s.setRkey i x).qp j = s.qp j := rfl
theorem State.setRkey_get_rkey : (s.setRkey i x).rkey j = if i = j then x else s.rkey j := tget_tput ..
@[simp] theorem State.setRkey_get_rkey_same : (s.setRkey i x).rkey i = x := tget_tput_same ..

end

/-! ### A partition's parts -/

section
variable (x : PortQos) (r : EvRing) (d : Dbg) (e : ExtMem)

theorem State.setPqos_eq : s.setPqos i j x = s.setPart i { s.part i with qos := tput (s.part i).qos j x } := rfl
theorem State.setRing_eq : s.setRing i r = s.setPart i { s.part i with ring := r } := rfl
theorem State.setDbg_eq : s.setDbg i d = s.setPart i { s.part i with dbg := d } := rfl
theorem State.setExt_eq : s.setExt i e = s.setPart i { s.part i with ext := e } := rfl

/-- What is read of partition and port after `setPqos`. -/
theorem State.setPqos_get (p k : Nat) : (s.setPqos i j x).pqos p k = if i = p ∧ j = k then x else s.pqos p k := by
  simp only [State.setPqos, State.pqos, State.setPart_get_part]
  by_cases h : i = p
  · subst h; simp [tget_tput]
  · simp [h]

end

/-! ### Draws -/

@[simp] theorem State.drawBits_snd (w : Nat) : (s.drawBits w).2 = { s with free := s.free + 1 } := rfl
@[simp] theorem State.drawNat_snd (n : Nat) : (s.drawNat n).2 = { s with free := s.free + 1 } := rfl
theorem State.drawNat_lt (n : Nat) (h : 0 < n) : (s.drawNat n).1 < n := Nat.mod_lt _ h

end Sys2Proof.Machine
end

