-- ==== Sys2Proof/Laws/Lines.lean ====
section
/-! SUPPORT. The operations over lines of memory: everything each can change, and that each keeps the memories canonical. -/

namespace Sys2Proof.Machine
open Sys2Proof

/-- Nothing has changed but lines, wherever they are held: caches and victim buffers, write queues, DRAM and scratch; the
counters of the Burrow; and the counter of free choices. -/
def LineFrame (s t : State) : Prop :=
  t = { s with
    setts := t.setts, chans := t.chans, dram := t.dram, dramPois := t.dramPois, dramKey := t.dramKey
    scr := t.scr, scrPois := t.scrPois, bur := t.bur, free := t.free }

theorem LineFrame.refl (s : State) : LineFrame s s := rfl

theorem LineFrame.trans {s t u : State} (h : LineFrame s t) (g : LineFrame t u) : LineFrame s u := by
  unfold LineFrame at *; rw [g, h]

/-- The memories of `t` are canonical if those of `s` are. -/
def KeepsWf (s t : State) : Prop :=
  (Memory.wf s.dram = true → Memory.wf t.dram = true) ∧ (Memory.wf s.scr = true → Memory.wf t.scr = true)

theorem KeepsWf.refl (s : State) : KeepsWf s s := ⟨id, id⟩

theorem KeepsWf.trans {s t u : State} (h : KeepsWf s t) (g : KeepsWf t u) : KeepsWf s u := ⟨g.1 ∘ h.1, g.2 ∘ h.2⟩

/-- An operation that leaves both memories alone keeps them canonical. -/
theorem KeepsWf.of_eq {s t : State} (h : t.dram = s.dram) (g : t.scr = s.scr) : KeepsWf s t := ⟨h ▸ id, g ▸ id⟩

/-- A fold of an operation that keeps the memories canonical does so. -/
theorem KeepsWf.foldl {α : Type} (f : State → α → State) (hf : ∀ s a, KeepsWf s (f s a)) (l : List α) (s : State) :
    KeepsWf s (l.foldl f s) := by
  induction l generalizing s with
  | nil => exact .refl s
  | cons a l ih => exact (hf s a).trans (ih _)

variable (s : State)

/-! ### Lines stored -/

theorem State.dramStore_frame (loc pa : Nat) (v : LineVal) :
    s.dramStore loc pa v = { s with
      dram := (s.dramStore loc pa v).dram, dramKey := (s.dramStore loc pa v).dramKey
      dramPois := (s.dramStore loc pa v).dramPois } := rfl

/-- R417: every byte of DRAM after a line of 64 bytes is stored. -/
theorem State.dramStore_get (loc pa : Nat) (v : LineVal) (a : Nat) (h : v.data.length = 64) :
    cget (s.dramStore loc pa v).dram a =
      if loc / 64 * 64 ≤ a ∧ a < loc / 64 * 64 + 64 then v.data.getD (a - loc / 64 * 64) 0 else cget s.dram a := by
  simp only [State.dramStore, cget_cputs, h]

theorem State.dramStore_wf (loc pa : Nat) (v : LineVal) : KeepsWf s (s.dramStore loc pa v) :=
  ⟨cputs_wf _ _ _, id⟩

theorem State.scrStore_frame (off : Nat) (v : LineVal) :
    s.scrStore off v = { s with scr := (s.scrStore off v).scr, scrPois := (s.scrStore off v).scrPois } := rfl

/-- R395: every byte of scratch after a line of 64 bytes is stored. -/
theorem State.scrStore_get (off : Nat) (v : LineVal) (a : Nat) (h : v.data.length = 64) :
    cget (s.scrStore off v).scr a =
      if off / 64 * 64 ≤ a ∧ a < off / 64 * 64 + 64 then v.data.getD (a - off / 64 * 64) 0 else cget s.scr a := by
  simp only [State.scrStore, cget_cputs, h]

theorem State.scrStore_wf (off : Nat) (v : LineVal) : KeepsWf s (s.scrStore off v) := ⟨id, cputs_wf _ _ _⟩

theorem State.performWrite_frame (ch sub i : Nat) : LineFrame s (s.performWrite ch sub i) := by
  simp only [State.performWrite]; split
  · rfl
  · split <;> rfl

theorem State.performWrite_wf (ch sub i : Nat) : KeepsWf s (s.performWrite ch sub i) := by
  simp only [State.performWrite]; split
  · exact .refl s
  · split
    · exact .refl s
    · exact ⟨cputs_wf _ _ _, id⟩

theorem State.pushWrite_frame (pa : Nat) (v : LineVal) : LineFrame s (s.pushWrite pa v) := by
  simp only [State.pushWrite]; split
  · exact .refl s
  · split
    · exact .refl s
    · split
      · exact (s.performWrite_frame ..).trans rfl
      · rfl

theorem State.pushWrite_wf (pa : Nat) (v : LineVal) : KeepsWf s (s.pushWrite pa v) := by
  simp only [State.pushWrite]; split
  · exact .refl s
  · split
    · exact .refl s
    · split
      · exact s.performWrite_wf ..
      · exact .refl s

theorem State.installAt_frame (pa : Nat) (v : LineVal) (d : Bool) (p : Place) : LineFrame s (s.installAt pa v d p) := by
  cases p <;> simp only [State.installAt] <;> first | rfl | (split <;> rfl)

theorem State.installAt_wf (pa : Nat) (v : LineVal) (d : Bool) (p : Place) : KeepsWf s (s.installAt pa v d p) := by
  cases p <;> simp only [State.installAt] <;> first | exact .of_eq rfl rfl | (split <;> exact .of_eq rfl rfl)

theorem State.install_frame (pa : Nat) (v : LineVal) (d : Bool) (busy : List Nat) : LineFrame s (s.install pa v d busy) :=
  s.installAt_frame ..

theorem State.install_wf (pa : Nat) (v : LineVal) (d : Bool) (busy : List Nat) : KeepsWf s (s.install pa v d busy) :=
  s.installAt_wf ..

theorem State.storeLine_frame (pa : Nat) (v : LineVal) (busy : List Nat) : LineFrame s (s.storeLine pa v busy) := by
  simp only [State.storeLine]; split <;> first | exact .refl s | rfl | exact s.install_frame ..

theorem State.storeLine_wf (pa : Nat) (v : LineVal) (busy : List Nat) : KeepsWf s (s.storeLine pa v busy) := by
  simp only [State.storeLine]; split <;> first | exact .refl s | exact s.scrStore_wf _ _ | exact s.install_wf ..

/-- A device unit's write either leaves the state alone or stores the one line. -/
theorem State.devWrite_cases (pa : Nat) (bs : Bytes) :
    (s.devWrite pa bs).1 = s ∨ ∃ a v, s.canon pa = some a ∧ (s.devWrite pa bs).1 = s.storeLine a v s.busyLines := by
  simp only [State.devWrite]; split
  · exact .inl rfl
  · rename_i a ha
    split
    · split
      · exact .inl rfl
      · exact .inr ⟨a, _, ha, rfl⟩
    · exact .inl rfl

theorem State.devWrite_frame (pa : Nat) (bs : Bytes) : LineFrame s (s.devWrite pa bs).1 := by
  obtain h | ⟨a, v, -, h⟩ := s.devWrite_cases pa bs <;> rw [h]
  · exact .refl s
  · exact s.storeLine_frame ..

theorem State.devWrite_wf (pa : Nat) (bs : Bytes) : KeepsWf s (s.devWrite pa bs).1 := by
  obtain h | ⟨a, v, -, h⟩ := s.devWrite_cases pa bs <;> rw [h]
  · exact .refl s
  · exact s.storeLine_wf ..

theorem State.poisonLine_frame (pa : Nat) : LineFrame s (s.poisonLine pa) := by
  simp only [State.poisonLine]; split
  · exact .refl s
  · exact s.storeLine_frame ..

theorem State.poisonLine_wf (pa : Nat) : KeepsWf s (s.poisonLine pa) := by
  simp only [State.poisonLine]; split
  · exact .refl s
  · exact s.storeLine_wf ..

/-! ### Records -/

/-- An event record changes Owl's part of the state and nothing else. -/
theorem State.logEvent_frame (k st d : Byte) (a : W64) (p : Byte) :
    s.logEvent k st d a p = { s with owl := (s.logEvent k st d a p).owl } := by
  unfold State.logEvent; split <;> rfl

/-- A record is queued, unless Owl restarts with 256 queued. -/
theorem State.logEvent_queue (k st d : Byte) (a : W64) (p : Byte) (h : ¬(s.owl.st = .restarting ∧ 256 ≤ s.owl.evq.length)) :
    (s.logEvent k st d a p).owl.evq =
      s.owl.evq ++ [⟨k, st, d, s.owl.lostPend, a, s.top.tick, s.flash.bootcnt, p⟩] := by
  unfold State.logEvent; rw [if_neg h]

@[simp] theorem State.logEvent_dram (k st d : Byte) (a : W64) (p : Byte) : (s.logEvent k st d a p).dram = s.dram := by
  rw [logEvent_frame]
@[simp] theorem State.logEvent_scr (k st d : Byte) (a : W64) (p : Byte) : (s.logEvent k st d a p).scr = s.scr := by
  rw [logEvent_frame]
@[simp] theorem State.logEvent_flash (k st d : Byte) (a : W64) (p : Byte) : (s.logEvent k st d a p).flash = s.flash := by
  rw [logEvent_frame]
@[simp] theorem State.logEvent_fuse (k st d : Byte) (a : W64) (p : Byte) : (s.logEvent k st d a p).fuse = s.fuse := by
  rw [logEvent_frame]
@[simp] theorem State.logEvent_txns (k st d : Byte) (a : W64) (p : Byte) : (s.logEvent k st d a p).txns = s.txns := by
  rw [logEvent_frame]
@[simp] theorem State.logEvent_nextTxn (k st d : Byte) (a : W64) (p : Byte) : (s.logEvent k st d a p).nextTxn = s.nextTxn := by
  rw [logEvent_frame]
@[simp] theorem State.logEvent_pending (k st d : Byte) (a : W64) (p : Byte) : (s.logEvent k st d a p).pending = s.pending := by
  rw [logEvent_frame]

/-- R455, R456: a record of a partition's ring touches lines and that partition's ring. -/
theorem State.ringWrite_frame (p : Nat) (k st d : Byte) (a : Nat) :
    ∃ t r, LineFrame s t ∧ s.ringWrite p k st d a = t.setRing p r := by
  simp only [State.ringWrite]; split
  · exact ⟨s, _, .refl s, rfl⟩
  · generalize hd : s.devWrite _ _ = x
    have h : LineFrame s x.1 := hd ▸ s.devWrite_frame ..
    split <;> exact ⟨_, _, h, rfl⟩

theorem State.ringWrite_wf (p : Nat) (k st d : Byte) (a : Nat) : KeepsWf s (s.ringWrite p k st d a) := by
  simp only [State.ringWrite]; split
  · exact .refl s
  · generalize hd : s.devWrite _ _ = x
    have h : KeepsWf s x.1 := hd ▸ s.devWrite_wf ..
    split <;> exact h

theorem State.ringRecord_wf (p : Nat) (k st d : Byte) (a : Nat) : KeepsWf s (s.ringRecord p k st d a) :=
  (s.ringWrite_wf ..).trans (.of_eq (logEvent_dram ..) (logEvent_scr ..))

/-- R446, R458: a poisoned line that is counted touches the partitions only. -/
theorem State.countPoison_frame (pa : Nat) : s.countPoison pa = { s with parts := (s.countPoison pa).parts } := by
  unfold State.countPoison; split <;> rfl

theorem State.poisonRecord_wf (pa : Nat) (cause : Byte) : KeepsWf s (s.poisonRecord pa cause) := by
  simp only [State.poisonRecord]; split
  · exact .refl s
  · refine KeepsWf.trans ?_ (State.ringRecord_wf ..)
    rw [State.countPoison_frame]; exact .of_eq rfl rfl

/-! ### Ranges copied, zeroed or lost -/

theorem foldl_cput_wf {α : Type} (f : α → Nat × Byte) (l : List α) (m : List Host.Cell) (h : Memory.wf m = true) :
    Memory.wf (l.foldl (fun m c => cput m (f c).1 (f c).2) m) = true := by
  induction l generalizing m with
  | nil => exact h
  | cons c l ih => exact ih _ (cput_wf m _ _ h)

theorem State.copyDram_wf (a b n : Nat) (pa : Nat → Option Nat) : KeepsWf s (s.copyDram a b n pa) :=
  ⟨fun h => foldl_cput_wf (fun c : Host.Cell => (c.1 - a + b, c.2)) _ _ (czero_wf _ _ _ h), id⟩

theorem State.zeroScratch_wf (p : Nat) : KeepsWf s (s.zeroScratch p) := ⟨id, czero_wf _ _ _⟩

theorem State.fillAll_wf (keep : Nat → Bool) : KeepsWf s (s.fillAll keep) :=
  ⟨cwfFrom_filter _ keep none, fun _ => rfl⟩

theorem State.allHeld_wf : KeepsWf s s.allHeld := ⟨fun _ => rfl, fun _ => rfl⟩

theorem State.zeroPool_wf (base count : Nat) : KeepsWf s (s.zeroPool base count) :=
  ⟨cwfFrom_filter _ (fun a => !s.locIn (a / 64 * 64) base count) none, id⟩

theorem State.dropSegments_wf (ch : Nat) : KeepsWf s (s.dropSegments ch) := by
  unfold State.dropSegments
  generalize gib = g
  refine KeepsWf.foldl _ (fun s i => ?_) _ _
  dsimp only
  split
  · exact .refl s
  · exact ⟨czero_wf _ _ _, id⟩

theorem State.putChanLine_wf (ch a : Nat) (bs : Bytes) : KeepsWf s (s.putChanLine ch a bs) := by
  unfold State.putChanLine; split
  · exact .refl s
  · dsimp only; generalize locKey .. = l; exact ⟨cputs_wf _ _ _, id⟩

/-- R207, R209: an entry kept changes the directories and nothing else. -/
theorem State.setDirEnt_frame (pa : Nat) (e : DirEnt) : s.setDirEnt pa e = { s with setts := (s.setDirEnt pa e).setts } := by
  simp only [State.setDirEnt]; split <;> rfl

theorem State.setDirEnt_wf (pa : Nat) (e : DirEnt) : KeepsWf s (s.setDirEnt pa e) := by
  rw [State.setDirEnt_frame]; exact .of_eq rfl rfl

theorem State.burWrite32_wf (a o : Nat) (bs : Bytes) : KeepsWf s (s.burWrite32 a o bs) := by
  simp only [State.burWrite32]
  split
  · exact ⟨id, cputs_wf _ _ _⟩
  · exact s.setDirEnt_wf ..
  · exact .of_eq rfl rfl
  · refine KeepsWf.foldl _ (fun s i => ?_) _ _
    split
    · exact .refl s
    · split <;> exact .of_eq rfl rfl
  · exact .of_eq rfl rfl

theorem State.burPoke_wf (a : Nat) (bs : Bytes) : KeepsWf s (s.burPoke a bs) :=
  KeepsWf.foldl _ (fun s _ => s.burWrite32_wf ..) _ _

theorem State.unitWrite_wf (cls i a : Nat) (bs : Bytes) : KeepsWf s (s.unitWrite cls i a bs) := by
  simp only [State.unitWrite]
  split
  · exact .of_eq rfl rfl
  · split
    · exact .of_eq rfl rfl
    · split
      · exact KeepsWf.foldl _ (fun s k => s.putChanLine_wf ..) _ _
      · exact s.burPoke_wf ..

end Sys2Proof.Machine
end

