-- ==== Sys2Proof/Laws/Gates.lean ====
section
/-! SUPPORT. The shared frames of commands: what each does before, or instead of, the effect it is given; and the table of
open requests. A claim about a command over such a frame needs a proof about its own effect only. -/

namespace Sys2Proof.Machine
open Sys2Proof

variable (s : State)

/-! ### Owl's commands -/

/-- A reply touches Owl's part of the state only. -/
theorem State.reply_frame (sess : Nat) (code : BitVec 16) (tag : W32) (st : Status) (body : Bytes) :
    s.reply sess code tag st body = { s with owl := (s.reply sess code tag st body).owl } := by
  simp only [State.reply]; split
  · rfl
  · split
    · rfl
    · split <;> rfl

/-- In an open session exactly one reply is added. -/
theorem State.reply_replies (sess : Nat) (code : BitVec 16) (tag : W32) (st : Status) (body : Bytes)
    (h : s.sessOpen sess = true) :
    (s.reply sess code tag st body).owl.replies = s.owl.replies ++ [⟨sess, code, tag, st, body⟩] := by
  simp only [State.reply, h]; split
  · simp_all
  · split
    · rfl
    · split <;> rfl

/-- R538: a command that may run alongside others is acted on at once. -/
theorem State.afterLoad_beside {code : BitVec 16} (h : runsAlone code = false) : s.afterLoad code = s := by
  simp [State.afterLoad, h]

/-- R538: with no LAYOUT_LOAD running, every command is acted on at once. -/
theorem State.afterLoad_free (code : BitVec 16) (h : s.owl.repl = none) : s.afterLoad code = s := by
  simp [State.afterLoad, h]

/-- R535–R538: a command of a closed session, or while Owl does not run, does nothing; in SCRAPPED most are refused; else
its effect acts on the state in which the session's clock is set and a LAYOUT_LOAD that it waits for has ended. -/
theorem State.command_cases (sess : Nat) (code : BitVec 16) (tag : W32) (act : State → State) :
    s.command sess code tag act = s ∨
    ∃ o, s.command sess code tag act = (({ s with owl := o } : State).afterLoad code).reply sess code tag .fenced [] ∨
      s.command sess code tag act = act (({ s with owl := o } : State).afterLoad code) := by
  simp only [State.command]; split
  · exact .inl rfl
  · refine .inr ⟨(s.setSess sess { s.sess sess with lastCmd := s.clk }).owl, ?_⟩
    split
    · exact .inl rfl
    · exact .inr rfl

/-- Whatever Owl's part of the state and the end of a scrub cannot change, a command keeps if its effect does. -/
theorem State.command_keeps (P : State → Prop) (hP : ∀ s o, P s → P { s with owl := o }) (hend : ∀ s, P s → P s.scrubEnd)
    (sess : Nat) (code : BitVec 16) (tag : W32) (act : State → State) (hact : ∀ s, P s → P (act s)) (h : P s) :
    P (s.command sess code tag act) := by
  have hload (o : OwlS) : P (({ s with owl := o } : State).afterLoad code) := by
    unfold State.afterLoad; split
    · exact hend _ (hP _ _ h)
    · exact hP _ _ h
  obtain e | ⟨o, e | e⟩ := s.command_cases sess code tag act <;> rw [e]
  · exact h
  · rw [State.reply_frame]; exact hP _ _ (hload o)
  · exact hact _ (hload o)

/-! ### Lane control blocks and flow units (R136–R139) -/

/-- A lane control block changes counters of its port only, or its effect follows on that. -/
theorem State.lcbIn_cases (k l : Nat) (blk : BitVec 272) (ty : Byte) (act : State → Nat → State) :
    s.lcbIn k l blk ty act = s ∨ (∃ p, s.lcbIn k l blk ty act = s.setPort k p) ∨
    ∃ w, s.lcbIn k l blk ty act = act s w ∨ ∃ p, s.lcbIn k l blk ty act = act (s.setPort k p) w := by
  simp only [State.lcbIn]; split
  · exact .inl rfl
  · split
    · exact .inr (.inl ⟨_, rfl⟩)
    · rename_i c w _
      have hs (q : Prop) [Decidable q] (p : Port) :
          (if q then s else s.setPort k p) = s ∨ ∃ r, (if q then s else s.setPort k p) = s.setPort k r := by
        split
        · exact .inl rfl
        · exact .inr ⟨_, rfl⟩
      have key (t : State) (h : t = s ∨ ∃ r, t = s.setPort k r) :
          (if cwType w = ty then act t w else t) = s ∨ (∃ p, (if cwType w = ty then act t w else t) = s.setPort k p) ∨
          ∃ v, (if cwType w = ty then act t w else t) = act s v ∨
            ∃ p, (if cwType w = ty then act t w else t) = act (s.setPort k p) v := by
        obtain rfl | ⟨r, rfl⟩ := h <;> split
        · exact .inr (.inr ⟨w, .inl rfl⟩)
        · exact .inl rfl
        · exact .inr (.inr ⟨w, .inr ⟨r, rfl⟩⟩)
        · exact .inr (.inl ⟨r, rfl⟩)
      exact key _ (hs _ _)

theorem State.sendLcbs_frame (k : Nat) (ls : List Nat) (ty : Byte) :
    s.sendLcbs k ls ty = { s with ports := (s.sendLcbs k ls ty).ports } := rfl

/-! ### Open requests (R205, R217) -/

theorem State.setTxn_frame (t : Txn) : s.setTxn t = { s with txns := (s.setTxn t).txns } := rfl
theorem State.dropTxn_frame (id : Nat) : s.dropTxn id = { s with txns := (s.dropTxn id).txns } := rfl
theorem State.openTxn_frame (t : Txn) :
    s.openTxn t = { s with txns := (s.openTxn t).txns, nextTxn := s.nextTxn + 1 } := rfl

/-- The numbers of the open requests after one is changed are those before. -/
theorem State.setTxn_ids (t : Txn) : (s.setTxn t).txns.map (·.id) = s.txns.map (·.id) := by
  simp only [State.setTxn, List.map_map]
  apply List.map_congr_left
  intro u _
  simp only [Function.comp_apply]; split <;> simp_all

/-- Of those after one is dropped, each was there before. -/
theorem State.dropTxn_mem (id : Nat) {u : Txn} (h : u ∈ (s.dropTxn id).txns) : u ∈ s.txns ∧ u.id ≠ id := by
  simpa [State.dropTxn] using h

theorem State.openTxn_mem (t : Txn) {u : Txn} (h : u ∈ (s.openTxn t).txns) :
    u ∈ s.txns ∨ u = { t with id := s.nextTxn, since := s.clk } := by
  simpa [State.openTxn] using h

/-- The numbers of the open requests stay below the next when one is changed, dropped or opened. -/
theorem State.setTxn_numbered (t : Txn) (h : ∀ u ∈ s.txns, u.id < s.nextTxn) :
    ∀ u ∈ (s.setTxn t).txns, u.id < (s.setTxn t).nextTxn := by
  intro u hu
  have : u.id ∈ s.txns.map (·.id) := by rw [← s.setTxn_ids t]; exact List.mem_map_of_mem hu
  obtain ⟨v, hv, e⟩ := List.mem_map.1 this
  exact e ▸ h v hv

theorem State.dropTxn_numbered (id : Nat) (h : ∀ u ∈ s.txns, u.id < s.nextTxn) :
    ∀ u ∈ (s.dropTxn id).txns, u.id < (s.dropTxn id).nextTxn := fun u hu => h u (s.dropTxn_mem id hu).1

theorem State.openTxn_numbered (t : Txn) (h : ∀ u ∈ s.txns, u.id < s.nextTxn) :
    ∀ u ∈ (s.openTxn t).txns, u.id < (s.openTxn t).nextTxn := by
  intro u hu
  obtain hu | rfl := s.openTxn_mem t hu
  · exact Nat.lt_succ_of_lt (h u hu)
  · exact Nat.lt_succ_self _

/-! ### Engines -/

theorem State.setRun_frame (e : Nat) (r : Run) : s.setRun e r = { s with engines := (s.setRun e r).engines } := rfl

/-- A lane instruction changes the engine's run and draws free values, or does nothing. -/
theorem State.laneIns_frame (e op draws : Nat) (f : Nat → Nat → Nat → Nat → Nat → Nat) :
    s.laneIns e op draws f =
      { s with engines := (s.laneIns e op draws f).engines, free := (s.laneIns e op draws f).free } := by
  simp only [State.laneIns]; split <;> rfl

end Sys2Proof.Machine
end

