-- ==== Sys2Proof/Laws/PerInstr.lean ====
section
/-! SUPPORT. One lemma for each constructor: a well-formed command names units that exist. -/

namespace Sys2Proof.Laws.WfBound
open Sys2Proof

/-- Every unit that a well-formed command names is one the device has. -/
def Statement (c : Instr) : Prop := c.wf = true → ∀ x ∈ c.indices, x.1 < x.2

theorem of_wf (c : Instr) : Statement c := by
  intro h x hx
  simp only [Instr.wf, Bool.and_eq_true, List.all_eq_true, decide_eq_true_eq] at h
  exact h.1 x hx

theorem pwrgoodRise (straps : Straps) (wrstN : Bool) : Statement (.pwrgoodRise straps wrstN) := of_wf _
theorem clockLoss (refStopped : Bool) : Statement (.clockLoss refStopped) := of_wf _
theorem owlUp (boot : OwlBoot) : Statement (.owlUp boot) := of_wf _
theorem bankBootFail (bankB : Bool) : Statement (.bankBootFail bankB) := of_wf _
theorem channelTrainingEnd (ch : Nat) (d : Dimm) : Statement (.channelTrainingEnd ch d) := of_wf _
theorem wrstNFall (ns : Nat) : Statement (.wrstNFall ns) := of_wf _
theorem warmZeroFillDone (ok : Bool) (tests : BitVec 96) : Statement (.warmZeroFillDone ok tests) := of_wf _
theorem registerWrite (path : Path) (off : Nat) (v : W32) : Statement (.registerWrite path off v) := of_wf _
theorem unlockWrite (path : Path) (off : Nat) (v : W32) : Statement (.unlockWrite path off v) := of_wf _
theorem unlockLapse (path : Path) (off : Nat) : Statement (.unlockLapse path off) := of_wf _
theorem w1cClear (path : Path) (off : Nat) (v : W32) (sets : W32) : Statement (.w1cClear path off v sets) := of_wf _
theorem rwtRevote (upsets : List Upset) : Statement (.rwtRevote upsets) := of_wf _
theorem rwtRewrite (f : RwtField) : Statement (.rwtRewrite f) := of_wf _
theorem fifoPop (path : Path) (f : FifoId) : Statement (.fifoPop path f) := of_wf _
theorem fifoDrop (path : Path) (f : FifoId) : Statement (.fifoDrop path f) := of_wf _
theorem fifoPush (path : Path) (f : FifoId) (w : W32) : Statement (.fifoPush path f w) := of_wf _
theorem fifoPushEop (path : Path) (f : FifoId) (w : W32) : Statement (.fifoPushEop path f w) := of_wf _
theorem inqDescriptorStart (e : Nat) : Statement (.inqDescriptorStart e) := of_wf _
theorem partOpHold (path : Path) (p : Nat) (v : Bool) : Statement (.partOpHold path p v) := of_wf _
theorem partTenantHold (path : Path) (p : Nat) (v : Bool) : Statement (.partTenantHold path p v) := of_wf _
theorem partitionQuiesced (p : Nat) : Statement (.partitionQuiesced p) := of_wf _
theorem partDraining10ms (p : Nat) : Statement (.partDraining10ms p) := of_wf _
theorem partDraining100ms (p : Nat) : Statement (.partDraining100ms p) := of_wf _
theorem partReset (path : Path) (p : Nat) : Statement (.partReset path p) := of_wf _
theorem partitionResetDone (p : Nat) : Statement (.partitionResetDone p) := of_wf _
theorem lnkEnable (port : Nat) (v : Bool) : Statement (.lnkEnable port v) := of_wf _
theorem lnkAutoUp (port : Nat) : Statement (.lnkAutoUp port) := of_wf _
theorem takeDown (port : Nat) : Statement (.takeDown port) := of_wf _
theorem lnkCmdRetrain (port : Nat) : Statement (.lnkCmdRetrain port) := of_wf _
theorem planGo (port : Nat) : Statement (.planGo port) := of_wf _
theorem lanePower (port lane : Nat) (v : Bool) : Statement (.lanePower port lane v) := of_wf _
theorem laneClearFail (port lane : Nat) : Statement (.laneClearFail port lane) := of_wf _
theorem downHoldoffEnd (port : Nat) : Statement (.downHoldoffEnd port) := of_wf _
theorem tsId (port lane : Nat) (blk : BitVec 272) : Statement (.tsId port lane blk) := of_wf _
theorem tsEq (port lane : Nat) (blk : BitVec 272) : Statement (.tsEq port lane blk) := of_wf _
theorem tsDone (port lane : Nat) (blk : BitVec 272) (skew : Nat) (margin : BitVec 16) :
    Statement (.tsDone port lane blk skew margin) := of_wf _
theorem tsGo (port lane : Nat) (blk : BitVec 272) : Statement (.tsGo port lane blk) := of_wf _
theorem retrainLcb (port lane : Nat) (blk : BitVec 272) : Statement (.retrainLcb port lane blk) := of_wf _
theorem downLcb (port lane : Nat) (blk : BitVec 272) : Statement (.downLcb port lane blk) := of_wf _
theorem standbyLcb (port lane : Nat) (blk : BitVec 272) : Statement (.standbyLcb port lane blk) := of_wf _
theorem laneTrainLcb (port lane : Nat) (blk : BitVec 272) : Statement (.laneTrainLcb port lane blk) := of_wf _
theorem trainTimeout (port : Nat) : Statement (.trainTimeout port) := of_wf _
theorem retrainTimeout (port : Nat) : Statement (.retrainTimeout port) := of_wf _
theorem retrainComplete (port : Nat) : Statement (.retrainComplete port) := of_wf _
theorem laneLockLoss (port lane : Nat) : Statement (.laneLockLoss port lane) := of_wf _
theorem planLockLoss (port : Nat) : Statement (.planLockLoss port) := of_wf _
theorem laneFail (port lane : Nat) : Statement (.laneFail port lane) := of_wf _
theorem dataUnit (port : Nat) (u : FlowUnit) : Statement (.dataUnit port u) := of_wf _
theorem idleUnit (port : Nat) (u : FlowUnit) : Statement (.idleUnit port u) := of_wf _
theorem replayUnit (port : Nat) (u : FlowUnit) : Statement (.replayUnit port u) := of_wf _
theorem planUnitReq (port : Nat) (u : FlowUnit) : Statement (.planUnitReq port u) := of_wf _
theorem planUnitAcc (port : Nat) (u : FlowUnit) : Statement (.planUnitAcc port u) := of_wf _
theorem planUnitRej (port : Nat) (u : FlowUnit) : Statement (.planUnitRej port u) := of_wf _
theorem planUnitGo (port : Nat) (u : FlowUnit) : Statement (.planUnitGo port u) := of_wf _
theorem replayTimer (port : Nat) : Statement (.replayTimer port) := of_wf _
theorem sameLimitReached (port : Nat) : Statement (.sameLimitReached port) := of_wf _
theorem winLimitReached (port : Nat) : Statement (.winLimitReached port) := of_wf _
theorem retrainLimitReached (port : Nat) : Statement (.retrainLimitReached port) := of_wf _
theorem rdShared (port : Nat) (m : Msg) (n : Noise) : Statement (.rdShared port m n) := of_wf _
theorem rdOwn (port : Nat) (m : Msg) (n : Noise) : Statement (.rdOwn port m n) := of_wf _
theorem upgrade (port : Nat) (m : Msg) (n : Noise) : Statement (.upgrade port m n) := of_wf _
theorem rdOnce (port : Nat) (m : Msg) (n : Noise) : Statement (.rdOnce port m n) := of_wf _
theorem wrLine (port : Nat) (m : Msg) (n : Noise) : Statement (.wrLine port m n) := of_wf _
theorem wrPart (port : Nat) (m : Msg) (n : Noise) : Statement (.wrPart port m n) := of_wf _
theorem atomic (port : Nat) (m : Msg) (n : Noise) : Statement (.atomic port m n) := of_wf _
theorem accWr (port : Nat) (m : Msg) (n : Noise) : Statement (.accWr port m n) := of_wf _
theorem publish (port : Nat) (m : Msg) (n : Noise) : Statement (.publish port m n) := of_wf _
theorem wbDirty (port : Nat) (m : Msg) (n : Noise) : Statement (.wbDirty port m n) := of_wf _
theorem wbClean (port : Nat) (m : Msg) (n : Noise) : Statement (.wbClean port m n) := of_wf _
theorem snpAck (port : Nat) (m : Msg) : Statement (.snpAck port m) := of_wf _
theorem snpData (port : Nat) (m : Msg) : Statement (.snpData port m) := of_wf _
theorem fmNodeDown (port : Nat) (m : Msg) : Statement (.fmNodeDown port m) := of_wf _
theorem fmNodeUp (port : Nat) (m : Msg) : Statement (.fmNodeUp port m) := of_wf _
theorem fmEcho (port : Nat) (m : Msg) : Statement (.fmEcho port m) := of_wf _
theorem fmEchoRsp (port : Nat) (m : Msg) : Statement (.fmEchoRsp port m) := of_wf _
theorem unexpectedMessage (port : Nat) (ty : BitVec 6) (m : Msg) : Statement (.unexpectedMessage port ty m) := of_wf _
theorem requestWake (sett : Nat) (line : Nat) : Statement (.requestWake sett line) := of_wf _
theorem minHoldEnd (sett : Nat) (line : Nat) : Statement (.minHoldEnd sett line) := of_wf _
theorem requestStarved (sett : Nat) (id : Nat) : Statement (.requestStarved sett id) := of_wf _
theorem starveCount (sett : Nat) (id : Nat) : Statement (.starveCount sett id) := of_wf _
theorem parkTimeout (sett : Nat) (id : Nat) : Statement (.parkTimeout sett id) := of_wf _
theorem snoopTimeout (tag : BitVec 16) : Statement (.snoopTimeout tag) := of_wf _
theorem deathSweepEnd (sett : Nat) : Statement (.deathSweepEnd sett) := of_wf _
theorem dedupEntryExpiry (src : Node) (gen : Byte) (tag : BitVec 16) : Statement (.dedupEntryExpiry src gen tag) := of_wf _
theorem dedupBlockEnd (src : Node) (gen : Byte) (tag : BitVec 16) : Statement (.dedupBlockEnd src gen tag) := of_wf _
theorem nodeGenBlockEnd (w : Nat) : Statement (.nodeGenBlockEnd w) := of_wf _
theorem dramReadComplete (id : Nat) (errs : List (Nat × Byte)) : Statement (.dramReadComplete id errs) := of_wf _
theorem dramAccessWithdrawn (id : Nat) : Statement (.dramAccessWithdrawn id) := of_wf _
theorem victimQueued (sett : Nat) (i : Nat) : Statement (.victimQueued sett i) := of_wf _
theorem rmwBatchDone (line : Nat) (errs : List (Nat × Byte)) : Statement (.rmwBatchDone line errs) := of_wf _
theorem requestAged (ch sub i : Nat) : Statement (.requestAged ch sub i) := of_wf _
theorem bankIdlePrecharge (ch sub rank bank : Nat) : Statement (.bankIdlePrecharge ch sub rank bank) := of_wf _
theorem refreshDue (ch sub rank bank : Nat) : Statement (.refreshDue ch sub rank bank) := of_wf _
theorem refreshForced (ch sub rank bank : Nat) : Statement (.refreshForced ch sub rank bank) := of_wf _
theorem mr4Poll (ch rank : Nat) (doubled : Bool) : Statement (.mr4Poll ch rank doubled) := of_wf _
theorem dramAlert (ch sub : Nat) : Statement (.dramAlert ch sub) := of_wf _
theorem caRetrainStart (ch : Nat) : Statement (.caRetrainStart ch) := of_wf _
theorem caRetrainEnd (ch : Nat) (ok : Bool) : Statement (.caRetrainEnd ch ok) := of_wf _
theorem drcHold (ch : Nat) (v : Bool) : Statement (.drcHold ch v) := of_wf _
theorem drcTimingWrite (ch : Nat) (r : Nat) (v : W32) : Statement (.drcTimingWrite ch r v) := of_wf _
theorem spareCmdGo (ch : Nat) (rank : BitVec 2) : Statement (.spareCmdGo ch rank) := of_wf _
theorem ceLimitReached (ch : Nat) (rank : Nat) : Statement (.ceLimitReached ch rank) := of_wf _
theorem deviceMark (ch rank sub dev : Nat) (byOwl : Bool) : Statement (.deviceMark ch rank sub dev byOwl) := of_wf _
theorem migrationChunkDone (ch : Nat) (ue : List (Nat × List (Nat × Byte))) (writeFail : Bool) :
    Statement (.migrationChunkDone ch ue writeFail) := of_wf _
theorem scrubRead (unit : Nat) (errs : List (Nat × Byte)) (sram : BitVec 80) : Statement (.scrubRead unit errs sram) := of_wf _
theorem scrubStarvedInterval (unit : Nat) : Statement (.scrubStarvedInterval unit) := of_wf _
theorem scrubLapLimit (unit : Nat) : Statement (.scrubLapLimit unit) := of_wf _
theorem regionDrainComplete (region : BitVec 24) : Statement (.regionDrainComplete region) := of_wf _
theorem walkComplete (asid : BitVec 16) (page : Nat) : Statement (.walkComplete asid page) := of_wf _
theorem walkTimeout (asid : BitVec 16) (page : Nat) : Statement (.walkTimeout asid page) := of_wf _
theorem invalidationReceive (u : InvUnit) (id : Nat) : Statement (.invalidationReceive u id) := of_wf _
theorem overflowSweepEnd (id : Nat) : Statement (.overflowSweepEnd id) := of_wf _
theorem drainReport (u : InvUnit) (id : Nat) : Statement (.drainReport u id) := of_wf _
theorem invalidationDrainTimeout (id : Nat) : Statement (.invalidationDrainTimeout id) := of_wf _
theorem xltInvAsid (target : BitVec 24) : Statement (.xltInvAsid target) := of_wf _
theorem xltInvRegion (target : BitVec 24) : Statement (.xltInvRegion target) := of_wf _
theorem queueEnable (path : Path) (p o : Nat) : Statement (.queueEnable path p o) := of_wf _
theorem queueDisable (path : Path) (p o : Nat) : Statement (.queueDisable path p o) := of_wf _
theorem queueReset (path : Path) (p : Nat) (o : BitVec 12) : Statement (.queueReset path p o) := of_wf _
theorem queueWake (q : Nat) : Statement (.queueWake q) := of_wf _
theorem descriptorFetched (q : Nat) : Statement (.descriptorFetched q) := of_wf _
theorem handOver (q : Nat) : Statement (.handOver q) := of_wf _
theorem descriptorDispatch (q : Nat) : Statement (.descriptorDispatch q) := of_wf _
theorem nop (q : Nat) : Statement (.nop q) := of_wf _
theorem copy (e : Nat) : Statement (.copy e) := of_wf _
theorem fill (e : Nat) : Statement (.fill e) := of_wf _
theorem convert (e : Nat) : Statement (.convert e) := of_wf _
theorem gather (e : Nat) : Statement (.gather e) := of_wf _
theorem scatter (e : Nat) : Statement (.scatter e) := of_wf _
theorem reduce (e : Nat) (order : List Nat) : Statement (.reduce e order) := of_wf _
theorem program (e : Nat) : Statement (.program e) := of_wf _
theorem digest (e : Nat) : Statement (.digest e) := of_wf _
theorem compact (e : Nat) : Statement (.compact e) := of_wf _
theorem fenceBarrier (q : Nat) : Statement (.fenceBarrier q) := of_wf _
theorem fenceInvalidate (q : Nat) : Statement (.fenceInvalidate q) := of_wf _
theorem engineTransferAnswer (e : Nat) (sbuf : BitVec 80) : Statement (.engineTransferAnswer e sbuf) := of_wf _
theorem tileStart (e : Nat) : Statement (.tileStart e) := of_wf _
theorem tileEnd (e : Nat) : Statement (.tileEnd e) := of_wf _
theorem add (e : Nat) : Statement (.add e) := of_wf _
theorem sub (e : Nat) : Statement (.sub e) := of_wf _
theorem mul (e : Nat) : Statement (.mul e) := of_wf _
theorem fma (e : Nat) : Statement (.fma e) := of_wf _
theorem div (e : Nat) : Statement (.div e) := of_wf _
theorem rsqrt (e : Nat) : Statement (.rsqrt e) := of_wf _
theorem sqrt (e : Nat) : Statement (.sqrt e) := of_wf _
theorem exp2 (e : Nat) : Statement (.exp2 e) := of_wf _
theorem log2 (e : Nat) : Statement (.log2 e) := of_wf _
theorem min (e : Nat) : Statement (.min e) := of_wf _
theorem max (e : Nat) : Statement (.max e) := of_wf _
theorem abs (e : Nat) : Statement (.abs e) := of_wf _
theorem sign (e : Nat) : Statement (.sign e) := of_wf _
theorem cmp (e : Nat) : Statement (.cmp e) := of_wf _
theorem sel (e : Nat) : Statement (.sel e) := of_wf _
theorem clamp (e : Nat) : Statement (.clamp e) := of_wf _
theorem cvt (e : Nat) : Statement (.cvt e) := of_wf _
theorem srnd (e : Nat) : Statement (.srnd e) := of_wf _
theorem rsum (e : Nat) : Statement (.rsum e) := of_wf _
theorem rssq (e : Nat) : Statement (.rssq e) := of_wf _
theorem rmaxa (e : Nat) : Statement (.rmaxa e) := of_wf _
theorem descriptorComplete (e : Nat) : Statement (.descriptorComplete e) := of_wf _
theorem engineHang (e : Nat) : Statement (.engineHang e) := of_wf _
theorem engineCheckerFault (e : Nat) : Statement (.engineCheckerFault e) := of_wf _
theorem foxReset (e : Nat) : Statement (.foxReset e) := of_wf _
theorem enginePurge (sett e : Nat) : Statement (.enginePurge sett e) := of_wf _
theorem purgeReport (sett e : Nat) : Statement (.purgeReport sett e) := of_wf _
theorem engineResetDone (e : Nat) : Statement (.engineResetDone e) := of_wf _
theorem engineResetTimeout (e : Nat) : Statement (.engineResetTimeout e) := of_wf _
theorem extensionApply (p : Nat) : Statement (.extensionApply p) := of_wf _
theorem eventRingConfig (path : Path) (p : Nat) (v : W32) : Statement (.eventRingConfig path p v) := of_wf _
theorem eventConsumerWrite (path : Path) (p : Nat) (v : W32) : Statement (.eventConsumerWrite path p v) := of_wf _
theorem egressDepart (k p : Nat) : Statement (.egressDepart k p) := of_wf _
theorem maxclrDepth (path : Path) (p k : Nat) : Statement (.maxclrDepth path p k) := of_wf _
theorem maxclrDelay (path : Path) (p k : Nat) : Statement (.maxclrDelay path p k) := of_wf _
theorem qosApply (p k : Nat) : Statement (.qosApply p k) := of_wf _
theorem settBadCycle (sett : Nat) (cause : Byte) : Statement (.settBadCycle sett cause) := of_wf _
theorem settCopyWatchdog (sett : Nat) : Statement (.settCopyWatchdog sett) := of_wf _
theorem settStandbyFail (sett : Nat) (copyPath : Bool) : Statement (.settStandbyFail sett copyPath) := of_wf _
theorem settSelfTestEnd (sett : Nat) (pass : Bool) : Statement (.settSelfTestEnd sett pass) := of_wf _
theorem settResyncDone (sett : Nat) : Statement (.settResyncDone sett) := of_wf _
theorem settResyncTimeout (sett : Nat) : Statement (.settResyncTimeout sett) := of_wf _
theorem settPaircmdFailover (sett : Nat) : Statement (.settPaircmdFailover sett) := of_wf _
theorem settPaircmdResync (sett : Nat) : Statement (.settPaircmdResync sett) := of_wf _
theorem consentKeySet (path : Path) (p : Nat) : Statement (.consentKeySet path p) := of_wf _
theorem tokenInstall (path : Path) (p : Nat) : Statement (.tokenInstall path p) := of_wf _
theorem tokenRevoke (path : Path) (p : Nat) : Statement (.tokenRevoke path p) := of_wf _
theorem tokenLapse (p : Nat) : Statement (.tokenLapse p) := of_wf _
theorem d1Request (v : W32) : Statement (.d1Request v) := of_wf _
theorem tlsHandshake (paramsOk : TlsOffer) (chain : Nat) (rootDigest : Bytes) :
    Statement (.tlsHandshake paramsOk chain rootDigest) := of_wf _
theorem sessionClose (sess : Nat) : Statement (.sessionClose sess) := of_wf _
theorem sessionIdleTimeout (sess : Nat) : Statement (.sessionIdleTimeout sess) := of_wf _
theorem mgtFrame (k : MgtKind) (f : Frame) (tcpPort : BitVec 16) : Statement (.mgtFrame k f tcpPort) := of_wf _
theorem commandChunk (sess : Nat) (code : BitVec 16) (tag : W32) (body : Bytes) :
    Statement (.commandChunk sess code tag body) := of_wf _
theorem unknownCommand (sess : Nat) (code : CmdHead) (tag : W32) : Statement (.unknownCommand sess code tag) := of_wf _
theorem info (sess : Nat) (tag : W32) (body : Bytes) : Statement (.info sess tag body) := of_wf _
theorem regRead (sess : Nat) (tag : W32) (body : Bytes) : Statement (.regRead sess tag body) := of_wf _
theorem regWrite (sess : Nat) (tag : W32) (keyed : Bool) (body : Bytes) : Statement (.regWrite sess tag keyed body) := of_wf _
theorem eventRead (sess : Nat) (tag : W32) (body : Bytes) : Statement (.eventRead sess tag body) := of_wf _
theorem ledgerRead (sess : Nat) (tag : W32) (body : Bytes) : Statement (.ledgerRead sess tag body) := of_wf _
theorem scrubStatus (sess : Nat) (tag : W32) (body : Bytes) : Statement (.scrubStatus sess tag body) := of_wf _
theorem scrubConfig (sess : Nat) (tag : W32) (body : Bytes) : Statement (.scrubConfig sess tag body) := of_wf _
theorem layoutLoad (sess : Nat) (tag : W32) (body : Bytes) : Statement (.layoutLoad sess tag body) := of_wf _
theorem layoutStage (sess : Nat) (tag : W32) (body : Bytes) : Statement (.layoutStage sess tag body) := of_wf _
theorem layoutFlash (sess : Nat) (tag : W32) (body : Bytes) : Statement (.layoutFlash sess tag body) := of_wf _
theorem rollbackAdvance (sess : Nat) (tag : W32) (body : Bytes) : Statement (.rollbackAdvance sess tag body) := of_wf _
theorem keyInstall (sess : Nat) (tag : W32) (body : Bytes) : Statement (.keyInstall sess tag body) := of_wf _
theorem fwWrite (sess : Nat) (tag : W32) (body : Bytes) : Statement (.fwWrite sess tag body) := of_wf _
theorem fwSelect (sess : Nat) (tag : W32) (body : Bytes) : Statement (.fwSelect sess tag body) := of_wf _
theorem owlRestart (sess : Nat) (tag : W32) (body : Bytes) : Statement (.owlRestart sess tag body) := of_wf _
theorem warmReset (sess : Nat) (tag : W32) (body : Bytes) : Statement (.warmReset sess tag body) := of_wf _
theorem powerStateRun (sess : Nat) (tag : W32) : Statement (.powerStateRun sess tag) := of_wf _
theorem powerStateGate (sess : Nat) (tag : W32) : Statement (.powerStateGate sess tag) := of_wf _
theorem powerStateDrowse (sess : Nat) (tag : W32) : Statement (.powerStateDrowse sess tag) := of_wf _
theorem powerStateHibernate (sess : Nat) (tag : W32) : Statement (.powerStateHibernate sess tag) := of_wf _
theorem powerStateOff (sess : Nat) (tag : W32) : Statement (.powerStateOff sess tag) := of_wf _
theorem powerCap (sess : Nat) (tag : W32) (body : Bytes) : Statement (.powerCap sess tag body) := of_wf _
theorem lifecycle (sess : Nat) (tag : W32) (body : Bytes) : Statement (.lifecycle sess tag body) := of_wf _
theorem spdm (sess : Nat) (tag : W32) (body : Bytes) : Statement (.spdm sess tag body) := of_wf _
theorem debugRead (sess : Nat) (tag : W32) (body : Bytes) : Statement (.debugRead sess tag body) := of_wf _
theorem debugHaltHalt (sess : Nat) (tag : W32) (body : Bytes) : Statement (.debugHaltHalt sess tag body) := of_wf _
theorem debugHaltResume (sess : Nat) (tag : W32) (body : Bytes) : Statement (.debugHaltResume sess tag body) := of_wf _
theorem debugHaltRead (sess : Nat) (tag : W32) (body : Bytes) : Statement (.debugHaltRead sess tag body) := of_wf _
theorem debugHaltWrite (sess : Nat) (tag : W32) (body : Bytes) : Statement (.debugHaltWrite sess tag body) := of_wf _
theorem pmbus (sess : Nat) (tag : W32) (body : Bytes) (reply : Option Bytes) : Statement (.pmbus sess tag body reply) := of_wf _
theorem mgtConfig (sess : Nat) (tag : W32) (body : Bytes) : Statement (.mgtConfig sess tag body) := of_wf _
theorem sensorSample (temps : List Int) (mv : List Nat) : Statement (.sensorSample temps mv) := of_wf _
theorem regulatorPoll (i : Nat) (pout : Nat) (status : BitVec 16) : Statement (.regulatorPoll i pout status) := of_wf _
theorem smbusRead (code : Byte) : Statement (.smbusRead code) := of_wf _
theorem smbusWrite (code data : Byte) : Statement (.smbusWrite code data) := of_wf _
theorem hostPortEnable (k : Nat) (v : Bool) : Statement (.hostPortEnable k v) := of_wf _
theorem hostLinkUp (k : Nat) : Statement (.hostLinkUp k) := of_wf _
theorem hostLinkDown (k : Nat) : Statement (.hostLinkDown k) := of_wf _
theorem arpRequest (k : Nat) (f : Frame) : Statement (.arpRequest k f) := of_wf _
theorem neighbourSolicitation (k : Nat) (f : Frame) : Statement (.neighbourSolicitation k f) := of_wf _
theorem echoRequest (k : Nat) (f : Frame) : Statement (.echoRequest k f) := of_wf _
theorem pfcFrame (k : Nat) (quanta : List (Option (BitVec 16))) : Statement (.pfcFrame k quanta) := of_wf _
theorem rdmaWriteFirst (k : Nat) (pk : Packet) : Statement (.rdmaWriteFirst k pk) := of_wf _
theorem rdmaWriteMiddle (k : Nat) (pk : Packet) : Statement (.rdmaWriteMiddle k pk) := of_wf _
theorem rdmaWriteLast (k : Nat) (pk : Packet) : Statement (.rdmaWriteLast k pk) := of_wf _
theorem rdmaWriteOnly (k : Nat) (pk : Packet) : Statement (.rdmaWriteOnly k pk) := of_wf _
theorem rdmaReadRequest (k : Nat) (pk : Packet) : Statement (.rdmaReadRequest k pk) := of_wf _
theorem compareSwap (k : Nat) (pk : Packet) : Statement (.compareSwap k pk) := of_wf _
theorem fetchAdd (k : Nat) (pk : Packet) : Statement (.fetchAdd k pk) := of_wf _
theorem hostAck (q : Nat) : Statement (.hostAck q) := of_wf _
theorem dramWritePerformed (ch sub i : Nat) : Statement (.dramWritePerformed ch sub i) := of_wf _
theorem testAccessPortInstruction (ir : TapInstr) : Statement (.testAccessPortInstruction ir) := of_wf _
theorem pfcXon (k : Nat) : Statement (.pfcXon k) := of_wf _
theorem pfcPauseExpiry (k : Nat) (prio : Nat) : Statement (.pfcPauseExpiry k prio) := of_wf _
theorem cnpReceive (k : Nat) (pk : Packet) : Statement (.cnpReceive k pk) := of_wf _
theorem cnpRateRecovery (q : Nat) : Statement (.cnpRateRecovery q) := of_wf _
theorem unsupportedOpcode (k : Nat) (pk : Packet) : Statement (.unsupportedOpcode k pk) := of_wf _
theorem qpReady (q : Nat) : Statement (.qpReady q) := of_wf _
theorem qpReset (q : Nat) : Statement (.qpReset q) := of_wf _
theorem pwrgoodFall : Statement .pwrgoodFall := of_wf _
theorem pllLock : Statement (.pllLock) := of_wf _
theorem layoutOk : Statement (.layoutOk) := of_wf _
theorem fillDone : Statement (.fillDone) := of_wf _
theorem readyRise : Statement (.readyRise) := of_wf _
theorem warmFlushDone : Statement (.warmFlushDone) := of_wf _
theorem warmFlushTimeout : Statement (.warmFlushTimeout) := of_wf _
theorem warmSelfRefreshExit : Statement (.warmSelfRefreshExit) := of_wf _
theorem warmResetTimeout : Statement (.warmResetTimeout) := of_wf _
theorem thermtrip : Statement (.thermtrip) := of_wf _
theorem policerRefill : Statement (.policerRefill) := of_wf _
theorem queueDepthSample : Statement (.queueDepthSample) := of_wf _
theorem gateSlotStart : Statement (.gateSlotStart) := of_wf _
theorem gateSlotCutoff : Statement (.gateSlotCutoff) := of_wf _
theorem powerStateReached : Statement (.powerStateReached) := of_wf _
theorem gateEntryTimeout : Statement (.gateEntryTimeout) := of_wf _
theorem hibernateSweepEnd : Statement (.hibernateSweepEnd) := of_wf _
theorem wipeComplete : Statement (.wipeComplete) := of_wf _
theorem powerCapUpdate : Statement (.powerCapUpdate) := of_wf _
theorem eventLogFlush : Statement (.eventLogFlush) := of_wf _
theorem ledgerSummary : Statement (.ledgerSummary) := of_wf _
theorem smbusStale : Statement (.smbusStale) := of_wf _

end Sys2Proof.Laws.WfBound
end

