-- ==== Sys2Proof/Laws/Status.lean ====
section
/-! SUPPORT. The status that is reported of several (R49). -/

namespace Sys2Proof.Machine
open Sys2Proof

theorem Status.worst_ok_iff (a b : Status) : Status.worst a b = .ok ↔ a = .ok ∧ b = .ok := by
  unfold Status.worst
  split
  · constructor
    · rintro rfl; refine ⟨rfl, ?_⟩; cases b <;> simp_all [Status.rank]
    · exact And.left
  · constructor
    · rintro rfl; cases a <;> simp_all [Status.rank]
    · exact And.right

/-- The status is OK just when no condition applies. -/
theorem Status.first_ok_iff (l : List Status) : Status.first l = .ok ↔ ∀ x ∈ l, x = .ok := by
  suffices h : ∀ a, l.foldl Status.worst a = .ok ↔ a = .ok ∧ ∀ x ∈ l, x = .ok by simpa [Status.first] using h .ok
  induction l with
  | nil => simp
  | cons y l ih => intro a; simp [ih, Status.worst_ok_iff, and_assoc]

end Sys2Proof.Machine
end

