-- ==== Sys2Proof/Tests/Slice0.lean ====
section
/-! SUPPORT. Tests. `test_meets_<Name>` shows, for each clause of the statement `Obligations.<Name>` that has premises, a
state and operands that meet them all; the premises stand in the clause's order. The other tests are of well-formedness, and
of the manual's own worked examples. -/

namespace Sys2Proof.Tests
open Sys2Proof Sys2Proof.Machine

-- One theorem after another: a thread for each would need more memory than a check has.
set_option Elab.async false

/-! ### Sample states -/

/-- Partition 0: key slot 3, engines 0–7, 4 MiB of scratch, ASIDs 16–31, queues 0–63, multicast groups 16–31. -/
def rec0 : PartRec :=
  { part := 0, keySlot := 3, engines := 0xFF, scratch := 4, asidBase := 16, asidCount := 16, queueBase := 0, queueCount := 64
    mcastBase := 16, mcastCount := 16 }

def sec0 : PartSec := { part := 0, tenant := 77, rev := 5 }

/-- A layout with partition 0, one channel and one route. -/
def lay0 : Layout :=
  { gen := 9, nodeId := 7, groups := [⟨0x40, 6, 0⟩], sets := [⟨0, 17179869184, 1, 2⟩], spare := List.replicate 32 0xFF
    routes := [⟨0, 20, 0xFF⟩], mcast := [⟨0, 1, 0⟩], parts := [rec0], extents := [⟨0, 0, 64⟩], secs := [sec0] }

/-- Channel 0 with one rank of 16 GiB. -/
def chan0 : Chan := { st := .run, dimm := ⟨1, 1, 0, 16, 0, true, 1, 2, 3, 4, true⟩ }

/-- A running DEPLOYED device under `lay0`, at a late clock. -/
def w0 : State :=
  { State.reset with
    pwrgood := true, pll := true, phase := .running, clk := 10000000000000, lay := some lay0, chans := [(0, chan0)]
    top := { TopS.reset with ready := true, fillDone := true, layoutOk := true, owlUp := true, tick := 1000 }
    owl := { OwlS.reset with st := .run, sessions := [(0, Sess.reset)] }
    fuse := { FuseS.reset with life := 3 }, sec := { SecS.reset with life := 3, slots := [(3, 1)] }, nextTxn := 1 }

/-- The unlock register of an offset armed on the Owl path. -/
def armed (s : State) (off : Nat) : State := { s with arms := [⟨unlockOf off, false, s.clk⟩] }
/-- The same on a host path. -/
def hostArmed (s : State) (off : Nat) : State := { s with arms := [⟨unlockOf off, true, s.clk⟩] }

/-- Port 0 ACTIVE on lanes 0–7, all lanes in place. -/
def port0 : Port :=
  { st := .active, beenActive := true, pnode := 5, pport := 0, plan := 0xFF, goPlan := 0xFF, planMask := 0xFF
    lanes := (List.range 8).map fun l => (l, { LaneS.reset with st := .inPlan }) }

def withPort (s : State) (p : Port) : State := { s with ports := [(0, p)] }
def wp : State := withPort w0 port0

/-- A lane control block with this control word. -/
def blockOf (w : Nat) : BitVec 272 :=
  let x := w + (2 ^ 128 - 1 - w) * 2 ^ 128
  let c := hcheck x
  BitVec.ofNat 272 (2 ^ 271 + x * 2 ^ 14 + (c + if parityN 256 x != parityN 9 c then 512 else 0) * 2 ^ 4)

/-- A control word: type, node 5, lane, and other fields. -/
def word (ty lane rest : Nat) : Nat := ty * 2 ^ 120 + 5 * 2 ^ 99 + lane * 2 ^ 83 + rest

/-- A port in training or retrain. -/
def portIn (st : LinkState) (phase : Nat) (x : LaneS) : Port :=
  { port0 with st := st, phase := phase, prop := 0xFF, lanes := (List.range 8).map fun l => (l, x) }

/-- A flow unit with the right CRC under a prefix. -/
def unitOf (pre hdr : Nat) (slots : List Slot) : FlowUnit :=
  let u : FlowUnit := ⟨BitVec.ofNat 64 hdr, slots, 0, []⟩
  { u with crc := unitCrc pre u }

/-- The payload slot of a PLAN unit. -/
def planSlot (op id mask reason : Nat) : Slot := BitVec.ofNat 128 (op + id * 2 ^ 8 + mask * 2 ^ 32 + reason * 2 ^ 64)

/-! ### A page in use -/

/-- The translation of page 1 of ASID 17, to 0x600000, under a class. -/
def xl (cls : Coh) : Xl :=
  { asid := 17, page := 1, base := 0x600000
    leaf := { Leaf.reset with addr := 0x600000, keySlot := 3, cls := cls, hst := true, eng := true, acc := true, a := true, w := true, r := true } }

/-- Sixty-four bytes. -/
def bytes64 : Bytes := (List.range 64).map fun i => BitVec.ofNat 8 (3 * i + 1)

/-- The line at 0x600040, in the line cache of sett 1, and the page's translation with it. -/
def sett1 (cls : Coh) (ents : Tab DirEnt) : Sett :=
  { Sett.reset with tc := [xl cls], cache := [(0x18001, { CLine.reset with data := bytes64 })], dir := ents }

/-- Port 0 ACTIVE, node 5 known and admitted under ASID 17. -/
def wm (cls : Coh) (ents : Tab DirEnt) : State :=
  { wp with
    nodes := [(5, {})], setts := [(1, sett1 cls ents)]
    xlt := { XltS.reset with ctx := [(0, 17, List.replicate 12 0 ++ toLe 4 5 ++ List.replicate 16 0)] } }

/-- The directory entry of 0x600040's block, its first line SHARED or OWNED by node 5. -/
def dirShared : Tab DirEnt := [(0x600, { DirEnt.reset with line := [(1, 0), (0, 0), (0, 0), (0, 0)], ptrs := [5] })]
def dirOwned : Tab DirEnt := [(0x600, { DirEnt.reset with line := [(2, 5), (0, 0), (0, 0), (0, 0)] })]

/-- A message from node 5 to this device, its CRC right. -/
def msgOf (ty : BitVec 6) (tag info : Nat) (body : List Slot) : Msg :=
  let m : Msg := ⟨BitVec.ofNat 4 body.length, 5, 7, BitVec.ofNat 16 tag, 0, BitVec.ofNat 16 info, false, false, false, false, 0, body⟩
  { m with crc := crc32c (crcBytes ty m) }

/-- An address slot. -/
def addrOf (a asid op arg : Nat) : Slot := BitVec.ofNat 128 (a * 2 ^ 64 + asid * 2 ^ 48 + op * 2 ^ 43 + arg)

/-- Data slots of `bytes64`. -/
def dataSlots : List Slot := [0x11111111, 0x22222222, 0x33333333, 0x44444444]

/-- A request for the line at 0x200040 under ASID 17. -/
def reqOf (ty : BitVec 6) (op info : Nat) (more : List Slot) : Msg := msgOf ty 9 info (addrOf 0x200040 17 op 0 :: more)

/-- What the line at 0x600040 holds. -/
def val64 : LineVal := ⟨bytes64, false⟩

/-- An open request of node 5 for that line. -/
def txnAt (ty : ReqTy) (ph : TxPhase) (cls : Coh) : Txn :=
  { id := 0, sett := 1, kind := .fab, fab := { OrigFab.reset with src := 5, tag := 9 }, ty := ty, asid := 17, va := 0x200040
    leaf := (xl cls).leaf, base := 0x600000, line := 0x18001, phase := ph }
def cells (a : Nat) (bs : Bytes) : List Host.Cell := cputs [] a bs
def w1 : State := { w0 with fills := [(none, [(0, 64, 1)])] }
def zz (n : Nat) : Bytes := List.replicate n 0
def strap0 : Straps := ⟨0, 0, 3, 0, 0, 5⟩
def wpub : State := { wm .priv [] with setts := [(0, { Sett.reset with tc := [{ xl .priv with page := 2 }], cache := [(0, { CLine.reset with data := toLe 4 3 ++ [1, 0, 0, 0] ++ toLe 8 0x800000 ++ toLe 4 1 ++ List.replicate 44 0 })] })], xlt := { XltS.reset with ctx := [(3, 17, List.replicate 12 0 ++ toLe 4 5 ++ List.replicate 16 0)] } }
def vpub : LineVal := ⟨toLe 4 3 ++ [1, 0, 0, 0] ++ toLe 8 0x800000 ++ toLe 4 1 ++ List.replicate 44 0, false⟩
def snp0 : Snoop := { tag := 0x1003, kind := .inv, txn := 0, line := 0x18001, wait := [5, 6], since := 0, lim := 16, leaf := (xl .tracked).leaf }
def wsn : State := { wm .tracked [] with setts := [(1, { sett1 .tracked [] with snoops := [snp0] })], txns := [txnAt .rdShared .snoop .tracked] }
def wd : State := { wm .priv [] with setts := [(1, { sett1 .priv [] with cache := [] })] }
def u0 : Txn := txnAt .rdOnce .dram .priv
def dw0 : DWrite := { line := 0x18001, loc := 0x600040, data := bytes64 }
def u1 : Txn := { txnAt .accWr .rmw .priv with data := bytes64 }
def chan2 : Chan := { chan0 with dimm := ⟨1, 3, 0, 16, 0, true, 1, 2, 3, 4, true⟩, spareV := true, spare := 1 }
def wlk (page : Nat) : Walk := { asid := 16, page := page, since := 0 }
def uw : Txn := { txnAt .rdShared .walk .priv with asid := 17, va := 100 * 2097152 }
def wlk17 : Walk := { wlk 100 with asid := 17 }
def xadm : XltS := { XltS.reset with walk := [wlk17], ctx := [(1, 17, zz 12 ++ toLe 4 5 ++ zz 16)] }
def dr : Drain := { id := 4, target := 17, since := 0, init := 1 }
def wdr (d : Drain) : State := { wm .tracked [] with xlt := { XltS.reset with drains := [d], oc := [xl .priv], go := true } }
def dr2 : Drain := { dr with got := [.overflow] }
def dr3 : Drain := { dr with got := invUnits, rep := invUnits.filter (· != .overflow) }
def dr4 : Drain := { dr with got := invUnits, rep := invUnits.filter (· != .engine 3) }
def dr5 : Drain := { id := 4, region := true, target := 0, init := 2, got := invUnits, rep := invUnits }
def line0 : CLine := { CLine.reset with data := toLe 4 3 ++ [3, 0, 0, 0] ++ List.replicate 56 0 }
def pst (x : PartS) : State := { w1 with parts := [(0, x)] }
def pext (b n : Nat) : State := armed (pst { PartS.reset with st := .quiesced, ext := { ExtMem.reset with stBase := BitVec.ofNat 27 b, stSize := BitVec.ofNat 16 n } }) 0x701008
def evring : EvRing := { EvRing.reset with on := true, base := 0x400000, log2 := 4, prod := 10, cons := 2 }
def qent : Bytes := toLe 8 0x400000 ++ toLe 8 0x500000 ++ toLe 2 16 ++ [4, 4] ++ zz 44
def wqm : State := { w1 with dram := cells 0x7E00280 (qent ++ toLe 4 3 ++ zz 60) }
def wq (x : Queue) : State := { wqm with queues := [(5, x)] }
def dsc (op : Nat) (ops : Bytes) : Desc := { bytes := [BitVec.ofNat 8 op] ++ zz 15 ++ ops ++ zz (48 - ops.length), index := 0 }
def qon : Queue := { Queue.reset with en := true, cfg := some (qCfgOf qent) }
def cst (q : Queue) : State := { wq q with setts := [(4, { Sett.reset with cache := [(0x14000, { CLine.reset with data := bytes64 })] })] }
def wqr : State := cst { qon with ready := [dsc 1 []] }
def wsch (d : Desc) : State := cst { qon with sched := some d, open_ := 1, barrier := true }
def ansAt (a : Nat) (bs : Bytes) : Nat × Answer := (a / 64, { Answer.reset with va := a, data := bs })
def weng (r : Run) (sb : Tab Answer) : State := { wq qon with engines := [(2, { Engine.reset with st := .running, run := some r, sbuf := sb })] }
def rn (d : Desc) : Run := { q := 5, d := d }
def rcopy : Run := { rn (dsc 1 (toLe 8 0x400000 ++ toLe 8 0x600000 ++ toLe 8 128)) with pos := 1 }
def rover : Run := { rn (dsc 1 (toLe 8 0x400000 ++ toLe 8 0x400080 ++ toLe 8 256)) with pos := 2 }
def rfill : Run := { rn (dsc 2 (zz 8 ++ toLe 8 0x600000 ++ toLe 8 128 ++ toLe 8 0x0102030405060708)) with pos := 1 }
def rconv : Run := rn (dsc 3 (toLe 8 0x400000 ++ toLe 8 0x600000 ++ toLe 8 32 ++ [0, 2, 0]))
def sconv : State := weng rconv [ansAt 0x400000 bytes64, ansAt 0x400040 bytes64]
def rgat (op : Nat) (s t : Nat) : Run := { rn (dsc op (toLe 8 s ++ toLe 8 t ++ toLe 8 16 ++ [6] ++ zz 7 ++ toLe 8 0x800000)) with pos := 3 }
def idx64 : Bytes := (List.range 16).flatMap fun i => toLe 4 (i + 2)
def rred : Run := rn (dsc 6 (toLe 8 0x400000 ++ toLe 8 0x600000 ++ toLe 8 16 ++ toLe 8 64 ++ [2, 0, 0, 1]))
def sred : State := weng rred [ansAt 0x400000 bytes64, ansAt 0x400040 bytes64, ansAt 0x600000 bytes64]
def rscat : Run := { rgat 5 0x400000 0x600000 with pos := 15, seen := [17] }
def rdig : Run := rn (dsc 8 (toLe 8 0x400000 ++ toLe 8 0x600000 ++ toLe 8 128))
def rdigE : Run := { rdig with pos := 2, dig := sm3Next (sm3Next [] bytes64) bytes64 }
def rcmp (n : Nat) : Run := { rgat 9 0x400000 0 with pos := n }
def rdone : Run := { rcopy with pos := 2 }
def rbad : Run := rn (dsc 1 (toLe 8 0x400000 ++ toLe 8 0x600001 ++ toLe 8 128))
def ans0 : Answer := { id := 0, gen := 0, va := 0x400000, data := bytes64 }
def rend (i : Bool) : Run := { rcopy with inq := i, res := some ⟨.poisoned, false, 128, 0⟩ }
def pk16 : List FWord := (List.range 16).map fun i => ⟨if i = 0 then 1 else 0, i == 15⟩
def img : Bytes := toLe 4 0xF0C57213 ++ [1, 0, 1, 1, 1, 1] ++ zz 54 ++ toLe 4 (0x01 * 2 ^ 26 + 2 ^ 21) ++ zz 60
def argb : Bytes := toLe 8 (0x600000 + 8) ++ zz 56 ++ toLe 8 (0x800000 + 8) ++ zz 184
def dprog : Desc := dsc 7 (toLe 8 0x400000 ++ toLe 8 0x500000 ++ toLe 8 64)
def sprog : Tab Answer := [ansAt 0x400000 (slice img 0 64), ansAt 0x400040 (slice img 64 64), ansAt 0x500000 (slice argb 0 64), ansAt 0x500040 (slice argb 64 64), ansAt 0x500080 (slice argb 128 64), ansAt 0x5000C0 (slice argb 192 64)]
def prg : Prog := Prog.load dprog img argb
def inl : Tab Answer := [ansAt 0x600000 bytes64, ansAt 0x600040 bytes64, ansAt 0x600080 bytes64, ansAt 0x6000C0 bytes64]
def rpr (p : Prog) : Run := { rn dprog with prog := some p }
def prgA : Prog := { prg with passB := false, twoPass := true, inTile := true, acc := [1, 2, 3, 4] }
def prgB : Prog := { prg with inTile := true, pc := 1, v := [(0, (List.range 256).map fun i => BitVec.ofNat 32 (i * 0x800000))] }
def prgI (op rest : Nat) : Prog := { prg with inTile := true, store := [BitVec.ofNat 32 (op * 2 ^ 26 + rest)], v := [(0, (List.range 256).map fun i => BitVec.ofNat 32 (0x3F800000 + i * 0x91234)), (1, (List.range 256).map fun i => BitVec.ofNat 32 (0x40800000 + i * 0x31234))] }
def we1 (x : Engine) : State := { w1 with engines := [(2, x)] }
def rsg : Engine := { Engine.reset with st := .resetting, rsSince := 0 }
def utx : Txn := { txnAt .rdShared .parked .priv with kind := .eng, unit := 2, sett := 1 }
def layErr0 : LayErr := ⟨6, 1, 0⟩
def st1 (x : Sett) : State := { w1 with setts := [(1, x)] }
def sfail : Sett := { Sett.reset with pair := .single, unit1 := .failed }
def eg0 : EgMsg := { m := { Msgs.reset with ty := 1, dst := 5 }, arrPort := 0, arrGen := 0, size := 32, since := 5 }
def qp0 : PortQos := { PortQos.reset with egress := [eg0, eg0], shaper := 38400, inForce := { PolSet.reset with ctrl := 7, cir := 9, pir := 12, cbs := 100, pbs := 200, srate := 5, sburst := 100 } }
def wt (q : PortQos) : State := { wp with parts := [(0, { PartS.reset with qos := [(0, q)] })] }
def egs : EgMsg := { eg0 with arrGen := 3 }
def qps : PortQos := { qp0 with egress := [egs, eg0] }
def layg : Layout := { lay0 with gateLen := 200, gate := [(0, 100), (63, 100)] }
def wg (n : Nat) : State := { w1 with lay := some layg, qos := { QosS.reset with gate := n } }
def layf : Layout := { lay0 with parts := [{ rec0 with fabShare := 0x40 }] }
def wap (st : PolSet) : State := armed { wt { qp0 with staged := st } with lay := some layf } 0xA0101C
def wdb (d : Dbg) : State := hostArmed { w1 with parts := [(0, { PartS.reset with dbg := d })] } 0x1007004
def tok0 : Token := ⟨1, 0, 5⟩
def kroot : Bytes := toBe 64 0x09F9DF311E5421A150DD7D161E4BC5C672179FAD1833FC076BB08FF356F35020CCEA490CE26775A52DC6EA718CC1AA600AED05FBF35E084A6632F6072DA9AD13
def wow : State := { w1 with flash := { FlashS.reset with root := some kroot } }
def offer0 : TlsOffer := ⟨[0x0304], [0x1301, 0x00C6], [0x0708], [0x0029], false⟩
def mgtb : Bytes := zz 8 ++ [2, 3, 4, 5, 6, 7, 0, 0] ++ toLe 4 0x0A000001 ++ zz 4 ++ toLe 16 99 ++ zz 24
def wmg : State := { wow with owl := { wow.owl with mgt := mgtb } }
def frm : Frame := ⟨0x111111111111, 0x070605040302, none, true, 100, 0x0A000002, 0x0A000001, false, false, [1, 2, 3]⟩
def wch : State := { wow with owl := { wow.owl with sessions := [(0, { Sess.reset with chCode := cLayoutStage, chBody := [9, 9] })] } }
def wscrap : State := { wow with sec := { wow.sec with life := 2 ^ 127 }, fuse := { wow.fuse with life := 2 ^ 127 } }
def evs : List EvRec := [{ EvRec.reset with kind := 1 }, { EvRec.reset with kind := 2 }, { EvRec.reset with kind := 3 }]
def led0 : LedEnt := ⟨1, zz 32⟩
def repl0 : Repl := { part := 0, sec := sec0, sess := 0, tag := 9 }
def wd1 : State := { wow with sec := { wow.sec with d1req := 1 }, parts := [(0, { PartS.reset with dbg := { Dbg.reset with token := some ⟨7, 0, 20000⟩ } })] }
def dh (op kind idx n a : Nat) (more : Bytes) : Bytes := [BitVec.ofNat 8 op, BitVec.ofNat 8 kind] ++ toLe 2 idx ++ toLe 4 n ++ toLe 8 a ++ more
def wd2 : State := { wow with sec := { wow.sec with d2 := true, slots := [] } }
def wreg : State := { wow with flash := { wow.flash with regs := [3], regNamed := [3] } }
def hp0 : HPort := { HPort.reset with up := true, ctrl := 3, width := 2, align := true, mac := 0x070605040302, ipv4 := 0x0A000001, ipv6 := 99 }
def wh (h : HPort) : State := { w1 with hst := { HstS.reset with ports := [(0, h)] } }
def qctx (st : Byte) : Tab Byte := (QP.reset.put 0 ([st, 0, 0, 0] ++ toLe 4 0x200 ++ toLe 4 100 ++ [1, 0, 0, 0] ++ toLe 16 0x0A000002)).b
def q0 : QP := { QP.reset with b := qctx 1 }
def key0 : RKey := RKey.reset.put 0 ([0x1D, 0, 17, 0] ++ toLe 4 5 ++ toLe 8 0x200000 ++ toLe 8 0x10000)
def layh : Layout := lay0
def whq (x : QP) : State := { w1 with lay := some layh, hst := { HstS.reset with ports := [(0, hp0)], qps := [(3, x)], rkeys := [(7, key0)] } }
def rk0 : W32 := 7 + 5 * 4096
def pkt (psn : Nat) (dma : Nat) (data : Bytes) : Packet := ⟨{ frm with bytes := 200 }, true, 0, false, 3, 0x0A, 0x103, BitVec.ofNat 24 psn, true, 0x200040, rk0, BitVec.ofNat 32 dma, 9, 8, data⟩
def b256 : Bytes := (List.range 256).map fun i => BitVec.ofNat 8 i
def qw (left : Nat) : QP := { q0 with wrOn := true, wrVa := 0x200140, wrLeft := left, wrKey := 17 }
def pend0 : Pend := { Pend.reset with psn := 99, kind := 0, ack := true, port := 0 }
def lrec (ty : Nat) (body : Bytes) : Bytes := toLe 2 ty ++ toLe 2 (8 + body.length) ++ zz 4 ++ body
def pbody : Bytes := [0, 0, 3, 0] ++ zz 4 ++ toLe 8 0xFF ++ zz 4 ++ toLe 4 4 ++ toLe 4 16 ++ toLe 4 16 ++ toLe 2 0 ++ toLe 2 64 ++ toLe 2 16 ++ toLe 2 16 ++ zz 16
def gsec : Bytes := lrec 1 (zz 4 ++ toLe 4 7) ++ lrec 2 (toLe 2 16 ++ toLe 2 32 ++ toLe 2 12 ++ toLe 2 4) ++ lrec 8 pbody ++ toLe 2 0xFFFF ++ toLe 2 8 ++ zz 4
def ghead : Bytes := toLe 4 0x72001A70 ++ toLe 2 1 ++ toLe 2 64 ++ toLe 4 560 ++ toLe 4 9 ++ toLe 2 0 ++ toLe 2 0x7200 ++ zz 44 ++ toLe 4 328 ++ toLe 4 232 ++ zz 256
def gsig : Bytes := toBe 64 0xB51AA6E604D0278D3AAB29ADA2BFDD56BF368F3AE1D9E362D24EA79FED207CFDE3CBA8483794501CE3F9F87AB3ACDE42E36C411C5EA76DCFAB6EE7542EBC0DBA
def gimg : Bytes := ghead ++ gsec ++ zz 32 ++ sm3 (ghead ++ gsec) ++ gsig
def kst : State := { wow with flash := { wow.flash with layKeys := [(0, kroot)] }, lay := some { lay0 with digest := zz 32 } }
def psec : Bytes := lrec 0x101 (zz 4 ++ toLe 4 77 ++ toLe 4 6 ++ zz 36) ++ toLe 2 0xFFFF ++ toLe 2 8 ++ zz 4
def psig (t : Nat) : Bytes := toBe 64 (if t = 77 then 0x9FB252EF369AC5158A1853C8F0CA867FA726E76B8CE6D3476E2F22017E47B01E8B7A653CF007E512E73C6316471E974AB94817ADBA6698714E8A585C52729893 else 0xE5A9FA182E9EA9FAF42951E2C3873BE44BFEB0D755CD2BA43191503DB91AB0C76BF6C6D1371C7D3C03506EAEC88A0947C125A962BB2AE61A8633AC89FCAF9658)
def psimg (t : Nat) : Bytes := let b := lrec 0x101 (zz 4 ++ toLe 4 t ++ toLe 4 6 ++ zz 36) ++ toLe 2 0xFFFF ++ toLe 2 8 ++ zz 4; b ++ zz 32 ++ sm3 b ++ psig t
def psc (t : Nat) : PartSec := { part := 0, tenant := BitVec.ofNat 32 t, rev := 6, gdigest := zz 32, sdigest := slice (psimg t) 96 32 }
def kq : State := { kst with parts := [(0, { PartS.reset with st := .quiesced, opHold := true, dbg := { Dbg.reset with key := some bytes64 } })] }
def glay : Layout := { globalOf gimg [⟨1, 0, slice gsec 0 16⟩, ⟨2, 16, slice gsec 16 16⟩, ⟨8, 32, slice gsec 32 64⟩] with secs := [] }
def kib (k i : Nat) (key sig : Bytes) : Bytes := [BitVec.ofNat 8 k, BitVec.ofNat 8 i, 0, 0] ++ zz 20 ++ key ++ zz 8 ++ sig
def kib1 : Bytes := kib 1 2 kroot (toBe 64 0x8A62A2466982F4088DEC5404F92D3F183013A374B746146B7B5AC196723A046E8335B41AE6D90A04B61836B81AB25E3E287C013309EFB47BBA564806559EC1A0)
def kib2 : Bytes := kib 2 2 (zz 64) (toBe 64 0x3FE4662A2A86773678FCE86078696740F47197B864FD907E051AFA3C7811DF2A9FCE6C050BE995A7ABBC140F70CB738133AF02023BD5E33A3642BEAECC6337A1)
def ord (n t fl : Nat) (dig sig more : Bytes) : Bytes := toLe 4 0x72001C0D ++ [BitVec.ofNat 8 t, BitVec.ofNat 8 fl, 0, 0] ++ toLe 4 n ++ zz 20 ++ dig ++ sig ++ more
def ord1 : Bytes := ord 3 2 0 (zz 32) (toBe 64 0x96782B79A3A10B4F42F9D9AE97E4E0F5EE3FAFBFD184B5A84C880D5CF78712768C187DD82A677EDAAC2636B62C6D9386E9424D0F01603549B2515973BC6EDEB5) []
def ord2 : Bytes := ord 2 3 0 (zz 32) (toBe 64 0x51B1CEFA51160A4064140D6EBC9E7B9368C15FF140F3283699BE425E293B1CD7F7FEFF0030DA9110AE4D2ACCFFF832AF3977DC22D302CFEF785D1F8D9AFC7C99) []
def ord3 : Bytes := ord 2 4 0 (zz 32) (toBe 64 0xFBE63B6562CAEF4B8023A14BBA36F08FEFB8B6F8CE331191382C4550EA4F819B4DD798FC545006D9982E145B28E2680EF88AA1D159020B5D28EC36210EBC1115) []
def ord4 : Bytes := ord 3 3 1 (zz 32) (toBe 64 0xEDC0CAA53EA77F7FDE99AB8E8CD847CD1DF29A4F7FEBF337BA1A580821E8E9B4171A2AFFA18B2531E749B77B8AE1AC1F1ADE07FF608CC529F5BDBFBDDFA9599A) []
def ord5 : Bytes := ord 2 2 2 (sm3 kroot) (toBe 64 0x1EAEFE07A6E3BF6239C95F37A717AA5C1FD1818A3467B88114F800DEAF9F4440F227C884A7F4046516E7C8E474A91E6687B8F83D348594CCFBED34EC7B04C4F7) kroot
def wwp : State := { wow with flash := { wow.flash with wiped := true } }
def wl2 : State := { wwp with fuse := { wwp.fuse with life := 7 }, sec := { wwp.sec with life := 7 } }
def toks (b : Bytes) : Tab W32 := (List.range 32).map fun i => (i, BitVec.ofNat 32 (fld b (4 * i) 4))
def tokb : Bytes := toLe 4 0x7200C0A5 ++ toLe 4 77 ++ [0, 7] ++ zz 22 ++ toLe 8 20000 ++ zz 24 ++ (toBe 64 0x1904AF96B7F6C43A2F3F0CCDEF4D51CF70460316676ADFC70BC50C761E8644EC5D78A02D816DAAC209B64A61FD5E4FEB1533B1CA19F5C96077A20901AC43C593)
/-! ### The premises of the statements as conjunctions, which can be decided -/

theorem some_iff {α : Type} (o : Option α) (p : α → Prop) [DecidablePred p] :
    (∀ v, o = some v → p v) ↔ o.all (fun v => decide (p v)) = true := by
  cases o <;> simp

theorem timer_iff (o : Option (Nat × Nat)) (c : Nat) : (∀ n, o ≠ some (c, n)) ↔ o.all (fun x => decide (x.1 ≠ c)) = true := by
  rcases o with _ | ⟨a, b⟩
  · simp
  · simp only [Option.all_some, decide_eq_true_eq, ne_eq, Option.some.injEq, Prod.mk.injEq, not_and]
    exact ⟨fun h e => h b e rfl, fun h n e => absurd e h⟩

theorem dram_iff (o : Option Where_) (f : Nat → Bool) :
    (∀ a, o = some (.dram a) → f a = true) ↔
      o.all (fun w => match w with | .dram a => f a | .scr _ => true) = true := by
  rcases o with _ | ⟨⟨a⟩ | ⟨b⟩⟩ <;> simp

theorem passes_iff (s : State) (k : Nat) (ty : BitVec 6) (m : Msg) :
    s.Passes k ty m ↔ (s.port k).st = .active ∧ crcOk ty m = true ∧ malformed ty m = false ∧ s.routeChecks ty m = true ∧
      (tyClass ty ≠ 5 → s.nodeKnown m.src = true ∧ s.node m.src = { gen := m.srcGen }) :=
  ⟨fun h => ⟨h.1, h.2, h.3, h.4, h.5⟩, fun h => ⟨h.1, h.2.1, h.2.2.1, h.2.2.2.1, h.2.2.2.2⟩⟩

theorem free_iff (s : State) (n pa : Nat) :
    s.Free n pa ↔ (∀ u ∈ s.txns, pa ∈ s.txnLines u → u.started = false ∧ u.starved = false) ∧
      (∀ h ∈ (s.sett n).holds, h.1 * 64 ≠ pa) ∧ ∀ x ∈ (s.sett n).snoops, x.line * 64 ≠ pa :=
  ⟨fun h => ⟨h.1, h.2, h.3⟩, fun ⟨a, b, c⟩ => ⟨a, b, c⟩⟩

theorem arrives_iff (s : State) (k : Nat) (ty : ReqTy) (m : Msg) (p j : Nat) (x : Xl) (pa : Nat) :
    s.Arrives k ty m p j x pa ↔
      s.Passes k (BitVec.ofNat 6 ty.code.toNat) m ∧ m.resend = false ∧ s.ded m.src m.srcGen m.tag = none ∧
      dedRoom s.dedup p = true ∧ s.asidPart m.asid.toNat = some p ∧ s.top.ready = true ∧
      (s.partFenced p = false ∧ s.owl.swept = false) ∧ s.msgFails m = false ∧
      (s.parkFull (settOf m.addr) = false ∧
        ∀ u ∈ s.txns, u.sett = settOf m.addr → u.phase ≠ .ring ∧ (u.phase = .parked → pa ∉ s.txnLines u)) ∧
      s.earlyStatus ty m = .ok ∧
      (s.police p k (16 * (m.body.length + 1)) 0 false).1 ≠ 2 ∧ s.portFor m.src m.tag = some j ∧
      s.lookup .fab 0 (settOf m.addr) m.asid m.addr = some x ∧ s.storedLines x.leaf x.base m.addr = [pa] ∧
      x.leaf.stor = x.leaf.view ∧ s.leafStatus .fab ty m.op.toNat x.leaf [pa] = .ok ∧ s.admission m.asid m.addr m.src = .ok ∧
      (s.gateAdmits p = true ∧ (s.sett (settOf m.addr)).halted = false ∧ s.bur.halted = false) ∧ s.TxnsNumbered ∧
      s.Free (settOf m.addr) pa ∧
      (∀ a, s.whereIs pa = some (.dram a) → (s.cached a).isSome = true) ∧
      (∀ v, s.view pa = some v → v.data.length = 64) ∧ (s.dirEnt pa).line.length = 4 ∧
      (s.counterOf pa = none ∧ s.watched pa = none) :=
  ⟨fun h => ⟨h.1, h.2, h.3, h.4, h.5, h.6, h.7, h.8, h.9, h.10, h.11, h.12, h.13, h.14, h.15, h.16, h.17, h.18, h.19, h.20,
    h.21, h.22, h.23, h.24⟩,
   fun ⟨a, b, c, d, e, f, g, h, i, j, k, l, m, n, o, p, q, r, s, t, u, v, w, x⟩ =>
    ⟨a, b, c, d, e, f, g, h, i, j, k, l, m, n, o, p, q, r, s, t, u, v, w, x⟩⟩

theorem works_iff (s : State) (e op : Nat) (r : Run) (c : QCfg) (p : Nat) :
    s.Works e op r c p ↔ (s.eng e).run = some r ∧ (s.eng e).st = .running ∧
      ((s.eng e).halted = false ∧ (s.eng e).gated = false) ∧
      (r.res = none ∧ r.flt = none ∧ r.issued = false ∧ r.inq = false) ∧ r.d.op = op ∧
      ((s.eng e).out = [] ∧ (s.eng e).ans = []) ∧ (s.queue r.q).cfg = some c ∧ s.queuePart r.q = some p ∧ s.TxnsNumbered :=
  ⟨fun h => ⟨h.1, h.2, h.3, h.4, h.5, h.6, h.7, h.8, h.9⟩, fun ⟨a, b, c, d, e, f, g, h, i⟩ => ⟨a, b, c, d, e, f, g, h, i⟩⟩

theorem recordRoom_iff (s : State) (q : Nat) (c : QCfg) (x : Xl) (va pa : Nat) (v : LineVal) :
    s.RecordRoom q c x va pa v ↔ (s.queue q).cfg = some c ∧ (s.queue q).err = 0 ∧
      va = c.cmpBase + 32 * ((s.queue q).cmpCount.toNat % 2 ^ c.cmpLog2) ∧ s.schedXl c.asid va .wrPart = .ok x ∧
      x.leaf.stor = x.leaf.view ∧ s.storedLines x.leaf x.base (va / 64 * 64) = [pa] ∧ s.view pa = some v ∧ v.data.length = 64 ∧
      v.poison = false ∧ (∀ a, s.whereIs pa = some (.dram a) → (s.cached a).isSome = true) ∧
      (∀ a, s.qEntry q = some a → s.canon (a + 28) ≠ some pa) ∧ s.lineStatus pa = .ok ∧ s.counterOf pa = none ∧
      (x.leaf.cls = .tracked → ((s.dirEnt pa).at (lineIx pa)).1 = 0 ∧ s.Free (settOf va) pa ∧ s.TxnsNumbered) :=
  ⟨fun h => ⟨h.1, h.2, h.3, h.4, h.5, h.6, h.7, h.8, h.9, h.10, h.11, h.12, h.13, h.14⟩,
   fun ⟨a, b, c, d, e, f, g, h, i, j, k, l, m, n⟩ => ⟨a, b, c, d, e, f, g, h, i, j, k, l, m, n⟩⟩

theorem takes_iff (s : State) (k q : Nat) (pk : Packet) :
    s.Takes k q pk ↔ (s.hport k).up = true ∧ (s.hport k).takes pk.frame = true ∧ pk.frame.fragment = false ∧
      pk.frame.dstMac = (s.hport k).mac ∧ s.top.ready = true ∧ s.rxLoad k + pk.frame.bytes ≤ 4194304 ∧ qpOf pk.dqpn = some q ∧
      (s.qp q).ready = true ∧ (s.police (s.qp q).part (8 + k) pk.frame.bytes (dscpColour pk.dscp) false).1 = 0 ∧
      s.packetOk k q pk = true ∧ pk.ce = false ∧ s.partFenced (s.qp q).part = false :=
  ⟨fun h => ⟨h.1, h.2, h.3, h.4, h.5, h.6, h.7, h.8, h.9, h.10, h.11, h.12⟩,
   fun ⟨a, b, c, d, e, f, g, h, i, j, k, l⟩ => ⟨a, b, c, d, e, f, g, h, i, j, k, l⟩⟩

theorem next_iff (s : State) (k q : Nat) (pk : Packet) :
    s.Next k q pk ↔ s.Takes k q pk ∧ pk.psn = (s.qp q).epsn ∧ (s.qp q).pend = [] ∧ s.TxnsNumbered :=
  ⟨fun h => ⟨h.1, h.2, h.3, h.4⟩, fun ⟨a, b, c, d⟩ => ⟨a, b, c, d⟩⟩

/-- R175: a message of `msgOf` carries its CRC. -/
theorem msgOf_crc (t ty : BitVec 6) (tag info : Nat) (body : List Slot) (h : t = ty) : crcOk t (msgOf ty tag info body) = true := by
  subst h; simp [crcOk, msgOf, crcBytes]

theorem reqOf_crc (t ty : BitVec 6) (op info : Nat) (more : List Slot) (h : t = ty) : crcOk t (reqOf ty op info more) = true :=
  msgOf_crc t ty 9 info _ h

/-- No device of `w0` is marked. -/
theorem w0_unmarked (loc : Nat) : w0.markAt loc = none := by
  unfold State.markAt
  have h (n : Nat) : (w0.chan n).ranks = [] := by
    simp only [State.chan, w0, tget]; split <;> rfl
  simp [h, tget, RankS.reset]

/-- A key is refused where the device has no root key. -/
theorem unsigned_key (b : Bytes) : State.keyStatus { wow with flash := FlashS.reset } b ≠ .ok := by
  intro h
  unfold State.keyStatus at h
  have := (Status.first_ok_iff _).1 h _ (List.Mem.head _)
  simp [FlashS.reset] at this

/-- In SIDEBAND boot mode no firmware is written. -/
theorem no_firmware (b : Bytes) : State.fwStatus { wow with top := { wow.top with straps := 0x1 } } b ≠ .ok := by
  intro h
  unfold State.fwStatus at h
  have := (Status.first_ok_iff _).1 h _ (List.Mem.head _)
  rw [if_pos (by decide +kernel)] at this
  exact absurd this (by decide)

/-- An order of a wrong length is refused. -/
theorem short_order : wow.orderStatus (zz 127) ≠ .ok := by
  intro h
  unfold State.orderStatus at h
  have := (Status.first_ok_iff _).1 h _ (List.Mem.head _)
  rw [if_pos] at this
  · exact absurd this (by decide)
  · unfold State.orderBad
    have e : decide ((zz 127).length ≠ if State.newRoot (zz 127) = true then 192 else 128) = true := by decide +kernel
    simp only [e, Bool.true_or]

/-! ### Every premise can be met -/

theorem test_meets_IdleStepIsOneFabricClock :
    (∃ (s : State), s.pending = []) :=
  ⟨w0, by decide +kernel⟩

theorem test_meets_PowerAndClockEdges :
    (∃ (s : State) (x : Straps) (w : Bool), s.pwrgood = false ∧ s.unitsOut = 0 ∧ s.outNow = 0) ∧
    (∃ (s : State) (x : Straps) (w : Bool), s.pwrgood = false) ∧
    (∃ (s : State), s.pwrgood = true) ∧
    (∃ (f : FlashS), f.older.ok = true) ∧
    (∃ (s : State) (b : Bool), s.pwrgood = true ∧ s.thermtrip = false ∧ s.unitsOut = 0 ∧ s.outNow = 0) ∧
    (∃ (s : State), s.pwrgood = true ∧ s.thermtrip = false) :=
  ⟨⟨State.reset, strap0, true, by decide +kernel⟩,
   ⟨{ State.reset with unitsOut := 0x10000000000000009 }, strap0, true, by decide +kernel⟩,
   ⟨w0, by decide +kernel⟩,
   ⟨{ FlashS.reset with older := { CfgCopy.reset with ok := true } }, by decide +kernel⟩,
   ⟨w0, true, by decide +kernel⟩,
   ⟨w0, by decide +kernel⟩⟩

theorem test_meets_ColdStart :
    (∃ (s : State), s.phase = .waitPll) ∧
    (∃ (s : State) (b : OwlBoot), s.phase = .waitOwl ∧ s.bootBank = some b.bankB ∧ s.bankOk b.bankB = true) ∧
    (∃ (s : State) (b : Bool), s.phase = .waitOwl ∧ s.bootBank = some b ∧ s.owl.evq.length < 256) ∧
    (∃ (s : State) (ch : Nat) (d : Dimm), ch < 32 ∧ s.phase = .training ∧ (s.chan ch).st = .training) ∧
    (∃ (s : State), s.phase = .filling) ∧
    (∃ (s : State), s.phase = .releasing ∧ s.life < 3) :=
  ⟨⟨{ State.reset with pwrgood := true, phase := .waitPll }, by decide +kernel⟩,
   ⟨{ State.reset with pwrgood := true, phase := .waitOwl, flash := { FlashS.reset with a := { fw := some (1, []), lay := [] } } }, ({ bankB := false, spd := [] } : OwlBoot), by decide +kernel⟩,
   ⟨{ State.reset with pwrgood := true, phase := .waitOwl }, false, by decide +kernel⟩,
   ⟨{ State.reset with pwrgood := true, phase := .training }, 3, chan0.dimm, by decide +kernel⟩,
   ⟨{ w0 with phase := .filling }, by decide +kernel⟩,
   ⟨{ w0 with phase := .releasing }, by decide +kernel⟩⟩

theorem test_meets_WarmResetSteps :
    (∃ (s : State) (ns : Nat), 1000 ≤ ns ∧ s.pwrgood = true ∧ s.thermtrip = false ∧ s.phase = .running ∧
      s.top.ready = true ∧ s.sec.wipeRun = false ∧ s.owl.pwr = .run ∧ s.owl.transit = false ∧ s.owl.hibWbk = []) ∧
    (∃ (s : State), s.phase = .warmFlush ∧ s.stopping = false ∧ (s.dirtyLines.any fun e => s.stuckLine e.1) = false ∧
      (∀ c < 32, s.stuckChan c = false) ∧ s.owl.staged = none) ∧
    (∃ (s : State), s.phase = .warmFlush ∧ 120000000 + s.owl.warmAt ≤ s.clk ∧ s.owl.staged = none) ∧
    (∃ (s : State), s.phase = .warmHold ∧ 153600 + s.owl.warmAt ≤ s.clk) ∧
    (∃ (s : State) (x : BitVec 96), s.phase = .warmFill) ∧
    (∃ (s : State) (x : BitVec 96), s.phase = .warmFill ∧ s.owl.warmTries ≤ 1) ∧
    (∃ (s : State), s.phase = .warmFill ∧ 1 < s.owl.warmTries ∧ 24000000000 + s.owl.warmAt ≤ s.clk) :=
  ⟨⟨w0, 1000, by decide +kernel⟩,
   ⟨{ w0 with phase := .warmFlush }, by decide +kernel⟩,
   ⟨{ w0 with phase := .warmFlush }, by decide +kernel⟩,
   ⟨{ w0 with phase := .warmHold, chans := [(0, { chan0 with st := .selfRefresh })] }, by decide +kernel⟩,
   ⟨{ w0 with phase := .warmFill }, 0, by decide +kernel⟩,
   ⟨{ w0 with phase := .warmFill }, 1, by decide +kernel⟩,
   ⟨{ w0 with phase := .warmFill, owl := { w0.owl with warmTries := 2 } }, by decide +kernel⟩⟩

theorem test_meets_PowerStates :
    (∃ (s : State) (sess : Nat) (tag : W32), s.Hears sess ∧ s.powerStatus .run = .ok ∧ s.owl.pwr = .gate) ∧
    (∃ (s : State) (sess : Nat) (tag : W32), s.Hears sess ∧ s.powerStatus .gate = .ok ∧ s.owl.pwr = .run ∧
      s.anyRun = false) ∧
    (∃ (s : State) (sess : Nat) (tag : W32), s.Hears sess ∧ s.powerStatus .drowse = .ok ∧ s.owl.pwr = .run) ∧
    (∃ (s : State) (sess : Nat) (tag : W32), s.Hears sess ∧ s.powerStatus .hibernate = .ok ∧ s.owl.pwr = .run ∧
      (∃ p ∈ s.partList, (s.part p).st = .run)) ∧
    (∃ (s : State) (sess : Nat) (tag : W32), s.Hears sess ∧ s.powerStatus .off = .ok ∧ s.owl.pwr ≠ .off) ∧
    (∃ (s : State), s.owl.transit = true ∧ s.owl.pwr = .run ∧ s.owl.target = .gate ∧ s.anyRun = false) ∧
    (∃ (s : State), s.owl.transit = true ∧ s.owl.pwr = .run ∧ s.owl.target = .gate ∧ s.anyRun = true ∧
      Config.ms10Clk + s.owl.pwSince ≤ s.clk ∧ s.sessOpen s.owl.pwSess = true) ∧
    (∃ (s : State), s.owl.transit = true ∧ s.owl.pwr = .run ∧ s.owl.target = .hibernate ∧ s.owl.pwStep = 1 ∧
      (∀ x ∈ s.setts, x.2.dir = [] ∧ x.2.snoops = [] ∧ x.2.sweep = none) ∧
      (s.dirtyLines.any fun e => s.stuckLine e.1) = false ∧ s.dramRests = true ∧ s.plansOut = false) :=
  ⟨⟨{ w0 with owl := { w0.owl with pwr := .gate } }, 0, 7, by simp only [State.Hears]; decide +kernel⟩,
   ⟨w0, 0, 7, by simp only [State.Hears]; decide +kernel⟩,
   ⟨w0, 0, 7, by simp only [State.Hears]; decide +kernel⟩,
   ⟨w0, 0, 7, by simp only [State.Hears]; decide +kernel⟩,
   ⟨{ w0 with flash := { w0.flash with regs := [1] } }, 0, 7, by simp only [State.Hears]; decide +kernel⟩,
   ⟨{ w0 with owl := { w0.owl with transit := true, target := .gate } }, by decide +kernel⟩,
   ⟨{ w0 with engines := [(0, { Engine.reset with st := .running, run := some Run.reset })], owl := { w0.owl with transit := true, target := .gate } }, by decide +kernel⟩,
   ⟨{ w0 with owl := { w0.owl with transit := true, target := .hibernate, pwStep := 1 } }, by decide +kernel⟩⟩

theorem test_meets_RegisterWrites :
    (∃ (s : State) (path : Path) (off : Nat) (v : W32) (c : Cell), s.pathUp path = true ∧ reach path off % 4 = 0 ∧
      owlBarred path (reach path off) = false ∧ isUnlock (reach path off) = false ∧ s.cell (reach path off) = some c) ∧
    (∃ (s : State) (path : Path) (off : Nat) (v : W32), s.pathUp path = true ∧ reach path off % 4 = 0 ∧
      owlBarred path (reach path off) = false ∧ isUnlock (reach path off) = false ∧ s.cell (reach path off) = none) ∧
    (∃ (s : State) (v : W32), s.CanKey .owl 0x64) :=
  ⟨⟨w0, .owl, 0x0, 9, (((armed w0 0x64).cell 0x0).getD ⟨.rw, 0⟩), by decide +kernel⟩,
   ⟨w0, .owl, 0xFF8, 9, by decide +kernel⟩,
   ⟨armed w0 0x64, 9, by simp only [State.CanKey]; decide +kernel⟩⟩

theorem test_meets_UnlockRegisters :
    (∃ (s : State) (path : Path) (off : Nat), s.pathUp path = true ∧ reach path off % 4 = 0 ∧
      isUnlock (reach path off) = true ∧ owlBarred path (reach path off) = false) ∧
    (∃ (s : State) (path : Path) (off : Nat) (v : W32), s.pathUp path = true ∧ reach path off % 4 = 0 ∧
      isUnlock (reach path off) = true ∧ owlBarred path (reach path off) = false ∧ v ≠ Config.unlockKey) :=
  ⟨⟨w0, .owl, 0x50, by decide +kernel⟩,
   ⟨w0, .owl, 0x50, 3, by decide +kernel⟩⟩

theorem test_meets_ClearingWrites :
    (∃ (s : State) (path : Path) (off : Nat) (v sets : W32) (x : Nat), s.pathUp path = true ∧ reach path off % 4 = 0 ∧
      owlBarred path (reach path off) = false ∧ s.cell (reach path off) = some ⟨.w1c, x⟩) ∧
    (∃ (s : State) (v sets : W32), s.owl.st = .run) :=
  ⟨⟨w0, .owl, 0x70, 3, 1, 0, by decide +kernel⟩,
   ⟨{ w0 with top := { w0.top with evstat := 0xF } }, 3, 1, by decide +kernel⟩⟩

theorem test_meets_TriplicatedFields :
    (∃ (s : State) (f : RwtField) (v c mask : Nat), s.rwtOf f = ⟨v, v, v, v, false⟩ ∧ rwtLegal f v = true ∧ mask ≠ 0 ∧
      c < 3 ∧ s.due 5 1048576 = true) ∧
    (∃ (s : State) (f : RwtField), (s.rwtOf f).failed = true ∧ s.owl.st = .run) :=
  ⟨⟨w0, .layoutGen, 9, 1, 4, by decide +kernel⟩,
   ⟨{ w0 with rwt := [(100, ⟨1, 2, 3, 9, true⟩)] }, .layoutGen, by decide +kernel⟩⟩

theorem test_meets_FifoInterfaces :
    (∃ (s : State) (e : Nat) (w : FWord) (l : List FWord), e < 64 ∧ s.owl.st = .run ∧ (s.inqOf e).recv = w :: l) ∧
    (∃ (s : State) (p : Nat) (w : FWord) (l : List FWord), p < 32 ∧ s.top.ready = true ∧
      (s.part p).dbg.fifo.recv = w :: l) ∧
    (∃ (s : State) (w : FWord) (l : List FWord), s.owl.st = .run ∧ s.owl.fifo.recv = w :: l) ∧
    (∃ (s : State) (e i : Nat), e < 64 ∧ s.owl.st = .run ∧ (s.inqOf e).recv.findIdx? (·.eop) = some i) ∧
    (∃ (s : State) (e : Nat), e < 64 ∧ s.owl.st = .run ∧ (s.inqOf e).recv.findIdx? (·.eop) = none) ∧
    (∃ (s : State) (e : Nat) (w : W32), e < 64 ∧ s.owl.st = .run ∧ (s.inqOf e).over_ = false ∧
      (s.inqOf e).partial_.length < 16 ∧ (s.inqOf e).send.length < 64) ∧
    (∃ (s : State) (w : W32), s.owl.st = .run) :=
  ⟨⟨{ w0 with inq := [(2, { Fifo.reset with recv := [⟨5, true⟩] })] }, 2, ⟨5, true⟩, [], by decide +kernel⟩,
   ⟨{ w0 with parts := [(0, { PartS.reset with dbg := { Dbg.reset with fifo := { Fifo.reset with recv := [⟨5, true⟩] } } })] }, 0, ⟨5, true⟩, [], by decide +kernel⟩,
   ⟨{ w0 with owl := { w0.owl with fifo := { Fifo.reset with recv := [⟨5, true⟩] } } }, ⟨5, true⟩, [], by decide +kernel⟩,
   ⟨{ w0 with inq := [(2, { Fifo.reset with recv := [⟨5, true⟩, ⟨6, false⟩] })] }, 2, 0, by decide +kernel⟩,
   ⟨{ w0 with inq := [(2, { Fifo.reset with recv := [⟨6, false⟩] })] }, 2, by decide +kernel⟩,
   ⟨w0, 63, 4, by decide +kernel⟩,
   ⟨w0, 4, by decide +kernel⟩⟩

theorem test_meets_LinkCommands :
    (∃ (s : State) (k : Nat), k < 8 ∧ s.CanKey .owl (lnkOff k 0x10) ∧ (s.port k).st = .disabled ∧
      (s.port k).enable = false) ∧
    (∃ (s : State) (k : Nat), k < 8 ∧ s.CanKey .owl (lnkOff k 0x10) ∧ (s.port k).enable = true) ∧
    (∃ (s : State) (k : Nat), k < 8 ∧ s.CanKey .owl (lnkOff k 0x10) ∧ (s.port k).st = .down ∧
      (s.port k).holdoffDone = true ∧ (s.port k).enable = true ∧ s.top.layoutOk = true ∧
      4 ≤ ((List.range 32).filter (s.port k).powered).length) ∧
    (∃ (s : State) (k : Nat), k < 8 ∧ s.CanKey .owl (lnkOff k 0x14) ∧ (s.port k).st = .active) ∧
    (∃ (s : State) (k : Nat), k < 8 ∧ s.CanKey .owl (lnkOff k 0x14) ∧ s.CanRetrain k) ∧
    (∃ (s : State) (k : Nat), k < 8 ∧ s.CanKey .owl (lnkOff k 0x14) ∧ (s.port k).st = .active ∧
      (s.port k).planOut = none ∧ (s.port k).planIn = none ∧
      planSizes.contains (lanesIn (s.port k).planMask).length = true ∧ (s.port k).lanesReady (s.port k).planMask = true) ∧
    (∃ (s : State) (k l : Nat) (v : Bool), k < 8 ∧ l < 32 ∧ s.CanKey .owl (lnkOff k (0x1000 + 16 * l))) ∧
    (∃ (s : State) (k l : Nat), k < 8 ∧ l < 32 ∧ s.CanKey .owl (lnkOff k (0x1000 + 16 * l)) ∧
      ((s.port k).lane l).st = .failed ∧ ((s.port k).lane l).training = false) ∧
    (∃ (s : State) (k : Nat), (s.port k).st = .down ∧ (s.port k).holdoffDone = false ∧ s.top.layoutOk = true ∧
      (s.port k).since + (s.port k).downCfg.toNat * 2400 ≤ s.clk ∧
      4 ≤ ((List.range 32).filter (s.port k).powered).length) :=
  ⟨⟨withPort (armed w0 (lnkOff 0 0x10)) { port0 with st := .disabled, enable := false }, 0, by simp only [State.CanKey]; decide +kernel⟩,
   ⟨withPort (armed w0 (lnkOff 0 0x10)) port0, 0, by simp only [State.CanKey]; decide +kernel⟩,
   ⟨withPort (armed w0 (lnkOff 0 0x10)) { port0 with st := .down, holdoffDone := true, autoUp := false }, 0, by simp only [State.CanKey]; decide +kernel⟩,
   ⟨withPort (armed w0 (lnkOff 0 0x14)) port0, 0, by simp only [State.CanKey]; decide +kernel⟩,
   ⟨withPort (armed w0 (lnkOff 0 0x14)) port0, 0, by simp only [State.CanKey, State.CanRetrain]; decide +kernel⟩,
   ⟨withPort (armed w0 (lnkOff 0 0x14)) port0, 0, by simp only [State.CanKey]; decide +kernel⟩,
   ⟨withPort (armed w0 (lnkOff 0 0x1040)) port0, 0, 4, false, by simp only [State.CanKey]; decide +kernel⟩,
   ⟨withPort (armed w0 (lnkOff 0 0x1040)) { port0 with lanes := [(4, { LaneS.reset with st := .failed })] }, 0, 4, by simp only [State.CanKey]; decide +kernel⟩,
   ⟨withPort w0 { port0 with st := .down }, 0, by decide +kernel⟩⟩

theorem test_meets_LaneControlBlocks :
    (∃ (s : State) (k l j : Nat) (b : BitVec 272) (w : Nat), s.LcbOk k b lcbTsId w ∧ (s.port k).st = .train ∧
      (s.port k).phase = 1 ∧ (s.port k).trainees.contains l = true ∧ ((s.port k).lane l).ident = false ∧
      ((s.port k).lane l).cntTy = lcbTsId ∧ 15 ≤ ((s.port k).lane l).cnt ∧ bitsOf w 83 5 = l ∧
      (s.port k).trainees.contains j = true ∧ j ≠ l ∧ ((s.port k).lane j).ident = false) ∧
    (∃ (s : State) (k l : Nat) (b : BitVec 272) (w : Nat), s.LcbOk k b lcbTsEq w ∧ (s.port k).stranger w = false ∧
      (s.port k).phase = 2 ∧ (s.port k).trainees.contains l = true ∧ bitsOf w 76 4 ≠ 0xF ∧ ((s.port k).lane l).rnds = 0) ∧
    (∃ (s : State) (k l j : Nat) (b : BitVec 272) (w skew : Nat) (m : BitVec 16), s.LcbOk k b lcbTsDone w ∧
      (s.port k).phase = 3 ∧ ((s.port k).lane l).training = false ∧ (s.port k).trainees.contains l = true ∧
      ((s.port k).lane l).cntTy = lcbTsDone ∧ 15 ≤ ((s.port k).lane l).cnt ∧ laneFit skew m = true ∧ j < 32 ∧
      (s.port k).prop.getLsbD j = true ∧ j ≠ l ∧ ((s.port k).lane j).skewDone = false) ∧
    (∃ (s : State) (k l : Nat) (b : BitVec 272) (w : Nat), s.LcbOk k b lcbTsGo w ∧ (s.port k).st = .train ∧
      (s.port k).phase = 4 ∧ l < 32 ∧ (s.port k).prop.getLsbD l = true ∧
      BitVec.ofNat 32 (bitsOf w 8 32) = (s.port k).prop ∧
      (∀ j < 32, (s.port k).prop.getLsbD j = true → ((s.port k).lane j).cntTy = lcbTsGo ∧ ((s.port k).lane j).st ≠ .failed ∧ (if j = l then 15 else 16) ≤ ((s.port k).lane j).cnt)) ∧
    (∃ (s : State) (k l : Nat) (b : BitVec 272) (w : Nat), s.LcbOk k b lcbRetrain w ∧ s.CanRetrain k ∧
      (s.port k).plan.getLsbD l = true) ∧
    (∃ (s : State) (k l : Nat) (b : BitVec 272) (w : Nat), s.LcbOk k b lcbDown w ∧
      1 ≤ (((List.range 32).map fun j => ((s.port k).lane j).downCnt).foldl (· + ·) 0)) ∧
    (∃ (s : State) (k l : Nat) (b : BitVec 272) (w : Nat), s.LcbOk k b lcbStandby w) ∧
    (∃ (s : State) (k l : Nat) (b : BitVec 272) (w : Nat), s.LcbOk k b lcbLaneTrain w ∧
      ((s.port k).lane l).st ≠ .inPlan ∧ ((s.port k).lane l).power = true ∧ ((s.port k).lane l).training = false ∧
      ((s.port k).lane l).cntTy = lcbLaneTrain ∧ 15 ≤ ((s.port k).lane l).cnt) :=
  ⟨⟨withPort w0 (portIn .train 1 { LaneS.reset with cntTy := 1, cnt := 15 }), 0, 2, 3, blockOf (word 1 2 1), word 1 2 1, by simp only [State.LcbOk]; decide +kernel⟩,
   ⟨withPort w0 (portIn .train 2 { LaneS.reset with ident := true }), 0, 2, blockOf (word 2 2 (7 * 2 ^ 88)), word 2 2 (7 * 2 ^ 88), by simp only [State.LcbOk]; decide +kernel⟩,
   ⟨withPort w0 (portIn .train 3 { LaneS.reset with ident := true, cntTy := 3, cnt := 15 }), 0, 2, 3, blockOf (word 3 2 1), word 3 2 1, 0, 0x4040, by simp only [State.LcbOk]; decide +kernel⟩,
   ⟨withPort w0 (portIn .train 4 { LaneS.reset with cntTy := 4, cnt := 16 }), 0, 2, blockOf (word 4 2 (0xFF * 2 ^ 8)), word 4 2 (0xFF * 2 ^ 8), by simp only [State.LcbOk]; decide +kernel⟩,
   ⟨wp, 0, 2, blockOf (word 5 2 1), word 5 2 1, by simp only [State.LcbOk, State.CanRetrain]; decide +kernel⟩,
   ⟨withPort w0 { port0 with lanes := [(2, { LaneS.reset with downCnt := 1 })] }, 0, 2, blockOf (word 6 2 (3 * 2 ^ 40)), word 6 2 (3 * 2 ^ 40), by simp only [State.LcbOk]; decide +kernel⟩,
   ⟨wp, 0, 2, blockOf (word 7 2 (3 * 2 ^ 81)), word 7 2 (3 * 2 ^ 81), by simp only [State.LcbOk]; decide +kernel⟩,
   ⟨withPort w0 { port0 with lanes := [(9, { LaneS.reset with cntTy := 8, cnt := 15 })] }, 0, 9, blockOf (word 8 9 1), word 8 9 1, by simp only [State.LcbOk]; decide +kernel⟩⟩

theorem test_meets_LinkTriggers :
    (∃ (s : State) (k : Nat), (s.port k).st = .train ∧ 4800000 + (s.port k).since ≤ s.clk) ∧
    (∃ (s : State) (k : Nat), (s.port k).st = .retrain ∧ 2400000 + (s.port k).since ≤ s.clk) ∧
    (∃ (s : State) (k : Nat), (s.port k).st = .retrain ∧ (s.port k).phase = 5 ∧
      (∀ j < 32, (s.port k).prop.getLsbD j = true → ((s.port k).lane j).st ≠ .failed)) ∧
    (∃ (s : State) (k l : Nat), s.CanRetrain k ∧ (s.port k).plan.getLsbD l = true) ∧
    (∃ (s : State) (k : Nat), (s.port k).st = .active) ∧
    (∃ (s : State) (k l : Nat), ((s.port k).lane l).st ≠ .failed ∧ (s.port k).atLimit l s.clk = true ∧
      ((s.port k).st = .train → (s.port k).phase ≠ 1)) ∧
    (∃ (s : State) (k : Nat), s.CanRetrain k ∧ max 1 (s.port k).sameLimit.toNat ≤ (s.port k).sameCnt) ∧
    (∃ (s : State) (k : Nat), s.CanRetrain k ∧
      (s.port k).winLimit.toNat < ((s.port k).winAt.filter fun n => decide ((s.port k).winUnits < 2 ^ 24 + n)).length) ∧
    (∃ (s : State) (k : Nat), (s.port k).st = .active ∧ (s.port k).lastRetrain s.clk = true) ∧
    (∃ (s : State) (k : Nat), (s.port k).st = .active ∧ (s.port k).buf ≠ [] ∧
      (s.port k).ackAt + max 240 (s.port k).replayCfg.toNat ≤ s.clk ∧ (∀ n, (s.port k).timerAt ≠ some (s.clk, n))) :=
  ⟨⟨withPort w0 { port0 with st := .train }, 0, by decide +kernel⟩,
   ⟨withPort w0 { port0 with st := .retrain }, 0, by decide +kernel⟩,
   ⟨withPort w0 { port0 with st := .retrain, phase := 5, prop := 0xF }, 0, by decide +kernel⟩,
   ⟨wp, 0, 2, by simp only [State.CanRetrain]; decide +kernel⟩,
   ⟨wp, 0, by decide +kernel⟩,
   ⟨withPort w0 { port0 with failLimit := 2, lanes := [(2, { LaneS.reset with st := .inPlan, win := [9999999999999, 9999999999998] })] }, 0, 2, by decide +kernel⟩,
   ⟨withPort w0 { port0 with sameCnt := 8 }, 0, by simp only [State.CanRetrain]; decide +kernel⟩,
   ⟨withPort w0 { port0 with winLimit := 0, winAt := [0], winUnits := 1 }, 0, by simp only [State.CanRetrain]; decide +kernel⟩,
   ⟨withPort w0 { port0 with recentRetrains := [w0.clk, w0.clk] }, 0, by decide +kernel⟩,
   ⟨withPort w0 { port0 with buf := [{ TxUnit.reset with seq := 0 }] }, 0, by simp only [timer_iff]; decide +kernel⟩⟩

theorem test_meets_FlowUnits :
    (∃ (s : State) (k : Nat) (u : FlowUnit), s.UnitOk k u 0) ∧
    (∃ (s : State) (k : Nat) (u : FlowUnit) (q : BitVec 12), (s.port k).st = .active ∧ unitGood 0xF000 u 1 = true ∧
      bitsOf u.hdr.toNat 58 2 = 1 ∧ q = BitVec.ofNat 12 (bitsOf u.hdr.toNat 46 12) ∧ (s.port k).txq = [] ∧
      (s.port k).planq = [] ∧ s.NoDrop k ∧ (q + 1 - (s.port k).oldest).toNat ≤ (s.port k).buf.length) ∧
    (∃ (s : State) (k : Nat) (u : FlowUnit) (q : BitVec 12) (m n : W32) (r : Byte) (b : TxUnit), (s.port k).st = .active ∧
      unitGood 0xF000 u 1 = true ∧ bitsOf u.hdr.toNat 58 2 = 1 ∧ q = BitVec.ofNat 12 (bitsOf u.hdr.toNat 46 12) ∧
      (q + 1 - (s.port k).oldest).toNat ≤ (s.port k).buf.length ∧ (s.port k).goWait = true ∧
      (s.port k).autoDrop = false ∧ (s.port k).planOut = some m ∧
      b ∈ (s.port k).buf.take (q + 1 - (s.port k).oldest).toNat ∧ b.plan = some (4, (s.port k).planId, n, r)) ∧
    (∃ (s : State) (k : Nat) (u : FlowUnit), (s.port k).st = .active ∧ unitGood 0xF000 u 2 = true ∧ s.NoDrop k) ∧
    (∃ (s : State) (k : Nat) (u : FlowUnit) (id r : Byte) (m : W32), s.UnitOk k u 3 ∧ planFields u = (1, id, m, r) ∧
      (s.port k).planOut = none ∧ planSizes.contains (lanesIn m).length = true ∧ (s.port k).lanesReady m = true) ∧
    (∃ (s : State) (k : Nat) (u : FlowUnit) (r : Byte) (m n : W32), s.UnitOk k u 3 ∧
      planFields u = (2, (s.port k).planId, n, r) ∧ (s.port k).planOut = some m ∧ (s.port k).goWait = false) ∧
    (∃ (s : State) (k : Nat) (u : FlowUnit) (r : Byte) (m n : W32), s.UnitOk k u 3 ∧
      planFields u = (3, (s.port k).planId, n, r) ∧ (s.port k).planOut = some m ∧ (s.port k).goWait = false ∧
      (s.port k).autoDrop = false) ∧
    (∃ (s : State) (k : Nat) (u : FlowUnit) (id r : Byte) (m : W32), s.UnitOk k u 3 ∧ planFields u = (4, id, m, r) ∧
      (s.port k).planIn = some (id, m) ∧ (s.port k).autoDrop = false) :=
  ⟨⟨wp, 0, unitOf 0 0 [1, 2, 3], by simp only [State.UnitOk, State.NoDrop]; decide +kernel⟩,
   ⟨withPort w0 { port0 with buf := [{ TxUnit.reset with seq := 0 }], txSeq := 1 }, 0, unitOf 0xF000 (2 ^ 60 + 2 ^ 58) [], 0, by simp only [State.NoDrop]; decide +kernel⟩,
   ⟨withPort w0 { port0 with buf := [{ TxUnit.reset with seq := 0, plan := some (4, 4, 0xF, 0) }], txSeq := 1, autoDrop := false, planOut := some 0xF, planId := 4, goWait := true }, 0, unitOf 0xF000 (2 ^ 60 + 2 ^ 58) [], 0, 0xF, 0xF, 0, { TxUnit.reset with seq := 0, plan := some (4, 4, 0xF, 0) }, by decide +kernel⟩,
   ⟨wp, 0, unitOf 0xF000 (2 * 2 ^ 60) [9], by simp only [State.NoDrop]; decide +kernel⟩,
   ⟨wp, 0, unitOf 0 (3 * 2 ^ 60) [planSlot 1 4 0xF 0], 4, 0, 0xF, by simp only [State.UnitOk, State.NoDrop]; decide +kernel⟩,
   ⟨withPort w0 { port0 with autoDrop := false, planOut := some 0xF, planId := 4 }, 0, unitOf 0 (3 * 2 ^ 60) [planSlot 2 4 0xF 0], 0, 0xF, 0xF, by simp only [State.UnitOk, State.NoDrop]; decide +kernel⟩,
   ⟨withPort w0 { port0 with autoDrop := false, planOut := some 0xF, planId := 4 }, 0, unitOf 0 (3 * 2 ^ 60) [planSlot 3 4 0xF 2], 2, 0xF, 0xF, by simp only [State.UnitOk, State.NoDrop]; decide +kernel⟩,
   ⟨withPort w0 { port0 with autoDrop := false, planIn := some (4, 0xF) }, 0, unitOf 0 (3 * 2 ^ 60) [planSlot 4 4 0xF 0], 4, 0, 0xF, by simp only [State.UnitOk, State.NoDrop]; decide +kernel⟩⟩

theorem test_meets_TrackedReads :
    (∃ (s : State) (k : Nat) (m : Msg) (p j : Nat) (x : Xl) (pa : Nat) (v : LineVal), s.Arrives k .rdShared m p j x pa ∧
      x.leaf.cls = .tracked ∧ ((s.dirEnt pa).at (lineIx pa)).1 = 0 ∧ s.Room pa ∧ s.view pa = some v) ∧
    (∃ (s : State) (k : Nat) (m : Msg) (p j : Nat) (x : Xl) (pa : Nat) (v : LineVal), s.Arrives k .rdOwn m p j x pa ∧
      x.leaf.cls = .tracked ∧ ((s.dirEnt pa).at (lineIx pa)).1 = 0 ∧ s.Room pa ∧ s.view pa = some v) ∧
    (∃ (s : State) (k : Nat) (m : Msg) (p j : Nat) (x : Xl) (pa : Nat) (v : LineVal), s.Arrives k .upgrade m p j x pa ∧
      x.leaf.cls = .tracked ∧ ((s.dirEnt pa).at (lineIx pa)).1 = 1 ∧ s.holders (s.dirEnt pa) (lineIx pa) = [.inl m.src] ∧
      s.isSharer (s.dirEnt pa) m.src = true ∧ s.view pa = some v) ∧
    (∃ (s : State) (k : Nat) (m : Msg) (p j : Nat) (x : Xl) (pa : Nat) (v : LineVal), s.Arrives k .rdOnce m p j x pa ∧
      x.leaf.cls = .tracked ∧ ((s.dirEnt pa).at (lineIx pa)).1 = 0 ∧ s.view pa = some v) :=
  ⟨⟨wm .tracked [], 0, reqOf 1 0 0 [], 0, 0, xl .tracked, 0x600040, val64, by simp only [State.Room, arrives_iff, passes_iff, State.TxnsNumbered, free_iff, dram_iff, some_iff]; exact ⟨by decide +kernel, by decide +kernel⟩⟩,
   ⟨wm .tracked [], 0, reqOf 2 0 0 [], 0, 0, xl .tracked, 0x600040, val64, by simp only [State.Room, arrives_iff, passes_iff, State.TxnsNumbered, free_iff, dram_iff, some_iff]; exact ⟨by decide +kernel, by decide +kernel⟩⟩,
   ⟨wm .tracked dirShared, 0, reqOf 3 0 0 [], 0, 0, xl .tracked, 0x600040, val64, by simp only [arrives_iff, passes_iff, State.TxnsNumbered, free_iff, dram_iff, some_iff]; exact ⟨by decide +kernel, by decide +kernel⟩⟩,
   ⟨wm .tracked [], 0, reqOf 4 0 0 [], 0, 0, xl .tracked, 0x600040, val64, by simp only [arrives_iff, passes_iff, State.TxnsNumbered, free_iff, dram_iff, some_iff]; exact ⟨by decide +kernel, by decide +kernel⟩⟩⟩

theorem test_meets_TrackedWrites :
    (∃ (s : State) (k : Nat) (m : Msg) (p j : Nat) (x : Xl) (pa : Nat) (v : LineVal), s.Arrives k .wrLine m p j x pa ∧
      x.leaf.cls = .tracked ∧ ((s.dirEnt pa).at (lineIx pa)).1 = 0 ∧ s.view pa = some v ∧ m.poison = false) ∧
    (∃ (s : State) (k : Nat) (m : Msg) (p j : Nat) (x : Xl) (pa : Nat) (v : LineVal), s.Arrives k .wrPart m p j x pa ∧
      x.leaf.cls = .tracked ∧ ((s.dirEnt pa).at (lineIx pa)).1 = 0 ∧ s.view pa = some v ∧ m.poison = false ∧
      v.poison = false) ∧
    (∃ (s : State) (k : Nat) (m : Msg) (p j : Nat) (x : Xl) (pa : Nat) (v : LineVal), s.Arrives k .atomic m p j x pa ∧
      x.leaf.cls = .tracked ∧ ((s.dirEnt pa).at (lineIx pa)).1 = 0 ∧ s.view pa = some v ∧ v.poison = false ∧
      m.op.toNat < 10) ∧
    (∃ (s : State) (k : Nat) (m : Msg) (p j : Nat) (x : Xl) (pa : Nat) (v : LineVal), s.Arrives k .accWr m p j x pa ∧
      x.leaf.cls = .tracked ∧ ((s.dirEnt pa).at (lineIx pa)).1 = 0 ∧ s.view pa = some v ∧ v.poison = false ∧
      m.poison = false) :=
  ⟨⟨wm .tracked [], 0, reqOf 5 0 0 dataSlots, 0, 0, xl .tracked, 0x600040, val64, by simp (disch := decide) only [arrives_iff, passes_iff, free_iff, State.TxnsNumbered, dram_iff, some_iff, reqOf_crc]; exact ⟨by decide +kernel, by decide +kernel⟩⟩,
   ⟨wm .tracked [], 0, reqOf 6 0 0 (0xF0F0 :: dataSlots), 0, 0, xl .tracked, 0x600040, val64, by simp (disch := decide) only [arrives_iff, passes_iff, free_iff, State.TxnsNumbered, dram_iff, some_iff, reqOf_crc]; exact ⟨by decide +kernel, by decide +kernel⟩⟩,
   ⟨wm .tracked [], 0, reqOf 7 9 0 [5], 0, 0, xl .tracked, 0x600040, val64, by simp only [arrives_iff, passes_iff, State.TxnsNumbered, free_iff, dram_iff, some_iff]; exact ⟨by decide +kernel, by decide +kernel⟩⟩,
   ⟨wm .tracked [], 0, reqOf 8 0 0 dataSlots, 0, 0, xl .tracked, 0x600040, val64, by simp (disch := decide) only [arrives_iff, passes_iff, free_iff, State.TxnsNumbered, dram_iff, some_iff, reqOf_crc]; exact ⟨by decide +kernel, by decide +kernel⟩⟩⟩

theorem test_meets_PrivateReads :
    (∃ (s : State) (k : Nat) (m : Msg) (p j : Nat) (x : Xl) (pa : Nat) (v : LineVal), x.leaf.cls = .priv ∧
      s.view pa = some v) :=
  ⟨wm .priv [], 0, reqOf 2 0 0 [], 0, 0, xl .priv, 0x600040, val64, by decide +kernel⟩

theorem test_meets_Writebacks :
    (∃ (s : State) (k : Nat) (m : Msg) (p j : Nat) (x : Xl) (pa : Nat) (v : LineVal), s.Arrives k .wbDirty m p j x pa ∧
      x.leaf.cls = .tracked ∧ m.info = s.effEpoch x.leaf.epoch ∧ (s.dirEnt pa).at (lineIx pa) = (2, m.src) ∧
      s.view pa = some v) ∧
    (∃ (s : State) (k : Nat) (m : Msg) (p j : Nat) (x : Xl) (pa : Nat), s.Arrives k .wbClean m p j x pa ∧
      x.leaf.cls = .tracked ∧ m.info = s.effEpoch x.leaf.epoch ∧ (s.dirEnt pa).at (lineIx pa) = (2, m.src)) :=
  ⟨⟨wm .tracked dirOwned, 0, reqOf 0x38 0 0 dataSlots, 0, 0, xl .tracked, 0x600040, val64, by simp (disch := decide) only [arrives_iff, passes_iff, free_iff, State.TxnsNumbered, dram_iff, some_iff, reqOf_crc]; exact ⟨by decide +kernel, by decide +kernel⟩⟩,
   ⟨wm .tracked dirOwned, 0, reqOf 0x39 0 0 [], 0, 0, xl .tracked, 0x600040, by simp only [arrives_iff, passes_iff, State.TxnsNumbered, free_iff, dram_iff, some_iff]; exact ⟨by decide +kernel, by decide +kernel⟩⟩⟩

theorem test_meets_PublishFlipsDescriptor :
    (∃ (s : State) (k : Nat) (m : Msg) (p i j : Nat) (x : Xl) (da : Nat) (v : LineVal), s.Passes k tyPublish m ∧
      m.resend = false ∧ s.ded m.src m.srcGen m.tag = none ∧ dedRoom s.dedup p = true ∧
      s.asidPart m.asid.toNat = some p ∧ s.top.ready = true ∧ s.partFenced p = false ∧ s.msgFails m = false ∧
      s.earlyStatus .publish m = .ok ∧ addrStatus m = .ok ∧ s.parkFull 0 = false ∧
      (∀ u ∈ s.txns, u.sett = 0 → u.phase ≠ .ring ∧ (u.phase = .parked → da ∉ s.txnLines u)) ∧
      (s.police p k (16 * (m.body.length + 1)) 0 false).1 ≠ 2 ∧ s.portFor m.src m.tag = some j ∧ s.TxnsNumbered ∧
      s.lookup .fab 0 0 m.asid m.addr = some x ∧ regionOf m.arg = some (p, i) ∧ s.regionDesc p i = some da ∧
      s.Free 0 da ∧ ((s.dirEnt da).at (lineIx da)).1 = 0 ∧ s.view da = some v ∧ v.data.length = 64 ∧ v.poison = false ∧
      (∀ a, s.whereIs da = some (.dram a) → (s.cached a).isSome = true)) :=
  ⟨wpub, 0, msgOf 9 9 0 [addrOf 0x400000 17 0 0, 0x5], 0, 0, 0, { xl .priv with page := 2 }, 0, vpub, by simp only [passes_iff, free_iff, State.TxnsNumbered, dram_iff]; decide +kernel⟩

theorem test_meets_SnoopAnswers :
    (∃ (s : State) (k : Nat) (m : Msg) (y : Snoop), s.Passes k tySnpAck m ∧ m.tag.toNat / 4096 < 16 ∧
      (s.sett (m.tag.toNat / 4096)).snoops.find? (fun z => z.tag == m.tag) = some y ∧ y.wait.contains m.src = true ∧
      (without y.wait m.src).isEmpty = false) ∧
    (∃ (s : State) (k : Nat) (m : Msg) (y : Snoop) (u : Txn) (v : LineVal), s.Passes k tySnpData m ∧
      m.tag.toNat / 4096 < 16 ∧ (s.sett (m.tag.toNat / 4096)).snoops.find? (fun z => z.tag == m.tag) = some y ∧
      y.wait.contains m.src = true ∧ (without y.wait m.src).isEmpty = false ∧ s.txn y.txn = some u ∧ u.line = y.line ∧
      u.ty = .rdShared ∧ y.leaf.stor = y.leaf.view ∧
      s.storedLines y.leaf (y.line * 64 / pageBytes y.leaf.size * pageBytes y.leaf.size) (y.line * 64) = [y.line * 64] ∧
      s.counterOf (y.line * 64) = none ∧ s.view (y.line * 64) = some v ∧ v.data.length = 64 ∧
      (∀ a, s.whereIs (y.line * 64) = some (.dram a) → (s.cached a).isSome = true)) :=
  ⟨⟨wsn, 0, msgOf tySnpAck 0x1003 0 [], snp0, by simp only [passes_iff]; decide +kernel⟩,
   ⟨wsn, 0, msgOf tySnpData 0x1003 0 dataSlots, snp0, txnAt .rdShared .snoop .tracked, val64, by simp (disch := decide) only [passes_iff, dram_iff, msgOf_crc]; decide +kernel⟩⟩

theorem test_meets_FabricManagement :
    (∃ (s : State) (k : Nat) (m : Msg) (d : Node), s.Passes k tyFmDown m ∧ s.fmgOk k m.src = true ∧
      d = BitVec.ofNat 21 (m.slot 1) ∧ s.nodeKnown d = true ∧ (s.node d).dead = false ∧
      (s.node d).relearn = true ∨ (s.node d).gen = BitVec.ofNat 8 (bitsOf (m.slot 1) 21 8) ∧
      (∀ n < 16, ∀ x ∈ (s.sett n).snoops, x.wait.contains d = false)) ∧
    (∃ (s : State) (k : Nat) (m : Msg) (d : Node), s.Passes k tyFmUp m ∧ s.fmgOk k m.src = true ∧
      d = BitVec.ofNat 21 (m.slot 1)) ∧
    (∃ (s : State) (k : Nat) (m : Msg), s.Passes k tyFmEcho m ∧ s.fmgOk k m.src = true) ∧
    (∃ (s : State) (k : Nat) (m : Msg), s.Passes k tyFmEchoRsp m ∧ s.fmgOk k m.src = true) ∧
    (∃ (s : State) (k : Nat) (ty : BitVec 6) (m : Msg), s.Passes k ty m ∧ received ty = false ∧ tyClass ty ≠ 5) :=
  ⟨⟨wm .tracked [], 0, msgOf tyFmDown 1 0 [5], 5, by simp only [passes_iff]; decide +kernel⟩,
   ⟨wm .tracked [], 0, msgOf tyFmUp 1 0 [BitVec.ofNat 128 (5 + 3 * 2 ^ 21)], 5, by simp only [passes_iff]; decide +kernel⟩,
   ⟨wm .tracked [], 0, msgOf tyFmEcho 1 0 [77], by simp only [passes_iff]; decide +kernel⟩,
   ⟨wm .tracked [], 0, msgOf tyFmEchoRsp 1 0 [77], by simp only [passes_iff]; decide +kernel⟩,
   ⟨wm .tracked [], 0, tySnpInv, msgOf tySnpInv 1 0 [addrOf 0x200040 17 0 0], by simp only [passes_iff]; decide +kernel⟩⟩

theorem test_meets_HomeTimers :
    (∃ (s : State) (u : Txn) (pa j : Nat) (x : Xl) (v : LineVal), s.txns = [u] ∧ u.phase = .parked ∧ u.kind = .fab ∧
      u.ty = .rdOnce ∧ u.noise = .none ∧ u.copies = [] ∧ u.xst = .ok ∧ s.routeFails u.fab.src = false ∧
      s.lookup .fab u.unit u.sett u.asid u.va = some x ∧ x.leaf.cls = .priv ∧ x.leaf.stor = x.leaf.view ∧
      s.storedLines x.leaf x.base u.va = [pa] ∧ u.line = pa / 64 ∧
      s.leafStatus .fab .rdOnce u.op.toNat x.leaf [pa] = .ok ∧ s.admission u.asid u.va u.fab.src = .ok ∧
      s.gateAdmits u.part = true ∧ (s.sett u.sett).halted = false ∧ s.bur.halted = false ∧ (s.sett u.sett).insQ = [] ∧
      s.Free u.sett pa ∧ (∀ a, s.whereIs pa = some (.dram a) → (s.cached a).isSome = true) ∧ s.view pa = some v ∧
      v.data.length = 64 ∧ s.portFor u.fab.src u.fab.tag = some j) ∧
    (∃ (s : State) (n id : Nat) (u : Txn), s.txn id = some u ∧ u.phase = .parked ∧ u.sett = n ∧
      u.parkAt + 4 * max (s.sett n).hold.toNat 32 < s.clk) ∧
    (∃ (s : State) (n id : Nat) (u : Txn), s.txn id = some u ∧ u.phase = .parked ∧ u.sett = n ∧ u.counted = false ∧
      u.parkAt + 64 * max (s.sett n).hold.toNat 32 ≤ s.clk) ∧
    (∃ (s : State) (n id : Nat) (u : Txn), s.txn id = some u ∧ u.phase = .parked ∧ u.sett = n ∧ u.kind = .fab ∧
      u.charged = true ∧ 1228800 + u.parkAt ≤ s.clk ∧ (∀ v ∈ s.txns, v.sett = n → v.phase ≠ .ring)) ∧
    (∃ (s : State) (tag : BitVec 16) (x : Snoop) (u : Txn), x.tag = tag ∧
      (s.sett (tag.toNat / 4096)).snoops.find? (fun y => y.tag == tag) = some x ∧
      x.lim * Config.usClk + x.since ≤ s.clk ∧ x.mc = true ∧ s.txn x.txn = some u ∧ u.phase = .snoop ∧ u.line = x.line ∧
      u.kind = .fab ∧ u.ty = .rdShared ∧ settOf (x.line * 64) = tag.toNat / 4096 ∧ s.isPoisoned (x.line * 64) = false ∧
      ((s.sett (tag.toNat / 4096)).snoops.filter fun y => y.txn == x.txn) = [x]) ∧
    (∃ (s : State) (n b : Nat) (d : Node) (e : DirEnt), n < 16 ∧ (s.sett n).sweep = some d ∧ (s.sett n).sweepQ = [] ∧
      (s.sett n).dir = [(b, e)] ∧ e.at 0 = (2, d) ∧ s.busyLines.contains (lineAddr n b 0 / 64) = false ∧
      s.owl.swept = false) ∧
    (∃ (s : State) (src : Node) (g : Byte) (tag : BitVec 16) (d : Ded), s.ded src g tag = some d ∧ d.st = .done ∧
      153600 + d.at_ ≤ s.clk) ∧
    (∃ (s : State) (src : Node) (g : Byte) (tag : BitVec 16) (d : Ded), s.ded src g tag = some d ∧ d.st = .blocked ∧
      307200 + d.at_ ≤ s.clk) ∧
    (∃ (s : State) (w i : Nat), i < 4 ∧ (s.node (BitVec.ofNat 21 (4 * w + i))).blocked = true ∧
      (s.node (BitVec.ofNat 21 (4 * w + i))).blockAt + 307200 ≤ s.clk) :=
  ⟨⟨{ wm .priv [] with txns := [txnAt .rdOnce .parked .priv] }, txnAt .rdOnce .parked .priv, 0x600040, 0, xl .priv, val64, by simp only [free_iff, dram_iff]; decide +kernel⟩,
   ⟨{ wm .priv [] with txns := [txnAt .rdOnce .parked .priv] }, 1, 0, txnAt .rdOnce .parked .priv, by decide +kernel⟩,
   ⟨{ wm .priv [] with txns := [txnAt .rdOnce .parked .priv] }, 1, 0, txnAt .rdOnce .parked .priv, by decide +kernel⟩,
   ⟨{ wm .priv [] with txns := [txnAt .rdOnce .parked .priv] }, 1, 0, txnAt .rdOnce .parked .priv, by decide +kernel⟩,
   ⟨{ wsn with setts := [(1, { sett1 .tracked [] with snoops := [{ snp0 with mc := true }] })] }, 0x1003, { snp0 with mc := true }, txnAt .rdShared .snoop .tracked, by decide +kernel⟩,
   ⟨{ w0 with setts := [(1, { sett1 .tracked dirOwned with sweep := some 5 })] }, 1, 0x600, 5, { DirEnt.reset with line := [(2, 5), (0, 0), (0, 0), (0, 0)] }, by decide +kernel⟩,
   ⟨{ w0 with dedup := [{ src := 5, tag := 9, st := .done }] }, 5, 0, 9, { src := 5, tag := 9, st := .done }, by decide +kernel⟩,
   ⟨{ w0 with dedup := [{ src := 5, tag := 9, st := .blocked }] }, 5, 0, 9, { src := 5, tag := 9, st := .blocked }, by decide +kernel⟩,
   ⟨{ w0 with nodes := [(5, { gen := 4, blocked := true, dead := true })] }, 1, 1, by decide +kernel⟩⟩

theorem test_meets_DramAccesses :
    (∃ (s : State) (u : Txn) (pa loc j : Nat), s.txns = [u] ∧ u.phase = .dram ∧ u.ty = .rdOnce ∧ u.kind = .fab ∧
      u.copies = [] ∧ s.routeFails u.fab.src = false ∧ u.leaf.cls = .priv ∧ u.leaf.stor = u.leaf.view ∧
      s.txnLines u = [pa] ∧ s.firstRead u = some (pa, loc) ∧ s.dramReady loc = true ∧ (s.keyAt pa).isSome = true ∧
      s.queued loc = none ∧ s.markAt loc = none ∧ (s.dramLine loc pa).poison = false ∧ s.held pa = none ∧
      s.whereIs pa = some (.dram pa) ∧ s.locOf pa = some loc ∧ s.portFor u.fab.src u.fab.tag = some j) ∧
    (∃ (s : State) (id c : Nat) (u : Txn), s.txn id = some u ∧ s.accessSince u = some c ∧ 60000 + c ≤ s.clk ∧
      (∀ o, (s.dirEnt (u.line * 64)).at (lineIx (u.line * 64)) = (2, o) → s.nodeDead o = false)) ∧
    (∃ (s : State) (n i loc : Nat) (v : Victim), (s.sett n).victims[i]? = some v ∧ s.locOf (v.line * 64) = some loc ∧
      (s.chan (locChan loc)).st = .run ∧ ((s.chan (locChan loc)).sub (locSub loc)).wq.length < 64 ∧
      ((s.sett n).victims.take i).any (fun x => x.line == v.line) = false ∧ (s.sett n).insQ = [] ∧
      (∀ u ∈ s.txns, u.sett = n → u.phase ≠ .parked)) ∧
    (∃ (s : State) (ch sub i : Nat) (w : DWrite), ((s.chan ch).sub sub).wq[i]? = some w ∧ s.dramReady w.loc = true ∧
      s.nextColumn ch sub = some (.inr i) ∧ (s.keyAt (w.line * 64)).isSome = true ∧ Memory.wf s.dram = true ∧
      w.data.length = 64) ∧
    (∃ (s : State) (u : Txn) (line loc : Nat) (o : RmwOp), s.locOf (line * 64) = some loc ∧
      (s.chan (locChan loc)).rmw = [o] ∧ (s.chan (locChan loc)).rmwIn = [] ∧ o.line = line ∧ o.txn = u.id ∧
      s.dramReady loc = true ∧ (s.keyAt (line * 64)).isSome = true ∧ s.queued loc = none ∧ s.markAt loc = none ∧
      (s.dramLine loc (line * 64)).poison = false ∧ s.txns = [u] ∧ u.kind = .fab ∧ u.ty = .accWr ∧ u.leaf.cls = .priv ∧
      u.poisonIn = false ∧ s.counterOf (line * 64) = none ∧ ((s.chan (locChan loc)).sub (locSub loc)).wq.length < 64 ∧
      s.rmwTurn line loc = true) :=
  ⟨⟨{ wd with txns := [u0], chans := [(0, { chan0 with subB := { SubCh.reset with rq := [{ txn := 0, line := 0x18001, since := 5 }] } })] }, u0, 0x600040, 0x600040, 0, by decide +kernel⟩,
   ⟨{ wd with txns := [u0], chans := [(0, { chan0 with subB := { SubCh.reset with rq := [{ txn := 0, line := 0x18001, since := 5 }] } })] }, 0, 5, u0, by decide +kernel, by decide +kernel, by decide +kernel,
     fun _ h => absurd (congrArg Prod.fst h) (by dsimp only; decide +kernel)⟩,
   ⟨{ wd with setts := [(1, { Sett.reset with victims := [⟨0x18001, { CLine.reset with data := bytes64 }⟩] })] }, 1, 0, 0x600040, ⟨0x18001, { CLine.reset with data := bytes64 }⟩, by decide +kernel⟩,
   ⟨{ wd with chans := [(0, { chan0 with subB := { SubCh.reset with wq := [dw0] } })] }, 0, 1, 0, dw0, by decide +kernel⟩,
   ⟨{ wd with txns := [u1], chans := [(0, { chan0 with rmw := [{ txn := 0, line := 0x18001 }] })] }, u1, 0x18001, 0x600040, { txn := 0, line := 0x18001 }, by decide +kernel⟩⟩

theorem test_meets_DramUpkeep :
    (∃ (s : State) (ch sub i : Nat) (r : DRead), ((s.chan ch).sub sub).rq[i]? = some r ∧
      r.since + (s.chan ch).memClk 2048 ≤ s.clk) ∧
    (∃ (s : State) (ch sub rank bank : Nat), s.queuedLocs ch sub = [] ∧
      tget 0 ((s.chan ch).sub sub).usedAt (32 * rank + bank) + (s.chan ch).memClk ((s.chan ch).sched.toNat % 256) ≤ s.clk) ∧
    (∃ (s : State) (ch sub rank b : Nat), (s.chan ch).st = .run ∧ ((s.chan ch).sub sub).catrain = false ∧
      s.queuedLocs ch sub = [] ∧ (refBanks rank b).any (thas ((s.chan ch).sub sub).open_) = false ∧
      tget 0 ((s.chan ch).sub sub).refAt (4 * rank + b) + (s.chan ch).refi rank ≤ s.clk) ∧
    (∃ (s : State) (ch sub rank b : Nat), (s.chan ch).st = .run ∧
      (refBanks rank b).any (thas ((s.chan ch).sub sub).open_) = true ∧
      tget 0 ((s.chan ch).sub sub).refAt (4 * rank + b) + (s.chan ch).refi rank ≤ s.clk) ∧
    (∃ (s : State) (ch sub rank b : Nat), (s.chan ch).st = .run ∧ ((s.chan ch).sub sub).catrain = false ∧
      4 ≤ tget 0 ((s.chan ch).sub sub).unref (4 * rank + b)) ∧
    (∃ (s : State) (ch rank : Nat) (d : Bool), (s.chan ch).st = .run ∧ (s.chan ch).catrain = false ∧
      (s.chan ch).replays 0 s.clk = false ∧ (s.chan ch).replays 1 s.clk = false ∧
      2400000 + (tget RankS.reset (s.chan ch).ranks rank).mr4At ≤ s.clk) ∧
    (∃ (s : State) (ch sub : Nat), (s.chan ch).st = .run ∧ ((s.chan ch).sub sub).catrain = false ∧
      (∀ x ∈ ((s.chan ch).sub sub).retry, (s.chan ch).young s.clk x = true)) ∧
    (∃ (s : State) (ch : Nat), (s.chan ch).st = .run ∧ (s.chan ch).subA.catrain = false ∧
      (s.chan ch).retryLimit ≤ (s.chan ch).subA.alerts ∧ (s.chan ch).subA.retrained = false ∧
      (s.chan ch).subB.alerts < (s.chan ch).retryLimit) ∧
    (∃ (s : State) (ch : Nat), (s.chan ch).subA.catrain = true ∧ (s.chan ch).subB.catrain = false ∧
      (s.chan ch).hold = false) :=
  ⟨⟨{ w0 with chans := [(0, { chan0 with subB := { SubCh.reset with rq := [{ txn := 0, line := 1, since := 5 }] } })] }, 0, 1, 0, { txn := 0, line := 1, since := 5 }, by decide +kernel⟩,
   ⟨{ w0 with chans := [(0, { chan0 with subA := { SubCh.reset with open_ := [(3, 8)] } })] }, 0, 0, 0, 3, by decide +kernel⟩,
   ⟨w0, 0, 0, 0, 1, by decide +kernel⟩,
   ⟨{ w0 with chans := [(0, { chan0 with subA := { SubCh.reset with open_ := [(1, 7)], unref := [(1, 2)] } })] }, 0, 0, 0, 1, by decide +kernel⟩,
   ⟨{ w0 with chans := [(0, { chan0 with subA := { SubCh.reset with unref := [(1, 4)] } })] }, 0, 0, 0, 1, by decide +kernel⟩,
   ⟨w0, 0, 0, true, by decide +kernel⟩,
   ⟨{ w0 with chans := [(0, { chan0 with subA := { SubCh.reset with wq := [dw0], retry := [(some 64, w0.clk)] } })] }, 0, 0, by decide +kernel⟩,
   ⟨{ w0 with chans := [(0, { chan0 with subA := { SubCh.reset with alerts := 300 } })] }, 0, by decide +kernel⟩,
   ⟨{ w0 with chans := [(0, { chan0 with subA := { SubCh.reset with catrain := true, retry := [(some 64, 9999999999990)] } })] }, 0, by decide +kernel⟩⟩

theorem test_meets_DramCommands :
    (∃ (s : State) (ch : Nat), ch < 32 ∧ s.CanKey .owl (drcOff ch 0x10) ∧ (s.chan ch).hold = false ∧
      (s.chan ch).st = .run ∧ s.canDrain ch = true) ∧
    (∃ (s : State) (ch : Nat), ch < 32 ∧ s.CanKey .owl (drcOff ch 0x10) ∧ (s.chan ch).hold = true ∧
      (s.chan ch).st = .held) ∧
    (∃ (s : State) (ch r : Nat) (v : W32), ch < 32 ∧ r < 4 ∧ s.CanKey .owl (drcOff ch (0x20 + 4 * r)) ∧
      (s.chan ch).st = .held ∧ (s.chan ch).tim.length = 4) ∧
    (∃ (s : State) (ch r : Nat) (v : W32), ch < 32 ∧ r < 4 ∧ s.CanKey .owl (drcOff ch (0x20 + 4 * r)) ∧
      (s.chan ch).st ≠ .held) ∧
    (∃ (s : State) (ch : Nat) (r : BitVec 2), ch < 32 ∧ s.CanKey .owl (drcOff ch 0x3C) ∧
      (s.chan ch).spareCheck r.toNat = 1) ∧
    (∃ (s : State) (ch r : Nat), (s.chan ch).auto_ = true ∧
      (s.chan ch).spareCfg.toNat % 65536 ≤ ((s.chan ch).within s.clk (tget RankS.reset (s.chan ch).ranks r).ce).length ∧
      (s.chan ch).spareCheck r = 1) ∧
    (∃ (s : State) (ch r d : Nat) (b : Bool), (b = true ∨ 8 ≤ ((s.chan ch).within s.clk (tget [] (tget RankS.reset (s.chan ch).ranks r).devCor d)).length) ∧
      (tget RankS.reset (s.chan ch).ranks r).markA = none) ∧
    (∃ (s : State) (ch f n : Nat), (s.chan ch).migr = some (f, n) ∧ (s.chan ch).st = .run ∧
      (s.chan ch).migPaused = false ∧ (s.chan ch).catrain = false ∧ (s.chan ch).replays 0 s.clk = false ∧
      (s.chan ch).replays 1 s.clk = false ∧ (s.chan ch).hold = false ∧ n + 1 < 65536 * (s.chan ch).dimm.rankGib.toNat ∧
      Memory.wf s.dram = true) :=
  ⟨⟨armed w0 (drcOff 0 0x10), 0, by simp only [State.CanKey]; decide +kernel⟩,
   ⟨{ armed w0 (drcOff 0 0x10) with chans := [(0, { chan0 with hold := true, st := .held })] }, 0, by simp only [State.CanKey]; decide +kernel⟩,
   ⟨{ armed w0 (drcOff 0 0x24) with chans := [(0, { chan0 with hold := true, st := .held })] }, 0, 1, 77, by simp only [State.CanKey]; decide +kernel⟩,
   ⟨armed w0 (drcOff 0 0x24), 0, 1, 77, by simp only [State.CanKey]; decide +kernel⟩,
   ⟨{ armed w0 (drcOff 0 0x3C) with chans := [(0, chan2)] }, 0, 0, by simp only [State.CanKey]; decide +kernel⟩,
   ⟨{ w0 with chans := [(0, { chan2 with spareCfg := 0x80801000, ranks := [(0, { RankS.reset with ce := List.replicate 4096 9999999999999 })] })] }, 0, 0, by decide +kernel⟩,
   ⟨w0, 0, 0, 4, true, by decide +kernel⟩,
   ⟨{ w0 with chans := [(0, { chan2 with migr := some (0, 2) })] }, 0, 0, 2, by decide +kernel⟩⟩

theorem test_meets_Scrubbers :
    (∃ (s : State) (ch r k lpr : Nat) (b : BitVec 80), ch < 32 ∧ s.top.ready = true ∧ (s.chan ch).st = .run ∧
      (s.chan ch).catrain = false ∧ lpr = gib * (s.chan ch).dimm.rankGib.toNat / 64 ∧
      (s.chan ch).scrubAt (s.scrub ch).pos lpr = some (r, k) ∧
      ((s.chan ch).scrubAt (r * lpr + k + 1) lpr).isSome = true ∧
      (∀ j < 2, ((s.chan ch).sub j).rq = [] ∧ ((s.chan ch).sub j).wq = []) ∧ (∀ loc, s.markAt loc = none) ∧
      (∀ d, (s.scrub ch).due d ((s.chan ch).memClk s.owl.scrubInt.toNat) s.clk = true)) ∧
    (∃ (s : State) (l : List (Nat × Byte)), s.top.ready = true ∧ (s.scrub 32).pos + 1 < 67108864 ∧
      (s.scrub 32).due ((s.scrub 32).pos % 4) s.owl.burInt.toNat s.clk = true) ∧
    (∃ (s : State) (u : Nat), s.top.ready = true ∧ s.scrubState u = 0 ∧ 2400000 + (s.scrub u).idleAt ≤ s.clk) ∧
    (∃ (s : State) (u : Nat), s.owl.lapLimit ≠ 0 ∧ (s.scrub u).lapLogged = false ∧
      2400000000 * s.owl.lapLimit.toNat + (s.scrub u).lapAt < (s.scrub u).pausedAt.getD s.clk) :=
  ⟨⟨w0, 0, 0, 0, 268435456, 0, by decide +kernel, by decide +kernel, by decide +kernel, by decide +kernel, by decide +kernel, by decide +kernel, by decide +kernel, by decide +kernel, w0_unmarked, fun _ => rfl⟩,
   ⟨w0, [], by decide +kernel⟩,
   ⟨w0, 0, by decide +kernel⟩,
   ⟨{ w0 with clk := 300000000000000 }, 0, by decide +kernel⟩⟩

theorem test_meets_WalkEnds :
    (∃ (s : State) (w : Walk) (x : Xl), s.xlt.walk = [w] ∧ s.overtaken w = false ∧ s.walkers w.asid w.page = [] ∧
      s.walkDesc w.asid (mib2 * w.page) = none ∧ s.walkFor w.asid (mib2 * w.page) = .ok x) ∧
    (∃ (s : State) (w : Walk), s.xlt.walk = [w] ∧ w.stale = true) ∧
    (∃ (s : State) (w : Walk) (u : Txn) (st : Status) (j : Nat), s.xlt.walk = [w] ∧ s.overtaken w = false ∧
      s.txns = [u] ∧ s.walkers w.asid w.page = [u.id] ∧ s.walkDesc w.asid (mib2 * w.page) = none ∧
      s.walkFor w.asid (mib2 * w.page) = .error st ∧ u.kind = .fab ∧ u.ty = .rdShared ∧ u.copies = [] ∧
      s.routeFails u.fab.src = false ∧ (s.countFault u.asid).admission u.asid u.va u.fab.src = .ok ∧
      s.portFor u.fab.src u.fab.tag = some j) ∧
    (∃ (s : State) (w : Walk) (u : Txn) (j : Nat), s.xlt.walk = [w] ∧ s.txns = [u] ∧ s.walkers w.asid w.page = [u.id] ∧
      max 1 s.xlt.walkTo.toNat * Config.usClk + w.since ≤ s.clk ∧ u.kind = .fab ∧ u.ty = .rdShared ∧ u.copies = [] ∧
      s.routeFails u.fab.src = false ∧ (s.countFault u.asid).admission u.asid u.va u.fab.src = .ok ∧
      s.portFor u.fab.src u.fab.tag = some j) :=
  ⟨⟨{ w1 with xlt := { XltS.reset with walk := [wlk 5] } }, wlk 5, ⟨16, 5, directLeaf 5 3, 0xA00000, 0⟩, by decide +kernel⟩,
   ⟨{ w1 with xlt := { XltS.reset with walk := [{ wlk 5 with stale := true }] } }, { wlk 5 with stale := true }, by decide +kernel⟩,
   ⟨{ withPort w1 port0 with xlt := xadm, txns := [uw] }, wlk17, uw, .xlateFault, 0, by decide +kernel⟩,
   ⟨{ withPort w1 port0 with xlt := xadm, txns := [uw] }, wlk17, uw, 0, by decide +kernel⟩⟩

theorem test_meets_Invalidations :
    (∃ (s : State) (n : BitVec 24), s.CanKey .owl 0x600018 ∧ s.xlt.go = false) ∧
    (∃ (s : State) (n : BitVec 24), s.CanKey .owl 0x600018 ∧ s.xlt.go = false) ∧
    (∃ (s : State) (n id : Nat) (d : Drain), n < 16 ∧ s.drain id = some d ∧ d.got.contains (.sett n) = false ∧
      (∀ x ∈ s.earlier d, x.got.contains (.sett n) = true)) ∧
    (∃ (s : State) (n id : Nat) (d : Drain), n < 64 ∧ s.drain id = some d ∧ d.got.contains (.engine n) = false ∧
      (∀ x ∈ s.earlier d, x.got.contains (.engine n) = true)) ∧
    (∃ (s : State) (id : Nat) (d : Drain), s.drain id = some d ∧ d.got.contains .overflow = false ∧ d.region = false ∧
      (∀ x ∈ s.earlier d, x.got.contains .overflow = true)) ∧
    (∃ (s : State) (id : Nat) (d : Drain), s.drain id = some d ∧ d.got.contains .overflow = true ∧
      d.rep.contains .overflow = false ∧ s.allDrained { d with rep := d.rep ++ [.overflow] } = false ∧
      (∀ x ∈ s.earlier d, x.rep.contains .overflow = true) ∧ (∀ x ∈ s.xlt.drains, x.id ≠ id → s.allDrained x = false)) ∧
    (∃ (s : State) (u : InvUnit) (id : Nat) (d : Drain), s.drain id = some d ∧ d.init = 1 ∧ d.timedOut = false ∧
      s.drained d u = true ∧ d.rep.contains u = false ∧ s.allDrained { d with rep := d.rep ++ [u] } = true ∧
      s.earlier d = [] ∧ (∀ x ∈ s.xlt.drains, x.id ≠ id → s.allDrained x = false)) ∧
    (∃ (s : State) (id e : Nat) (d : Drain), s.drain id = some d ∧ d.timedOut = false ∧ e < 64 ∧
      s.drainTo * Config.usClk + d.since ≤ s.clk ∧ (∀ k < 64, s.countsDrained d (.engine k) = decide (k ≠ e)) ∧
      (∀ x ∈ s.xlt.drains, x.id ≠ id → s.allDrained x = false) ∧ (s.eng e).st = .running) ∧
    (∃ (s : State) (region : BitVec 24) (d : Drain) (p i da : Nat) (v : LineVal), (s.xlt.drains.find? fun d => d.region && decide (d.init = 2) && d.target == region.toNat) = some d ∧
      s.allDrained d = true ∧ s.earlier d = [] ∧ (∀ x ∈ s.xlt.drains, x.id ≠ d.id → s.allDrained x = false) ∧
      d.timedOut = false ∧ regionOf region = some (p, i) ∧ s.regionDesc p i = some da ∧ s.view da = some v ∧
      v.data.length = 64 ∧ (s.sett 0).pair ≠ .lost ∧ da % 64 = 0 ∧ s.lineStatus da = .ok ∧
      ((s.dirEnt da).at (lineIx da)).1 = 0 ∧ s.Free (settOf da) da ∧ (∀ u ∈ s.txns, u.kind = .dev → u.line ≠ da / 64) ∧
      s.TxnsNumbered ∧ (∀ a, s.whereIs da = some (.dram a) → (s.cached a).isSome = true)) :=
  ⟨⟨armed w0 0x600018, 17, by simp only [State.CanKey]; decide +kernel⟩,
   ⟨armed w0 0x600018, 0, by simp only [State.CanKey]; decide +kernel⟩,
   ⟨{ wdr dr with txns := [txnAt .rdShared .snoop .tracked] }, 1, 4, dr, by decide +kernel⟩,
   ⟨{ wdr dr with engines := [(2, { Engine.reset with tc := [xl .priv] })] }, 2, 4, dr, by decide +kernel⟩,
   ⟨wdr dr, 4, dr, by decide +kernel⟩,
   ⟨wdr dr2, 4, dr2, by decide +kernel⟩,
   ⟨wdr dr3, .overflow, 4, dr3, by decide +kernel⟩,
   ⟨{ wdr dr4 with engines := [(3, { Engine.reset with st := .running })] }, 4, 3, dr4, by decide +kernel⟩,
   ⟨{ w1 with setts := [(0, { Sett.reset with cache := [(0, line0)] })], xlt := { XltS.reset with drains := [dr5] } }, 0, dr5, 0, 0, 0, ⟨line0.data, false⟩, by simp only [free_iff, State.TxnsNumbered, dram_iff]; decide +kernel⟩⟩

theorem test_meets_Partitions :
    (∃ (s : State) (p : Nat), p < 32 ∧ s.CanPage .owl p 0x104 ∧ (s.part p).st = .run) ∧
    (∃ (s : State) (p : Nat) (v : Bool), p < 32 ∧ s.CanPage .owl p 0x104 ∧ (s.part p).tenantHold = false ∧
      (s.part p).secBad = false ∧ s.scrubbing p = false ∧ (s.part p).st = .draining ∨ (s.part p).st = .quiesced) ∧
    (∃ (s : State) (p : Nat) (v : Bool), p < 32 ∧ s.CanPage (.host p) p 0x104 ∧ (s.part p).secBad = false) ∧
    (∃ (s : State) (path : Path) (p : Nat), p < 32 ∧ s.CanPage path p 0x104 ∧ (s.part p).st = .run) ∧
    (∃ (s : State) (p : Nat), (s.part p).st = .draining ∧ s.running p = false ∧ (∀ u ∈ s.txns, u.part ≠ p) ∧
      (∀ e x, (e, x) ∈ s.engines → s.engPart e = some p → x.staged = none) ∧ s.owl.transit = false ∧
      s.sec.wipeRun = false) ∧
    (∃ (s : State) (p : Nat), (s.part p).st = .draining ∧ (s.part p).rec10 = false ∧
      Config.ms10Clk + (s.part p).drainAt < s.clk) ∧
    (∃ (s : State) (p : Nat), (s.part p).st = .draining ∧ (s.part p).rec100 = false ∧
      10 * Config.ms10Clk + (s.part p).drainAt ≤ s.clk) ∧
    (∃ (s : State) (path : Path) (p : Nat) (r : PartRec), p < 32 ∧ s.CanPage path p 0x108 ∧ s.prec p = some r ∧
      r.compat = true ∧ (s.part p).st = .quiesced) ∧
    (∃ (s : State) (path : Path) (p : Nat), p < 32 ∧ s.CanPage path p 0x108 ∧ (s.part p).st ≠ .quiesced ∧
      (s.part p).ring.on = false) ∧
    (∃ (s : State) (p : Nat) (r : PartRec), s.prec p = some r ∧ (s.part p).st = .resetting ∧
      (∀ e < 64, r.engines.getLsbD e = true → (s.eng e).st ≠ .resetting) ∧ (s.part p).opHold = true) :=
  ⟨⟨armed w1 0x1000104, 0, by simp only [State.CanPage]; decide +kernel⟩,
   ⟨armed (pst { PartS.reset with st := .quiesced, opHold := true }) 0x1000104, 0, false, by simp only [State.CanPage]; decide +kernel⟩,
   ⟨hostArmed w1 0x1000104, 0, true, by simp only [State.CanPage]; decide +kernel⟩,
   ⟨hostArmed w1 0x1000104, .host 0, 0, by simp only [State.CanPage]; decide +kernel⟩,
   ⟨pst { PartS.reset with st := .draining }, 0, by decide +kernel, by decide +kernel, by decide +kernel, fun _ _ h => absurd h List.not_mem_nil, by decide +kernel, by decide +kernel⟩,
   ⟨pst { PartS.reset with st := .draining }, 0, by decide +kernel⟩,
   ⟨{ pst { PartS.reset with st := .draining } with engines := [(2, { Engine.reset with st := .running })] }, 0, by decide +kernel⟩,
   ⟨armed { pst { PartS.reset with st := .quiesced } with lay := some { lay0 with parts := [{ rec0 with compat := true }] } } 0x1000108, .owl, 0, { rec0 with compat := true }, by simp only [State.CanPage]; decide +kernel⟩,
   ⟨armed w1 0x1000108, .owl, 0, by simp only [State.CanPage]; decide +kernel⟩,
   ⟨{ pst { PartS.reset with st := .resetting, opHold := true } with scr := [⟨5, 7⟩], lay := some { lay0 with parts := [{ rec0 with queueCount := 0 }] } }, 0, { rec0 with queueCount := 0 }, by decide +kernel⟩⟩

theorem test_meets_ExtensionAndEventRing :
    (∃ (s : State) (p : Nat), p < 32 ∧ s.CanKey .owl (0x701008 + 16 * p) ∧ s.extResult p = 1) ∧
    (∃ (s : State) (p : Nat), p < 32 ∧ s.CanKey .owl (0x701008 + 16 * p) ∧ s.extResult p ≠ 1) ∧
    (∃ (s : State) (path : Path) (p n base : Nat) (v : W32), p < 32 ∧ s.CanPage path p 0x6008 ∧ n = v.toNat % 32 ∧
      4 ≤ n ∧ n ≤ 16 ∧ base = (s.part p).ring.baseLo.toNat + 2 ^ 32 * (s.part p).ring.baseHi.toNat ∧
      base % (32 * 2 ^ n) = 0 ∧ s.inOneExtent p base (32 * 2 ^ n) = true ∧ s.meetsSpecial p base (32 * 2 ^ n) = false) ∧
    (∃ (s : State) (path : Path) (p : Nat) (v : W32), p < 32 ∧ s.CanPage path p 0x6008 ∧ 0 < v.toNat % 32 ∧
      (v.toNat % 32 < 4 ∨ 16 < v.toNat % 32)) ∧
    (∃ (s : State) (path : Path) (p : Nat) (v : W32), p < 32 ∧ s.pathUp path = true ∧ Path.toPage path p = true ∧
      (s.part p).ring.on = true) :=
  ⟨⟨pext 0 0, 0, by simp only [State.CanKey]; decide +kernel⟩,
   ⟨pext 0 2, 0, by simp only [State.CanKey]; decide +kernel⟩,
   ⟨armed (pst { PartS.reset with ring := { EvRing.reset with baseLo := 0x400000 } }) 0x1006008, .owl, 0, 16, 0x400000, 16, by simp only [State.CanPage]; decide +kernel⟩,
   ⟨armed w1 0x1006008, .owl, 0, 3, by simp only [State.CanPage]; decide +kernel⟩,
   ⟨pst { PartS.reset with ring := evring }, .host 0, 0, 11, by decide +kernel⟩⟩

theorem test_meets_WorkQueues :
    (∃ (s : State) (path : Path) (p o q a : Nat) (r : PartRec) (l : Bytes), p < 32 ∧ o < 4096 ∧ s.pathUp path = true ∧
      Path.toPage path p = true ∧ s.prec p = some r ∧ o < r.queueCount ∧ q = r.queueBase + o ∧ (s.queue q).en = false ∧
      (s.queue q).err = 0 ∧ s.qEntry q = some a ∧ s.devRead a 64 = (l, .ok)) ∧
    (∃ (s : State) (path : Path) (p o q : Nat) (r : PartRec), p < 32 ∧ o < 4096 ∧ s.pathUp path = true ∧
      Path.toPage path p = true ∧ s.prec p = some r ∧ o < r.queueCount ∧ q = r.queueBase + o ∧ (s.queue q).en = true ∧
      (∀ x ∈ s.engines, x.2.staged.all (fun y => y.1 != q) = true) ∧ (s.queue q).toRead = [] ∧ (s.queue q).ready = [] ∧
      (s.queue q).hand = [] ∧ (s.queue q).chainRd = []) ∧
    (∃ (s : State) (path : Path) (p o q va pa : Nat) (r : PartRec) (c : QCfg) (x : Xl) (v : LineVal) (d : Desc), p < 32 ∧
      o < 4096 ∧ s.pathUp path = true ∧ Path.toPage path p = true ∧ s.prec p = some r ∧ o < r.queueCount ∧
      q = r.queueBase + o ∧ (s.queue q).en = true ∧ (∀ x ∈ s.engines, x.2.staged.all (fun y => y.1 != q) = true) ∧
      (s.queue q).toRead = [] ∧ (s.queue q).ready = [d] ∧ (s.queue q).hand = [] ∧ (s.queue q).chainRd = [] ∧
      s.RecordRoom q c x va pa v) ∧
    (∃ (s : State) (path : Path) (p q a : Nat) (o : BitVec 12) (r : PartRec) (bs : Bytes), p < 32 ∧
      s.CanPage path p 0x1200 ∧ s.prec p = some r ∧ o.toNat < r.queueCount ∧ q = r.queueBase + o.toNat ∧
      (s.queue q).en = false ∧ (s.queue q).open_ = 0 ∧ s.qEntry q = some a ∧ s.devRead (a + 64) 4 = (bs, .ok)) ∧
    (∃ (s : State) (q a : Nat) (c : QCfg) (bs : Bytes) (pr co : W32), (s.queue q).wake = true ∧ s.fetches q = true ∧
      s.qEntry q = some a ∧ (s.queue q).cfg = some c ∧ s.devRead (a + 64) 8 = (bs, .ok) ∧
      pr = BitVec.ofNat 32 (fld bs 0 4) ∧ co = BitVec.ofNat 32 (fld bs 4 4) ∧
      (pr - (s.queue q).head).toNat ≤ 2 ^ c.descLog2 ∧
      ((s.queue q).cmpCount - BitVec.ofNat 32 (s.recPending q) - co).toNat ≤ 2 ^ c.cmpLog2) ∧
    (∃ (s : State) (q : Nat) (c : QCfg) (i : W32) (rest : List W32) (bs : Bytes), (s.queue q).toRead = i :: rest ∧
      (s.queue q).cfg = some c ∧ (s.queue q).err = 0 ∧
      s.schedRead c.asid (c.descBase + 64 * (i.toNat % 2 ^ c.descLog2)) = .data bs) ∧
    (∃ (s : State) (q p line chain : Nat) (g : Byte) (rest : List (Nat × Nat × Byte)), (s.queue q).inbox = (line, chain, g) :: rest ∧
      s.queuePart q = some p ∧ (s.part p).gen = g) ∧
    (∃ (s : State) (q p e : Nat) (d : Desc), s.queuePart q = some p ∧ s.turn (s.skulkOf p q) = some q ∧
      (s.queue q).next = some (.ring d) ∧ d.chained = false ∧ fld d.bytes 2 2 = d.index.toNat % 65536 ∧ d.op ≤ 9 ∧
      d.op ≠ 0 ∧ s.idleEngine (s.setFor p q d) = some e ∧ s.firstStaged q e = none) :=
  ⟨⟨w1, .host 0, 0, 63, 63, 0x7E01F80, rec0, zz 64, by decide +kernel⟩,
   ⟨wq qon, .owl, 0, 5, 5, rec0, by decide +kernel⟩,
   ⟨wqr, .owl, 0, 5, 5, 0x500000, 0x500000, rec0, qCfgOf qent, ⟨16, 2, directLeaf 2 3, 0x400000, 0⟩, val64, dsc 1 [], by simp only [recordRoom_iff, State.TxnsNumbered, free_iff, dram_iff, some_iff]; decide +kernel⟩,
   ⟨armed (wq { qon with en := false, err := 5 }) 0x1001200, .owl, 0, 5, 0x7E00280, 5, rec0, toLe 4 3, by simp only [State.CanPage]; decide +kernel⟩,
   ⟨wq { qon with wake := true }, 5, 0x7E00280, qCfgOf qent, toLe 8 3, 3, 0, by decide +kernel⟩,
   ⟨wq { qon with toRead := [0, 1] }, 5, qCfgOf qent, 0, [1], zz 64, by decide +kernel⟩,
   ⟨wq { qon with inbox := [(0x10000, 0x800000, 0)] }, 5, 0, 0x10000, 0x800000, 0, [], by decide +kernel⟩,
   ⟨wq { qon with ready := [dsc 1 []] }, 5, 0, 0, dsc 1 [], by decide +kernel⟩⟩

theorem test_meets_SchedulerDescriptors :
    (∃ (s : State) (q va pa : Nat) (d : Desc) (c : QCfg) (x : Xl) (v : LineVal), (s.queue q).sched = some d ∧ d.op = 0 ∧
      (fld d.bytes 1 1).testBit 1 = false ∧ s.RecordRoom q c x va pa v) ∧
    (∃ (s : State) (q va pa : Nat) (d : Desc) (c : QCfg) (x : Xl) (v : LineVal), (s.queue q).sched = some d ∧
      d.isBarrier = true ∧ (fld d.bytes 1 1).testBit 1 = false ∧ s.RecordRoom q c x va pa v) ∧
    (∃ (s : State) (q : Nat) (d : Desc), (s.queue q).sched = some d ∧ d.op = 10 ∧ fld d.bytes 16 1 = 1 ∧
      d.ctrStatus = .ok ∧ (s.queue q).fence = none ∧ s.asidPart (fld d.bytes 18 2) = s.queuePart q) ∧
    (∃ (s : State) (q va pa : Nat) (d : Desc) (c : QCfg) (x : Xl) (v : LineVal), (s.queue q).sched = some d ∧ d.op = 10 ∧
      fld d.bytes 16 1 = 1 ∧ d.ctrStatus = .ok ∧ (s.queue q).fence = none ∧
      s.asidPart (fld d.bytes 18 2) ≠ s.queuePart q ∧ s.RecordRoom q c x va pa v) :=
  ⟨⟨wsch (dsc 0 []), 5, 0x500000, 0x500000, dsc 0 [], qCfgOf qent, ⟨16, 2, directLeaf 2 3, 0x400000, 0⟩, val64, by simp only [recordRoom_iff, State.TxnsNumbered, free_iff, dram_iff, some_iff]; decide +kernel⟩,
   ⟨wsch (dsc 10 [0]), 5, 0x500000, 0x500000, dsc 10 [0], qCfgOf qent, ⟨16, 2, directLeaf 2 3, 0x400000, 0⟩, val64, by simp only [recordRoom_iff, State.TxnsNumbered, free_iff, dram_iff, some_iff]; decide +kernel⟩,
   ⟨wsch (dsc 10 [1, 0, 17, 0]), 5, dsc 10 [1, 0, 17, 0], by decide +kernel⟩,
   ⟨wsch (dsc 10 [1, 0, 200, 0]), 5, 0x500000, 0x500000, dsc 10 [1, 0, 200, 0], qCfgOf qent, ⟨16, 2, directLeaf 2 3, 0x400000, 0⟩, val64, by simp only [recordRoom_iff, State.TxnsNumbered, free_iff, dram_iff, some_iff]; decide +kernel⟩⟩

theorem test_meets_EngineUnits :
    (∃ (s : State) (e p i a dst : Nat) (r : Run) (c : QCfg), s.Works e 1 r c p ∧ r.d.check = .ok ∧ r.pos < r.d.units ∧
      i = (if r.d.copyDown then r.d.units - 1 - r.pos else r.pos) ∧ a = fld r.d.bytes 16 8 + 64 * i ∧
      dst = fld r.d.bytes 24 8 + 64 * i ∧ r.d.copyOverlap dst = false ∧ s.AtHand e [a] ∧
      s.Misses e c [(dst, BitVec.allOnes 64, s.bufData e a, s.bufPois e a)]) ∧
    (∃ (s : State) (e p i a dst : Nat) (r : Run) (c : QCfg), s.Works e 1 r c p ∧ r.d.check = .ok ∧ r.pos < r.d.units ∧
      i = (if r.d.copyDown then r.d.units - 1 - r.pos else r.pos) ∧ a = fld r.d.bytes 16 8 + 64 * i ∧
      dst = fld r.d.bytes 24 8 + 64 * i ∧ r.d.copyOverlap dst = true ∧ s.AtHand e [a] ∧
      s.Misses e c [(dst, BitVec.allOnes 64, [], s.bufPois e a)]) ∧
    (∃ (s : State) (e p dst : Nat) (r : Run) (c : QCfg) (ws : List (Nat × W64 × Bytes × Bool)), s.Works e 2 r c p ∧
      r.d.check = .ok ∧ r.pos < r.d.units ∧ dst = fld r.d.bytes 24 8 + 64 * r.pos ∧
      ws = [(dst, BitVec.allOnes 64, (List.replicate 8 (slice r.d.bytes 40 8)).flatten, false)] ∧ s.Misses e c ws) ∧
    (∃ (s : State) (e p n : Nat) (r : Run) (c : QCfg) (l : List Nat) (rnd : Rnd) (ws : List (Nat × W64 × Bytes × Bool)), s.Works e 3 r c p ∧
      r.d.check = .ok ∧ r.pos < r.d.units ∧ n = min 2048 (fld r.d.bytes 32 8 - 2048 * r.pos) ∧
      l = linesOf (fld r.d.bytes 16 8 + fmtSize (fld r.d.bytes 40 1) (2048 * r.pos)) (fmtSize (fld r.d.bytes 40 1) n) ∧
      rnd = (if fld r.d.bytes 42 1 = 0 then .rne else if fld r.d.bytes 42 1 = 1 then .rtz else .stoch) ∧ s.AtHand e l ∧
      ws = convertWrites (fld r.d.bytes 40 1) (fld r.d.bytes 41 1) (fld r.d.bytes 16 8 + fmtSize (fld r.d.bytes 40 1) (2048 * r.pos)) (fld r.d.bytes 24 8 + fmtSize (fld r.d.bytes 41 1) (2048 * r.pos)) (s.eng e).sbuf l (convertBytes (fld r.d.bytes 40 1) (fld r.d.bytes 41 1) n rnd s.free (l.flatMap (s.bufData e))) ∧
      ws ≠ [] ∧ s.Misses e c ws) ∧
    (∃ (s : State) (e p w i o ln src : Nat) (r : Run) (c : QCfg) (ws : List (Nat × W64 × Bytes × Bool)), s.Works e 4 r c p ∧
      r.d.check = .ok ∧ r.pos < r.d.units ∧ w = 2 ^ (fld r.d.bytes 40 1 - 6) ∧ i = r.pos / w ∧ o = 64 * (r.pos % w) ∧
      ln = (fld r.d.bytes 16 8 + 4 * i) / 64 * 64 ∧
      src = fld r.d.bytes 48 8 + indexAt (s.eng e).sbuf (fld r.d.bytes 16 8) i * 2 ^ fld r.d.bytes 40 1 + o ∧
      s.AtHand e [ln, src] ∧
      ws = [(fld r.d.bytes 24 8 + i * 2 ^ fld r.d.bytes 40 1 + o, BitVec.allOnes 64, s.bufData e src, s.bufPois e src || s.bufPois e ln)] ∧
      s.Misses e c ws) ∧
    (∃ (s : State) (e p w i o ln src : Nat) (r : Run) (c : QCfg) (ws : List (Nat × W64 × Bytes × Bool)), s.Works e 5 r c p ∧
      r.d.check = .ok ∧ r.pos < r.d.units ∧ w = 2 ^ (fld r.d.bytes 40 1 - 6) ∧ i = r.pos / w ∧ o = 64 * (r.pos % w) ∧
      ln = (fld r.d.bytes 16 8 + 4 * i) / 64 * 64 ∧ src = fld r.d.bytes 24 8 + i * 2 ^ fld r.d.bytes 40 1 + o ∧
      s.AtHand e [ln, src] ∧ (indexAt (s.eng e).sbuf (fld r.d.bytes 16 8) i ∈ r.seen → Config.freeNat s.free % 2 ≠ 0) ∧
      ws = [(fld r.d.bytes 48 8 + indexAt (s.eng e).sbuf (fld r.d.bytes 16 8) i * 2 ^ fld r.d.bytes 40 1 + o, BitVec.allOnes 64, s.bufData e src, s.bufPois e src || s.bufPois e ln)] ∧
      s.Misses e c ws) ∧
    (∃ (s : State) (e p w i o ln src : Nat) (r : Run) (c : QCfg), s.Works e 5 r c p ∧ r.d.check = .ok ∧
      r.pos + 1 = r.d.units ∧ w = 2 ^ (fld r.d.bytes 40 1 - 6) ∧ i = r.pos / w ∧ o = 64 * (r.pos % w) ∧
      ln = (fld r.d.bytes 16 8 + 4 * i) / 64 * 64 ∧ src = fld r.d.bytes 24 8 + i * 2 ^ fld r.d.bytes 40 1 + o ∧
      s.AtHand e [ln, src] ∧ indexAt (s.eng e).sbuf (fld r.d.bytes 16 8) i ∈ r.seen) ∧
    (∃ (s : State) (e p n dst : Nat) (r : Run) (c : QCfg) (order src l : List Nat) (old : Option Bytes) (ws : List (Nat × W64 × Bytes × Bool)), s.Works e 6 r c p ∧
      r.d.check = .ok ∧ r.pos < r.d.units ∧ n = fld r.d.bytes 48 2 ∧ dst = fld r.d.bytes 24 8 + 64 * r.pos ∧
      src = (List.range n).map (fun k => fld r.d.bytes 16 8 + k * fld r.d.bytes 40 8 + 64 * r.pos) ∧
      l = (if (fld r.d.bytes 51 1).testBit 0 then src ++ [dst] else src) ∧ s.AtHand e l ∧
      old = (if (fld r.d.bytes 51 1).testBit 0 then some (s.bufData e dst) else none) ∧
      ws = [(dst, BitVec.allOnes 64, reduceLine (fld r.d.bytes 50 1) ((arrivalOrder n order).map fun k => s.bufData e (fld r.d.bytes 16 8 + k * fld r.d.bytes 40 8 + 64 * r.pos)) old, l.any (s.bufPois e))] ∧
      s.Misses e c ws) ∧
    (∃ (s : State) (e p a : Nat) (r : Run) (c : QCfg), s.Works e 8 r c p ∧ r.d.check = .ok ∧
      r.pos + 1 < fld r.d.bytes 32 8 / 64 ∧ a = fld r.d.bytes 16 8 + 64 * r.pos ∧ s.AtHand e [a] ∧
      s.MissesAt e c [a + 64]) ∧
    (∃ (s : State) (e p : Nat) (r : Run) (c : QCfg) (ws : List (Nat × W64 × Bytes × Bool)), s.Works e 8 r c p ∧
      r.d.check = .ok ∧ 0 < fld r.d.bytes 32 8 ∧ r.pos = fld r.d.bytes 32 8 / 64 ∧
      ws = [(fld r.d.bytes 24 8, lineMask 0 32, sm3Last r.dig (fld r.d.bytes 32 8) ++ List.replicate 32 0, r.pois)] ∧
      s.Misses e c ws) ∧
    (∃ (l : List Bytes), (∀ b ∈ l, b.length = 64)) ∧
    (∃ (s : State) (e p a : Nat) (r : Run) (c : QCfg), s.Works e 9 r c p ∧ r.d.check = .ok ∧ r.pos < r.d.units ∧
      r.pos < r.d.idxLines ∧ a = fld r.d.bytes 16 8 + 64 * r.pos ∧ s.AtHand e [a] ∧
      ascending r.seen.head? (r.d.indices r.pos (s.eng e).sbuf) = false) ∧
    (∃ (s : State) (e p a b : Nat) (r : Run) (c : QCfg), s.Works e 9 r c p ∧ r.d.check = .ok ∧ r.pos < r.d.units ∧
      r.pos < r.d.idxLines ∧ a = fld r.d.bytes 16 8 + 64 * r.pos ∧ s.AtHand e [a] ∧
      ascending r.seen.head? (r.d.indices r.pos (s.eng e).sbuf) = true ∧
      b = (if r.pos + 1 < r.d.idxLines then a + 64 else fld r.d.bytes 16 8) ∧ s.MissesAt e c [b]) ∧
    (∃ (s : State) (e p w m i o src : Nat) (r : Run) (c : QCfg) (ws : List (Nat × W64 × Bytes × Bool)), s.Works e 9 r c p ∧
      r.d.check = .ok ∧ r.pos < r.d.units ∧ w = 2 ^ (fld r.d.bytes 40 1 - 6) ∧ r.pos = r.d.idxLines + m ∧ i = m / w ∧
      o = 64 * (m % w) ∧ s.AtHand e [(fld r.d.bytes 16 8 + 4 * i) / 64 * 64] ∧
      indexAt (s.eng e).sbuf (fld r.d.bytes 16 8) i ≠ i ∧
      src = fld r.d.bytes 48 8 + indexAt (s.eng e).sbuf (fld r.d.bytes 16 8) i * 2 ^ fld r.d.bytes 40 1 + o ∧
      s.AtHand e [src] ∧
      ws = [(fld r.d.bytes 48 8 + i * 2 ^ fld r.d.bytes 40 1 + o, BitVec.allOnes 64, s.bufData e src, s.bufPois e src || s.bufPois e ((fld r.d.bytes 16 8 + 4 * i) / 64 * 64))] ∧
      s.Misses e c ws) :=
  ⟨⟨weng rcopy [ansAt 0x400040 bytes64], 2, 0, 1, 0x400040, 0x600040, rcopy, qCfgOf qent, by simp only [State.AtHand, State.Misses, State.MissesAt, works_iff, State.TxnsNumbered]; decide +kernel⟩,
   ⟨weng rover [ansAt 0x400040 bytes64], 2, 0, 1, 0x400040, 0x4000C0, rover, qCfgOf qent, by simp only [State.AtHand, State.Misses, State.MissesAt, works_iff, State.TxnsNumbered]; decide +kernel⟩,
   ⟨weng rfill [], 2, 0, 0x600040, rfill, qCfgOf qent, [(0x600040, BitVec.allOnes 64, (List.replicate 8 (toLe 8 0x0102030405060708)).flatten, false)], by simp only [State.Misses, State.MissesAt, works_iff, State.TxnsNumbered]; decide +kernel⟩,
   ⟨sconv, 2, 0, 32, rconv, qCfgOf qent, [0x400000, 0x400040], .rne, convertWrites 0 2 0x400000 0x600000 (sconv.eng 2).sbuf [0x400000, 0x400040] (convertBytes 0 2 32 .rne 0 (bytes64 ++ bytes64)), by simp only [State.AtHand, State.Misses, State.MissesAt, works_iff, State.TxnsNumbered]; decide +kernel⟩,
   ⟨weng (rgat 4 0x400000 0x600000) [ansAt 0x400000 idx64, ansAt 0x800140 bytes64], 2, 0, 1, 3, 0, 0x400000, 0x800140, rgat 4 0x400000 0x600000, qCfgOf qent, [(0x6000C0, BitVec.allOnes 64, bytes64, false)], by simp only [State.AtHand, State.Misses, State.MissesAt, works_iff, State.TxnsNumbered]; decide +kernel⟩,
   ⟨weng (rgat 5 0x400000 0x600000) [ansAt 0x400000 idx64, ansAt 0x6000C0 bytes64], 2, 0, 1, 3, 0, 0x400000, 0x6000C0, rgat 5 0x400000 0x600000, qCfgOf qent, [(0x800140, BitVec.allOnes 64, bytes64, false)], by simp only [State.AtHand, State.Misses, State.MissesAt, works_iff, State.TxnsNumbered]; decide +kernel⟩,
   ⟨weng rscat [ansAt 0x400000 idx64, ansAt 0x6003C0 bytes64], 2, 0, 1, 15, 0, 0x400000, 0x6003C0, rscat, qCfgOf qent, by simp only [State.AtHand, works_iff, State.TxnsNumbered]; decide +kernel⟩,
   ⟨sred, 2, 0, 2, 0x600000, rred, qCfgOf qent, [1, 0], [0x400000, 0x400040], [0x400000, 0x400040, 0x600000], some bytes64, [(0x600000, BitVec.allOnes 64, reduceLine 0 [bytes64, bytes64] (some bytes64), false)], by simp only [State.AtHand, State.Misses, State.MissesAt, works_iff, State.TxnsNumbered]; decide +kernel⟩,
   ⟨weng rdig [ansAt 0x400000 bytes64], 2, 0, 0x400000, rdig, qCfgOf qent, by simp only [State.AtHand, State.MissesAt, works_iff, State.TxnsNumbered]; decide +kernel⟩,
   ⟨weng rdigE [], 2, 0, rdigE, qCfgOf qent, [(0x600000, lineMask 0 32, sm3Last rdigE.dig 128 ++ zz 32, false)], by simp only [State.Misses, State.MissesAt, works_iff, State.TxnsNumbered]; decide +kernel⟩,
   ⟨[bytes64, bytes64], by decide +kernel⟩,
   ⟨weng (rcmp 0) [ansAt 0x400000 (zz 64)], 2, 0, 0x400000, rcmp 0, qCfgOf qent, by simp only [State.AtHand, works_iff, State.TxnsNumbered]; decide +kernel⟩,
   ⟨weng (rcmp 0) [ansAt 0x400000 idx64], 2, 0, 0x400000, 0x400000, rcmp 0, qCfgOf qent, by simp only [State.AtHand, State.MissesAt, works_iff, State.TxnsNumbered]; decide +kernel⟩,
   ⟨weng (rcmp 4) [ansAt 0x400000 idx64, ansAt 0x800140 bytes64], 2, 0, 1, 3, 3, 0, 0x800140, rcmp 4, qCfgOf qent, [(0x8000C0, BitVec.allOnes 64, bytes64, false)], by simp only [State.AtHand, State.Misses, State.MissesAt, works_iff, State.TxnsNumbered]; decide +kernel⟩⟩

theorem test_meets_DescriptorEnds :
    (∃ (s : State) (e p op : Nat) (i : Instr) (r : Run) (c : QCfg), (op, i) ∈ [(1, Instr.copy e), (2, .fill e), (3, .convert e), (4, .gather e), (5, .scatter e), (6, .reduce e []), (8, .digest e), (9, .compact e)] ∧
      s.Works e op r c p) ∧
    (∃ (s : State) (e : Nat) (r : Run) (a : Answer) (rest : List Answer), (s.eng e).ans = a :: rest ∧
      (s.eng e).run = some r ∧ a.gen = (s.eng e).gen ∧ a.status = .ok ∧ a.data ≠ []) ∧
    (∃ (s : State) (e : Nat) (r : Run) (w : EndRec), (s.eng e).run = some r ∧ r.prog = none ∧ r.res = some w ∧
      r.inq = true ∧ (s.eng e).st = .running ∧ (s.eng e).gated = false ∧ (s.eng e).halted = false ∧
      (s.eng e).staged = none ∧ (s.inqOf e).dropping = false) ∧
    (∃ (s : State) (e va pa : Nat) (r : Run) (w : EndRec) (c : QCfg) (x : Xl) (v : LineVal), (s.eng e).run = some r ∧
      r.prog = none ∧ r.res = some w ∧ r.inq = false ∧ (s.eng e).st = .running ∧ (s.eng e).gated = false ∧
      (s.eng e).halted = false ∧ (s.eng e).staged = none ∧ (w.status ≠ .ok ∨ (fld r.d.bytes 1 1).testBit 1 = false) ∧
      s.RecordRoom r.q c x va pa v) ∧
    (∃ (s : State) (e : Nat) (pk rest : List FWord) (d : Desc), (s.eng e).run = none ∧ (s.eng e).st = .idle ∧
      (s.eng e).gated = false ∧ (s.eng e).halted = false ∧ (s.inqOf e).recv.length ≤ 24 ∧
      takePacket (s.inqOf e).send = some (pk, rest) ∧ pk.length = 16 ∧
      d = { bytes := pk.flatMap fun w => toLe 4 w.w.toNat } ∧ 1 ≤ d.op ∧ d.op ≤ 9 ∧ (fld d.bytes 1 1).testBit 1 = false) :=
  ⟨⟨weng rbad [], 2, 0, 1, .copy 2, rbad, qCfgOf qent, by simp only [works_iff, State.TxnsNumbered]; decide +kernel⟩,
   ⟨{ wq qon with engines := [(2, { Engine.reset with st := .running, run := some rcopy, ans := [ans0], out := [0x400000] })] }, 2, rcopy, ans0, [], by decide +kernel⟩,
   ⟨weng (rend true) [], 2, rend true, ⟨.poisoned, false, 128, 0⟩, by decide +kernel⟩,
   ⟨{ cst { qon with open_ := 1 } with engines := (weng (rend false) []).engines }, 2, 0x500000, 0x500000, rend false, ⟨.poisoned, false, 128, 0⟩, qCfgOf qent, ⟨16, 2, directLeaf 2 3, 0x400000, 0⟩, val64, by simp only [recordRoom_iff, State.TxnsNumbered, free_iff, dram_iff, some_iff]; decide +kernel⟩,
   ⟨{ w1 with inq := [(2, { Fifo.reset with send := pk16 })] }, 2, pk16, [], { bytes := [1] ++ zz 63 }, by decide +kernel⟩⟩

theorem test_meets_ProgramTiles :
    (∃ (s : State) (e : Nat) (r : Run) (h img args : Bytes) (l rest : List Nat), (s.eng e).run = some r ∧
      (s.eng e).onProgram r = true ∧ r.prog = none ∧ r.flt = none ∧ r.d.progCheck = .ok ∧ r.d.count ≠ 0 ∧
      l = linesOf r.d.args 256 ∧ h = s.bufData e r.d.prog ∧
      rest = linesOf (r.d.prog + 64) (4 * min 64 (fld h 5 1 + fld h 6 1)) ∧ s.AtHand e (r.d.prog :: l ++ rest) ∧
      img = (r.d.prog :: rest).flatMap (s.bufData e) ∧ args = l.flatMap (s.bufData e) ∧ argsOk args = true ∧
      argsMatch args (BitVec.ofNat 8 (fld h 7 1)) (BitVec.ofNat 8 (fld h 8 1)) (BitVec.ofNat 8 (fld h 9 1)) = true ∧
      imageFault r.d.prog img (r.d.pflags.testBit 0) = (.ok, 0) ∧
      (r.inq = false → ∀ c, (s.queue r.q).cfg = some c → (s.pageFaults c.asid args r.d.count).1 = .ok)) ∧
    (∃ (s : State) (e : Nat) (r : Run) (p : Prog), (s.eng e).run = some r ∧ (s.eng e).onProgram r = true ∧
      r.prog = some p ∧ r.flt = none ∧ p.inTile = false ∧ p.tile < p.tiles ∧
      (∀ i < 8, p.inMask.getLsbD i = true → s.AtHand e (p.linesAt i))) ∧
    (∃ (s : State) (e : Nat) (r : Run) (p : Prog), (s.eng e).run = some r ∧ (s.eng e).onProgram r = true ∧
      r.prog = some p ∧ r.flt = none ∧ r.issued = false ∧ p.inTile = true ∧ p.len ≤ p.pc ∧ p.passB = false ∧
      (s.eng e).out = []) ∧
    (∃ (s : State) (e pt : Nat) (r : Run) (c : QCfg) (p : Prog) (ws : List (Nat × W64 × Bytes × Bool)), s.Works e 7 r c pt ∧
      r.prog = some p ∧ p.inTile = true ∧ p.len ≤ p.pc ∧ p.passB = true ∧
      ws = ((List.range 4).filter p.outM.getLsbD).flatMap (fun j => p.outWrites j s.free) ∧ s.Misses e c ws) :=
  ⟨⟨weng (rn dprog) sprog, 2, rn dprog, slice img 0 64, img, argb, [0x500000, 0x500040, 0x500080, 0x5000C0], [0x400040], by simp only [State.AtHand]; decide +kernel⟩,
   ⟨weng (rpr prg) inl, 2, rpr prg, prg, by simp only [State.AtHand]; decide +kernel⟩,
   ⟨weng (rpr prgA) inl, 2, rpr prgA, prgA, by decide +kernel⟩,
   ⟨weng (rpr prgB) [], 2, 0, rpr prgB, qCfgOf qent, prgB, prgB.outWrites 0 0, by simp only [State.Misses, State.MissesAt, works_iff, State.TxnsNumbered]; decide +kernel⟩⟩

theorem test_meets_LaneInstructions :
    (∃ (s : State) (e op : Nat) (i : Instr) (f : Nat → Nat → Nat → Nat → Nat → Nat) (r : Run) (p : Prog), (op, i, f) ∈ [(0x01, Instr.add e, fun _ a b _ _ => fAdd a b), (0x02, .sub e, fun _ a b _ _ => fSub a b), (0x03, .mul e, fun fn a b _ _ => fMul fn a b), (0x04, .fma e, fun fn a b c _ => fFma fn a b c), (0x08, .div e, fun _ a b _ _ => fDiv a b), (0x09, .rsqrt e, fun _ a _ _ _ => fRsqrt a), (0x0A, .sqrt e, fun _ a _ _ _ => fSqrt a), (0x0B, .exp2 e, fun _ a _ _ _ => fExp2 a), (0x0C, .log2 e, fun _ a _ _ _ => fLog2 a), (0x10, .min e, fun _ a b _ _ => fMin a b), (0x11, .max e, fun _ a b _ _ => fMax a b), (0x12, .abs e, fun _ a _ _ _ => fAbs a), (0x13, .sign e, fun _ a _ _ _ => fSign a), (0x14, .cmp e, fun fn a b _ _ => fCmp fn a b), (0x15, .sel e, fun _ a b c _ => fSel a b c), (0x16, .clamp e, fun _ a b c _ => fClamp a b c), (0x18, .cvt e, fun fn a _ _ _ => fCvt fn .rne a), (0x19, .srnd e, fun fn a _ _ k => fCvt fn (rmode .stoch s.free k) a)] ∧
      s.atIns e op = some (r, p)) :=
  ⟨weng (rpr (prgI 1 (2 * 2 ^ 21 + 2 ^ 11))) [], 2, 1, .add 2, (fun _ a b _ _ => fAdd a b), rpr (prgI 1 (2 * 2 ^ 21 + 2 ^ 11)), prgI 1 (2 * 2 ^ 21 + 2 ^ 11), List.Mem.head _, by decide +kernel⟩

theorem test_meets_ReductionInstructions :
    (∃ (s : State) (e op : Nat) (i : Instr) (f : Nat → List Nat → Nat) (r : Run) (p : Prog) (ls : List Nat), (op, i, f) ∈ [(0x1C, Instr.rsum e, fun old l => fAdd old (treeSum l)), (0x1D, .rssq e, fun old l => fAdd old (treeSum (l.map fun x => fMul 0 x x))), (0x1E, .rmaxa e, maxMag)] ∧
      s.atIns e op = some (r, p) ∧ p.acc.length = 4 ∧
      ls = (List.range p.lanes).map (fun k => p.src p.next.a p.next.sa k)) :=
  ⟨weng (rpr (prgI 0x1C 1)) [], 2, 0x1C, .rsum 2, (fun old l => fAdd old (treeSum l)), rpr (prgI 0x1C 1), prgI 0x1C 1, (List.range 64).map (fun k => (prgI 0x1C 1).src 0 false k), List.Mem.head _, by decide +kernel⟩

theorem test_meets_EngineRecovery :
    (∃ (s : State) (e : Nat), (s.eng e).st = .running ∧ (s.eng e).halted = false ∧ (s.eng e).gated = false ∧
      1310720 + (s.eng e).prog0 ≤ s.clk) ∧
    (∃ (s : State) (e : Nat), (s.eng e).st ≠ .resetting ∧ (s.eng e).st ≠ .fenced) ∧
    (∃ (s : State) (e : Nat), e < 64 ∧ s.CanKey .owl (0x400010 + 0x1000 * e) ∧ (s.eng e).st ≠ .fenced) ∧
    (∃ (s : State) (n e : Nat), n < 16 ∧ (s.eng e).st = .resetting ∧ (s.eng e).purgeGot.contains n = false) ∧
    (∃ (s : State) (n e : Nat), (s.eng e).st = .resetting ∧ (s.eng e).purgeGot.contains n = true ∧
      (s.eng e).purged.contains n = false ∧ (∀ u ∈ s.txns, u.isOld n e (s.eng e).purgeGen = false) ∧
      (s.eng e).purged.length ≠ 15) ∧
    (∃ (s : State) (n e : Nat), (s.eng e).st = .resetting ∧ (s.eng e).purgeGot.contains n = true ∧
      (s.eng e).purged.contains n = false ∧ (∀ u ∈ s.txns, u.isOld n e (s.eng e).purgeGen = false) ∧
      (s.eng e).purged.length = 15 ∧ (s.eng e).fencing = false ∧ (s.eng e).run = none ∧ (s.eng e).staged = none ∧
      s.xlt.drains = []) ∧
    (∃ (s : State) (e : Nat), (s.eng e).st = .resetting ∧ (s.eng e).settled = true ∧ (s.eng e).fencing = false) ∧
    (∃ (s : State) (e : Nat), (s.eng e).st = .resetting ∧ (s.eng e).fencing = false ∧
      120000 + (s.eng e).rsSince ≤ s.clk ∧ (s.eng e).settled = false) ∧
    (∃ (s : State) (e : Nat), e < 64 ∧ (s.eng e).st = .resetting ∧ (s.eng e).fencing = false ∧
      120000 + (s.eng e).rsSince ≤ s.clk ∧ (s.eng e).settled = true) :=
  ⟨⟨we1 { Engine.reset with st := .running }, 2, by decide +kernel⟩,
   ⟨we1 { Engine.reset with st := .running }, 2, by decide +kernel⟩,
   ⟨armed (we1 rsg) 0x402010, 2, by simp only [State.CanKey]; decide +kernel⟩,
   ⟨{ we1 { rsg with purgeGen := 1, gen := 1 } with txns := [utx] }, 1, 2, by decide +kernel⟩,
   ⟨we1 { rsg with purgeGot := [1] }, 1, 2, by decide +kernel⟩,
   ⟨we1 { rsg with purgeGot := List.range 16, purged := List.range 15 }, 15, 2, by decide +kernel⟩,
   ⟨we1 { rsg with settled := true }, 2, by decide +kernel⟩,
   ⟨we1 rsg, 2, by decide +kernel⟩,
   ⟨we1 { rsg with settled := true }, 2, by decide +kernel⟩⟩

theorem test_meets_SettPairs :
    (∃ (s : State) (n : Nat) (cause : Byte), (s.sett n).pair = .pair) ∧
    (∃ (s : State) (n : Nat) (cause : Byte), (s.sett n).pair = .single ∧ (∀ u ∈ s.txns, u.sett ≠ n) ∧ s.xlt.drains = []) ∧
    (∃ (s : State) (n : Nat), (s.sett n).pair = .pair) ∧
    (∃ (s : State) (n : Nat), (s.sett n).pair = .pair) ∧
    (∃ (s : State) (n : Nat), (s.sett n).pair = .single ∧ (s.sett n).unitSt (!(s.sett n).act1) = .failed ∧
      (s.sett n).tries < 3) ∧
    (∃ (s : State) (n : Nat), (s.sett n).pair = .single ∧ (s.sett n).unitSt (!(s.sett n).act1) = .failed ∧
      (s.sett n).tries < 3) ∧
    (∃ (s : State) (n : Nat), (s.sett n).pair = .resync) ∧
    (∃ (s : State) (n : Nat), (s.sett n).pair = .resync ∧ 120000 + (s.sett n).rsSince ≤ s.clk) ∧
    (∃ (s : State) (n : Nat), n < 16 ∧ s.CanKey .owl (0x20002C + 0x10000 * n) ∧ (s.sett n).pair = .pair) ∧
    (∃ (s : State) (n : Nat), n < 16 ∧ s.CanKey .owl (0x20002C + 0x10000 * n) ∧
      (s.sett n).unit0 = .failed ∨ (s.sett n).unit1 = .failed) :=
  ⟨⟨w1, 1, 4, by decide +kernel⟩,
   ⟨st1 { sfail with losses := 3 }, 1, 4, by decide +kernel⟩,
   ⟨w1, 15, by decide +kernel⟩,
   ⟨w1, 1, by decide +kernel⟩,
   ⟨st1 sfail, 1, by decide +kernel⟩,
   ⟨st1 { sfail with tries := 2 }, 1, by decide +kernel⟩,
   ⟨st1 { Sett.reset with pair := .resync, unit1 := .resync, tries := 1 }, 1, by decide +kernel⟩,
   ⟨st1 { Sett.reset with pair := .resync, unit1 := .resync, tries := 1 }, 1, by decide +kernel⟩,
   ⟨armed w1 0x21002C, 1, by simp only [State.CanKey]; decide +kernel⟩,
   ⟨armed (st1 sfail) 0x21002C, 1, by simp only [State.CanKey]; decide +kernel⟩⟩

theorem test_meets_TrafficControls :
    (∃ (s : State) (p k : Nat) (q : PortQos), s.due 0 16 = true ∧ s.partList = [p] ∧ k < 10 ∧ q = (s.pqos p k).takeApply) ∧
    (∃ (s : State) (k p : Nat) (e : EgMsg) (rest : List EgMsg) (visits : List (Nat × Nat)), (s.pqos p k).egress = e :: rest ∧
      e.frame = none ∧ s.portTakes k e = true ∧ s.staleMsg e = false ∧ e.size * 1200 ≤ (s.pqos p k).shaper ∧
      s.nextEgress k = some (p, visits)) ∧
    (∃ (s : State) (k p : Nat) (e : EgMsg) (rest : List EgMsg), (s.pqos p k).egress = e :: rest ∧ s.staleMsg e = true) ∧
    (∃ (s : State) (k p : Nat) (e : EgMsg) (rest : List EgMsg), (s.pqos p k).egress = e :: rest ∧ e.frame = none ∧
      s.portTakes k e = true ∧ s.staleMsg e = false ∧ (s.pqos p k).shaper < e.size * 1200 ∧ (s.pqos p k).waited = false) ∧
    (∃ (s : State) (p k : Nat), s.due 1 1024 = true ∧ s.partList = [p] ∧ k < 10) ∧
    (∃ (s : State), s.lay ≠ none ∧ (32 ≤ slotOwner s.gateSlots s.qos.gate ∨ 32 < slotLeft s.gateSlots s.qos.gate) ∧
      (∀ u ∈ s.txns, u.phase ≠ .parked)) ∧
    (∃ (s : State), slotOwner s.gateSlots s.qos.gate < 32 ∧ slotLeft s.gateSlots s.qos.gate ≤ 32) ∧
    (∃ (s : State) (path : Path) (p k : Nat), p < 32 ∧ k < 10 ∧ s.pathUp path = true ∧ Path.toPage path p = true) ∧
    (∃ (s : State) (path : Path) (p k : Nat), p < 32 ∧ k < 10 ∧ s.pathUp path = true ∧ Path.toPage path p = true) ∧
    (∃ (s : State) (p k : Nat), p < 32 ∧ k < 10 ∧ s.CanKey .owl (0xA0101C + 0x400 * p + 0x40 * k) ∧
      s.applyResult p k = 1) ∧
    (∃ (s : State) (p k : Nat), p < 32 ∧ k < 10 ∧ s.CanKey .owl (0xA0101C + 0x400 * p + 0x40 * k) ∧
      s.applyResult p k ≠ 1) :=
  ⟨⟨wt { qp0 with applyDue := true, applied := { qp0.inForce with cir := 77 } }, 0, 0, { qp0 with applied := { qp0.inForce with cir := 77 }, inForce := { qp0.inForce with cir := 77 } }, by decide +kernel⟩,
   ⟨wt qp0, 0, 0, eg0, [eg0], (((wt qp0).nextEgress 0).getD (0, [])).2, by decide +kernel⟩,
   ⟨wt qps, 0, 0, egs, [eg0], by decide +kernel⟩,
   ⟨wt { qp0 with shaper := 38399 }, 0, 0, eg0, [eg0], by decide +kernel⟩,
   ⟨wt qp0, 0, 0, by decide +kernel⟩,
   ⟨{ wg 199 with qos := { (wg 199).qos with gateOpen := false } }, by decide +kernel⟩,
   ⟨wg 68, by decide +kernel⟩,
   ⟨wt { qp0 with depthMax := 7 }, .owl, 0, 0, by decide +kernel⟩,
   ⟨wt { qp0 with delayMax := 7 }, .host 0, 0, 0, by decide +kernel⟩,
   ⟨wap { PolSet.reset with cir := 1, pir := 2 }, 0, 0, by simp only [State.CanKey]; decide +kernel⟩,
   ⟨wap { PolSet.reset with cir := 3, pir := 2 }, 0, 0, by simp only [State.CanKey]; decide +kernel⟩⟩

theorem test_meets_Consent :
    (∃ (s : State) (p : Nat) (k : Bytes), p < 32 ∧ s.CanPage (.host p) p 0x7004 ∧
      k = (List.range 16).flatMap (fun i => toLe 4 (tget 0 (s.part p).dbg.ckey i).toNat)) ∧
    (∃ (s : State) (p : Nat), p < 32 ∧ s.CanPage (.host p) p 0x7004 ∧ s.tokenResult p ≠ 1) ∧
    (∃ (s : State) (p : Nat), p < 32 ∧ s.CanPage (.host p) p 0x7004) ∧
    (∃ (s : State) (p : Nat), p < 32) ∧
    (∃ (s : State) (p : Nat) (x : Token), (s.part p).dbg.token = some x ∧ x.limit ≤ s.top.tick.toNat) ∧
    (∃ (s : State) (v : W32), s.CanKey .owl 0xD00024) :=
  ⟨⟨wdb { Dbg.reset with token := some tok0, key := some bytes64 }, 0, zz 64, by simp only [State.CanPage]; decide +kernel⟩,
   ⟨wdb Dbg.reset, 0, by simp only [State.CanPage]; decide +kernel⟩,
   ⟨wdb { Dbg.reset with token := some tok0, key := some bytes64 }, 0, by simp only [State.CanPage]; decide +kernel⟩,
   ⟨w1, 0, by decide +kernel⟩,
   ⟨wdb { Dbg.reset with token := some tok0, key := some bytes64 }, 0, tok0, by decide +kernel⟩,
   ⟨armed w1 0xD00024, 3, by simp only [State.CanKey]; decide +kernel⟩⟩

theorem test_meets_Sessions :
    (∃ (s : State) (o : TlsOffer) (i n : Nat) (d : Bytes), s.mgtUp = true ∧ s.freeSession = some i ∧ tlsOk o = true ∧
      1 ≤ n ∧ n ≤ 4 ∧ s.chainOk d = true) ∧
    (∃ (s : State) (o : TlsOffer) (n : Nat) (d : Bytes), s.mgtUp = true ∧
      (s.freeSession = none ∨ tlsOk o = false ∨ n = 0 ∨ 4 < n ∨ s.chainOk d = false)) ∧
    (∃ (s : State) (i : Nat), i < 4 ∧ s.sessOpen i = true ∧ s.owl.mgtNew = none) ∧
    (∃ (s : State) (i : Nat) (m : Bytes), i < 4 ∧ s.sessOpen i = true ∧ s.owl.mgtNew = some m ∧
      (∀ j < 4, j ≠ i → s.sessOpen j = false)) ∧
    (∃ (s : State) (i : Nat), i < 4 ∧ s.sessOpen i = true ∧ s.owl.mgtNew = none ∧
      1440000000000 + (s.sess i).lastCmd ≤ s.clk) ∧
    (∃ (s : State) (k : MgtKind) (f g : Frame) (port : BitVec 16), s.mgtUp = true ∧ f.fcsOk = true ∧ s.mgtMine f = true ∧
      f.dstMac = s.mgtMac ∧ (k = .arp ∧ f.v6 = false) ∨ (k = .ndp ∧ f.v6 = true) ∨ k = .echo ∧
      g = { f with srcMac := f.dstMac, dstMac := f.srcMac, srcIp := f.dstIp, dstIp := f.srcIp }) ∧
    (∃ (s : State) (f : Frame) (port : BitVec 16), s.mgtUp = true ∧ f.fcsOk = true ∧ s.mgtMine f = true ∧
      f.dstMac = s.mgtMac ∧ port.toNat = s.mgtTcp) ∧
    (∃ (s : State) (f : Frame) (port : BitVec 16), s.mgtDhcp = false ∧ s.mgtSlaac = false) ∧
    (∃ (s : State) (sess : Nat) (code : BitVec 16) (tag : W32) (body : Bytes), s.Hears sess ∧
      s.chunkStatus sess code body = .ok) ∧
    (∃ (s : State) (sess : Nat) (code : BitVec 16) (tag : W32) (body : Bytes), s.Hears sess ∧
      s.chunkStatus sess code body = .conflict) ∧
    (∃ (s : State) (sess : Nat) (c : CmdHead) (tag : W32), s.Hears sess) ∧
    (∃ (s : State) (sess : Nat) (tag : W32) (body : Bytes), s.sessOpen sess = true ∧ s.owl.st = .run ∧ s.life = 4) :=
  ⟨⟨wow, offer0, 1, 4, sm3 kroot, by decide +kernel⟩,
   ⟨wow, offer0, 5, sm3 kroot, by decide +kernel⟩,
   ⟨wow, 0, by decide +kernel⟩,
   ⟨{ wow with owl := { wow.owl with mgtNew := some [1, 2] } }, 0, [1, 2], by decide +kernel⟩,
   ⟨wow, 0, by decide +kernel⟩,
   ⟨wmg, .ndp, { frm with v6 := true, dstIp := 99 }, { frm with v6 := true, srcMac := frm.dstMac, dstMac := frm.srcMac, srcIp := 99, dstIp := frm.srcIp }, 0, by decide +kernel⟩,
   ⟨wmg, frm, 4772, by decide +kernel⟩,
   ⟨wmg, frm, 68, by decide +kernel⟩,
   ⟨wch, 0, cLayoutStage, 5, toLe 4 2 ++ [1, 2, 3], by simp only [State.Hears]; decide +kernel⟩,
   ⟨wch, 0, cLayoutStage, 5, toLe 4 3 ++ [1, 2, 3], by simp only [State.Hears]; decide +kernel⟩,
   ⟨wow, 0, ⟨0x7777, 1048577⟩, 5, by simp only [State.Hears]; decide +kernel⟩,
   ⟨wscrap, 0, 5, [], by decide +kernel⟩⟩

theorem test_meets_OwlReads :
    (∃ (s : State) (sess : Nat) (tag : W32), s.Hears sess) ∧
    (∃ (s : State) (sess : Nat) (tag : W32) (b : Byte) (bs : Bytes), s.Hears sess) ∧
    (∃ (s h : State) (sess : Nat) (tag : W32) (off n : Nat), s.Hears sess ∧ rangeOk off n = true ∧
      s.lateBlock off n = false ∧ h = s.setSess sess { s.sess sess with lastCmd := s.clk }) ∧
    (∃ (s : State) (sess : Nat) (tag v : W32), s.Hears sess) ∧
    (∃ (s : State) (sess m : Nat) (tag first : W32) (out : List EvRec), s.Hears sess ∧ 1 ≤ m ∧ m ≤ 4096 ∧
      (s.flash.logSeq - first).toNat ≤ s.flash.log.length ∧
      out = (s.flash.log.drop (s.flash.log.length - (s.flash.logSeq - first).toNat)).take (min m ((replyMax sess - 8) / 32))) ∧
    (∃ (s : State) (sess m first : Nat) (tag : W32) (out : List LedEnt), s.Hears sess ∧ 4096 ≤ m ∧ m ≤ bodyMax - 8 ∧
      first < 2 ^ 32 ∧ out = fitting (min m (replyMax sess - 8)) (s.flash.ledger.drop first)) ∧
    (∃ (s : State) (sess : Nat) (tag : W32), s.Hears sess) ∧
    (∃ (s : State) (sess d b : Nat) (tag lim : W32), s.Hears sess ∧ 8 ≤ d ∧ d ≤ 4096 ∧ 4 ≤ b ∧ b ≤ 4096) ∧
    (∃ (s : State) (sess d b : Nat) (tag lim : W32), s.Hears sess ∧ (d < 8 ∨ b < 4) ∧ d < 65536 ∧ b < 65536) :=
  ⟨⟨wow, 0, 5, by simp only [State.Hears]; decide +kernel⟩,
   ⟨wow, 0, 5, 1, [2], by simp only [State.Hears]; decide +kernel⟩,
   ⟨wow, wow.setSess 0 { wow.sess 0 with lastCmd := wow.clk }, 0, 5, 0, 16, by simp only [State.Hears]; decide +kernel⟩,
   ⟨wow, 0, 5, 77, by simp only [State.Hears]; decide +kernel⟩,
   ⟨{ wow with flash := { wow.flash with log := evs, logSeq := 3 } }, 0, 1, 5, 1, [{ EvRec.reset with kind := 2 }], by simp only [State.Hears]; decide +kernel⟩,
   ⟨{ wow with flash := { wow.flash with ledger := [led0, led0] } }, 0, 4096, 1, 5, [led0], by simp only [State.Hears]; decide +kernel⟩,
   ⟨wow, 0, 5, by simp only [State.Hears]; decide +kernel⟩,
   ⟨wow, 0, 8, 4096, 5, 9, by simp only [State.Hears]; decide +kernel⟩,
   ⟨wow, 0, 8, 3, 5, 9, by simp only [State.Hears]; decide +kernel⟩⟩

theorem test_meets_OwlLayouts :
    (∃ (s : State) (sess : Nat) (tag : W32) (c : CmdHead) (r : Repl), s.sessOpen sess = true ∧ s.owl.st = .run ∧
      s.life ≠ 4 ∧ runsAlone c.code = true ∧ c.length ≤ bodyMax ∧ s.owl.repl = some r ∧ r.sec.part = r.part ∧
      s.sessOpen r.sess = true) ∧
    (∃ (s : State) (sess : Nat) (tag : W32) (w : Bytes) (e : Status) (x : LayErr), s.Hears sess ∧
      (s.sess sess).held cLayoutLoad = [] ∧ w.length + 4 ≤ bodyMax ∧ s.loadCheck w = .error (e, x) ∧ e ≠ .ok ∧
      (s.lay.getD Layout.reset).builtin = false ∧ s.inWarm = false ∧ (s.part (sectPart w)).st = .quiesced ∧
      sectPart w ∉ s.owl.scrubs) ∧
    (∃ (s : State) (sess : Nat) (tag : W32) (w : Bytes) (e : LayErr), s.Hears sess ∧
      (s.sess sess).held cLayoutStage = [] ∧ w.length + 4 ≤ bodyMax ∧ s.imageForm w = some e) ∧
    (∃ (s : State) (sess : Nat) (tag : W32), s.Hears sess) ∧
    (∃ (s : State) (sess : Nat) (tag : W32) (l : Layout), s.Hears sess ∧ s.lay = some l) :=
  ⟨⟨{ wow with owl := { wow.owl with repl := some repl0 } }, 0, 5, ⟨0x7777, 0⟩, repl0, by decide +kernel⟩,
   ⟨{ wow with parts := [(0, { PartS.reset with st := .quiesced })] }, 0, 5, zz 135, .badDescriptor, layErr0, by simp only [State.Hears]; decide +kernel⟩,
   ⟨wow, 0, 5, zz 64, ⟨1, 0, 0⟩, by simp only [State.Hears]; decide +kernel⟩,
   ⟨{ wow with flash := { wow.flash with a := { FwBank.reset with fw := some (3, []) } } }, 0, 5, by simp only [State.Hears]; decide +kernel⟩,
   ⟨wow, 0, 5, lay0, by simp only [State.Hears]; decide +kernel⟩⟩

theorem test_meets_OwlFirmware :
    (∃ (s : State) (sess : Nat) (tag : W32) (b : Bytes), s.Hears sess ∧ b.length = 160 ∧ keyBodyOk b = true ∧
      s.keyStatus b ≠ .ok) ∧
    (∃ (s : State) (sess : Nat) (tag : W32) (w : Bytes), s.Hears sess ∧ (s.sess sess).held cFwWrite = [] ∧
      w.length + 4 ≤ bodyMax ∧ s.fwStatus w ≠ .ok) ∧
    (∃ (s : State) (sess : Nat) (tag : W32) (b : Bool), s.Hears sess ∧ s.bootMode ≠ 1) ∧
    (∃ (s : State) (sess : Nat) (tag : W32) (b : Bool), s.Hears sess ∧ s.bootMode = 1) ∧
    (∃ (s : State) (sess : Nat) (tag : W32), s.Hears sess ∧ s.noRestart = false) ∧
    (∃ (s : State) (sess : Nat) (tag : W32), s.sessOpen sess = true ∧ s.owl.st = .run ∧ s.life ≠ 4 ∧ s.noRestart = true) ∧
    (∃ (s : State) (sess : Nat) (tag : W32), s.Hears sess ∧ s.pwrgood = true ∧ s.thermtrip = false ∧ s.phase = .running ∧
      s.top.ready = true ∧ s.sec.wipeRun = false ∧ s.owl.pwr = .run ∧ s.owl.transit = false ∧ s.owl.hibWbk = []) ∧
    (∃ (s : State) (sess w : Nat) (tag : W32), s.Hears sess ∧ (w = 0 ∨ (400 ≤ w ∧ w ≤ 1150))) ∧
    (∃ (s : State) (sess w : Nat) (tag : W32), s.Hears sess ∧ 0 < w ∧ (w < 400 ∨ 1150 < w) ∧ w < 65536) :=
  ⟨⟨{ wow with flash := FlashS.reset }, 0, 5, [1, 0] ++ zz 158, by simp only [State.Hears]; decide +kernel, by decide +kernel, by decide +kernel, unsigned_key _⟩,
   ⟨{ wow with top := { wow.top with straps := 0x1 } }, 0, 5, zz 300, by simp only [State.Hears]; decide +kernel, by decide +kernel, by decide +kernel, no_firmware _⟩,
   ⟨wow, 0, 5, true, by simp only [State.Hears]; decide +kernel⟩,
   ⟨{ wow with top := { wow.top with straps := 1 } }, 0, 5, true, by simp only [State.Hears]; decide +kernel⟩,
   ⟨wow, 0, 5, by simp only [State.Hears]; decide +kernel⟩,
   ⟨{ wow with sec := { wow.sec with wipeRun := true } }, 0, 5, by decide +kernel⟩,
   ⟨wow, 0, 5, by simp only [State.Hears]; decide +kernel⟩,
   ⟨wow, 0, 0, 5, by simp only [State.Hears]; decide +kernel⟩,
   ⟨wow, 0, 399, 5, by simp only [State.Hears]; decide +kernel⟩⟩

theorem test_meets_OwlSecurity :
    (∃ (s : State) (sess : Nat) (tag : W32) (b : Bytes), s.Hears sess ∧ s.orderStatus b ≠ .ok) ∧
    (∃ (s : State), s.sec.wipeRun = true ∧ s.sec.wipeKeys = true ∧ s.owl.warmHeld = false) ∧
    (∃ (s : State) (sess : Nat) (tag : W32), s.Hears sess) ∧
    (∃ (s : State) (sess : Nat) (tag : W32), s.sessOpen sess = true ∧ s.owl.st = .run ∧ s.life = 4) ∧
    (∃ (s : State) (sess p k : Nat) (tag first : W32), s.Hears sess ∧ p < 32 ∧ 1 ≤ k ∧ k ≤ 3 ∧ s.d1 p (k - 1) = true) ∧
    (∃ (s : State) (sess p k : Nat) (tag first : W32), s.Hears sess ∧ p < 32 ∧ 1 ≤ k ∧ k ≤ 3 ∧ s.d1 p (k - 1) = false) ∧
    (∃ (s : State) (sess : Nat) (tag : W32) (b : Bytes), s.Hears sess ∧ 16 ≤ b.length ∧ s.sec.d2 = false) ∧
    (∃ (s : State) (sess e : Nat) (tag : W32) (b : Bytes), s.Hears sess ∧ 16 ≤ b.length ∧ s.sec.d2 = true ∧
      s.haltOk sess 1 b = true ∧ fld b 1 1 = 1 ∧ e = fld b 2 2) ∧
    (∃ (s : State) (sess e : Nat) (tag : W32) (b : Bytes), s.Hears sess ∧ 16 ≤ b.length ∧ s.sec.d2 = true ∧
      s.haltOk sess 2 b = true ∧ fld b 1 1 = 1 ∧ e = fld b 2 2 ∧ (∀ u ∈ s.txns, u.phase ≠ .parked)) ∧
    (∃ (s : State) (sess a n : Nat) (tag : W32) (b : Bytes), s.Hears sess ∧ 16 ≤ b.length ∧ s.sec.d2 = true ∧
      s.haltOk sess 3 b = true ∧ fld b 1 1 = 4 ∧ a = fld b 8 8 ∧ n = fld b 4 4 ∧ s.scrArea.1 ≤ a ∧
      a + n ≤ s.scrArea.1 + s.scrArea.2) ∧
    (∃ (s : State) (sess a : Nat) (tag : W32) (b : Bytes), s.Hears sess ∧ 16 ≤ b.length ∧ s.sec.d2 = true ∧
      s.haltOk sess 4 b = true ∧ fld b 1 1 = 4 ∧ a = fld b 8 8 ∧ s.scrArea.1 ≤ a ∧
      a + (b.length - 16) ≤ s.scrArea.1 + s.scrArea.2) :=
  ⟨⟨wow, 0, 5, zz 127, by simp only [State.Hears]; decide +kernel, short_order⟩,
   ⟨{ wow with sec := { wow.sec with wipeRun := true, wipeKeys := true }, dram := cells 0x400000 [5, 6, 7] }, by decide +kernel⟩,
   ⟨wow, 0, 5, by simp only [State.Hears]; decide +kernel⟩,
   ⟨wscrap, 0, 5, by decide +kernel⟩,
   ⟨wd1, 0, 0, 3, 5, 0, by simp only [State.Hears]; decide +kernel⟩,
   ⟨wow, 0, 0, 2, 5, 0, by simp only [State.Hears]; decide +kernel⟩,
   ⟨wow, 0, 5, dh 4 4 0 64 0xC0000000 bytes64, by simp only [State.Hears]; decide +kernel⟩,
   ⟨wd2, 0, 2, 5, dh 1 1 2 0 0 [], by simp only [State.Hears]; decide +kernel⟩,
   ⟨{ wd2 with engines := [(2, { Engine.reset with halted := true })] }, 0, 2, 5, dh 2 1 2 0 0 [], by simp only [State.Hears]; decide +kernel⟩,
   ⟨{ wd2 with scr := cells 0 bytes64 }, 0, 0xC0000000, 64, 5, dh 3 4 0 64 0xC0000000 [], by simp only [State.Hears]; decide +kernel⟩,
   ⟨wd2, 0, 0xC0000040, 5, dh 4 4 0 64 0xC0000040 bytes64, by simp only [State.Hears]; decide +kernel⟩⟩

theorem test_meets_OwlBoard :
    (∃ (s : State) (sess : Nat) (tag : W32) (b d : Bytes), s.Hears sess ∧ 4 ≤ b.length ∧ s.pmOk b = true) ∧
    (∃ (s : State) (sess : Nat) (tag : W32) (b : Bytes) (r : Option Bytes), s.Hears sess ∧
      (b.length < 4 ∨ s.pmOk b = false)) ∧
    (∃ (s : State) (sess : Nat) (tag : W32) (b : Bytes), s.Hears sess ∧ sess < 4 ∧ b.length = 64 ∧ fld b 0 1 ≤ 3 ∧
      fld b 3 1 = 0 ∧ fld b 6 2 = 0 ∧ fld b 14 2 = 0 ∧ fld b 56 8 = 0) ∧
    (∃ (s : State) (temps : List Int) (mv : List Nat), s.owl.st = .run ∧ s.due 2 Config.msClk = true) ∧
    (∃ (s : State) (share : Nat), s.owl.st = .run ∧ s.due 3 Config.msClk = true ∧
      share = shareStep s.owl.cap s.devPower (maxTemp s.owl.temps) s.owl.engShare.toNat) ∧
    (∃ (s : State) (i p : Nat) (w : BitVec 16), s.owl.st = .run ∧ s.flash.regNamed.contains i = true ∧
      s.flash.regs.contains i = true ∧ s.due (16 + i) Config.msClk = true ∧ s.due (32 + i) (100 * Config.msClk) = true) ∧
    (∃ (s : State), s.owl.st = .run) ∧
    (∃ (s : State), s.owl.st = .run ∧ s.due 4 hourClk = true ∧ s.owl.summaries < 23 ∧ 1048576 + s.ledgerBytes ≤ 67108864) ∧
    (∃ (s : State), Config.ms10Clk + s.owl.smSince ≤ s.clk) ∧
    (∃ (s : State), s.clk < Config.ms10Clk + s.owl.smSince) ∧
    (∃ (s : State) (code v : Byte), s.pwrgood = true ∧ s.thermtrip = false) :=
  ⟨⟨{ wreg with sec := { wreg.sec with d2 := true } }, 4, 5, [3, 0x8B, 5, 0], [1, 2], by simp only [State.Hears]; decide +kernel⟩,
   ⟨wreg, 0, 5, [2], some [1], by simp only [State.Hears]; decide +kernel⟩,
   ⟨wow, 0, 5, [3] ++ zz 63, by simp only [State.Hears]; decide +kernel⟩,
   ⟨wow, [20, 30], [700], by decide +kernel⟩,
   ⟨{ wow with owl := { wow.owl with temps := [101], cap := 400 } }, shareStep 400 { wow with owl := { wow.owl with temps := [101], cap := 400 } }.devPower 101 128, by decide +kernel⟩,
   ⟨wreg, 3, 40, 0, by decide +kernel⟩,
   ⟨{ wow with owl := { wow.owl with evq := evs }, flash := { wow.flash with log := evs, logSeq := 3 } }, by decide +kernel⟩,
   ⟨wow, by decide +kernel⟩,
   ⟨wow, by decide +kernel⟩,
   ⟨{ wow with owl := { wow.owl with smSince := 10000000000000 } }, by decide +kernel⟩,
   ⟨wow, 0x10, 5, by decide +kernel⟩⟩

theorem test_meets_HostPorts :
    (∃ (s : State) (k : Nat) (v : Bool), k < 2 ∧ s.CanKey .owl (0xB01004 + 0x100 * k)) ∧
    (∃ (s : State) (k : Nat), (s.top.layoutOk = false ∨ (s.hport k).ctrl.getLsbD 0 = false)) ∧
    (∃ (s : State) (k : Nat), (s.hport k).ctrl.getLsbD 0 = true ∧ s.top.layoutOk = true) ∧
    (∃ (s : State) (k : Nat) (f : Frame) (kind : Nat) (c : Instr), (s.hport k).up = true ∧ (s.hport k).takes f = true ∧
      f.fragment = false ∧ f.dstMac = (s.hport k).mac ∧ (s.hport k).mine f = true ∧
      (c = .arpRequest k f ∧ f.v6 = false ∧ kind = 0) ∨ (c = .neighbourSolicitation k f ∧ f.v6 = true ∧ kind = 1) ∨ (c = .echoRequest k f ∧ kind = 2)) ∧
    (∃ (s : State) (k : Nat) (f : Frame) (c : Instr), (s.hport k).up = true ∧ (s.hport k).takes f = false ∧
      (c = .arpRequest k f ∨ c = .neighbourSolicitation k f ∨ c = .echoRequest k f)) ∧
    (∃ (s : State) (k i : Nat) (n : BitVec 16), i < 8 ∧ (s.hport k).up = true ∧ n ≠ 0) ∧
    (∃ (s : State) (k i : Nat), i < 8 ∧ (s.hport k).up = true) ∧
    (∃ (s : State) (k : Nat), (s.hport k).xoffed = true ∧ s.rxLoad k ≤ (s.hport k).xon * 1024) ∧
    (∃ (s : State) (k i : Nat), thas (s.hport k).paused i = true ∧ tget 0 (s.hport k).paused i ≤ s.clk) :=
  ⟨⟨armed w1 0xB01104, 1, true, by simp only [State.CanKey]; decide +kernel⟩,
   ⟨{ wh { hp0 with up := false } with top := TopS.reset }, 0, by decide +kernel⟩,
   ⟨wh { hp0 with up := false }, 0, by decide +kernel⟩,
   ⟨wh hp0, 0, frm, 2, .echoRequest 0 frm, by decide +kernel⟩,
   ⟨wh hp0, 0, { frm with bytes := 63 }, .arpRequest 0 { frm with bytes := 63 }, by decide +kernel⟩,
   ⟨wh hp0, 0, 7, 3, by decide +kernel⟩,
   ⟨wh { hp0 with paused := [(7, 5)] }, 0, 7, by decide +kernel⟩,
   ⟨wh { hp0 with xoffed := true }, 0, by decide +kernel⟩,
   ⟨wh { hp0 with paused := [(3, 5)] }, 0, 3, by decide +kernel⟩⟩

theorem test_meets_HostRequests :
    (∃ (s : State) (k q : Nat) (pk : Packet) (a : BitVec 16), s.Next k q pk ∧ (s.qp q).wrOn = false ∧
      s.keyCheck (s.qp q) pk.rkey pk.va.toNat pk.dmaLen.toNat 8 false = .ok (false, a) ∧ 1 ≤ pk.data.length ∧
      pk.data.length = pk.dmaLen.toNat ∧ pk.data.length ≤ (s.qp q).mtu ∧
      s.HostMisses q a ((lineWrites pk.va.toNat pk.data).map (·.1))) ∧
    (∃ (s : State) (k q : Nat) (pk : Packet) (a : BitVec 16), s.Next k q pk ∧ (s.qp q).wrOn = false ∧
      s.keyCheck (s.qp q) pk.rkey pk.va.toNat pk.dmaLen.toNat 8 false = .ok (false, a) ∧ pk.data.length = (s.qp q).mtu ∧
      pk.data.length < pk.dmaLen.toNat ∧ s.HostMisses q a ((lineWrites pk.va.toNat pk.data).map (·.1))) ∧
    (∃ (s : State) (k q : Nat) (pk : Packet) (a : BitVec 16), s.Next k q pk ∧ (s.qp q).wrOn = true ∧
      (s.qp q).wrKey.toNat < 65536 ∧ a = BitVec.ofNat 16 (s.qp q).wrKey.toNat ∧ pk.data.length = (s.qp q).mtu ∧
      pk.data.length < (s.qp q).wrLeft ∧ s.HostMisses q a ((lineWrites (s.qp q).wrVa pk.data).map (·.1))) ∧
    (∃ (s : State) (k q : Nat) (pk : Packet) (a : BitVec 16), s.Next k q pk ∧ (s.qp q).wrOn = true ∧
      (s.qp q).wrKey.toNat < 65536 ∧ a = BitVec.ofNat 16 (s.qp q).wrKey.toNat ∧ 1 ≤ pk.data.length ∧
      pk.data.length ≤ (s.qp q).mtu ∧ pk.data.length = (s.qp q).wrLeft ∧
      s.HostMisses q a ((lineWrites (s.qp q).wrVa pk.data).map (·.1))) ∧
    (∃ (s : State) (k q n : Nat) (pk : Packet) (a : BitVec 16), s.Next k q pk ∧ (s.qp q).wrOn = false ∧
      n = pk.dmaLen.toNat ∧ 1 ≤ n ∧ s.keyCheck (s.qp q) pk.rkey pk.va.toNat n 4 false = .ok (false, a) ∧
      s.HostMisses q a ((piecesOf pk.va.toNat n []).map (·.va))) ∧
    (∃ (s : State) (k q : Nat) (pk : Packet) (pg : Bool) (a : BitVec 16), s.Next k q pk ∧ (s.qp q).wrOn = false ∧
      s.keyCheck (s.qp q) pk.rkey pk.va.toNat 8 28 true = .ok (pg, a) ∧ s.HostMisses q a [pk.va.toNat]) ∧
    (∃ (s : State) (k q : Nat) (pk : Packet) (v : W64), s.Takes k q pk ∧ psnPlace pk.psn (s.qp q).epsn = 2 ∧
      (s.qp q).atomics.find? (fun e => e.1 == pk.psn) = some (pk.psn, v)) ∧
    (∃ (s : State) (k q : Nat) (pk : Packet), s.Takes k q pk ∧ psnPlace pk.psn (s.qp q).epsn = 1 ∧
      (s.qp q).nakSent = false) ∧
    (∃ (s : State) (k q : Nat) (pk : Packet), s.Next k q pk ∧ (s.qp q).ackDue = none) ∧
    (∃ (s : State) (k q : Nat) (pk : Packet), s.Takes k q pk) ∧
    (∃ (s : State) (q : Nat), 55 * Config.usClk + (s.qp q).cnpIn ≤ s.clk) ∧
    (∃ (s : State) (q : Nat) (psn : BitVec 24), (s.qp q).pend = [] ∧ (s.qp q).ackDue = some psn) ∧
    (∃ (s : State) (q : Nat) (p : Pend), (s.qp q).pend = [p] ∧ p.done = true ∧ p.kind = 0 ∧ p.worst = .ok ∧ p.ack = true) ∧
    (∃ (s : State) (q : Nat), q < 1024 ∧ s.CanKey .owl (0xB10000 + 32 * q) ∧ (s.qp q).ready = false ∧
      (s.qp q).error = false) ∧
    (∃ (s : State) (q : Nat), q < 1024 ∧ s.CanKey .owl (0xB10000 + 32 * q)) :=
  ⟨⟨whq q0, 0, 3, { pkt 100 3 [1, 2, 3] with va := 0x20007E }, 17, by simp only [State.HostMisses, next_iff, takes_iff, State.TxnsNumbered]; decide +kernel⟩,
   ⟨whq q0, 0, 3, pkt 100 300 b256, 17, by simp only [State.HostMisses, next_iff, takes_iff, State.TxnsNumbered]; decide +kernel⟩,
   ⟨whq (qw 300), 0, 3, pkt 100 0 b256, 17, by simp only [State.HostMisses, next_iff, takes_iff, State.TxnsNumbered]; decide +kernel⟩,
   ⟨whq (qw 64), 0, 3, pkt 100 0 bytes64, 17, by simp only [State.HostMisses, next_iff, takes_iff, State.TxnsNumbered]; decide +kernel⟩,
   ⟨whq q0, 0, 3, 300, pkt 100 300 [], 17, by simp only [State.HostMisses, next_iff, takes_iff, State.TxnsNumbered]; decide +kernel⟩,
   ⟨whq q0, 0, 3, pkt 100 0 [], false, 17, by simp only [State.HostMisses, next_iff, takes_iff, State.TxnsNumbered]; decide +kernel⟩,
   ⟨whq { q0 with atomics := [(99, 12345)] }, 0, 3, pkt 99 0 [], 12345, by simp only [takes_iff]; decide +kernel⟩,
   ⟨whq q0, 0, 3, pkt 101 64 bytes64, by simp only [takes_iff]; decide +kernel⟩,
   ⟨whq q0, 0, 3, pkt 100 0 [], by simp only [next_iff, takes_iff, State.TxnsNumbered]; decide +kernel⟩,
   ⟨whq q0, 0, 3, pkt 100 0 [], by simp only [takes_iff]; decide +kernel⟩,
   ⟨whq q0, 3, by decide +kernel⟩,
   ⟨whq { q0 with ackDue := some 99, ackPort := 0 }, 3, 99, by decide +kernel⟩,
   ⟨whq { q0 with pend := [pend0] }, 3, pend0, by decide +kernel⟩,
   ⟨armed (whq { QP.reset with b := qctx 0 }) 0xB10060, 3, by simp only [State.CanKey]; decide +kernel⟩,
   ⟨armed (whq { q0 with pend := [pend0] }) 0xB10060, 3, by simp only [State.CanKey]; decide +kernel⟩⟩

theorem test_meets_TestAccessPort :
    (∃ (s : State) (ir : TapInstr), s.sec.d2 = false ∧ ir ≠ .idcode) ∧
    (∃ (s : State) (w : W32), s.sec.d2 = true ∧ s.owl.fifo.over_ = false ∧ s.owl.fifo.send.length < 1028 ∧
      (∀ x ∈ s.owl.fifo.send, x.eop = false)) ∧
    (∃ (s : State) (w : W32) (eop : Bool), s.sec.d2 = true ∧ s.owl.fifo.over_ = false ∧ s.owl.fifo.send.length < 1028 ∧
      s.owl.fifo.recv ≠ []) ∧
    (∃ (s : State) (tag : W32), s.Hears mboxSess ∧ s.owl.fifo.over_ = false ∧ s.owl.fifo.recv = [] ∧
      s.owl.fifo.dropping = false ∧ s.owl.fifo.send = [⟨0x72000C3D, false⟩, ⟨1, false⟩, ⟨0, false⟩]) ∧
    (∃ (s : State) (ir : Nat), s.sec.d2 = true) :=
  ⟨⟨wow, .push 5 true, by decide +kernel⟩,
   ⟨{ wd2 with owl := { wow.owl with fifo := { Fifo.reset with send := [⟨1, false⟩] } } }, 7, by decide +kernel⟩,
   ⟨{ wd2 with owl := { wow.owl with fifo := { Fifo.reset with recv := [⟨1, true⟩] } } }, 7, true, by decide +kernel⟩,
   ⟨{ wd2 with owl := { wow.owl with fifo := { Fifo.reset with send := [⟨0x72000C3D, false⟩, ⟨1, false⟩, ⟨0, false⟩] } } }, 7, by simp only [State.Hears]; decide +kernel⟩,
   ⟨wd2, 9, by decide +kernel⟩⟩

theorem test_meets_Comparisons :
    (∃ (fn : Nat) (a b : W32), fn < 6 ∧ (fpNaN a = true ∨ fpNaN b = true)) ∧
    (∃ (a b : W32), fpNaN a = false ∧ fpNaN b = false) ∧
    (∃ (w : W32) (passA : Bool), (insOf w).op = 0x14 ∧ 6 ≤ (insOf w).fn) :=
  ⟨⟨1, 0x7FC00000, 5, by decide +kernel⟩,
   ⟨0xBF800000, 0x3F800000, by decide +kernel⟩,
   ⟨BitVec.ofNat 32 (0x14 * 2 ^ 26 + 6), true, by decide +kernel⟩⟩

/-! ### Premises about every step -/

theorem test_meets_CommandsLeaveTheQueue : ∃ (c : Instr) (s t : State), exec c s = .next t := ⟨.thermtrip, w0, _, rfl⟩

theorem test_meets_StepKeepsMemoryCanonical :
    ∃ s t : State, s.memWf = true ∧ s.dram ≠ [] ∧ step s = .next t :=
  ⟨{ w0 with dram := [(5, 1), (9, 2)], pending := [.thermtrip] }, _, by decide +kernel, by decide, rfl⟩

theorem test_meets_StepNeverUnburnsFuses : ∃ s t : State, step s = .next t := ⟨{ w0 with pending := [.thermtrip] }, _, rfl⟩

theorem test_meets_StepKeepsTxnsNumbered :
    ∃ s t : State, s.TxnsNumbered ∧ s.txns ≠ [] ∧ step s = .next t :=
  ⟨{ w0 with txns := [{ id := 1 }], nextTxn := 2, pending := [.thermtrip] }, _, by simp [State.TxnsNumbered],
    by decide, rfl⟩

/-- A policer of partition 0 on FAB3, aware of arriving colours or not. -/
def polAs (aware : Bool) : State :=
  { w0 with
    parts := [(0, { PartS.reset with
      qos := [(3, { PortQos.reset with inForce := { PolSet.reset with ctrl := if aware then 3 else 1, cir := 8000 } })] })] }

/-- For a policer of either kind and for each colour that arrives: a premise of each clause of TokenBuckets. -/
theorem test_meets_TokenBuckets (aware : Bool) (arr : Nat) :
    ∃ (s : State) (p k b c : Nat) (rs : Bool) (pol : PolIn) (t : State),
      s.policer p k = some pol ∧ pol.aware = aware ∧ s.police p k b arr rs = (c, t) :=
  ⟨polAs aware, 0, 3, 96, _, false, _, _, by cases aware <;> rfl, by cases aware <;> rfl, rfl⟩

/-! ### Well-formedness: a command that each check refuses -/

/-- Each names a unit the device does not have. -/
theorem test_wf_units_refused :
    ([.takeDown 8, .lanePower 0 32 true, .laneClearFail 8 0, .settCopyWatchdog 16, .copy 64, .caRetrainStart 32, .dramAlert 0 2,
      .mr4Poll 0 4 true, .refreshDue 0 0 0 32, .deviceMark 0 0 0 10 true, .scrubLapLimit 33, .sessionClose 5, .hostLinkUp 2,
      .egressDepart 10 0, .qpReset 1024, .nop 4096, .tokenLapse 32, .queueEnable .owl 0 4096, .partReset (.host 32) 0,
      .registerWrite .owl 67108864 0, .fifoPop .owl (.inq 64), .fifoPop .owl (.spdm 32), .rwtRewrite (.owner 32),
      .rwtRewrite (.route 2048), .rwtRewrite (.mcast 4096), .rwtRewrite (.share 32), .drainReport (.sett 16) 0,
      .drainReport (.engine 64) 0, .drainReport (.walkers 4) 0, .nodeGenBlockEnd 524288, .victimQueued 0 64,
      .regulatorPoll 16 0 0] : List Instr).all (fun i => !i.wf) = true := by decide +kernel

/-- The last unit of each kind is there. -/
theorem test_wf_units_taken :
    ([.takeDown 7, .lanePower 0 31 true, .settCopyWatchdog 15, .copy 63, .caRetrainStart 31, .dramAlert 0 1, .mr4Poll 0 3 true,
      .deviceMark 0 0 0 9 true, .scrubLapLimit 32, .sessionClose 4, .hostLinkUp 1, .egressDepart 9 0, .qpReset 1023, .nop 4095,
      .tokenLapse 31, .registerWrite .owl 67108860 0, .drainReport (.walkers 3) 0, .victimQueued 0 63] : List Instr).all
      Instr.wf = true := by decide +kernel

/-- Each has an operand of a shape the manual does not give it: a register offset off a word, a message whose len is not its
length, a message type or a command code that has a command of its own, errors on a symbol twice, outside the line or of no
bit, a voted copy that is none, a rank that failed and is not installed, a unit of 14 slots, digests, sensor and pause lists
of a wrong length, and a packet of another opcode. -/
theorem test_wf_shapes_refused :
    ([.registerWrite .owl 2 0, .unlockWrite .owl 2 0, .unlockLapse .owl 2, .w1cClear .owl 2 0 0,
      .rdShared 0 { reqOf 1 0 0 [] with len := 2 } Noise.none, .snpAck 0 { msgOf 0x21 0 0 [] with len := 1 },
      .unexpectedMessage 0 0x01 (reqOf 1 0 0 []), .unknownCommand 0 ⟨0x0001, 0⟩ 0, .dramReadComplete 0 [(3, 1), (3, 2)],
      .dramReadComplete 0 [(80, 1)], .rmwBatchDone 0 [(0, 0)], .scrubRead 0 [(80, 1)] 0, .rwtRevote [⟨.layoutGen, 3, 1⟩],
      .rwtRevote [⟨.layoutGen, 0, 0⟩], .channelTrainingEnd 0 ⟨1, 1, 2, 16, 0, true, 0, 0, 0, 0, true⟩,
      .dataUnit 0 (unitOf 0 0 (List.replicate 14 0)), .tlsHandshake offer0 1 (zz 31), .sensorSample [] [],
      .pfcFrame 0 [], .rdmaWriteOnly 0 { pkt 0 0 [] with opcode := 0x06 }, .rdmaWriteFirst 0 (pkt 0 0 []),
      .unsupportedOpcode 0 (pkt 0 0 []), .cnpReceive 0 (pkt 0 0 [])] : List Instr).all (fun i => !i.wf) = true := by decide +kernel

/-- And one of each of those shapes as it must be. -/
theorem test_wf_shapes_taken :
    ([.registerWrite .owl 4 0, .rdShared 0 (reqOf 1 0 0 []) Noise.none, .unknownCommand 0 ⟨0x7777, 0⟩ 0,
      .dramReadComplete 0 [(3, 1), (79, 2)], .rwtRevote [⟨.layoutGen, 2, 1⟩], .channelTrainingEnd 0 chan0.dimm,
      .dataUnit 0 (unitOf 0 0 (List.replicate 15 0)), .tlsHandshake offer0 1 (zz 32), .pfcFrame 0 (List.replicate 8 none),
      .rdmaWriteOnly 0 (pkt 0 0 [])] : List Instr).all Instr.wf = true := by decide +kernel

/-! ### The manual's worked examples -/

/-- The example under R132. -/
theorem test_sett_hash : settOf 0x12345680 = 11 ∧ settOf 0x123456C0 = 10 := by decide

/-- The example under R162: 31 good lanes are cut to 24. -/
theorem test_plan_cut : cutPlan ((List.range 32).filter (· ≠ 17)) [] = some 0x01FDFFFF := by decide +kernel

/-- Ports 0–3 ACTIVE but those named, and a route to node 0x1234 over mask 0x0F. -/
def fourPorts (down : List Nat) : State :=
  { w1 with
    lay := some { lay0 with routes := [⟨0, 20, 0x0F⟩] }
    ports := (List.range 4).map fun k => (k, { port0 with st := if down.contains k then .down else .active }) }

/-- The example under R187: the port a message leaves on, with four ports ACTIVE and with FAB2 down. -/
theorem test_port_choice :
    (fourPorts []).portFor 0x1234 0x42 = some 0 ∧ (fourPorts [2]).portFor 0x1234 0x42 = some 1 := by decide +kernel

/-- Partition 3 of the manual's examples: 512 units from 0x4000_0000, 96 MiB of scratch behind three like it, ASIDs from 0x300,
queues from 64. -/
def lay3 : Layout :=
  { lay0 with
    parts := (List.range 4).map fun p =>
      { part := p, keySlot := p, engines := BitVec.ofNat 64 (0xFF <<< (8 * p)), scratch := 96, asidBase := 0x100 * p
        asidCount := 0x100, queueBase := if p = 3 then 64 else 10 * p, queueCount := if p = 3 then 64 else 10 }
    extents := [⟨0, 0, 64⟩, ⟨3, 512, 512⟩] }

def cellsOf (l : List (Nat × Bytes)) : List Host.Cell := l.foldl (fun m (a, b) => cputs m a b) []

/-- The tables of the example under R277: a context, a root and two levels of tables, the leaf Tracked of epoch 3. -/
def walk3 : State :=
  { w0 with
    lay := some lay3, sec := { w0.sec with slots := [(3, 1)] }, fills := [(none, [(512, 512, 1)])]
    dram := cellsOf [(0x40200200, toLe 8 0x40400000 ++ [1, 0] ++ toLe 2 2), (0x40402460, toLe 8 1 ++ toLe 8 0x40800000),
      (0x40801150, toLe 8 1 ++ toLe 8 0x40802000), (0x408033C0, toLe 8 (0x133 + 3 * 2 ^ 22) ++ toLe 6 0x52000000 ++ [3, 0])] }

/-- The example under R277: where a walk leads. -/
theorem test_walk :
    (match walk3.walkFor 0x310 0x0001_2345_6789_ABC0 with
    | .ok x => some (x.base, x.leaf.epoch, x.leaf.cls)
    | .error _ => none) = some (0x52000000, 3, .tracked) := by decide +kernel

/-- The example under R240: the line of a region descriptor, and its sett. -/
theorem test_region_descriptor :
    walk3.regionDesc 3 0x2B5 = some 0x400AD700 ∧ regionOf 0x1802B5 = some (3, 0x2B5) ∧ settOf 0x400AD700 = 0 := by decide +kernel

/-- The example under R343: a queue's entry, and the sett of its second line. -/
theorem test_queue_entry : walk3.qEntry 96 = some 0x7FE01000 ∧ settOf 0x7FE01040 = 5 := by decide +kernel

/-- Partition 3 with an extension of 128 MiB at 0x7000_0000. -/
def ext3 : State := { walk3 with parts := [(3, { PartS.reset with ext := { ExtMem.reset with base := 0x380, size := 64 } })] }

/-- The example under R398: a window address in the Burrow (0xD700_0000, past the scratch area's 0xC000_0000), one in the
extension, and one past its end. -/
theorem test_scratch_window :
    ext3.whereIs 0x803005000000 = some (.scr 0x17000000) ∧ ext3.whereIs 0x803007000000 = some (.dram 0x71000000) ∧
    ext3.whereIs 0x80300E000000 = none := by decide +kernel

/-- The leaf of the example under R302: MXFP4 stored, BF16 viewed. -/
def leafMx : Leaf := { directLeaf 0 3 with stor := 12, view := 1 }

/-- The example under R302: where the stored bytes of a view line lie. -/
theorem test_stored_bytes :
    settOf 0x605A40 = 14 ∧ storedAddrs leafMx 0x60000000 0x605A40 =
      (List.range 10).map (0x601996F6 + ·) ++ (List.range 7).map (0x60199A00 + ·) := by decide +kernel

/-- The block of the example under R302: scale 0x7E; elements 0, 1, 4 and 6 of 3.0, −1.5, 1.0 and 6.0 before scaling. -/
def mxBlock : Bytes := [0x7E, 0xB5, 0x00, 0x02, 0x07] ++ zz 12

/-- The examples under R302 and R311: the block as it reads, and what a write of 10.0 into element 4 makes of it. -/
theorem test_mx_block :
    slice (readView 12 1 mxBlock) 0 4 = toLe 2 0x3FC0 ++ toLe 2 0xBF40 ∧
    writeView 12 1 .rne 0 mxBlock (zz 8 ++ [0x20, 0x41] ++ zz 54) 0x300 false = [0x80, 0x92, 0x00, 0x06, 0x03] ++ zz 12 := by
  decide +kernel

/-- A policer of the example under R465: bursts of 288 and 480 bytes, full, on FAB3. -/
def pol3 : State :=
  { w1 with
    parts := [(0, { PartS.reset with
      qos := [(3, { PortQos.reset with
        inForce := { PolSet.reset with ctrl := 1, cir := 8000, pir := 16000, cbs := 288, pbs := 480 }
        committed := 288 * 1200, peak := 480 * 1200 })] })] }

/-- Units of 96 bytes policed one after another: their colours, and the buckets in bytes. -/
def polRun : Nat → State → List (Nat × Nat × Nat)
  | 0, _ => []
  | n + 1, s =>
    let (c, t) := s.police 0 3 96 0 false
    (c, (t.pqos 0 3).committed / 1200, (t.pqos 0 3).peak / 1200) :: polRun n t

/-- The example under R465: six messages at 0 ns. -/
theorem test_policer :
    polRun 6 pol3 = [(0, 192, 384), (0, 96, 288), (0, 0, 192), (1, 0, 96), (1, 0, 0), (2, 0, 0)] := by decide +kernel

/-- The same example: fifteen refills put 100 and 200 bytes into the empty buckets. -/
theorem test_policer_refill :
    Nat.repeat (refill 8000 288) 15 0 = 100 * 1200 ∧ Nat.repeat (refill 16000 480) 15 0 = 200 * 1200 := by decide +kernel

/-- The example under R549: four updates under a cap of 900 W, at 90 °C. -/
theorem test_power_cap :
    shareStep 900 960 1440 0x80 = 0x78 ∧ shareStep 900 930 1440 0x78 = 0x70 ∧ shareStep 900 880 1440 0x70 = 0x70 ∧
    shareStep 900 840 1440 0x70 = 0x78 := by decide

/-- The words of the first worked program: all pass the load check of pass B, and word 6 decodes as the manual says. -/
theorem test_program_words :
    (([0x0D000810, 0x11010210, 0x4D280000, 0x11422890, 0x13A92290, 0x0D601810, 0x138112D0, 0x63DD0000] : List W32).all
      (insOk false)) = true ∧ insOf 0x138112D0 = ⟨4, 28, 1, 2, 11, false, true, false, 0⟩ := by decide +kernel

/-- The example under R321: three parts of an FP32 sum depend on their order. -/
theorem test_sum_order :
    fAdd (fAdd 0x4B800000 0x3F800000) 0xCB800000 = 0 ∧ fAdd (fAdd 0x4B800000 0xCB800000) 0x3F800000 = 0x3F800000 := by
  decide +kernel

/-- The example under R39: an event in the fabric clock of the clearing write stays set; a later write clears it. -/
theorem test_clear_and_set :
    (match exec (.w1cClear .owl 0x70 1 1) { w1 with top := { w1.top with evstat := 1 } } with
    | .next t => some t.top.evstat | _ => none) = some 1 ∧
    (match exec (.w1cClear .owl 0x70 1 0) { w1 with top := { w1.top with evstat := 1 } } with
    | .next t => some t.top.evstat | _ => none) = some 0 := by decide +kernel

/-- R564: a write of RESET drops the lines of the queue pair that have not been started, and those alone. -/
theorem test_reset_drops_packets :
    (({ w1 with hst := { w1.hst with qps := [(5, { b := [(0, 1)] })] },
                txns := [{ kind := .host, unit := 5, phase := .ring }, { kind := .host, unit := 6, phase := .ring }] } : State).qpWrite 5 0 0).txns.map
      (·.unit) = [6] := by decide +kernel

/-- R593: a death sweep stays queued until HIBERNATE is left. -/
theorem test_sweep_waits :
    (match exec (.deathSweepEnd 1) { w1 with owl := { w1.owl with swept := true }, setts := [(1, { sweep := some 5 })] } with
    | .next t => (t.sett 1).sweep | _ => none) = some 5 := by decide +kernel

/-! ### Check values from outside the manual

PRESUMED: the published check values of the named algorithms. -/

/-- "123456789" under CRC-32C and CRC-64. -/
theorem test_crc :
    crc32c (toLe 9 0x393837363534333231) = 0xE3069283 ∧ crc64 (toLe 9 0x393837363534333231) = 0x995DC9BBDF1939FA := by
  decide +kernel

/-- "abc" under SM3 (GB/T 32905, example 1). -/
theorem test_sm3 :
    sm3 [0x61, 0x62, 0x63] = [0x66, 0xc7, 0xf0, 0xf4, 0x62, 0xee, 0xed, 0xd9, 0xd1, 0xf2, 0xd4, 0x6b, 0xdc, 0x10, 0xe4, 0xe2, 0x41,
      0x67, 0xc4, 0x87, 0x5c, 0xf2, 0xf7, 0xa2, 0x29, 0x7d, 0xa0, 0x2b, 0x8f, 0x4b, 0xa8, 0xe0] := by decide +kernel

/-- GB/T 32907, example 1: a block under SM4, with a key of the same bytes. -/
theorem test_sm4 : sm4Block (sm4Keys (toBe 16 0x0123456789ABCDEFFEDCBA9876543210)) (toBe 16 0x0123456789ABCDEFFEDCBA9876543210) =
    toBe 16 0x681EDF34D206965E86B3E94F536E4246 := by decide +kernel

/-- GB/T 32918.5: the public key of the example, and its signature of the message "message digest". -/
theorem test_sm2_key : sm2Key 0x3945208F7B2144B13F36E38AC6D39F95889393692860B51A42FB81EF4DF7C5B8 = kroot := by decide +kernel
theorem test_sm2_signature : sm2Verify (toBe 16 0x31323334353637383132333435363738) kroot (toBe 14 0x6D65737361676520646967657374)
    (toBe 64 0xF5A03B0648D2C4630EEAC513E1BB81A15944DA3827D5B74143AC7EACEEE720B3B1B6AA29DF212FD8763182BC0D421CA1BB9038FD1F7F42D4840B69C485BBC1AA) =
    true := by decide +kernel
theorem test_sm2_other : sm2Verify (toBe 16 0x31323334353637383132333435363738) kroot (toBe 14 0x6D65737361676520646967657375)
    (toBe 64 0xF5A03B0648D2C4630EEAC513E1BB81A15944DA3827D5B74143AC7EACEEE720B3B1B6AA29DF212FD8763182BC0D421CA1BB9038FD1F7F42D4840B69C485BBC1AA) =
    false := by decide +kernel

/-! ### Premises that rest on a signature

The signatures are real ones, of the key pair of the example in GB/T 32918.5. The device identifier rests on the device's private key, a
constant with no body, and so do Chesamund's keys and a firmware header's form, so these name what they take of them. -/

theorem order_ok (s : State) (b k : Bytes) (id : s.deviceId = zz 16)
    (sig : sm2Verify sigLife k (slice b 0 64) (slice b 64 64) = true) (key : k ∈ s.orderKeys b)
    (bad : (decide (b.length ≠ if State.newRoot b then 192 else 128) || fld b 0 4 != 0x72001C0D || decide (3 < fld b 5 1) ||
      fld b 6 2 != 0 || slice b 16 16 != zz 16 ||
      slice b 32 32 != (if State.newRoot b then sm3 (slice b 128 64) else List.replicate 32 0) || !s.orderForm b) = false)
    (free : ¬(s.orderBurns b = true ∧ s.nextFuse.isNone = true))
    (calm : ¬(s.sec.wipeRun = true ∨ (s.chans.any fun (_, c) => c.migr.isSome) = true))
    (wiped : ¬(s.life = 3 ∧ (!s.flash.wiped) = true ∧ (fld b 4 1 = 2 ∨ State.openD2 b = true)))
    (fresh : ¬(fld b 8 4 ≠ lcCount s.sec.life ∨ fld b 12 4 ≠ s.flash.bootcnt.toNat)) : s.orderStatus b = .ok := by
  unfold State.orderStatus
  have h1 : s.orderBad b = false := by unfold State.orderBad; rw [id]; exact bad
  have h2 : ((s.orderKeys b).any fun k => sm2Verify sigLife k (slice b 0 64) (slice b 64 64)) = true :=
    List.any_eq_true.2 ⟨k, key, sig⟩
  rw [Status.first_ok_iff]
  have h3 : ¬((!s.orderAgain b) = true ∧ (s.sec.wipeRun = true ∨ (s.chans.any fun (_, c) => c.migr.isSome) = true)) := fun h => calm h.2
  simp only [h1, h2, if_neg free, if_neg h3, if_neg wiped, if_neg fresh]
  decide

theorem test_ord1_signed : sm2Verify sigLife kroot (slice ord1 0 64) (slice ord1 64 64) = true := by decide +kernel
theorem test_ord2_signed : sm2Verify sigLife kroot (slice ord2 0 64) (slice ord2 64 64) = true := by decide +kernel
theorem test_ord3_signed : sm2Verify sigLife kroot (slice ord3 0 64) (slice ord3 64 64) = true := by decide +kernel
theorem test_ord4_signed : sm2Verify sigLife kroot (slice ord4 0 64) (slice ord4 64 64) = true := by decide +kernel
theorem test_ord5_signed : sm2Verify sigLife kroot (slice ord5 0 64) (slice ord5 64 64) = true := by decide +kernel

theorem test_meets_OwlSecurity_signed (id : wow.deviceId = zz 16) :
    (∃ (s : State) (sess i : Nat) (b : Bytes), s.Hears sess ∧ s.orderStatus b = .ok ∧ fld b 4 1 = 2 ∧ s.life ≠ 2 ∧ s.nextFuse = some i) ∧
    (∃ (s : State) (sess i : Nat) (b : Bytes), s.Hears sess ∧ s.orderStatus b = .ok ∧ fld b 4 1 = 3 ∧ s.life ≠ 3 ∧ s.nextFuse = some i) ∧
    (∃ (s : State) (sess : Nat) (b : Bytes), s.Hears sess ∧ s.orderStatus b = .ok ∧ fld b 4 1 = 4) ∧
    (∃ (s : State) (sess : Nat) (b : Bytes),
      s.Hears sess ∧ s.orderStatus b = .ok ∧ fld b 4 1 = s.life ∧ State.openD2 b = true) ∧
    (∃ (s : State) (sess : Nat) (b : Bytes),
      s.Hears sess ∧ s.orderStatus b = .ok ∧ fld b 4 1 = s.life ∧ State.newRoot b = true ∧ State.openD2 b = false) := by
  refine ⟨⟨wl2, 0, 3, ord1, ?_, order_ok _ _ kroot id test_ord1_signed ?_ ?_ ?_ ?_ ?_ ?_, ?_⟩,
    ⟨wwp, 0, 2, ord2, ?_, order_ok _ _ kroot id test_ord2_signed ?_ ?_ ?_ ?_ ?_ ?_, ?_⟩,
    ⟨wwp, 0, ord3, ?_, order_ok _ _ kroot id test_ord3_signed ?_ ?_ ?_ ?_ ?_ ?_, ?_⟩,
    ⟨wl2, 0, ord4, ?_, order_ok _ _ kroot id test_ord4_signed ?_ ?_ ?_ ?_ ?_ ?_, ?_⟩,
    ⟨wwp, 0, ord5, ?_, order_ok _ _ kroot id test_ord5_signed ?_ ?_ ?_ ?_ ?_ ?_, ?_⟩⟩ <;>
    (try simp only [State.Hears]) <;> decide +kernel

theorem test_token_signed : sm2Verify sigConsent kroot (slice tokb 0 64) (slice tokb 64 64) = true := by decide +kernel

theorem test_meets_Consent_signed (id : w1.deviceId = zz 16) :
    ∃ (s : State) (p : Nat) (b : Bytes),
      p < 32 ∧ s.CanPage (.host p) p 0x7004 ∧ s.tokenResult p = 1 ∧ b = (s.part p).dbg.tokenBytes := by
  refine ⟨wdb { Dbg.reset with key := some kroot, tokw := toks tokb }, 0, tokb, by decide, ?_, ?_, by decide +kernel⟩
  · simp only [State.CanPage]; decide +kernel
  · have hb : ((wdb { Dbg.reset with key := some kroot, tokw := toks tokb }).part 0).dbg.tokenBytes = tokb := by decide +kernel
    have hk : ((wdb { Dbg.reset with key := some kroot, tokw := toks tokb }).part 0).dbg.key = some kroot := by decide +kernel
    have hid : (wdb { Dbg.reset with key := some kroot, tokw := toks tokb }).deviceId = zz 16 := id
    unfold State.tokenResult State.tokenAgrees
    simp only [hb, hk, test_token_signed, hid]
    decide +kernel

theorem test_kib1_signed : sm2Verify sigKeyInst kroot (slice kib1 0 96) (slice kib1 96 64) = true := by decide +kernel
theorem test_kib2_signed : sm2Verify sigKeyInst kroot (slice kib2 0 96) (slice kib2 96 64) = true := by decide +kernel

theorem test_meets_OwlFirmware_signed (id : wow.deviceId = zz 16)
    (hdr : Config.fwHeader (zz 256) = (0x7200F1A0, 3, 300, [1]))
    (fw : sm2Verify sigFw (Config.chesamundKey 2) (Config.fwCovered (zz 300)) [1] = true) :
    (∃ (s : State) (sess i : Nat) (b : Bytes), s.Hears sess ∧ b.length = 160 ∧ keyBodyOk b = true ∧ s.keyStatus b = .ok ∧
      fld b 0 1 = 1 ∧ i = fld b 1 1) ∧
    (∃ (s : State) (sess i : Nat) (b : Bytes), s.Hears sess ∧ b.length = 160 ∧ keyBodyOk b = true ∧ s.keyStatus b = .ok ∧
      fld b 0 1 = 2 ∧ i = fld b 1 1) ∧
    (∃ (s : State) (sess v : Nat) (w : Bytes), s.Hears sess ∧ (s.sess sess).held cFwWrite = [] ∧ w.length + 4 ≤ bodyMax ∧
      s.fwStatus w = .ok ∧ v = (Config.fwHeader (slice w 0 256)).2.1) := by
  have h (s : State) (b : Bytes) (hs : s.flash.root = some kroot) (hi : s.deviceId = zz 16)
      (hv : sm2Verify sigKeyInst kroot (slice b 0 96) (slice b 96 64) = true)
      (hf : fld b 4 4 = s.flash.bootcnt.toNat ∧ slice b 8 16 = zz 16) : s.keyStatus b = .ok := by
    unfold State.keyStatus; rw [hi]; simp only [hs, hv, if_pos hf]; decide
  have hz : slice (zz 300) 0 256 = zz 256 := by decide +kernel
  have hf : wow.fwStatus (zz 300) = .ok := by unfold State.fwStatus; simp only [hz, hdr, fw]; decide +kernel
  refine ⟨⟨wow, 0, 2, kib1, ?_, ?_, ?_, h _ _ ?_ id test_kib1_signed ?_, ?_⟩,
    ⟨{ wow with flash := { wow.flash with layKeys := [(2, kroot)] } }, 0, 2, kib2, ?_, ?_, ?_,
      h _ _ ?_ id test_kib2_signed ?_, ?_⟩,
    ⟨wow, 0, 3, zz 300, ?_, ?_, ?_, hf, by rw [hz, hdr]⟩⟩
  all_goals (try simp only [State.Hears]) <;> decide +kernel

theorem test_gimg_signed : sm2Verify sigLayout kroot (ghead ++ gsec) gsig = true := by decide +kernel
theorem test_psimg77_signed : sm2Verify sigLayout kroot (bodyOf (psimg 77)) (psig 77) = true := by decide +kernel
theorem test_psimg78_signed : sm2Verify sigLayout kroot (bodyOf (psimg 78)) (psig 78) = true := by decide +kernel

theorem trailer_ok (s : State) (tr cov g : Bytes) (h : s.layKey (fld tr 0 1) = some kroot) (d : slice tr 32 32 = sm3 cov)
    (z : slice tr 64 64 = g) (sig : sm2Verify sigLayout kroot cov g = true) : s.trailerOk tr cov = true := by
  unfold State.trailerOk State.signOk; rw [h]; simp only [d, z, sig]; simp

theorem test_meets_OwlLayouts_signed :
    (∃ (s : State) (sess p : Nat) (w : Bytes) (c : PartSec), s.Hears sess ∧ (s.sess sess).held cLayoutLoad = [] ∧
      s.loadCheck w = .ok c ∧ p = sectPart w ∧ (s.lay.getD Layout.reset).builtin = false ∧ s.inWarm = false ∧
      (s.part p).st = .quiesced ∧ p ∉ s.owl.scrubs ∧ (s.part p).secBad = false ∧ c.tenant = s.tenant p) ∧
    (∃ (s : State) (sess p : Nat) (w : Bytes) (c : PartSec), s.Hears sess ∧ (s.sess sess).held cLayoutLoad = [] ∧
      s.loadCheck w = .ok c ∧ p = sectPart w ∧ (s.lay.getD Layout.reset).builtin = false ∧ s.inWarm = false ∧
      (s.part p).st = .quiesced ∧ p ∉ s.owl.scrubs ∧ (s.prec p).isSome = true ∧ c.tenant ≠ s.tenant p) ∧
    (∃ (s : State) (sess : Nat) (w : Bytes), s.Hears sess ∧ (s.sess sess).held cLayoutStage = [] ∧ w.length + 4 ≤ bodyMax ∧
      s.imageForm w = none ∧ s.phase ≠ .waitImage ∧ s.top.layoutOk = true) ∧
    (∃ (s : State) (sess : Nat) (w : Bytes), s.Hears sess ∧ (s.sess sess).held cLayoutFlash = [] ∧ w.length + 4 ≤ bodyMax ∧
      s.imageForm w = none) := by
  have hl (t : Nat) (ht : t = 77 ∨ t = 78) : kq.trailerOk (trailerOf (psimg t)) (bodyOf (psimg t)) = true := by
    rcases ht with rfl | rfl
    · refine trailer_ok _ _ _ _ ?_ ?_ ?_ test_psimg77_signed <;> decide +kernel
    · refine trailer_ok _ _ _ _ ?_ ?_ ?_ test_psimg78_signed <;> decide +kernel
  have hg : kst.trailerOk (trailerOf (sectionOf gimg 0)) (slice gimg 0 headLen ++ bodyOf (sectionOf gimg 0)) = true := by
    rw [show slice gimg 0 headLen ++ bodyOf (sectionOf gimg 0) = ghead ++ gsec by decide +kernel]
    refine trailer_ok _ _ _ _ ?_ ?_ ?_ test_gimg_signed <;> decide +kernel
  have hf : kst.imageForm gimg = none := by unfold State.imageForm; simp only [hg]; decide +kernel
  refine ⟨⟨kq, 0, 0, psimg 77, psc 77, ?_, ?_, ?_, ?_⟩, ⟨kq, 0, 0, psimg 78, psc 78, ?_, ?_, ?_, ?_⟩,
    ⟨kst, 0, gimg, ?_, ?_, ?_, hf, ?_⟩, ⟨kst, 0, gimg, ?_, ?_, ?_, hf⟩⟩
  case refine_3 => unfold State.loadCheck State.partSection; simp only [hl 77 (.inl rfl)]; decide +kernel
  case refine_7 => unfold State.loadCheck State.partSection; simp only [hl 78 (.inr rfl)]; decide +kernel
  all_goals (try simp only [State.Hears]) <;> decide +kernel

theorem test_meets_ColdStart_signed :
    ∃ (s : State) (i : Bytes) (l : Layout) (bad : List LayErr), s.phase = .content ∧ s.owl.staged = none ∧
      (s.firstFormed s.flashImages).1.map (·.1) = some i ∧ s.imageContent i = .ok (l, bad) ∧ ∀ k < 8, s.PortIdle k := by
  let s : State := { kst with phase := .content, lay := none, flash := { kst.flash with a := { FwBank.reset with lay := gimg } }, chans := [] }
  have hg : s.trailerOk (trailerOf (sectionOf gimg 0)) (slice gimg 0 headLen ++ bodyOf (sectionOf gimg 0)) = true := by
    rw [show slice gimg 0 headLen ++ bodyOf (sectionOf gimg 0) = ghead ++ gsec by decide +kernel]
    refine trailer_ok _ _ _ _ ?_ ?_ ?_ test_gimg_signed <;> decide +kernel
  have hf : s.imageForm gimg = none := by unfold State.imageForm; simp only [hg]; decide +kernel
  have hi : s.flashImages = [gimg] := by decide +kernel
  exact ⟨s, gimg, glay, [], by decide +kernel, by decide +kernel, by rw [hi]; unfold State.firstFormed; rw [hf]; rfl, by decide +kernel,
    by simp only [State.PortIdle]; decide +kernel⟩

end Sys2Proof.Tests
end

section
/-! SUPPORT. The status reported of several conditions (R49): it is one of them, and none of them comes before it. -/

namespace Sys2Proof.Machine
open Sys2Proof

theorem Status.worst_eq_or (a b : Status) : Status.worst a b = a ∨ Status.worst a b = b := by
  unfold Status.worst
  split
  · exact .inl rfl
  · exact .inr rfl

theorem Status.rank_worst (a b : Status) : (Status.worst a b).rank = min a.rank b.rank := by
  unfold Status.worst
  split <;> omega

theorem Status.foldl_worst_mem (l : List Status) (a : Status) : l.foldl Status.worst a = a ∨ l.foldl Status.worst a ∈ l := by
  induction l generalizing a with
  | nil => exact .inl rfl
  | cons y l ih =>
    rw [List.foldl_cons]
    rcases ih (Status.worst a y) with h | h
    · rcases Status.worst_eq_or a y with e | e
      · exact .inl (h.trans e)
      · exact .inr (by rw [h, e]; exact .head l)
    · exact .inr (.tail y h)

theorem Status.rank_foldl_worst_le (l : List Status) (a : Status) :
    (l.foldl Status.worst a).rank ≤ a.rank ∧ ∀ x ∈ l, (l.foldl Status.worst a).rank ≤ x.rank := by
  induction l generalizing a with
  | nil => simp
  | cons y l ih =>
    obtain ⟨ha, hl⟩ := ih (Status.worst a y)
    rw [Status.rank_worst, Nat.le_min] at ha
    exact ⟨ha.1, List.forall_mem_cons.2 ⟨ha.2, hl⟩⟩

/-- OK is reported of a list that holds conditions only if they are all OK, so it too is one of them. -/
theorem Status.first_mem {l : List Status} (hl : l ≠ []) : Status.first l ∈ l := by
  rcases Status.foldl_worst_mem l .ok with h | h
  · obtain ⟨x, hx⟩ := List.exists_mem_of_ne_nil l hl
    obtain rfl : x = .ok := (Status.first_ok_iff l).1 h x hx
    rw [Status.first, h]; exact hx
  · exact h

/-- Settles O58: the fold keeps the condition of least rank among those seen, and the list of the statement is in rank order. -/
theorem statusPrecedence : Obligations.StatusPrecedence := by
  refine ⟨fun l => ⟨?_, (Status.rank_foldl_worst_le l .ok).2⟩, by decide⟩
  by_cases hl : l = []
  · subst hl; exact .inr ⟨rfl, rfl⟩
  · exact .inl (Status.first_mem hl)

end Sys2Proof.Machine
end

section
/-! SUPPORT. Writes of one register (R27–R40): one equation for each kind of register, the armings that an unlock write or a
keyed write leaves, and the bits that a clearing write leaves. -/

namespace Sys2Proof.Machine
open Sys2Proof

variable (s : State) (path : Path) (off u w : Nat) (v sets : W32)

/-! ### Armings (R32–R35) -/

/-- Disarming takes the path's arming of that register and no other. -/
theorem State.armed_disarm : (s.disarm path u).armed path w = (w != u && s.armed path w) := by
  simp only [State.armed, State.disarm, List.any_filter]
  rw [Bool.eq_iff_iff]
  simp only [List.any_eq_true, Bool.and_eq_true, bne_iff_ne, beq_iff_eq, Bool.not_eq_true', Bool.and_eq_false_iff,
    beq_eq_false_iff_ne]
  constructor
  · rintro ⟨a, ha, hne, ⟨rfl, hhost⟩, hlive⟩
    exact ⟨hne.resolve_right (fun h => h hhost), a, ha, ⟨rfl, hhost⟩, hlive⟩
  · rintro ⟨hne, a, ha, ⟨rfl, hhost⟩, hlive⟩
    exact ⟨a, ha, .inl hne, ⟨rfl, hhost⟩, hlive⟩

@[simp] theorem State.armed_disarm_same : (s.disarm path u).armed path u = false := by simp [State.armed_disarm]

/-- R32: the key arms the register at the present clock. -/
theorem State.unlockReg_key :
    s.unlockReg path u Config.unlockKey = { s with arms := (s.disarm path u).arms ++ [⟨u, Path.isHost path, s.clk⟩] } := by
  simp only [State.unlockReg, if_true]; rfl

theorem State.unlockReg_other {v : W32} (hv : v ≠ Config.unlockKey) : s.unlockReg path u v = (s.disarm path u).keyFail := by
  simp only [State.unlockReg, if_neg hv]

/-- An arming added at the present clock arms its register. -/
theorem State.armed_append (l : List Arming) :
    State.armed { s with arms := l ++ [⟨u, Path.isHost path, s.clk⟩] } path w = (State.armed { s with arms := l } path w || u == w) := by
  simp [State.armed, Config.lapseClk]

/-- The key arms the register that it is written to; of the path's other armings each stands as it did. -/
theorem State.armed_unlockReg_key :
    (s.unlockReg path u Config.unlockKey).armed path w = (w == u || s.armed path w) := by
  have happ : (s.unlockReg path u Config.unlockKey).armed path w = ((s.disarm path u).armed path w || u == w) := by
    rw [State.unlockReg_key]
    exact s.armed_append path u w (s.disarm path u).arms
  rw [happ, State.armed_disarm]
  by_cases hu : w = u
  · simp [hu]
  · simp [bne, beq_false_of_ne hu, beq_false_of_ne (Ne.symm hu)]

/-! ### The write of one register (R27–R35) -/

theorem State.write_of_pathUp (hp : s.pathUp path = true) : s.write path off v = s.regWrite path (reach path off) v :=
  if_pos hp

section
variable {s path off} (h4 : off % 4 = 0) (hb : owlBarred path off = false)
include h4 hb

theorem State.regWrite_unlock (hu : isUnlock off = true) : s.regWrite path off v = s.unlockReg path off v := by
  simp [State.regWrite, h4, hb, hu]

variable (hu : isUnlock off = false)
include hu

theorem State.regWrite_none (hc : s.cell off = none) : s.regWrite path off v = s.badAddr := by
  simp [State.regWrite, h4, hb, hu, hc]

variable {x : Nat}

theorem State.regWrite_ro (hc : s.cell off = some ⟨.ro, x⟩) : s.regWrite path off v = s := by
  simp [State.regWrite, h4, hb, hu, hc]

theorem State.regWrite_rw (hc : s.cell off = some ⟨.rw, x⟩) : s.regWrite path off v = s.effect path off v := by
  simp [State.regWrite, h4, hb, hu, hc]

theorem State.regWrite_w1c (hc : s.cell off = some ⟨.w1c, x⟩) : s.regWrite path off v = s.w1cWrite off v 0 := by
  simp [State.regWrite, h4, hb, hu, hc]

theorem State.regWrite_keyed (hc : s.cell off = some ⟨.keyed, x⟩) :
    s.regWrite path off v =
      if s.armed path (unlockOf off) then (s.disarm path (unlockOf off)).effect path off v else s.keyFail := by
  simp [State.regWrite, h4, hb, hu, hc]

end

theorem exec_registerWrite : exec (.registerWrite path off v) s = .next (s.write path off v) := rfl
theorem exec_unlockWrite : exec (.unlockWrite path off v) s = .next (s.write path off v) := rfl

/-- R32–R34: TOP_SCRATCH is written while TOP_UNLOCK is armed, and the arming is used up. -/
theorem State.write_topScratch (hk : s.CanKey .owl 0x64) :
    s.write .owl 0x64 v = { s.disarm .owl 0x50 with top := { s.top with scratch := v } } := by
  obtain ⟨hp, ha⟩ := hk
  have hc : s.cell 0x64 = some ⟨.keyed, s.top.scratch.toNat⟩ := rfl
  rw [State.write_of_pathUp _ _ _ _ hp, show reach .owl 0x64 = 0x64 from rfl,
    State.regWrite_keyed v (by decide) (by decide) (by decide) hc, if_pos ha]
  rfl

/-- Settles O12, by the kind of the register that the write reaches. -/
theorem registerWrites : Obligations.RegisterWrites := by
  refine ⟨?_, ?_, ?_⟩
  · intro s path off v ⟨kind, x⟩ hp h4 hb hu hc
    rw [exec_registerWrite, State.write_of_pathUp _ _ _ _ hp]
    cases kind with
    | ro => exact congrArg _ (State.regWrite_ro v h4 hb hu hc)
    | rw => exact congrArg _ (State.regWrite_rw v h4 hb hu hc)
    | keyed => exact congrArg _ (State.regWrite_keyed v h4 hb hu hc)
    | w1c => exact congrArg _ (State.regWrite_w1c v h4 hb hu hc)
  · intro s path off v hp h4 hb hu hc
    rw [exec_registerWrite, State.write_of_pathUp _ _ _ _ hp, State.regWrite_none v h4 hb hu hc]
    rfl
  · intro s v hk
    exact ⟨_, (exec_registerWrite ..).trans (congrArg _ (s.write_topScratch v hk)), rfl, s.armed_disarm_same .owl 0x50⟩

/-- R34: an arming that has lapsed counts no more, so its removal changes no register's state. -/
theorem State.armed_lapse :
    State.armed { s with arms := s.arms.filter fun a =>
      !(a.unlock == u && a.host == Path.isHost path && decide (Config.lapseClk + a.at_ ≤ s.clk)) } path w = s.armed path w := by
  simp only [State.armed, List.any_filter]
  congr 1
  funext a
  by_cases hlive : s.clk < Config.lapseClk + a.at_
  · simp [hlive]
  · simp [hlive]

/-- Settles O13, by what the key, another value and the passing of time leave in the list of armings. -/
theorem unlockRegisters : Obligations.UnlockRegisters := by
  refine ⟨?_, ?_, ?_⟩
  · intro s path off hp h4 hu hb
    have hw : s.write path off Config.unlockKey = s.unlockReg path (reach path off) Config.unlockKey :=
      (s.write_of_pathUp path off _ hp).trans (State.regWrite_unlock _ h4 hb hu)
    refine ⟨_, (exec_unlockWrite ..).trans (congrArg _ hw), ?_, ?_, ?_⟩
    · rw [State.unlockReg_key]
    · simp [State.armed_unlockReg_key]
    · intro u hne; simp [State.armed_unlockReg_key, hne]
  · intro s path off v hp h4 hu hb hv
    have hw : s.write path off v = (s.disarm path (reach path off)).keyFail :=
      ((s.write_of_pathUp path off _ hp).trans (State.regWrite_unlock _ h4 hb hu)).trans (s.unlockReg_other path _ hv)
    exact ⟨_, (exec_unlockWrite ..).trans (congrArg _ hw), rfl, s.armed_disarm_same path (reach path off)⟩
  · intro s path off
    refine ⟨_, rfl, rfl, ?_, fun u => s.armed_lapse path (reach path off) u⟩
    intro a ha hunlock hhost
    have hlive := (List.mem_filter.1 ha).2
    simp only [hunlock, hhost, beq_self_eq_true, Bool.true_and, Bool.not_eq_true', decide_eq_false_iff_not] at hlive
    exact Nat.lt_of_not_le hlive

/-! ### Clearing writes (R39, R40) -/

/-- R40: what hardware sets is set; of the rest, what was set and the write does not name. -/
theorem getLsbD_w1cBits {n : Nat} (old : BitVec n) {i : Nat} (hi : i < n) :
    (w1cBits old v sets).getLsbD i = (sets.getLsbD i || (old.getLsbD i && !v.getLsbD i)) := by
  simp [w1cBits, hi, Bool.or_comm]

theorem exec_w1cClear {s : State} {path : Path} {off x : Nat} (hp : s.pathUp path = true) (h4 : reach path off % 4 = 0)
    (hb : owlBarred path (reach path off) = false) (hc : s.cell (reach path off) = some ⟨.w1c, x⟩) :
    exec (.w1cClear path off v sets) s = .next (s.w1cWrite (reach path off) v sets) := by
  show execW1cClear path off v sets s = _
  simp [execW1cClear, hp, h4, hb, hc]

theorem State.pathUp_owl (hr : s.owl.st = .run) : s.pathUp .owl = true := by simp [State.pathUp, Path.isHost, hr]
theorem State.pathUp_host (p : Nat) (hr : s.top.ready = true) : s.pathUp (.host p) = true := hr

/-- Settles O14: TOP_EVSTAT is one of the W1C registers, and its four bits are four flags with a counter each. -/
theorem clearingWrites : Obligations.ClearingWrites := by
  refine ⟨fun s path off v sets x hp h4 hb hc => exec_w1cClear v sets hp h4 hb hc, ?_⟩
  intro s v sets hr
  have hc : s.cell 0x70 = some ⟨.w1c, s.top.evstat.toNat⟩ := rfl
  refine ⟨s.topW1c v sets, exec_w1cClear (path := .owl) v sets (s.pathUp_owl hr) (by decide) (by decide) hc,
    rfl, ?_, rfl, rfl, rfl, rfl⟩
  intro i hi
  exact getLsbD_w1cBits v sets s.top.evstat hi

end Sys2Proof.Machine
end

section
/-! SUPPORT. Triplicated fields (R36, R37): what is read of a field after its copies are set, and a vote in which one copy differs. -/

namespace Sys2Proof.Machine
open Sys2Proof

variable (s : State) (f : RwtField) (r : Rwt)

@[simp] theorem State.setRwt_rwtCanon (g : RwtField) : (s.setRwt f r).rwtCanon g = s.rwtCanon g := rfl

@[simp] theorem State.voteFix_rwtOf : s.voteFix.rwtOf f = s.rwtOf f := rfl

/-- A field's copies are those set, whether they are listed or stand for the field's value. -/
@[simp] theorem State.setRwt_rwtOf : (s.setRwt f r).rwtOf f = r := by
  simp only [State.rwtOf, State.setRwt_rwtCanon]
  simp only [State.setRwt]
  split
  · next h => simp [tget_tdel, h]
  · simp

/-- A field whose copies are taken off the list holds its value in all three. -/
theorem State.rwtOf_tdel :
    State.rwtOf { s with rwt := tdel s.rwt (rwtKey f) } f = ⟨s.rwtCanon f, s.rwtCanon f, s.rwtCanon f, s.rwtCanon f, false⟩ := by
  show tget _ (tdel s.rwt (rwtKey f)) (rwtKey f) = _
  rw [tget_tdel, if_pos rfl]
  rfl

/-- R36: a legal value that two copies hold is used, the third copy is rewritten and the correction counted. -/
theorem State.vote_of_majority {v : Nat} (hv : s.rwtUse f = some v)
    (hd : ¬ ((s.rwtOf f).a = (s.rwtOf f).b ∧ (s.rwtOf f).b = (s.rwtOf f).c)) :
    s.vote f = (s.setRwt f ⟨v, v, v, v, false⟩).voteFix := by
  simp only [State.vote, hv, if_neg hd]

/-- R36: copies that agree on a legal value, after one is disturbed: two still hold the value, and not all three. -/
theorem State.upset_majority {s : State} {f : RwtField} {v c mask : Nat} (hr : s.rwtOf f = ⟨v, v, v, v, false⟩)
    (hl : rwtLegal f v = true) (hm : mask ≠ 0) :
    (s.upset ⟨f, c, mask⟩).rwtUse f = some v ∧
    ¬ (((s.upset ⟨f, c, mask⟩).rwtOf f).a = ((s.upset ⟨f, c, mask⟩).rwtOf f).b ∧
      ((s.upset ⟨f, c, mask⟩).rwtOf f).b = ((s.upset ⟨f, c, mask⟩).rwtOf f).c) := by
  have hne : v ^^^ mask ≠ v := by simpa using hm
  simp only [State.rwtUse, State.upset, State.setRwt_rwtOf, hr]
  split
  · simp [voted, hne, hl]
  · split
    · simp [voted, hne, hne.symm, hl]
    · simp [voted, hne.symm, hl]

theorem exec_rwtRevote_one {s : State} (u : Upset) (hd : s.due 5 1048576 = true) :
    exec (.rwtRevote [u]) s = .next (((s.took 5 1048576).upset u).vote u.field) := by
  show execRwtRevote [u] s = _
  simp [execRwtRevote, hd]

theorem exec_rwtRewrite_failed {s : State} (hf : (s.rwtOf f).failed = true) (hr : s.owl.st = .run) :
    exec (.rwtRewrite f) s = .next { s with rwt := tdel s.rwt (rwtKey f) } := by
  show execRwtRewrite f s = _
  simp [execRwtRewrite, hf, hr]

/-- Settles O15: after one disturbance the field keeps its majority, and a rewritten field holds its value. -/
theorem triplicatedFields : Obligations.TriplicatedFields := by
  refine ⟨?_, ?_⟩
  · intro s f v c mask hr hl hm _ hd
    obtain ⟨huse, hdiff⟩ := State.upset_majority (s := s.took 5 1048576) (c := c) hr hl hm
    have hvote := State.vote_of_majority _ f huse hdiff
    refine ⟨_, (exec_rwtRevote_one ⟨f, c, mask⟩ hd).trans (congrArg _ hvote), rfl, ?_⟩
    rw [hr, State.voteFix_rwtOf]
    exact State.setRwt_rwtOf ..
  · intro s f hf hr
    exact ⟨_, exec_rwtRewrite_failed f hf hr, rfl, s.rwtOf_tdel f⟩

end Sys2Proof.Machine
end

section
/-! SUPPORT. FIFO-style interfaces (R41–R45): where their command registers stand, and what each command does. -/

namespace Sys2Proof.Machine
open Sys2Proof

/-! ### Where the command registers stand -/

/-- R45: the block that holds an interface, and the offset of its registers in the block. -/
def fifoPlace : FifoId → Block × Nat
  | .inq e => (.fox e, 0x100)
  | .mbox => (.owl, 0x100)
  | .spdm p => (.page p, 0x7100)

theorem blockAt_fox {e i : Nat} (he : e < 64) (hi : i < 0x1000) : blockAt (0x400000 + 0x1000 * e + i) = (.fox e, i) := by
  rw [blockAt]
  iterate 3 rw [if_neg (by omega)]
  rw [if_pos (by omega)]
  congr 2 <;> omega

theorem blockAt_owl {i : Nat} (hi : i < 0x100000) : blockAt (0xC00000 + i) = (.owl, i) := by
  rw [blockAt]
  iterate 9 rw [if_neg (by omega)]
  rw [if_pos (by omega)]
  congr 1; omega

theorem blockAt_page {p i : Nat} (hp : p < 32) (hi : i < 0x10000) : blockAt (pageBase p + i) = (.page p, i) := by
  rw [pageBase, blockAt]
  iterate 11 rw [if_neg (by omega)]
  rw [if_pos (by omega)]
  congr 2 <;> omega

theorem blockAt_fifoOff {f : FifoId} {i : Nat} (hf : f.bound.1 < f.bound.2) (hi : i < 0x100) :
    blockAt (fifoOff f i) = ((fifoPlace f).1, (fifoPlace f).2 + i) := by
  cases f with
  | inq e =>
    rw [show fifoOff (.inq e) i = 0x400000 + 0x1000 * e + (0x100 + i) by simp only [fifoOff]; omega]
    exact blockAt_fox hf (by omega)
  | mbox =>
    rw [show fifoOff .mbox i = 0xC00000 + (0x100 + i) by simp only [fifoOff]; omega]
    exact blockAt_owl (by omega)
  | spdm p =>
    rw [show fifoOff (.spdm p) i = pageBase p + (0x7100 + i) by simp only [fifoOff]; omega]
    exact blockAt_page hf (by omega)

section
variable {s : State} {path : Path} {f : FifoId} {i : Nat} {v : W32} (hf : f.bound.1 < f.bound.2)
  (hi : i = 0x0C ∨ i = 0x10 ∨ i = 0x14)
include hf hi

theorem isUnlock_fifoOff : isUnlock (fifoOff f i) = false := by
  unfold isUnlock
  rw [blockAt_fifoOff hf (by omega)]
  rcases hi with rfl | rfl | rfl <;> cases f <;> rfl

/-- R522 bars Owl from a page's consent registers; the interface there is the one that Owl does not reach. -/
theorem owlBarred_fifoOff (hr : fifoPath path f = true) : owlBarred path (fifoOff f i) = false := by
  unfold owlBarred
  rw [blockAt_fifoOff hf (by omega)]
  cases f with
  | inq e => simp [fifoPlace]
  | mbox => simp [fifoPlace]
  | spdm p =>
    obtain rfl : path = .host p := by simpa [fifoPath] using hr
    rfl

theorem State.cell_fifoOff : s.cell (fifoOff f i) = some ⟨.rw, 0⟩ := by
  simp only [State.cell, blockAt_fifoOff hf (show i < 0x100 by omega)]
  cases f <;> simp only [fifoPlace] <;> rcases hi with rfl | rfl | rfl <;> rfl

theorem State.effect_fifoOff : s.effect path (fifoOff f i) v = s.fifoWrite f i v := by
  simp only [State.effect, blockAt_fifoOff hf (show i < 0x100 by omega)]
  cases f <;> simp only [fifoPlace] <;> rcases hi with rfl | rfl | rfl <;> rfl

/-- A command register of an interface takes the write of the path that reaches it. -/
theorem State.fifoReg_eq (hp : s.pathUp path = true) (hr : fifoPath path f = true) : s.fifoReg path f i v = s.fifoWrite f i v := by
  have h4 : fifoOff f i % 4 = 0 := by cases f <;> simp only [fifoOff, pageBase] <;> omega
  rw [State.fifoReg, if_pos ⟨hp, hr⟩,
    State.regWrite_rw v h4 (owlBarred_fifoOff hf hi hr) (isUnlock_fifoOff hf hi) (State.cell_fifoOff hf hi)]
  exact State.effect_fifoOff hf hi

end

section
variable {s : State} {path : Path} {f : FifoId} {w : W32} (hf : f.bound.1 < f.bound.2) (hp : s.pathUp path = true)
  (hr : fifoPath path f = true)
include hf hp hr

theorem exec_fifoPop : exec (.fifoPop path f) s = .next (s.fifoPop f) := congrArg _ (State.fifoReg_eq hf (by decide) hp hr)
theorem exec_fifoDrop : exec (.fifoDrop path f) s = .next (s.fifoDrop f) := congrArg _ (State.fifoReg_eq hf (by decide) hp hr)
theorem exec_fifoPush : exec (.fifoPush path f w) s = .next (s.pathPush f ⟨w, false⟩) :=
  congrArg _ (State.fifoReg_eq hf (by decide) hp hr)
theorem exec_fifoPushEop : exec (.fifoPushEop path f w) s = .next (s.pathPush f ⟨w, true⟩) :=
  congrArg _ (State.fifoReg_eq hf (by decide) hp hr)

end

/-! ### What the commands do -/

section
variable {s : State} {f : FifoId} {w : FWord}

theorem State.fifoPop_cons {l : List FWord} (h : (s.fifo f).recv = w :: l) : s.fifoPop f = s.setFifo f { s.fifo f with recv := l } := by
  simp only [State.fifoPop, h]

theorem State.fifoDrop_some {i : Nat} (h : (s.fifo f).recv.findIdx? (·.eop) = some i) :
    s.fifoDrop f = s.setFifo f { s.fifo f with recv := (s.fifo f).recv.drop (i + 1) } := by
  simp only [State.fifoDrop, h]

theorem State.fifoDrop_none (h : (s.fifo f).recv.findIdx? (·.eop) = none) :
    s.fifoDrop f = s.setFifo f { s.fifo f with recv := [], dropping := true } := by
  simp only [State.fifoDrop, h]

/-- R43, R45: a word is appended where neither the packet's size nor the side's depth is reached. -/
theorem State.fifoPush_append (ho : (s.fifo f).over_ = false) (hm : (s.fifo f).partial_.length < fifoMax f)
    (hd : (s.fifo f).send.length < fifoDepth f) : s.fifoPush f w = s.setFifo f { s.fifo f with send := (s.fifo f).send ++ [w] } := by
  simp [State.fifoPush, ho, Nat.not_le.2 hd, Nat.not_lt.2 (Nat.succ_le_of_lt hm)]

end

theorem Fifo.length_partial_le (x : Fifo) : x.partial_.length ≤ x.send.length := by
  simpa [Fifo.partial_] using (List.takeWhile_sublist (fun w : FWord => !w.eop) (l := x.send.reverse)).length_le

/-- Settles O16: each command reaches its interface, and the interface takes it as R41–R45 say. -/
theorem fifoInterfaces : Obligations.FifoInterfaces := by
  refine ⟨?_, ?_, ?_, ?_, ?_, ?_, ?_⟩
  · intro s e w l he hr h
    exact (exec_fifoPop (f := .inq e) he (s.pathUp_owl hr) rfl).trans (congrArg _ (State.fifoPop_cons (f := .inq e) h))
  · intro s p w l hp hr h
    have hr' : fifoPath (.host p) (.spdm p) = true := by simp [fifoPath]
    exact (exec_fifoPop (f := .spdm p) hp (s.pathUp_host p hr) hr').trans (congrArg _ (State.fifoPop_cons (f := .spdm p) h))
  · intro s w l hr h
    exact (exec_fifoPop (f := .mbox) Nat.one_pos (s.pathUp_owl hr) rfl).trans (congrArg _ (State.fifoPop_cons (f := .mbox) h))
  · intro s e i he hr h
    exact (exec_fifoDrop (f := .inq e) he (s.pathUp_owl hr) rfl).trans (congrArg _ (State.fifoDrop_some (f := .inq e) h))
  · intro s e he hr h
    exact (exec_fifoDrop (f := .inq e) he (s.pathUp_owl hr) rfl).trans (congrArg _ (State.fifoDrop_none (f := .inq e) h))
  · intro s e w he hr ho hm hd
    have hpush (eop : Bool) := State.fifoPush_append (f := .inq e) (w := ⟨w, eop⟩) ho hm hd
    exact ⟨(exec_fifoPush (f := .inq e) he (s.pathUp_owl hr) rfl).trans (congrArg _ (hpush false)),
      (exec_fifoPushEop (f := .inq e) he (s.pathUp_owl hr) rfl).trans (congrArg _ (hpush true))⟩
  · intro s w hr
    exact exec_fifoPush (f := .mbox) Nat.one_pos (s.pathUp_owl hr) rfl

end Sys2Proof.Machine
end

section
/-! SUPPORT. Byte strings: what a little-endian field of a string is read as. -/

namespace Sys2Proof.Machine
open Sys2Proof

@[simp] theorem length_toLe (n v : Nat) : (toLe n v).length = n := by
  induction n generalizing v with
  | zero => rfl
  | succ n ih => simp [toLe, ih]

theorem leNat_toLe (n v : Nat) : leNat (toLe n v) = v % 256 ^ n := by
  induction n generalizing v with
  | zero => simp [toLe, leNat, Nat.mod_one]
  | succ n ih => rw [toLe, leNat, ih, BitVec.toNat_ofNat, pow_succ' 256 n, Nat.mod_mul]

/-- A range within the first of two strings. -/
theorem slice_append_left {a b : Bytes} {i n : Nat} (h : i + n ≤ a.length) : slice (a ++ b) i n = slice a i n := by
  simp only [slice, List.drop_append_of_le_length (show i ≤ a.length by omega),
    List.take_append_of_le_length (show n ≤ (a.drop i).length by simp; omega)]

theorem fld_append_left {a b : Bytes} {i n : Nat} (h : i + n ≤ a.length) : fld (a ++ b) i n = fld a i n := by
  rw [fld, fld, slice_append_left h]

/-- A number written after a string is read back modulo its size. -/
theorem fld_append_toLe (a : Bytes) (n v : Nat) : fld (a ++ toLe n v) a.length n = v % 256 ^ n := by
  simp [fld, slice, List.take_of_length_le, leNat_toLe]

end Sys2Proof.Machine
end

section
/-! SUPPORT. Owl's commands and the mailbox behind the test access port (R521, R526, R536, R556). -/

namespace Sys2Proof.Machine
open Sys2Proof

variable (s : State)

/-! ### A command that is heard -/

/-- R535–R538: a command in an open session acts on the state in which the session's idle time starts again. -/
theorem State.command_hears {sess : Nat} (code : BitVec 16) (tag : W32) (act : State → State) (h : s.Hears sess) :
    s.command sess code tag act = act (s.setSess sess { s.sess sess with lastCmd := s.clk }) := by
  obtain ⟨hopen, hrun, hlife, hrepl⟩ := h
  have hload : (s.setSess sess { s.sess sess with lastCmd := s.clk }).afterLoad code =
      s.setSess sess { s.sess sess with lastCmd := s.clk } := State.afterLoad_free _ code hrepl
  have hlife' : (s.setSess sess { s.sess sess with lastCmd := s.clk }).life ≠ 4 := hlife
  simp only [State.command, hopen, hrun, hload, hlife', Bool.not_true, ne_eq, not_true_eq_false, or_self, false_and, if_false,
    Bool.false_eq_true]

theorem State.info_hears {sess : Nat} (tag : W32) (h : s.Hears sess) :
    s.info sess tag [] = (s.setSess sess { s.sess sess with lastCmd := s.clk }).reply sess cInfo tag .ok s.infoBody := by
  rw [State.info, State.fixed, State.command_hears s _ _ _ h]
  rfl

theorem Fifo.deliver_send (f : Fifo) (ws : List FWord) : (f.deliver ws).send = f.send := by
  unfold Fifo.deliver
  split
  · rfl
  · split <;> rfl

/-- A reply goes to the mailbox's receive side: its send side stays. -/
theorem State.reply_send (sess : Nat) (code : BitVec 16) (tag : W32) (st : Status) (body : Bytes) :
    (s.reply sess code tag st body).owl.fifo.send = s.owl.fifo.send := by
  simp only [State.reply]
  split
  · rfl
  · split
    · rfl
    · split
      · exact Fifo.deliver_send _ _
      · rfl

/-! ### Packets of the mailbox (R45, R536) -/

theorem takePacket_none {l : List FWord} (h : ∀ x ∈ l, x.eop = false) : takePacket l = none := by
  have hi : l.findIdx? (·.eop) = none := List.findIdx?_eq_none_iff.2 h
  simp only [takePacket, hi]

variable {s} (n : Nat)

/-- R45: while a reply waits, no packet is handled. -/
theorem State.mboxRun_waiting (h : s.owl.fifo.recv ≠ []) : State.mboxRun n s = s := by
  cases n with
  | zero => rfl
  | succ n => simp [State.mboxRun, h]

theorem State.mboxRun_no_packet (h : takePacket s.owl.fifo.send = none) : State.mboxRun n s = s := by
  cases n with
  | zero => rfl
  | succ n => simp [State.mboxRun, h]

theorem State.mboxRun_packet {pk rest : List FWord} (hr : s.owl.st = .run) (he : s.owl.fifo.recv = [])
    (h : takePacket s.owl.fifo.send = some (pk, rest)) :
    State.mboxRun (n + 1) s =
      State.mboxRun n (State.mboxPacket { s with owl := { s.owl with fifo := { s.owl.fifo with send := rest } } } pk) := by
  simp [State.mboxRun, hr, he, h]

/-- R536: the words of a message INFO without a body: header, flags and status 0, length 0, tag. -/
def infoPacket (tag : W32) : List FWord := [⟨0x72000C3D, false⟩, ⟨1, false⟩, ⟨0, false⟩, ⟨tag, true⟩]

/-- Its bytes before the tag. -/
def infoHead : Bytes := toLe 4 0x72000C3D ++ toLe 4 1 ++ toLe 4 0

theorem infoPacket_bytes (tag : W32) : (infoPacket tag).flatMap (fun w => toLe 4 w.w.toNat) = infoHead ++ toLe 4 tag.toNat := rfl

theorem fld_infoPacket (tag : W32) {i k : Nat} (h : i + k ≤ 12) : fld (infoHead ++ toLe 4 tag.toNat) i k = fld infoHead i k :=
  fld_append_left h

theorem fld_infoPacket_tag (tag : W32) : fld (infoHead ++ toLe 4 tag.toNat) 12 4 = tag.toNat :=
  (fld_append_toLe infoHead 4 tag.toNat).trans (Nat.mod_eq_of_lt tag.isLt)

theorem mboxHead_infoPacket (tag : W32) : mboxHead (infoHead ++ toLe 4 tag.toNat) = true := by
  simp only [mboxHead, fld_infoPacket tag (show 0 + 4 ≤ 12 by decide), fld_infoPacket tag (show 6 + 1 ≤ 12 by decide),
    fld_infoPacket tag (show 7 + 1 ≤ 12 by decide), List.length_append, length_toLe]
  decide

theorem mboxOk_infoPacket (tag : W32) : mboxOk (infoHead ++ toLe 4 tag.toNat) = true := by
  simp only [mboxOk, mboxHead_infoPacket, fld_infoPacket tag (show 8 + 4 ≤ 12 by decide), List.length_append, length_toLe]
  decide

/-- R537: the code of INFO leads to the command INFO. -/
theorem State.mboxMsg_info (flags : Nat) (tag : W32) (b : Bytes) : s.mboxMsg cInfo flags tag b = s.info mboxSess tag b := by
  have hc : chunkable cInfo = false := by decide
  simp only [State.mboxMsg, hc, Bool.false_eq_true, false_and, if_false]
  rfl

/-- R536, R537: a packet INFO is handled as the command INFO. -/
theorem State.mboxPacket_info (tag : W32) : s.mboxPacket (infoPacket tag) = s.info mboxSess tag [] := by
  have hlen : fld (infoHead ++ toLe 4 tag.toNat) 8 4 = 0 := (fld_infoPacket tag (by decide)).trans (by decide)
  have hcode : BitVec.ofNat 16 (fld (infoHead ++ toLe 4 tag.toNat) 4 2) = cInfo :=
    congrArg (BitVec.ofNat 16) ((fld_infoPacket tag (by decide)).trans (by decide : fld infoHead 4 2 = 1))
  simp only [State.mboxPacket, infoPacket_bytes, mboxHead_infoPacket, mboxOk_infoPacket, fld_infoPacket_tag, hlen, hcode, Nat.not_lt_zero,
    decide_false, Bool.and_false, Bool.not_true, Bool.false_eq_true, if_false, List.take_zero, BitVec.ofNat_toNat, BitVec.setWidth_eq,
    State.mboxMsg_info]

/-- INFO in the mailbox's session: one reply goes out, and the send side stays. -/
theorem State.info_answers (tag : W32) (h : s.Hears mboxSess) :
    s.info mboxSess tag [] = { s with owl := (s.info mboxSess tag []).owl } ∧
    (s.info mboxSess tag []).owl.fifo.send = s.owl.fifo.send ∧
    Replied s (s.info mboxSess tag []) mboxSess cInfo tag .ok s.infoBody := by
  have hopen : s.sessOpen mboxSess = true := h.1
  rw [State.info_hears s tag h]
  exact ⟨State.reply_frame .., State.reply_send .., State.reply_replies _ _ _ _ _ _ hopen⟩

/-- R45, R556: a send side that holds a packet INFO and no more: the packet is answered and taken. -/
theorem State.mboxRun_info (tag : W32) (h : s.Hears mboxSess) (he : s.owl.fifo.recv = []) (hs : s.owl.fifo.send = infoPacket tag) :
    State.mboxRun (n + 1) s = { s with owl := (State.mboxRun (n + 1) s).owl } ∧
    (State.mboxRun (n + 1) s).owl.fifo.send = [] ∧
    Replied s (State.mboxRun (n + 1) s) mboxSess cInfo tag .ok s.infoBody := by
  have htake : takePacket s.owl.fifo.send = some (infoPacket tag, []) := by rw [hs]; rfl
  have hrun : s.owl.st = .run := h.2.1
  rw [State.mboxRun_packet n hrun he htake, State.mboxPacket_info]
  obtain ⟨hframe, hsend, hreply⟩ :=
    State.info_answers (s := { s with owl := { s.owl with fifo := { s.owl.fifo with send := [] } } }) tag h
  rw [State.mboxRun_no_packet n (by rw [hsend]; rfl)]
  exact ⟨hframe, hsend, hreply⟩

/-! ### The test access port (R521, R526) -/

/-- A word pushed through the test access port: at the end of the mailbox's send side. -/
def State.tapPushed (s : State) (w : FWord) : State :=
  { s.tapSelect .push with owl := { s.owl with fifo := { s.owl.fifo with send := s.owl.fifo.send ++ [w] } } }

/-- R521, R526: in D2 a push appends its word, and the packets that are whole are handled. -/
theorem exec_tapPush {w : W32} {eop : Bool} (hd : s.sec.d2 = true) (ho : s.owl.fifo.over_ = false) (hl : s.owl.fifo.send.length < 1028) :
    exec (.testAccessPortInstruction (.push w eop)) s =
      .next (State.mboxRun (s.owl.fifo.send.length + 1) (s.tapPushed ⟨w, eop⟩)) := by
  have hpush : (s.tapSelect .push).fifoPush .mbox ⟨w, eop⟩ = s.tapPushed ⟨w, eop⟩ :=
    State.fifoPush_append (f := .mbox) ho (Nat.lt_of_le_of_lt (Fifo.length_partial_le _) hl) hl
  show execTestAccessPortInstruction (.push w eop) s = _
  simp [execTestAccessPortInstruction, hd, hpush, State.tapPushed]

/-- R521: outside D2 an instruction selects BYPASS, but for IDCODE. -/
theorem exec_tap_closed {ir : TapInstr} (hd : s.sec.d2 = false) (hi : ir ≠ .idcode) :
    exec (.testAccessPortInstruction ir) s = .next (s.tapSelect .bypass) := by
  show execTestAccessPortInstruction ir s = _
  simp [execTestAccessPortInstruction, hd, hi]

theorem exec_tapBypass : exec (.testAccessPortInstruction .bypass) s = .next (s.tapSelect .bypass) := by
  show execTestAccessPortInstruction .bypass s = _
  cases hd : s.sec.d2 <;> simp [execTestAccessPortInstruction, hd]

theorem exec_tapIdcode : exec (.testAccessPortInstruction .idcode) s = .next (s.tapSelect .idcode) := by
  show execTestAccessPortInstruction .idcode s = _
  cases hd : s.sec.d2 <;> simp [execTestAccessPortInstruction, hd]

theorem exec_tapOther (hd : s.sec.d2 = true) (ir : Nat) :
    exec (.testAccessPortInstruction (.other ir)) s = .next (s.tapSelect (.other ir)) := by
  show execTestAccessPortInstruction (.other ir) s = _
  simp [execTestAccessPortInstruction, hd]

/-- Settles O56: outside D2 the port selects BYPASS or IDCODE; in D2 a push appends its word, and the mailbox then handles a packet
that the word ends, if no reply waits. -/
theorem testAccessPort : Obligations.TestAccessPort := by
  refine ⟨fun s => ⟨exec_tapBypass, exec_tapIdcode⟩, fun s ir hd hi => exec_tap_closed hd hi, fun s t => rfl, ?_, ?_, ?_,
    fun s ir hd => exec_tapOther hd ir⟩
  · intro s w hd ho hl hopen
    have hnone : takePacket (s.tapPushed ⟨w, false⟩).owl.fifo.send = none :=
      takePacket_none (List.forall_mem_append.2 ⟨hopen, by simp⟩)
    exact (exec_tapPush hd ho hl).trans (congrArg _ (State.mboxRun_no_packet _ hnone))
  · intro s w eop hd ho hl hrecv
    exact (exec_tapPush hd ho hl).trans (congrArg _ (State.mboxRun_waiting _ hrecv))
  · intro s tag hh ho he _ hsend
    have hwords : (s.tapPushed ⟨tag, true⟩).owl.fifo.send = infoPacket tag :=
      congrArg (fun l : List FWord => l ++ [⟨tag, true⟩]) hsend
    exact ⟨_, exec_tapPush hh.1 ho (by simp [hsend]), State.mboxRun_info (s := s.tapPushed ⟨tag, true⟩) _ tag hh he hwords⟩

end Sys2Proof.Machine
end

section
/-! SUPPORT. What neither the service of requests on lines nor the handing over of a partition can change: the layout in force, the voted
fields, the lifecycle, Owl's sessions and replies, and whatever else `State.admin` keeps. One lemma for each operation. -/

namespace Sys2Proof.Machine
open Sys2Proof

/-- The state with all that requests on lines, or the scrub of a partition, can change taken away. -/
def State.admin (s : State) : State :=
  { s with
    parts := [], ports := [], setts := [], engines := [], queues := [], chans := [], txns := [], nextTxn := 0, dedup := [], nodes := []
    scr := [], scrPois := [], dram := [], dramPois := [], dramKey := [], free := 0, fills := [], stops := []
    xlt := State.reset.xlt, bur := State.reset.bur, hst := State.reset.hst
    sec := { s.sec with slots := [], keySer := 0 }
    owl := { s.owl with evq := [], lostPend := false, evDrop := 0, evstat := 0, held := [], capMs := [] } }

/-! ### What is read of it -/

section
variable {s t : State} (h : t.admin = s.admin)
include h

theorem State.replies_of_admin : t.owl.replies = s.owl.replies := (congrArg (·.owl.replies) h :)
theorem State.staged_of_admin : t.owl.staged = s.owl.staged := (congrArg (·.owl.staged) h :)
theorem State.repl_of_admin : t.owl.repl = s.owl.repl := (congrArg (·.owl.repl) h :)
theorem State.life_of_admin : t.life = s.life := (congrArg State.life h :)
theorem State.sessOpen_of_admin (i : Nat) : t.sessOpen i = s.sessOpen i := (congrArg (State.sessOpen · i) h :)
theorem State.secOf_of_admin (p : Nat) : t.secOf p = s.secOf p := (congrArg (State.secOf · p) h :)
theorem State.loadBody_of_admin (n p : Nat) : t.loadBody n p = s.loadBody n p := (congrArg (State.loadBody · n p) h :)

end

section
variable (s : State)

/-- A fold of an operation keeps what the operation keeps. -/
theorem State.foldl_admin {α : Type} {f : State → α → State} (hf : ∀ s a, (f s a).admin = s.admin) (l : List α) (s : State) :
    (l.foldl f s).admin = s.admin :=
  List.foldlRecOn l f (motive := fun t => t.admin = s.admin) rfl fun t ht a _ => (hf t a).trans ht

theorem LineFrame.admin {s t : State} (h : LineFrame s t) : t.admin = s.admin := by
  rw [h]; rfl

/-! ### Banks, counters and records -/

@[simp] theorem State.setPart_admin (p : Nat) (x : PartS) : (s.setPart p x).admin = s.admin := rfl
@[simp] theorem State.setSett_admin (n : Nat) (x : Sett) : (s.setSett n x).admin = s.admin := rfl
@[simp] theorem State.setEng_admin (e : Nat) (x : Engine) : (s.setEng e x).admin = s.admin := rfl
@[simp] theorem State.setQueue_admin (q : Nat) (x : Queue) : (s.setQueue q x).admin = s.admin := rfl
@[simp] theorem State.setPort_admin (k : Nat) (x : Port) : (s.setPort k x).admin = s.admin := rfl
@[simp] theorem State.setChan_admin (c : Nat) (x : Chan) : (s.setChan c x).admin = s.admin := rfl
@[simp] theorem State.setNode_admin (d : Node) (g : NodeG) : (s.setNode d g).admin = s.admin := rfl
@[simp] theorem State.setTxn_admin (t : Txn) : (s.setTxn t).admin = s.admin := rfl
@[simp] theorem State.dropTxn_admin (id : Nat) : (s.dropTxn id).admin = s.admin := rfl
@[simp] theorem State.openTxn_admin (t : Txn) : (s.openTxn t).admin = s.admin := rfl
@[simp] theorem State.setPqos_admin (p k : Nat) (x : PortQos) : (s.setPqos p k x).admin = s.admin := rfl
@[simp] theorem State.countLookup_admin (n : Nat) : (s.countLookup n).admin = s.admin := rfl
@[simp] theorem State.countSnpto_admin (n : Nat) : (s.countSnpto n).admin = s.admin := rfl
@[simp] theorem State.countUncovered_admin (n : Nat) : (s.countUncovered n).admin = s.admin := rfl
@[simp] theorem State.countEpochLost_admin (n : Nat) : (s.countEpochLost n).admin = s.admin := rfl
@[simp] theorem State.countVicfull_admin : s.countVicfull.admin = s.admin := rfl
@[simp] theorem State.countUnroute_admin (k : Nat) : (s.countUnroute k).admin = s.admin := rfl
@[simp] theorem State.countRspDrop_admin (k : Nat) : (s.countRspDrop k).admin = s.admin := rfl
@[simp] theorem State.countCeSram_admin (p : Nat) : (s.countCeSram p).admin = s.admin := rfl
@[simp] theorem State.settPoison_admin (n : Nat) : (s.settPoison n).admin = s.admin := rfl
@[simp] theorem State.closeSnoop_admin (tag : BitVec 16) : (s.closeSnoop tag).admin = s.admin := rfl
@[simp] theorem State.offerPort_admin (k : Nat) (m : Msgs) : (s.offerPort k m).admin = s.admin := rfl
@[simp] theorem State.dedDone_admin (f : OrigFab) (a : Msgs) : (s.dedDone f a).admin = s.admin := rfl
@[simp] theorem State.startDrain_admin (r : Bool) (target init q : Nat) : (s.startDrain r target init q).admin = s.admin := rfl
@[simp] theorem State.hostLine_admin (t : Txn) (a : Ans) : (s.hostLine t a).admin = s.admin := rfl
@[simp] theorem State.topUp_admin (q : Nat) : (s.topUp q).admin = s.admin := rfl

@[simp] theorem State.setDirEnt_admin (pa : Nat) (e : DirEnt) : (s.setDirEnt pa e).admin = s.admin := by rw [State.setDirEnt_frame]; rfl
@[simp] theorem State.countPoison_admin (pa : Nat) : (s.countPoison pa).admin = s.admin := by rw [State.countPoison_frame]; rfl
@[simp] theorem State.logEvent_admin (k st d : Byte) (a : W64) (p : Byte) : (s.logEvent k st d a p).admin = s.admin := by
  unfold State.logEvent; split <;> rfl

@[simp] theorem State.d1Count_admin (p : Nat) (f : Dbg → Dbg) : (s.d1Count p f).admin = s.admin := by
  unfold State.d1Count; split <;> rfl

@[simp] theorem State.d1Trace_admin (p : Nat) (ty st : Byte) (asid : BitVec 16) (va : Nat) (port : Byte) :
    (s.d1Trace p ty st asid va port).admin = s.admin := by
  unfold State.d1Trace
  split
  · dsimp only; split <;> split <;> rfl
  · rfl

@[simp] theorem State.engAnswer_admin (t : Txn) (a : Ans) : (s.engAnswer t a).admin = s.admin := by
  simp only [State.engAnswer]; split <;> rfl

@[simp] theorem State.queueError_admin (q reason : Nat) : (s.queueError q reason).admin = s.admin := by
  simp only [State.queueError]; split <;> rfl

@[simp] theorem State.withFree_admin (n : Nat) : ({ s with free := n } : State).admin = s.admin := rfl

/-! ### Lines stored -/

@[simp] theorem State.scrStore_admin (off : Nat) (v : LineVal) : (s.scrStore off v).admin = s.admin := rfl
@[simp] theorem State.install_admin (pa : Nat) (v : LineVal) (d : Bool) (busy : List Nat) : (s.install pa v d busy).admin = s.admin :=
  (s.install_frame ..).admin
@[simp] theorem State.storeLine_admin (pa : Nat) (v : LineVal) (busy : List Nat) : (s.storeLine pa v busy).admin = s.admin :=
  (s.storeLine_frame ..).admin
@[simp] theorem State.pushWrite_admin (pa : Nat) (v : LineVal) : (s.pushWrite pa v).admin = s.admin := (s.pushWrite_frame ..).admin
@[simp] theorem State.poisonLine_admin (pa : Nat) : (s.poisonLine pa).admin = s.admin := (s.poisonLine_frame ..).admin
@[simp] theorem State.devWrite_admin (pa : Nat) (bs : Bytes) : (s.devWrite pa bs).1.admin = s.admin := (s.devWrite_frame ..).admin

@[simp] theorem State.ringRecord_admin (p : Nat) (k st d : Byte) (a : Nat) : (s.ringRecord p k st d a).admin = s.admin := by
  obtain ⟨t, r, h, e⟩ := s.ringWrite_frame p k st d a
  rw [State.ringRecord, State.logEvent_admin, e]
  exact h.admin

@[simp] theorem State.poisonRecord_admin (pa : Nat) (cause : Byte) : (s.poisonRecord pa cause).admin = s.admin := by
  unfold State.poisonRecord; split <;> simp

@[simp] theorem State.poisonTracked_admin (pa : Nat) (cause : Byte) : (s.poisonTracked pa cause).admin = s.admin := by
  simp only [State.poisonTracked, State.setDirEnt_admin]; split <;> simp

@[simp] theorem State.pushRead_admin (id pa : Nat) : (s.pushRead id pa).admin = s.admin := by
  unfold State.pushRead; split <;> rfl

@[simp] theorem State.pushReads_admin (id : Nat) (l : List Nat) : (l.foldl (fun s a => s.pushRead id a) s).admin = s.admin :=
  State.foldl_admin (fun s a => s.pushRead_admin id a) _ _

@[simp] theorem State.qWriteBack_admin (q off : Nat) (v : W32) : (s.qWriteBack q off v).admin = s.admin := by
  unfold State.qWriteBack; split <;> simp

@[simp] theorem State.countFault_admin (asid : BitVec 16) : (s.countFault asid).admin = s.admin := by
  simp only [State.countFault]
  split
  · rfl
  · exact State.devWrite_admin ..

/-! ### The directory -/

@[simp] theorem State.deadOwner_admin (pa : Nat) : (s.deadOwner pa).admin = s.admin := by
  unfold State.deadOwner
  split
  · split <;> simp
  · rfl

@[simp] theorem State.dirLost_admin (pa : Nat) : (s.dirLost pa).admin = s.admin := by
  simp only [State.dirLost, State.logEvent_admin, State.setSett_admin]
  refine State.foldl_admin (fun s k => ?_) _ _
  split <;> simp

@[simp] theorem State.dirLookup_admin (t : Txn) (pa : Nat) : (s.dirLookup t pa).admin = s.admin := by
  simp only [State.dirLookup, State.deadOwner_admin]
  split
  · simp
  · split <;> simp

@[simp] theorem State.recallLine_admin (id line : Nat) : (s.recallLine id line).admin = s.admin := by
  unfold State.recallLine
  split
  · split <;> simp
  · rfl

@[simp] theorem State.reserveOwner_admin (kind : SnpKind) (pa : Nat) (dst : List (Node ⊕ Nat)) :
    (s.reserveOwner kind pa dst).admin = s.admin := by
  unfold State.reserveOwner
  split
  · unfold State.reserveSharer; split <;> simp
  · rfl

@[simp] theorem State.startHold_admin (pa : Nat) : (s.startHold pa).admin = s.admin := by
  simp only [State.startHold]; split <;> simp

@[simp] theorem State.countUncovered_times_admin (n c : Nat) :
    ((List.range c).foldl (fun s _ => s.countUncovered n) s).admin = s.admin := State.foldl_admin (fun s _ => s.countUncovered_admin n) _ _

@[simp] theorem State.dirFinish_admin (t : Txn) (pa : Nat) : (s.dirFinish t pa).1.admin = s.admin := by
  simp only [State.dirFinish]
  repeat' split
  all_goals simp

/-! ### Answers, counters and data -/

@[simp] theorem State.respond_admin (f : OrigFab) (p : Option Nat) (m : Msgs) : (s.respond f p m).admin = s.admin := by
  unfold State.respond
  dsimp only
  split
  · simp
  · split
    · simp
    · split <;> simp

@[simp] theorem State.answer_admin (t : Txn) (a : Ans) : (s.answer t a).admin = s.admin := by
  have sent (s1 : State) (m : Msgs) : (t.copies.foldl (fun s (k, g) => s.respond { t.fab with port := k, gen := g } (some t.part) m)
      s1).admin = s1.admin := State.foldl_admin (fun s c => s.respond_admin ..) _ _
  unfold State.answer
  cases t.kind <;> dsimp only <;> split <;> simp [sent] <;> split <;> simp

@[simp] theorem State.pubAnswer_admin (t : Txn) (st : Status) (ver : Option W32) : (s.pubAnswer t st ver).admin = s.admin := by
  rw [State.pubAnswer, State.answer_admin]; split <;> simp

@[simp] theorem State.watchLine_admin (pa : Nat) (old new : Bytes) : (s.watchLine pa old new).admin = s.admin := by
  unfold State.watchLine
  split
  · rfl
  · split <;> simp

@[simp] theorem State.watchLines_admin (olds : List (Nat × Bytes)) : (s.watchLines olds).admin = s.admin :=
  State.foldl_admin (fun s _ => s.watchLine_admin ..) _ _

@[simp] theorem State.writeStored_admin (l : Leaf) (base va : Nat) (bs : Bytes) (whole pois : Bool) :
    (s.writeStored l base va bs whole pois).admin = s.admin := by
  refine State.foldl_admin (fun s _ => ?_) _ _
  split
  · rfl
  · rw [State.storeLine_admin]; split <;> simp

@[simp] theorem State.performWr_admin (t : Txn) : (s.performWr t).1.admin = s.admin := by
  simp only [State.performWr, State.writeStored_admin]; rfl

@[simp] theorem State.handOff_admin (p pa : Nat) (line : Bytes) : (s.handOff p pa line).1.admin = s.admin := by
  simp only [State.handOff]; split <;> rfl

@[simp] theorem State.counterStep_admin (pa : Nat) (l : Bytes) : (s.counterStep pa l).1.admin = s.admin := by
  unfold State.counterStep
  split
  · rfl
  · split
    · dsimp only
      split
      · simp
      · rfl
    · rfl

@[simp] theorem State.counterCheck_admin (pa : Nat) : (s.counterCheck pa).admin = s.admin := by
  unfold State.counterCheck
  split
  · rfl
  · dsimp only; split <;> simp

@[simp] theorem State.counterChecks_admin (l : List Nat) : (l.foldl State.counterCheck s).admin = s.admin :=
  State.foldl_admin (fun s => s.counterCheck_admin) _ _

@[simp] theorem State.landWr_admin (t : Txn) : (s.landWr t).1.admin = s.admin := by
  simp [State.landWr]

@[simp] theorem State.takeData_admin (l : Leaf) (base va : Nat) (data : Bytes) (pois fire : Bool) :
    (s.takeData l base va data pois fire).admin = s.admin := by
  simp only [State.takeData, State.watchLines_admin]
  split <;> simp

@[simp] theorem State.takeLine_admin (l : Leaf) (pa : Nat) (data : Bytes) (pois fire : Bool) :
    (s.takeLine l pa data pois fire).admin = s.admin := s.takeData_admin ..

@[simp] theorem State.addOne_admin (t : Txn) : (s.addOne t).1.admin = s.admin := by
  unfold State.addOne
  dsimp only
  split
  · simp; split <;> simp
  · rfl
  · rfl

@[simp] theorem State.lineNoise_admin (pa : Nat) (err : BitVec 80) : (s.lineNoise pa err).admin = s.admin := by
  unfold State.lineNoise
  split
  · rfl
  · split
    · rfl
    · dsimp only
      split
      · split <;> rfl
      · split
        · rw [State.countCeSram_admin]; split <;> rfl
        · split <;> rfl
      · simp only [State.logEvent_admin, State.poisonRecord_admin, State.scrStore_admin]; split <;> rfl
    · split
      · rfl
      · dsimp only
        split
        · split <;> rfl
        · split
          · split <;> rfl
          · split
            · split
              · rw [State.countCeSram_admin]; split <;> rfl
              · split <;> rfl
            · split <;> rfl
        · split
          · simp only [State.logEvent_admin, State.poisonRecord_admin, State.setSett_admin]; split <;> rfl
          · rw [State.logEvent_admin]; split <;> rfl

@[simp] theorem State.touchLines_admin (t : Txn) : (s.touchLines t).admin = s.admin := by
  refine State.foldl_admin (fun s a => ?_) _ _
  split
  · rfl
  · split
    · rfl
    · dsimp only
      split
      · rw [State.install_admin]; rfl
      · rfl

@[simp] theorem State.toMemory_admin (t : Txn) : (s.toMemory t).admin = s.admin := by
  unfold State.toMemory
  dsimp only
  split
  · simp; split <;> simp
  · simp; split <;> simp

@[simp] theorem State.perform_admin (t : Txn) : (s.perform t).admin = s.admin := by
  unfold State.perform
  dsimp only
  split
  · rw [State.answer_admin]; split <;> simp
  · generalize hs : (if (t.leaf.cls == .tracked) = true then (s.dirFinish t (t.line * 64)).1 else s) = s1
    have h1 : s1.admin = s.admin := by rw [← hs]; split <;> simp
    split
    · simp only [State.answer_admin, State.watchLine_admin, State.counterCheck_admin]
      split <;> simp [h1]
    · simp only [State.answer_admin, State.counterCheck_admin]
      split <;> [rw [State.poisonRecord_admin]; skip] <;> split <;> simp [h1]
    · simp [h1]

@[simp] theorem State.dataStage_admin (t : Txn) : (s.dataStage t).admin = s.admin := by
  unfold State.dataStage
  dsimp only
  split
  · simp
  · split
    · simp
    · split <;> simp

/-! ### Snoops -/

@[simp] theorem State.multicast_admin (g : Nat) (m : Msgs) : (s.multicast g m).admin = s.admin := by
  unfold State.multicast
  refine (State.foldl_admin (fun s k => ?_) _ _).trans rfl
  split <;> simp

@[simp] theorem State.snoop1_admin (t : Txn) (kind : SnpKind) (pa : Nat) (reason : BitVec 4) (dst : Node ⊕ Nat) (owner : Bool) :
    (s.snoop1 t kind pa reason dst owner).1.admin = s.admin := by
  cases dst <;> simp only [State.snoop1]
  · split <;> simp
  · split
    · rfl
    · split <;> simp

@[simp] theorem State.snoopAll_admin (t : Txn) (kind : SnpKind) (pa : Nat) (reason : BitVec 4) (owner : Bool) (dst : List (Node ⊕ Nat)) :
    (s.snoopAll t kind pa reason owner dst).1.admin = s.admin := by
  induction dst generalizing s with
  | nil => rfl
  | cons x xs ih => exact (ih _).trans (s.snoop1_admin ..)

theorem State.admin_of_snoopAll {s s1 : State} {t : Txn} {kind : SnpKind} {pa : Nat} {reason : BitVec 4} {owner : Bool}
    {dst : List (Node ⊕ Nat)} {l : List (BitVec 16)} (h : s.snoopAll t kind pa reason owner dst = (s1, l)) : s1.admin = s.admin := by
  rw [← s.snoopAll_admin t kind pa reason owner dst, h]

@[simp] theorem State.completePoisoned_admin (t : Txn) : (s.completePoisoned t).admin = s.admin := by
  unfold State.completePoisoned; split <;> simp

@[simp] theorem State.timeoutSnoop_admin (tag : BitVec 16) (death : Bool) (c : Nat) : (s.timeoutSnoop tag death c).admin = s.admin := by
  simp only [State.timeoutSnoop]
  split
  · rfl
  · generalize hs : State.poisonTracked _ _ _ = s2
    have h2 : s2.admin = s.admin := by
      rw [← hs, State.poisonTracked_admin]
      refine (State.foldl_admin (fun s _ => ?_) _ _).trans (s.setSett_admin ..)
      split
      · split <;> simp
      · simp
    split
    · exact h2
    · split <;> simp [h2]

@[simp] theorem State.tookTurn_admin (t : Txn) (lines : List Nat) : (s.tookTurn t lines).admin = s.admin := by
  simp only [State.tookTurn]; split <;> simp

@[simp] theorem State.park_admin (t : Txn) : (s.park t).admin = s.admin := by
  unfold State.park
  split
  · simp
  · split
    · simp
    · dsimp only; split <;> simp

@[simp] theorem State.recallEntry_admin (t : Txn) (n b : Nat) : (s.recallEntry t n b).1.admin = s.admin := by
  simp only [State.recallEntry]
  generalize hs : List.foldl _ (s.countRecall n) _ = s1
  have h1 : s1.admin = s.admin := by
    rw [← hs]; exact State.foldl_admin (fun s k => s.deadOwner_admin _) _ _
  refine List.foldlRecOn _ _ (motive := fun acc : State × List (BitVec 16) => acc.1.admin = s.admin) h1 fun acc h k _ => ?_
  split <;> simp [h]

@[simp] theorem State.publishFlip_admin (t : Txn) (da : Nat) (d : Bytes) (pa : Nat) :
    (s.publishFlip t da d pa).admin = s.admin := by
  simp only [State.publishFlip, State.startDrain_admin]
  split <;> simp

@[simp] theorem State.serveWb_admin (t : Txn) : (s.serveWb t).admin = s.admin := by
  unfold State.serveWb
  dsimp only
  split
  · simp
  · split <;> simp
  · split
    · simp
    · split
      · split
        · split <;> simp
        · simp
      · rw [State.answer_admin]; split <;> simp
      · simp

/-! ### The device's own accesses -/

@[simp] theorem State.handHeld_admin (pa : Nat) : (s.handHeld pa).admin = s.admin := by
  unfold State.handHeld
  split
  · rfl
  · dsimp only
    split
    · split
      · rfl
      · split <;> simp <;> rfl
    · rfl

@[simp] theorem State.clearDraining_admin (pa : Nat) : (s.clearDraining pa).admin = s.admin := by
  unfold State.clearDraining; split <;> simp

@[simp] theorem State.setFire_admin (pa : Nat) (st : Byte) : (s.setFire pa st).admin = s.admin := by
  unfold State.setFire
  split
  · split <;> simp
  · rfl

@[simp] theorem State.recordThen_admin (t : Txn) : (s.recordThen t).admin = s.admin := by
  have land := s.landWr_admin t
  simp only [State.recordThen]
  split
  · rfl
  · split
    · split
      · simp_all
      · simp_all
    · simp

@[simp] theorem State.devThen_admin (t : Txn) : (s.devThen t).admin = s.admin := by
  simp only [State.devThen, State.deadOwner_admin]
  repeat' split
  all_goals simp

end

/-! ### Snoops with no way out, and the death of a node (R225–R227) -/

section
variable {die : State → Node → State} (hd : ∀ s d, (die s d).admin = s.admin)
include hd

theorem State.unanswered_admin (s : State) (tags : List (BitVec 16)) : (s.unanswered die tags).admin = s.admin :=
  (State.foldl_admin hd _ _).trans (State.foldl_admin (fun s x => by simp) _ _)

theorem State.devServe_admin {k : State → Txn → State} (hk : ∀ s t, (k s t).admin = s.admin) (s : State) (t : Txn) :
    (s.devServe k die t).admin = s.admin := by
  have h := State.unanswered_admin hd
  unfold State.devServe
  dsimp only
  split
  · exact hk s t
  · split
    · simp
    · split
      · simp [hk]
      · split
        · simp
        · split
          · simp [h]
          · split <;> simp [h, hk]

theorem State.devAccessWith_admin (s : State) (pa : Nat) (change : Bool) (cont : BitVec 24) :
    (s.devAccessWith die pa change cont).admin = s.admin := by
  unfold State.devAccessWith
  split
  · rfl
  · exact (State.devServe_admin hd State.devThen_admin _ _).trans (s.openTxn_admin _)

theorem State.writeRecordWith_admin (s : State) (q : Nat) (e : EndRec) (d : Desc) (engine ctr : Byte) :
    (s.writeRecordWith die q e d engine ctr).admin = s.admin := by
  unfold State.writeRecordWith
  dsimp only
  split
  · rfl
  · split
    · rfl
    · split
      · rw [State.queueError_admin, State.schedFault]; split <;> simp
      · split
        · exact State.devServe_admin hd State.devThen_admin _ _
        · simp

theorem State.endStartedWith_admin (s : State) (q : Nat) (e : EndRec) (d : Desc) (engine ctr : Byte) :
    (s.endStartedWith die q e d engine ctr).admin = s.admin := State.writeRecordWith_admin hd ..

theorem State.devThenWith_admin (s : State) (t : Txn) : (s.devThenWith die t).admin = s.admin := by
  unfold State.devThenWith
  split
  · dsimp only
    split
    · simp
    · simp [State.endStartedWith_admin hd]
  · simp

theorem State.servePublish_admin (s : State) (t : Txn) : (s.servePublish die t).admin = s.admin := by
  have hun := State.unanswered_admin hd
  have hdev := State.devAccessWith_admin hd
  unfold State.servePublish
  split
  · simp
  · rename_i da _
    extract_lets +onlyGivenNames early n k s1 src t1 e free
    have h1 : s1.admin = s.admin := by simp [s1]
    have answered (st : Status) (v : Option W32) : (s1.pubAnswer t1 st v).admin = s.admin := (s1.pubAnswer_admin ..).trans h1
    have parked : (s1.park t1).admin = s.admin := (s1.park_admin t1).trans h1
    clear_value s1 t1 e
    split
    · split
      · exact answered ..
      · split
        · exact answered ..
        · exact (hdev ..).trans parked
    · rename_i ls _ _
      extract_lets +onlyGivenNames v pa st ver clear change
      have hclear (x : State) : (clear x).admin = x.admin := by unfold clear; split <;> simp
      have hchange (x : State) : (change x).admin = x.admin := by unfold change; split <;> simp [hclear]
      clear_value v st clear change
      split
      · exact answered ..
      · split
        · exact answered ..
        · split
          · extract_lets +onlyGivenNames hs
            split
            · exact (hchange s1).trans h1
            · split
              · exact answered ..
              · split
                · exact parked
                · extract_lets +onlyGivenNames t2
                  split
                  rename_i s2 _ hsnp
                  have h2 : s2.admin = s.admin := (State.admin_of_snoopAll hsnp).trans h1
                  split
                  · exact (hchange s2).trans h2
                  · exact (hun ..).trans h2
          · exact answered ..

theorem State.afterSnoops_admin (s : State) (t : Txn) : (s.afterSnoops die t).admin = s.admin := by
  unfold State.afterSnoops; split <;> simp [State.servePublish_admin hd]

theorem State.snoopsDoneWith_admin (s : State) (n id : Nat) : (s.snoopsDoneWith die n id).admin = s.admin := by
  unfold State.snoopsDoneWith
  split
  · rfl
  · split
    · rfl
    · split
      · split
        · simp [State.devThenWith_admin hd]
        · exact State.afterSnoops_admin hd ..
      · split
        · simp
        · split <;> simp

theorem State.snoopAnswerWith_admin (s : State) (tag : BitVec 16) (src : Node) (data : Option (Bytes × Bool)) :
    (s.snoopAnswerWith die tag src data).admin = s.admin := by
  unfold State.snoopAnswerWith
  extract_lets +onlyGivenNames n
  split
  · rfl
  · extract_lets +onlyGivenNames pa s1 left
    have h1 : s1.admin = s.admin := by
      unfold s1
      split
      · rfl
      · split
        · split <;> simp
        · simp
    split
    · extract_lets +onlyGivenNames s2
      have h2 : s2.admin = s.admin := by simp [s2, State.snoopsDoneWith_admin hd, h1]
      split
      · exact (State.devAccessWith_admin hd ..).trans h2
      · exact h2
    · simp [h1]

theorem State.deathAt_admin (d : Node) (s : State) (n : Nat) : (State.deathAt die d s n).admin = s.admin := by
  refine (State.foldl_admin (fun s x => ?_) _ _).trans rfl
  split
  · simp [State.snoopsDoneWith_admin hd]
  · exact State.snoopAnswerWith_admin hd ..

end

theorem State.deathFuel_admin (f : Nat) (s : State) (d : Node) : (State.deathFuel f s d).admin = s.admin := by
  induction f generalizing s d with
  | zero => rfl
  | succ f ih =>
    unfold State.deathFuel
    split
    · rfl
    · exact (State.foldl_admin (State.deathAt_admin ih d) _ _).trans (s.setNode_admin ..)

theorem State.death_admin (s : State) (d : Node) : (s.death d).admin = s.admin := State.deathFuel_admin ..

/-! ### Requests served -/

section
variable {die : State → Node → State} (hd : ∀ s d, (die s d).admin = s.admin)
include hd

theorem State.trackedStage_admin (s : State) (t : Txn) : (s.trackedStage die t).admin = s.admin := by
  have hun := State.unanswered_admin hd
  have hafter := State.afterSnoops_admin hd
  unfold State.trackedStage
  extract_lets +onlyGivenNames pa n s1 src t1 e space
  have h1 : s1.admin = s.admin := by simp [s1]
  clear_value s1 t1 e space
  split
  · exact (s1.park_admin t1).trans h1
  · extract_lets +onlyGivenNames v
    split
    · exact (s1.answer_admin ..).trans h1
    · split
      · exact (s1.park_admin t1).trans h1
      · split
        rename_i hrec
        extract_lets +onlyGivenNames s2
        have h2 : s2.admin = s.admin := (hun ..).trans (by simpa [h1] using congrArg (·.1.admin) hrec.symm)
        split
        · exact h2
        · split
          · exact (State.dataStage_admin ..).trans h2
          · exact h2
  · extract_lets +onlyGivenNames t2
    split
    · exact (s1.dataStage_admin _).trans h1
    · split
      · exact (s1.answer_admin ..).trans h1
      · split
        · exact (s1.park_admin t2).trans h1
        · extract_lets +onlyGivenNames t3
          split
          rename_i hsnp
          extract_lets +onlyGivenNames s2
          have h2 : s2.admin = s.admin := (hun ..).trans ((State.admin_of_snoopAll hsnp).trans (by simp [h1]))
          split
          · exact h2
          · split
            · exact (hafter ..).trans h2
            · exact h2

theorem State.serveOne_admin (s : State) (t : Txn) : (s.serveOne die t).admin = s.admin := by
  have hpub := State.servePublish_admin hd
  have htrk := State.trackedStage_admin hd
  unfold State.serveOne
  split
  · split
    · extract_lets +onlyGivenNames t1 s1
      split <;> simp [s1, hpub]
    · simp [hpub]
  · extract_lets +onlyGivenNames lines t1 s0 adm raw at_ xl st s1
    have h1 : s1.admin = s.admin := by unfold s1; split <;> simp [s0]
    have answered (a : Ans) : (s1.answer t1 a).admin = s.admin := (s1.answer_admin ..).trans h1
    have parked : (s1.park t1).admin = s.admin := (s1.park_admin t1).trans h1
    clear_value s1 t1 st
    split
    · split
      · exact answered _
      · exact (s1.serveWb_admin t1).trans h1
    · split
      · exact answered _
      · split
        · exact (s1.serveWb_admin t1).trans h1
        · split
          · exact parked
          · split
            · extract_lets +onlyGivenNames s2
              unfold s2; split <;> simp [h1]
            · extract_lets +onlyGivenNames s2
              have h2 : s2.admin = s.admin := (s1.tookTurn_admin ..).trans h1
              split
              · split <;> simp [h2]
              · simp [h2]
              · split <;> simp [h2, htrk]

theorem State.tryParked_admin (s : State) (t : Txn) : (s.tryParked die t).admin = s.admin := by
  have hserve := State.serveOne_admin hd
  unfold State.tryParked
  split
  · rfl
  · split
    · rfl
    · split
      · exact State.devServe_admin hd (State.devThenWith_admin hd) ..
      · exact hserve ..
      · split
        · exact hserve ..
        · split <;> simp [hserve]

theorem State.serveWith_admin (s : State) (t : Txn) : (s.serveWith die t).admin = s.admin := by
  unfold State.serveWith
  split
  · exact State.serveOne_admin hd ..
  · exact (State.serveOne_admin hd _ _).trans (State.foldl_admin (State.tryParked_admin hd) _ _)

end

section
variable (s : State)

@[simp] theorem State.serve_admin (t : Txn) : (s.serve t).admin = s.admin := State.serveWith_admin State.death_admin ..

@[simp] theorem State.devAccess_admin (pa : Nat) (change : Bool) (cont : BitVec 24) : (s.devAccess pa change cont).admin = s.admin :=
  State.devAccessWith_admin State.death_admin ..

@[simp] theorem State.translate_admin (t : Txn) : (s.translate t).admin = s.admin := by
  unfold State.translate
  split
  · rw [State.serve_admin, State.tcInstall]
    split
    · split <;> simp
    · simp
  · dsimp only; split <;> rfl

@[simp] theorem State.take_admin (t : Txn) : (s.take t).admin = s.admin := by
  unfold State.take; split <;> simp

@[simp] theorem State.admitRing_admin (n : Nat) : (s.admitRing n).admin = s.admin := by
  refine State.foldl_admin (fun s i => ?_) _ _
  split
  · rfl
  · dsimp only
    split
    · rfl
    · split
      · exact State.devServe_admin State.death_admin (State.devThenWith_admin State.death_admin) ..
      · simp

@[simp] theorem State.dropHostEntries_admin (p : Nat) : (s.dropHostEntries p).admin = s.admin :=
  State.foldl_admin State.admitRing_admin _ _

/-! ### A partition handed over -/

@[simp] theorem State.dropKey_admin (slot : Nat) : (s.dropKey slot).admin = s.admin := rfl
@[simp] theorem State.zeroPool_admin (base count : Nat) : (s.zeroPool base count).admin = s.admin := rfl

/-- R85 step 4: the scrub of a partition. -/
@[simp] theorem State.scrubTenant_admin (p : Nat) : (s.scrubTenant p).admin = s.admin := by
  unfold State.scrubTenant
  dsimp only
  split
  · rfl
  · rw [State.dropHostEntries_admin, State.dropKey_admin]
    exact State.foldl_admin (fun s e => s.zeroPool_admin _ _) _ _

@[simp] theorem State.drawKey_admin (slot : Nat) : (s.drawKey slot).admin = s.admin := rfl

@[simp] theorem State.loadSlots_admin (l : Layout) : (s.loadSlots l).admin = s.admin := by
  simp only [State.loadSlots]
  split
  · rfl
  · exact State.foldl_admin State.drawKey_admin _ _

@[simp] theorem State.newTenant_admin (p : Nat) : (s.newTenant p).admin = s.admin :=
  (State.foldl_admin (fun s _ => s.setPqos_admin ..) _ _).trans rfl

@[simp] theorem State.readProducer_admin (q : Nat) : (s.readProducer q).admin = s.admin := by
  unfold State.readProducer
  dsimp only
  repeat' split
  all_goals simp

/-- R264, R329, R487: the return of a partition to RUN. -/
@[simp] theorem State.toRun_admin (p : Nat) : (s.toRun p).admin = s.admin :=
  (State.foldl_admin (fun s _ => s.devAccess_admin ..) _ _).trans (State.foldl_admin State.readProducer_admin _ _)

@[simp] theorem State.unscrubbed_admin (p : Nat) : (s.unscrubbed p).admin = s.admin := by
  unfold State.unscrubbed; dsimp only; split <;> simp

@[simp] theorem State.setHolds_admin (p : Nat) (op tenant : Bool) : (s.setHolds p op tenant).admin = s.admin := by
  simp only [State.setHolds]
  split
  · simp
  · split <;> simp

end

end Sys2Proof.Machine
end

section
/-! SUPPORT. Layouts at run time (R80, R81, R85–R88, R538, R539, R541, R545): the last chunk of a command, a section that takes effect, the
end of a scrub, and what a reply and a ledger entry leave alone. -/

namespace Sys2Proof.Machine
open Sys2Proof

theorem leads_of_exec {c : Instr} {s t : State} {P : State → Prop} (h : exec c s = .next t) (ht : P t) : Leads c s P := ⟨t, h, ht⟩

theorem tget_filter {α : Type} (d : α) (t : Tab α) {p : Nat → Bool} {i : Nat} (h : p i = true) :
    tget d (t.filter fun e => p e.1) i = tget d t i := by
  induction t with
  | nil => rfl
  | cons e t ih =>
    by_cases hp : p e.1 = true
    · simp only [List.filter_cons, hp, if_true, tget, ih]
    · have hne : e.1 ≠ i := fun he => hp (he ▸ h)
      simp only [List.filter_cons, hp, Bool.false_eq_true, if_false, tget, hne, ih]

/-- R49: with nothing else to report, the one condition is the status. -/
theorem Status.first_of_two_ok (e : Status) : Status.first [e, .ok, .ok] = e := by cases e <;> rfl

variable (s : State)

/-! ### A reply, and a ledger entry -/

/-- R536: of Owl's part a reply touches the replies, the mailbox, and the mailbox's count of errors. -/
theorem State.reply_owl (sess : Nat) (code : BitVec 16) (tag : W32) (st : Status) (body : Bytes) :
    (s.reply sess code tag st body).owl = { s.owl with
      replies := (s.reply sess code tag st body).owl.replies, fifo := (s.reply sess code tag st body).owl.fifo
      mboxErr := (s.reply sess code tag st body).owl.mboxErr, evstat := (s.reply sess code tag st body).owl.evstat } := by
  simp only [State.reply]
  split
  · rfl
  · split
    · rfl
    · split <;> rfl

section
variable (sess : Nat) (code : BitVec 16) (tag : W32) (st : Status) (body : Bytes)

@[simp] theorem State.reply_repl : (s.reply sess code tag st body).owl.repl = s.owl.repl := by rw [State.reply_owl]
@[simp] theorem State.reply_staged : (s.reply sess code tag st body).owl.staged = s.owl.staged := by rw [State.reply_owl]
@[simp] theorem State.reply_dram : (s.reply sess code tag st body).dram = s.dram := by rw [State.reply_frame]
@[simp] theorem State.reply_scr : (s.reply sess code tag st body).scr = s.scr := by rw [State.reply_frame]
@[simp] theorem State.reply_life : (s.reply sess code tag st body).life = s.life := by rw [State.reply_frame]; rfl
@[simp] theorem State.reply_secOf (p : Nat) : (s.reply sess code tag st body).secOf p = s.secOf p := by rw [State.reply_frame]; rfl
@[simp] theorem State.reply_loadBody (n p : Nat) : (s.reply sess code tag st body).loadBody n p = s.loadBody n p := by
  rw [State.reply_frame]; rfl
@[simp] theorem State.reply_sessOpen (i : Nat) : (s.reply sess code tag st body).sessOpen i = s.sessOpen i := by
  rw [State.reply_frame, State.reply_owl]; rfl

end

/-- Nothing has changed but Owl's part and flash; no session has ended, and no reply has gone out. -/
structure OnlyLogged (s t : State) : Prop where
  frame : t = { s with owl := t.owl, flash := t.flash }
  replies : t.owl.replies = s.owl.replies
  sessOpen : ∀ i, t.sessOpen i = s.sessOpen i

theorem OnlyLogged.trans {s t u : State} (h : OnlyLogged s t) (g : OnlyLogged t u) : OnlyLogged s u :=
  ⟨by rw [g.frame, h.frame], g.replies.trans h.replies, fun i => (g.sessOpen i).trans (h.sessOpen i)⟩

theorem State.logEvent_logged (k st d : Byte) (a : W64) (p : Byte) : OnlyLogged s (s.logEvent k st d a p) :=
  have h := s.logEvent_admin k st d a p
  ⟨by rw [State.logEvent_frame], State.replies_of_admin h, State.sessOpen_of_admin h⟩

/-- R552, R554: an entry goes to flash, with a record that the ledger is full before the first in its last MiB. -/
theorem State.ledgerAdd_logged (ty : BitVec 16) (body : Bytes) : OnlyLogged s (s.ledgerAdd ty body) := by
  unfold State.ledgerAdd
  extract_lets +onlyGivenNames low src s1
  have h1 : OnlyLogged s s1 := by
    unfold s1
    split
    · exact OnlyLogged.trans (t := { s with flash := { src with ledFull := true } }) ⟨rfl, rfl, fun _ => rfl⟩ (State.logEvent_logged ..)
    · exact ⟨rfl, rfl, fun _ => rfl⟩
  clear_value s1
  dsimp only
  split
  · exact h1
  · exact ⟨by rw [h1.frame], h1.replies, h1.sessOpen⟩

/-! ### Commands heard -/

/-- R535: the state on which a heard command acts: the session's idle time starts again. -/
def State.heard (sess : Nat) : State := s.setSess sess { s.sess sess with lastCmd := s.clk }

/-- R539: the state on which a command assembled of its chunks acts: nothing stays assembled. -/
def State.heardWhole (sess : Nat) : State := (s.heard sess).setChunks sess 0 []

variable {s}

theorem State.sessOpen_setSess {i j : Nat} (x : Sess) (h : s.sessOpen j = true) : (s.setSess i x).sessOpen j = true := by
  unfold State.sessOpen State.setSess at *
  split
  · simpa [*] using h
  · simp_all [thas_tput]

theorem State.heardWhole_sessOpen {i j : Nat} (h : s.sessOpen j = true) : (s.heardWhole i).sessOpen j = true :=
  State.sessOpen_setSess _ (State.sessOpen_setSess _ h)

/-- R539: a command that comes in one chunk acts on its body. -/
theorem State.lastChunk_hears {sess : Nat} {code : BitVec 16} {w : Bytes} (tag : W32) (act : Bytes → State → State) (h : s.Hears sess)
    (hheld : (s.sess sess).held code = []) (hcode : chunkable code = true) (hlen : w.length + 4 ≤ bodyMax) :
    s.lastChunk sess code tag (toLe 4 0 ++ w) act = act w (s.heardWhole sess) := by
  have hheld' : ((s.heard sess).sess sess).held code = [] := by
    rw [State.heard, State.sess, State.setSess, tget_tput_same]; exact hheld
  have hofs : fld (toLe 4 0 ++ w) 0 4 = 0 := (fld_append_left (by simp)).trans rfl
  have hst : (s.heard sess).chunkStatus sess code (toLe 4 0 ++ w) = .ok := by
    have hlen' : ¬ ((!chunkable code) = true ∨ (toLe 4 0 ++ w).length < 4 ∨ bodyMax < (toLe 4 0 ++ w).length) := by
      simp [hcode]; omega
    rw [State.chunkStatus, if_neg hlen', hheld', hofs]; rfl
  have hwhole : ((s.heard sess).sess sess).held code ++ (toLe 4 0 ++ w).drop 4 = w := by rw [hheld']; rfl
  rw [State.lastChunk, State.command_hears s _ _ _ h]
  exact (if_pos hst).trans (congrArg (act · (s.heardWhole sess)) hwhole)

/-! ### A section that takes effect (R85 steps 5 and 6) -/

theorem State.fillBuckets_parts (s : State) (p k : Nat) :
    s.fillBuckets p k = { s with parts := (s.fillBuckets p k).parts } ∧ ((s.fillBuckets p k).part p).secBad = (s.part p).secBad := by
  simp only [State.fillBuckets, State.setPqos_eq, State.setPart_get_part_same, and_true]
  rfl

/-- R76: the traffic settings of a partition are in its own part of the state. -/
theorem State.loadPq_parts (s : State) (p k : Nat) :
    s.loadPq p k = { s with parts := (s.loadPq p k).parts } ∧ ((s.loadPq p k).part p).secBad = (s.part p).secBad := by
  unfold State.loadPq
  extract_lets sec pol shp dflt set q
  obtain ⟨hf, hb⟩ := State.fillBuckets_parts (s.setPqos p k { q with staged := set, inForce := set, applyDue := false }) p k
  refine ⟨hf, hb.trans ?_⟩
  rw [State.setPqos_eq, State.setPart_get_part_same]

theorem State.loadTraffic_parts (s : State) (p : Nat) :
    s.loadTraffic p = { s with parts := (s.loadTraffic p).parts } ∧ ((s.loadTraffic p).part p).secBad = (s.part p).secBad := by
  refine List.foldlRecOn _ _
    (motive := fun t : State => t = { s with parts := t.parts } ∧ (t.part p).secBad = (s.part p).secBad) ⟨rfl, rfl⟩ fun t ⟨ht, hb⟩ k _ => ?_
  obtain ⟨hq, hqb⟩ := t.loadPq_parts p k
  exact ⟨by rw [hq, ht], hqb.trans hb⟩

/-- The layout with the section of a partition replaced. -/
def Layout.withSection (l : Layout) (p : Nat) (c : PartSec) : Layout := { l with secs := (l.secs.filter fun x => x.part != p) ++ [c] }

/-- R85 step 5: the section comes into the layout, the fields that rest on it take its values, and its partition its settings. -/
theorem State.enforceSection_frame (s : State) (p : Nat) (c : PartSec) :
    s.enforceSection p c = { s with
      lay := some ((s.lay.getD Layout.reset).withSection p c)
      rwt := s.rwt.filter fun e => !(decide (rwtKey (.mcast 0) ≤ e.1) && decide (e.1 < rwtKey (.route 0)))
      parts := (s.enforceSection p c).parts } :=
  (State.loadTraffic_parts _ p).1

theorem State.enforceSection_life (s : State) (p : Nat) (c : PartSec) : (s.enforceSection p c).life = s.life := by
  have hkey : (!(decide (rwtKey (.mcast 0) ≤ rwtKey .secState) && decide (rwtKey .secState < rwtKey (.route 0)))) = true := by decide
  rw [State.enforceSection_frame]
  simp only [State.life, State.rwtUse, State.rwtOf]
  rw [tget_filter (p := fun k => !(decide (rwtKey (.mcast 0) ≤ k) && decide (k < rwtKey (.route 0)))) _ _ hkey]
  rfl

theorem State.enforceSection_secBad (s : State) (p : Nat) (c : PartSec) :
    ((s.enforceSection p c).part p).secBad = (s.part p).secBad := by
  rw [State.enforceSection, (State.loadTraffic_parts _ p).2, State.setPart_get_part_same]; rfl

theorem Layout.find_withSection_same (l : Layout) {p : Nat} {c : PartSec} (h : c.part = p) :
    (l.withSection p c).secs.find? (fun x => x.part == p) = some c := by
  have hnone : (l.secs.filter fun x => x.part != p).find? (fun x => x.part == p) = none := by simp [List.find?_eq_none]
  simp [Layout.withSection, List.find?_append, hnone, h]

theorem Layout.find_withSection_other (l : Layout) {p j : Nat} {c : PartSec} (h : c.part = p) (hj : j ≠ p) :
    (l.withSection p c).secs.find? (fun x => x.part == j) = l.secs.find? fun x => x.part == j := by
  have hlast : [c].find? (fun x => x.part == j) = none := by simp [h, hj.symm]
  simp only [Layout.withSection, List.find?_append, hlast, Option.or_none, List.find?_filter]
  congr 1
  funext x
  by_cases hx : x.part = j <;> simp [hx, hj]

/-- R76: the new section is in force for its partition. -/
theorem State.enforceSection_secOf_same (s : State) {p : Nat} {c : PartSec} (h : c.part = p) : (s.enforceSection p c).secOf p = some c := by
  rw [State.enforceSection_frame]
  exact Layout.find_withSection_same _ h

/-- R85: the sections of the other partitions stay. -/
theorem State.enforceSection_secOf_other (s : State) {p j : Nat} {c : PartSec} (h : c.part = p) (hj : j ≠ p) :
    (s.enforceSection p c).secOf j = s.secOf j := by
  rw [State.enforceSection_frame]
  exact Layout.find_withSection_other _ h hj

/-- R119: the partition of a new section is released if a failed one held it; its own part apart, that is traffic. -/
theorem State.replaceSection_admin (s : State) (p : Nat) (c : PartSec) :
    (s.replaceSection p c).admin = (s.enforceSection p c).admin := by
  unfold State.replaceSection
  extract_lets s1 x
  have h1 : s1.admin = (s.enforceSection p c).admin := rfl
  clear_value s1
  split
  · rw [State.setHolds_admin, State.setPart_admin, h1]
  · exact h1

theorem State.replaceSection_of_good {s : State} {p : Nat} (c : PartSec) (h : (s.part p).secBad = false) :
    s.replaceSection p c = s.enforceSection p c := by
  have hbad : ((s.enforceSection p c).part p).secBad = false := (s.enforceSection_secBad p c).trans h
  simp [State.replaceSection, hbad]

/-- What a replacement whose session is open leaves when it takes effect. -/
structure Loaded (s t : State) (r : Repl) : Prop where
  secOf : t.secOf r.part = some r.sec
  replies : t.owl.replies = s.owl.replies ++ [⟨r.sess, cLayoutLoad, r.tag, .ok, t.loadBody 0 r.part⟩]
  repl : t.owl.repl = s.owl.repl
  life : t.life = s.life
  sessOpen : ∀ i, t.sessOpen i = s.sessOpen i

/-- Traffic before and after a replacement takes effect does not matter. -/
theorem Loaded.of_admin {s s' t t' : State} {r : Repl} (h : Loaded s t r) (hs : s.admin = s'.admin) (ht : t'.admin = t.admin) :
    Loaded s' t' r where
  secOf := (State.secOf_of_admin ht _).trans h.secOf
  replies := by rw [State.replies_of_admin ht, h.replies, State.replies_of_admin hs, State.loadBody_of_admin ht]
  repl := by rw [State.repl_of_admin ht, h.repl, State.repl_of_admin hs]
  life := by rw [State.life_of_admin ht, h.life, State.life_of_admin hs]
  sessOpen i := by rw [State.sessOpen_of_admin ht, h.sessOpen, State.sessOpen_of_admin hs]

/-- R85 step 5: what the section itself brings, its reply included. -/
theorem State.enforceSection_reply {s : State} {r : Repl} (hp : r.sec.part = r.part) (ho : s.sessOpen r.sess = true) :
    Loaded s ((s.enforceSection r.part r.sec).reply r.sess cLayoutLoad r.tag .ok
      ((s.enforceSection r.part r.sec).loadBody 0 r.part)) r := by
  have howl : (s.enforceSection r.part r.sec).owl = s.owl := by rw [State.enforceSection_frame]
  have hopen (i : Nat) : (s.enforceSection r.part r.sec).sessOpen i = s.sessOpen i := by rw [State.enforceSection_frame]; rfl
  refine ⟨?_, ?_, ?_, ?_, ?_⟩
  · rw [State.reply_secOf, State.enforceSection_secOf_same s hp]
  · rw [State.reply_replies _ _ _ _ _ _ ((hopen _).trans ho), State.reply_loadBody, howl]
  · rw [State.reply_repl, howl]
  · rw [State.reply_life, State.enforceSection_life]
  · exact fun i => (State.reply_sessOpen ..).trans (hopen i)

/-- What a reply does rests on nothing that traffic changes. -/
theorem State.reply_admin (s : State) (sess : Nat) (code : BitVec 16) (tag : W32) (st : Status) (body : Bytes) :
    (s.reply sess code tag st body).admin = (s.admin.reply sess code tag st body).admin := by
  have hopen : s.admin.sessOpen sess = s.sessOpen sess := rfl
  have hfifo : s.admin.owl.fifo = s.owl.fifo := rfl
  simp only [State.reply, hopen, hfifo]
  split
  · rfl
  · split
    · rfl
    · split <;> rfl

/-- R85 steps 5 and 6, for a tenant that stays or a new one. -/
theorem State.loaded_loaded {s : State} {r : Repl} (hp : r.sec.part = r.part) (ho : s.sessOpen r.sess = true) :
    Loaded s (s.loaded r) r := by
  unfold State.loaded
  extract_lets s0 s1
  have h0 : s0.admin = s.admin := by unfold s0; split <;> simp
  have h1 : s1.admin = (s0.enforceSection r.part r.sec).admin := s0.replaceSection_admin ..
  clear_value s0 s1
  refine (State.enforceSection_reply hp ((State.sessOpen_of_admin h0 _).trans ho)).of_admin h0 ?_
  rw [State.reply_admin, h1, ← State.reply_admin, State.loadBody_of_admin h1]

/-- No scrub runs. -/
def State.noScrub (s : State) : State := { s with owl := { s.owl with scrubs := [], repl := none, reScrub := [] } }

/-- R82, R85: the end of a replacement's scrub, whatever scrubs end with it. -/
theorem State.scrubEnd_loaded {s : State} {r : Repl} (hr : s.owl.repl = some r) (hp : r.sec.part = r.part)
    (ho : s.sessOpen r.sess = true) : Loaded s.noScrub s.scrubEnd r := by
  have hrun : ¬ (s.owl.scrubs.isEmpty = true ∧ s.owl.repl.isNone = true) := by simp [hr]
  have hslots : (s.noScrub.loadSlots (s.lay.getD Layout.reset)).admin = s.noScrub.admin := State.loadSlots_admin ..
  have hload := State.loaded_loaded hp ((State.sessOpen_of_admin hslots r.sess).trans ho)
  unfold State.scrubEnd
  rw [if_neg hrun, hr]
  exact hload.of_admin hslots (State.foldl_admin (fun s p => s.unscrubbed_admin p) _ _)

/-! ### LAYOUT_LOAD (R85–R88) -/

/-- R85, R88: a LAYOUT_LOAD for the partition is taken up: no built-in layout, no warm reset, and the partition quiesced, not in a scrub. -/
structure State.CanLoad (s : State) (p : Nat) : Prop where
  builtin : (s.lay.getD Layout.reset).builtin = false
  warm : s.inWarm = false
  quiesced : (s.part p).st = .quiesced
  noScrub : p ∉ s.owl.scrubs

section
variable {s : State} {w : Bytes} {p : Nat} (sess : Nat) (tag : W32) (hp : p = sectPart w) (h : s.CanLoad p)
include hp h

/-- R85: a section that passes its checks takes effect, or, for a new tenant, its scrub starts. -/
theorem State.layoutLoad_ok {c : PartSec} (hc : s.loadCheck w = .ok c) :
    s.layoutLoad sess tag w =
      if c.tenant = s.tenant p then s.loaded ⟨p, c, sess, tag⟩
      else { s.scrubTenant p with owl := { (s.scrubTenant p).owl with repl := some ⟨p, c, sess, tag⟩ } } := by
  simp only [State.layoutLoad, ← hp, hc, h.builtin, h.warm, h.quiesced, List.contains_eq_mem, h.noScrub]
  rfl

/-- R86: one that fails a check is rejected with its status, and recorded. -/
theorem State.layoutLoad_error {e : Status} {x : LayErr} (hc : s.loadCheck w = .error (e, x)) :
    s.layoutLoad sess tag w = (s.layoutRejected x).reply sess cLayoutLoad tag e (s.loadBody x.check p) := by
  simp only [State.layoutLoad, ← hp, hc, h.builtin, h.warm, h.quiesced, List.contains_eq_mem, h.noScrub, ne_eq, not_true_eq_false,
    decide_false, Bool.or_false, Bool.false_eq_true, if_false, Status.first_of_two_ok, if_true]

end

/-- R83: check 0x09: a section that passes names its partition. -/
theorem State.partSection_part {s : State} {l : Layout} {p : Nat} {sec : Bytes} {c : PartSec} (h : s.partSection l p sec = .ok c) :
    c.part = p := by
  unfold State.partSection at h
  iterate 5 (split at h; · cases h)
  extract_lets err c' at h
  iterate 3 (split at h; · cases h)
  rename_i hpart
  have hc : c' = c := by
    iterate 2 (split at h; · cases h)
    exact Except.ok.inj h
  exact hc ▸ Decidable.not_not.1 fun hne => hpart (.inl hne)

/-- R51, R85: a section that passes fits a command that comes in one chunk. -/
theorem State.loadCheck_ok {s : State} {w : Bytes} {c : PartSec} (h : s.loadCheck w = .ok c) :
    w.length + 4 ≤ bodyMax ∧ c.part = sectPart w := by
  simp only [State.loadCheck] at h
  split at h
  · cases h
  · rename_i hlen
    refine ⟨by unfold bodyMax; omega, ?_⟩
    split at h
    · cases h
    · rename_i c' hsec
      have hc : c' = c := by
        split at h
        · exact Except.ok.inj h
        · split at h
          · exact Except.ok.inj h
          · cases h
      exact hc ▸ State.partSection_part hsec

/-! ### What a command leaves of Owl's part alone -/

/-- Nothing has changed but Owl's part of the state. -/
def OnlyOwl (s t : State) : Prop := t = { s with owl := t.owl }

theorem OnlyOwl.trans {s t u : State} (h : OnlyOwl s t) (g : OnlyOwl t u) : OnlyOwl s u := by
  unfold OnlyOwl at *; rw [g, h]

theorem State.heardWhole_onlyOwl (s : State) (sess : Nat) : OnlyOwl s (s.heardWhole sess) := rfl
theorem State.reply_onlyOwl (s : State) (sess : Nat) (code : BitVec 16) (tag : W32) (st : Status) (body : Bytes) :
    OnlyOwl s (s.reply sess code tag st body) := State.reply_frame ..

/-- R84: the answer of a command that rejects a section or an image. -/
theorem State.rejected_reply {s : State} {sess : Nat} (hopen : s.sessOpen sess = true) (code : BitVec 16) (tag : W32) (st : Status)
    (body : Bytes) (x : LayErr) {t : State} (ht : t = ((s.heardWhole sess).layoutRejected x).reply sess code tag st body) :
    t = { s with owl := t.owl } ∧ t.owl.staged = s.owl.staged ∧ Replied s t sess code tag st body := by
  have hlog : ((s.heardWhole sess).layoutRejected x).admin = (s.heardWhole sess).admin := State.logEvent_admin ..
  have hopen' : ((s.heardWhole sess).layoutRejected x).sessOpen sess = true :=
    (State.sessOpen_of_admin hlog sess).trans (State.heardWhole_sessOpen hopen)
  subst ht
  refine ⟨((s.heardWhole_onlyOwl sess).trans (State.logEvent_frame ..)).trans (State.reply_onlyOwl ..), ?_, ?_⟩
  · exact (State.reply_staged ..).trans (State.staged_of_admin hlog :)
  · exact (State.reply_replies _ _ _ _ _ _ hopen').trans (congrArg (· ++ _) (State.replies_of_admin hlog :))

/-! ### What rests on no part of Owl's state -/

section
variable (s : State) (o : OwlS)

theorem State.life_withOwl : ({ s with owl := o } : State).life = s.life := rfl
theorem State.secOf_withOwl (p : Nat) : ({ s with owl := o } : State).secOf p = s.secOf p := rfl
theorem State.signOk_withOwl (tr cov : Bytes) : ({ s with owl := o } : State).signOk tr cov = s.signOk tr cov := rfl
theorem State.trailerOk_withOwl (tr cov : Bytes) : ({ s with owl := o } : State).trailerOk tr cov = s.trailerOk tr cov := rfl
theorem State.imageForm_withOwl (w : Bytes) : ({ s with owl := o } : State).imageForm w = s.imageForm w := rfl

theorem State.partSection_withOwl (l : Layout) (p : Nat) (sec : Bytes) :
    ({ s with owl := o } : State).partSection l p sec = s.partSection l p sec := by
  unfold State.partSection
  simp only [State.life_withOwl, State.trailerOk_withOwl]

theorem State.check09_withOwl (l : Layout) (w : Bytes) : ({ s with owl := o } : State).check09 l w = s.check09 l w := by
  unfold State.check09
  cases recsOf w with
  | error _ => rfl
  | ok rs => rw [State.signOk_withOwl, State.trailerOk_withOwl]

theorem State.loadCheck_withOwl (w : Bytes) : ({ s with owl := o } : State).loadCheck w = s.loadCheck w := by
  unfold State.loadCheck
  simp only [State.partSection_withOwl, State.check09_withOwl, State.secOf_withOwl]

end

theorem State.heardWhole_loadCheck (s : State) (sess : Nat) (w : Bytes) : (s.heardWhole sess).loadCheck w = s.loadCheck w :=
  s.loadCheck_withOwl _ w

theorem State.heardWhole_imageForm (s : State) (sess : Nat) (w : Bytes) : (s.heardWhole sess).imageForm w = s.imageForm w :=
  s.imageForm_withOwl _ w

/-! ### What the commands act on -/

/-- R541: flash with an image in the layout area of the bank that does not run. -/
def State.flashed (s : State) (w : Bytes) : FlashS :=
  if s.owl.bankB then { s.flash with a := { s.flash.a with lay := w } } else { s.flash with b := { s.flash.b with lay := w } }

/-- R545: the fuses with a counter advanced, that of the firmware or that of the layout. -/
def State.burnt (s : State) (layout : Bool) : FuseS :=
  if layout then { s.fuse with layCnt := max s.fuse.layCnt (s.lay.getD Layout.reset).rollback }
  else { s.fuse with fwCnt := max s.fuse.fwCnt s.runningFw.1 }

theorem State.advance_logged (s : State) (layout : Bool) : OnlyLogged { s with fuse := s.burnt layout } (s.advance layout) :=
  State.ledgerAdd_logged ..

/-- R538: a command that is no reading command is acted on after the load before it has ended. -/
theorem State.command_acts {s : State} {sess : Nat} {code : BitVec 16} (tag : W32) (act : State → State) (hopen : s.sessOpen sess = true)
    (hrun : s.owl.st = .run) (hlife : ((s.heard sess).afterLoad code).life ≠ 4) :
    s.command sess code tag act = act ((s.heard sess).afterLoad code) := by
  have hgo : ¬ ((!s.sessOpen sess) = true ∨ s.owl.st ≠ .run) := by simp [hopen, hrun]
  rw [State.command, if_neg hgo]
  exact if_neg fun hf => hlife hf.1

/-! ### The statement's clauses -/

section
variable {s : State} {sess : Nat} {tag : W32} {body : Bytes}

theorem exec_layoutLoad : exec (.layoutLoad sess tag body) s =
    .next (s.lastChunk sess cLayoutLoad tag body fun w s => s.layoutLoad sess tag w) := rfl
theorem exec_layoutStage : exec (.layoutStage sess tag body) s =
    .next (s.lastChunk sess cLayoutStage tag body fun w s => s.layoutStage sess tag w) := rfl
theorem exec_layoutFlash : exec (.layoutFlash sess tag body) s =
    .next (s.lastChunk sess cLayoutFlash tag body fun w s => s.layoutFlash sess tag w) := rfl
theorem exec_unknownCommand {c : CmdHead} : exec (.unknownCommand sess c tag) s = .next (s.command sess c.code tag fun s =>
    s.reply sess c.code tag (if bodyMax < c.length then .badDescriptor else .unsupported) []) := rfl
theorem exec_rollbackAdvance : exec (.rollbackAdvance sess tag body) s = .next (s.rollbackAdvance sess tag body) := rfl

end

/-- The state on which a chunked command acts lets the same loads through. -/
theorem State.CanLoad.heardWhole {s : State} {p : Nat} (hl : s.CanLoad p) (sess : Nat) : (s.heardWhole sess).CanLoad p :=
  ⟨hl.builtin, hl.warm, hl.quiesced, hl.noScrub⟩

/-- R85, R538: a command that runs alone comes after the end of a replacement's scrub: the section is in force, and both commands are
answered, in their order. -/
theorem leads_after_load {s : State} {sess : Nat} (tag : W32) {c : CmdHead} {r : Repl} (hopen : s.sessOpen sess = true)
    (hrun : s.owl.st = .run) (hlife : s.life ≠ 4) (halone : runsAlone c.code = true) (hlen : c.length ≤ bodyMax)
    (hr : s.owl.repl = some r) (hp : r.sec.part = r.part) (hopen' : s.sessOpen r.sess = true) :
    Leads (.unknownCommand sess c tag) s fun t =>
      t.owl.repl = none ∧ t.secOf r.part = some r.sec ∧
      t.owl.replies = s.owl.replies ++
        [⟨r.sess, cLayoutLoad, r.tag, .ok, t.loadBody 0 r.part⟩, ⟨sess, c.code, tag, .unsupported, []⟩] := by
  have hload : (s.heard sess).afterLoad c.code = (s.heard sess).scrubEnd := if_pos ⟨halone, congrArg Option.isSome hr⟩
  have hend : Loaded (s.heard sess).noScrub (s.heard sess).scrubEnd r :=
    State.scrubEnd_loaded hr hp (State.sessOpen_setSess _ hopen')
  have hlife' : ((s.heard sess).afterLoad c.code).life ≠ 4 := by rw [hload, hend.life]; exact hlife
  have hexec : exec (.unknownCommand sess c tag) s = .next ((s.heard sess).scrubEnd.reply sess c.code tag .unsupported []) := by
    rw [exec_unknownCommand, if_neg (Nat.not_lt.2 hlen), State.command_acts tag _ hopen hrun hlife', hload]
  have hopen1 : (s.heard sess).scrubEnd.sessOpen sess = true := (hend.sessOpen sess).trans (State.sessOpen_setSess _ hopen)
  refine leads_of_exec hexec ⟨?_, ?_, ?_⟩
  · exact (State.reply_repl ..).trans hend.repl
  · exact (State.reply_secOf ..).trans hend.secOf
  · rw [State.reply_replies _ _ _ _ _ _ hopen1, hend.replies, State.reply_loadBody, List.append_assoc]; rfl

section
variable {s : State} {sess : Nat} {w : Bytes} (tag : W32) (h : s.Hears sess)
include h

/-- R85: a section with the tenant in force is loaded at once. -/
theorem leads_layoutLoad_same {p : Nat} {c : PartSec} (hheld : (s.sess sess).held cLayoutLoad = []) (hc : s.loadCheck w = .ok c)
    (hp : p = sectPart w) (hl : s.CanLoad p) (hbad : (s.part p).secBad = false) (ht : c.tenant = s.tenant p) :
    Leads (.layoutLoad sess tag (toLe 4 0 ++ w)) s fun t =>
      t.secOf p = some c ∧ Replied s t sess cLayoutLoad tag .ok (t.loadBody 0 p) ∧ t.dram = s.dram ∧ t.scr = s.scr ∧
      ∀ j, j ≠ p → t.secOf j = s.secOf j := by
  obtain ⟨hopen, -, -, -⟩ := id h
  obtain ⟨hbody, hpart⟩ := State.loadCheck_ok hc
  have hload : (s.heardWhole sess).layoutLoad sess tag w = (s.heardWhole sess).loaded ⟨p, c, sess, tag⟩ :=
    (State.layoutLoad_ok sess tag hp (hl.heardWhole sess) ((s.heardWhole_loadCheck sess w).trans hc)).trans (if_pos ht)
  have hexec : exec (.layoutLoad sess tag (toLe 4 0 ++ w)) s = .next ((s.heardWhole sess).loaded ⟨p, c, sess, tag⟩) :=
    exec_layoutLoad.trans (congrArg _ ((State.lastChunk_hears tag _ h hheld rfl hbody).trans hload))
  refine leads_of_exec hexec ?_
  have hloaded := State.loaded_loaded (s := s.heardWhole sess) (r := ⟨p, c, sess, tag⟩) (hpart.trans hp.symm)
    (State.heardWhole_sessOpen hopen)
  have hbe : (s.heardWhole sess).loaded ⟨p, c, sess, tag⟩ =
      ((s.heardWhole sess).enforceSection p c).reply sess cLayoutLoad tag .ok
        (((s.heardWhole sess).enforceSection p c).loadBody 0 p) := by
    have hgood : ((s.heardWhole sess).part p).secBad = false := hbad
    have hten : c.tenant = (s.heardWhole sess).tenant p := ht
    unfold State.loaded
    extract_lets s0 s1
    have h0 : s0 = s.heardWhole sess := if_pos hten
    have h1 : s1 = (s.heardWhole sess).enforceSection p c := by
      unfold s1; rw [h0]; exact State.replaceSection_of_good c hgood
    rw [h1]
  refine ⟨hloaded.secOf, hloaded.replies, ?_, ?_, fun j hj => ?_⟩
  · rw [hbe, State.reply_dram, State.enforceSection_frame]; rfl
  · rw [hbe, State.reply_scr, State.enforceSection_frame]; rfl
  · rw [hbe, State.reply_secOf, State.enforceSection_secOf_other _ (hpart.trans hp.symm) hj]; rfl

/-- R85 step 4: for a new tenant the scrub starts, and the reply waits for its end. -/
theorem leads_layoutLoad_new {p : Nat} {c : PartSec} (hheld : (s.sess sess).held cLayoutLoad = []) (hc : s.loadCheck w = .ok c)
    (hp : p = sectPart w) (hl : s.CanLoad p) (ht : c.tenant ≠ s.tenant p) :
    Leads (.layoutLoad sess tag (toLe 4 0 ++ w)) s fun t =>
      t.owl.repl = some ⟨p, c, sess, tag⟩ ∧ t.owl.replies = s.owl.replies ∧ t.secOf p = s.secOf p ∧ t.scrubbing p = true := by
  obtain ⟨hbody, -⟩ := State.loadCheck_ok hc
  have hload := (State.layoutLoad_ok sess tag hp (hl.heardWhole sess) ((s.heardWhole_loadCheck sess w).trans hc)).trans (if_neg ht)
  have hscrub : ((s.heardWhole sess).scrubTenant p).admin = (s.heardWhole sess).admin := State.scrubTenant_admin ..
  refine leads_of_exec (exec_layoutLoad.trans (congrArg _ ((State.lastChunk_hears tag _ h hheld rfl hbody).trans hload))) ?_
  exact ⟨rfl, (State.replies_of_admin hscrub :), (State.secOf_of_admin hscrub p :), by simp [State.scrubbing]⟩

/-- R86: a section that fails a check is rejected. -/
theorem leads_layoutLoad_error {e : Status} {x : LayErr} (hheld : (s.sess sess).held cLayoutLoad = []) (hbody : w.length + 4 ≤ bodyMax)
    (hc : s.loadCheck w = .error (e, x)) (hl : s.CanLoad (sectPart w)) :
    Leads (.layoutLoad sess tag (toLe 4 0 ++ w)) s fun t =>
      t = { s with owl := t.owl } ∧ Replied s t sess cLayoutLoad tag e (s.loadBody x.check (sectPart w)) := by
  obtain ⟨hopen, -, -, -⟩ := id h
  have hload := State.layoutLoad_error sess tag rfl (hl.heardWhole sess) ((s.heardWhole_loadCheck sess w).trans hc)
  obtain ⟨hframe, -, hreply⟩ := State.rejected_reply hopen cLayoutLoad tag e (s.loadBody x.check (sectPart w)) x rfl
  exact leads_of_exec (exec_layoutLoad.trans (congrArg _ ((State.lastChunk_hears tag _ h hheld rfl hbody).trans hload))) ⟨hframe, hreply⟩

/-- R81: an image that passes the checks of form is staged. -/
theorem leads_layoutStage_ok (hheld : (s.sess sess).held cLayoutStage = []) (hbody : w.length + 4 ≤ bodyMax)
    (hf : s.imageForm w = none) (hphase : s.phase ≠ .waitImage) (hlay : s.top.layoutOk = true) :
    Leads (.layoutStage sess tag (toLe 4 0 ++ w)) s fun t =>
      t = { s with owl := t.owl } ∧ t.owl.staged = some w ∧ Replied s t sess cLayoutStage tag .ok (layBody none) := by
  obtain ⟨hopen, -, -, -⟩ := id h
  have hstage : (s.heardWhole sess).layoutStage sess tag w =
      ({ s.heardWhole sess with owl := { (s.heardWhole sess).owl with staged := some w } } : State).reply sess cLayoutStage tag .ok
        (layBody none) := by
    have hphase' : (s.heardWhole sess).phase ≠ .waitImage := hphase
    have hlay' : (s.heardWhole sess).top.layoutOk = true := hlay
    rw [State.layoutStage, s.heardWhole_imageForm sess w, hf]
    exact (if_neg hphase').trans (if_pos hlay')
  refine leads_of_exec (exec_layoutStage.trans (congrArg _ ((State.lastChunk_hears tag _ h hheld rfl hbody).trans hstage))) ?_
  exact ⟨State.reply_onlyOwl .., State.reply_staged .., State.reply_replies _ _ _ _ _ _ (State.heardWhole_sessOpen hopen)⟩

/-- R80, R81: an image that fails a check of form is rejected. -/
theorem leads_layoutStage_error {e : LayErr} (hheld : (s.sess sess).held cLayoutStage = []) (hbody : w.length + 4 ≤ bodyMax)
    (hf : s.imageForm w = some e) :
    Leads (.layoutStage sess tag (toLe 4 0 ++ w)) s fun t =>
      t = { s with owl := t.owl } ∧ t.owl.staged = s.owl.staged ∧
      Replied s t sess cLayoutStage tag (s.formStatus w e) (layBody (some e)) := by
  obtain ⟨hopen, -, -, -⟩ := id h
  have hstage : (s.heardWhole sess).layoutStage sess tag w =
      ((s.heardWhole sess).layoutRejected e).reply sess cLayoutStage tag (s.formStatus w e) (layBody (some e)) := by
    rw [State.layoutStage, s.heardWhole_imageForm sess w, hf]; rfl
  exact leads_of_exec (exec_layoutStage.trans (congrArg _ ((State.lastChunk_hears tag _ h hheld rfl hbody).trans hstage)))
    (State.rejected_reply hopen _ tag _ _ e rfl)

/-- R537, R541: an image goes to the layout area of the bank that does not run. -/
theorem leads_layoutFlash_ok (hheld : (s.sess sess).held cLayoutFlash = []) (hbody : w.length + 4 ≤ bodyMax)
    (hf : s.imageForm w = none) :
    Leads (.layoutFlash sess tag (toLe 4 0 ++ w)) s fun t =>
      Replied s t sess cLayoutFlash tag .ok (layBody none) ∧ t = { s with owl := t.owl, flash := s.flashed w } := by
  obtain ⟨hopen, -, -, -⟩ := id h
  have hflash : (s.heardWhole sess).layoutFlash sess tag w =
      ({ s.heardWhole sess with flash := s.flashed w } : State).reply sess cLayoutFlash tag .ok (layBody none) := by
    rw [State.layoutFlash, s.heardWhole_imageForm sess w, hf]; rfl
  refine leads_of_exec (exec_layoutFlash.trans (congrArg _ ((State.lastChunk_hears tag _ h hheld rfl hbody).trans hflash))) ?_
  exact ⟨State.reply_replies _ _ _ _ _ _ (State.heardWhole_sessOpen hopen), State.reply_frame ..⟩

/-- R545: a counter is burnt up to the level that is in force, in the fuses and with an entry of the ledger. -/
theorem leads_rollbackAdvance (layout : Bool) :
    Leads (.rollbackAdvance sess tag [BitVec.ofNat 8 (b2n layout)]) s fun t =>
      t = { s with owl := t.owl, flash := t.flash, fuse := s.burnt layout } ∧
      Replied s t sess cRollback tag .ok (toLe 1 (if layout then t.fuse.layCnt else t.fuse.fwCnt)) := by
  obtain ⟨hopen, -, -, -⟩ := id h
  have hact : s.rollbackAdvance sess tag [BitVec.ofNat 8 (b2n layout)] = ((s.heard sess).advance layout).reply sess cRollback tag .ok
      (toLe 1 (if layout then ((s.heard sess).advance layout).fuse.layCnt else ((s.heard sess).advance layout).fuse.fwCnt)) := by
    rw [State.rollbackAdvance, State.fixed, State.command_hears s _ _ _ h]
    cases layout <;> rfl
  obtain ⟨hframe, hreplies, hsess⟩ := (s.heard sess).advance_logged layout
  refine leads_of_exec (exec_rollbackAdvance.trans (congrArg _ hact)) ?_
  generalize (s.heard sess).advance layout = s1 at *
  have hopen' : s1.sessOpen sess = true := (hsess sess).trans (State.sessOpen_setSess _ hopen)
  generalize ht : s1.reply _ _ _ _ _ = t
  have hreply : t = { s1 with owl := t.owl } := ht ▸ State.reply_frame ..
  refine ⟨by rw [hreply, hframe]; rfl, ?_⟩
  have hfuse : t.fuse = s1.fuse := (congrArg State.fuse hreply :)
  rw [hfuse, Replied, ← ht, State.reply_replies _ _ _ _ _ _ hopen', hreplies]; rfl

end

/-- Settles O50: each command acts on the state in which it is heard, a section that takes effect touches its own partition's settings, and
neither its partition's scrub nor its return to RUN touches the layout, the lifecycle or Owl's sessions and replies. -/
theorem owlLayouts : Obligations.OwlLayouts := by
  refine ⟨?_, ?_, ?_, ?_, ?_, ?_, ?_, ?_, ?_⟩
  · intro s sess p tag w c h hheld hc hp hbuiltin hwarm hquiesced hscrub hbad ht
    exact leads_layoutLoad_same tag h hheld hc hp ⟨hbuiltin, hwarm, hquiesced, hscrub⟩ hbad ht
  · intro s sess p tag w c h hheld hc hp hbuiltin hwarm hquiesced hscrub _ ht
    exact leads_layoutLoad_new tag h hheld hc hp ⟨hbuiltin, hwarm, hquiesced, hscrub⟩ ht
  · intro s sess tag c r hopen hrun hlife halone hlen hr hp hopen'
    exact leads_after_load tag hopen hrun hlife halone hlen hr hp hopen'
  · intro s sess tag w e x h hheld hbody hc _ hbuiltin hwarm hquiesced hscrub
    exact leads_layoutLoad_error tag h hheld hbody hc ⟨hbuiltin, hwarm, hquiesced, hscrub⟩
  · intro s sess tag w h hheld hbody hf hphase hlay
    exact leads_layoutStage_ok tag h hheld hbody hf hphase hlay
  · intro s sess tag w e h hheld hbody hf
    exact leads_layoutStage_error tag h hheld hbody hf
  · intro s sess tag w h hheld hbody hf
    exact leads_layoutFlash_ok tag h hheld hbody hf
  · intro s sess tag h
    exact leads_rollbackAdvance tag h false
  · intro s sess tag l h hl
    have hburn := leads_rollbackAdvance tag h true
    have hfuse : s.burnt true = { s.fuse with layCnt := max s.fuse.layCnt l.rollback } := by rw [State.burnt, hl]; rfl
    rw [hfuse] at hburn
    exact hburn

end Sys2Proof.Machine
end

section
/-! SUPPORT. The reset state. -/

namespace Sys2Proof.Machine
open Sys2Proof

/-- Settles O5: each part of the reset state has its reset value, and an empty memory is canonical. -/
theorem resetState : Obligations.ResetState := ⟨rfl, rfl, rfl, rfl, rfl, rfl, rfl, rfl⟩

end Sys2Proof.Machine
end

section
/-! SUPPORT. The host ports (R557–R559, R575, R577): a command of a port sets that port and nothing else; what a frame brings, and a PFC
frame that names one priority. -/

namespace Sys2Proof.Machine
open Sys2Proof

theorem onlyHost_setHport (s : State) (k : Nat) (h : HPort) : OnlyHost k s (s.setHport k h) :=
  ⟨rfl, fun j hj => by simp [State.setHport_get_hport, hj.symm]⟩

/-- A command that sets port `k` changes that port and nothing else. -/
theorem leads_setHport {c : Instr} {s : State} {k : Nat} {h : HPort} {P : HPort → Prop} (hc : exec c s = .next (s.setHport k h))
    (hP : P h) : Leads c s fun t => OnlyHost k s t ∧ P (t.hport k) :=
  leads_of_exec hc ⟨onlyHost_setHport s k h, by rwa [State.setHport_get_hport_same]⟩

theorem leads_setHport_eq {c : Instr} {s : State} {k : Nat} {h : HPort} (hc : exec c s = .next (s.setHport k h)) :
    Leads c s fun t => OnlyHost k s t ∧ t.hport k = h := leads_setHport (P := (· = h)) hc rfl

section
variable (s : State) (k : Nat)

theorem exec_hostPortEnable (v : Bool) : exec (.hostPortEnable k v) s =
    .next (s.write .owl (0xB01004 + 0x100 * k) (BitVec.ofNat 32 ((s.hport k).ctrl.toNat / 2 * 2 + b2n v))) := rfl
theorem exec_hostLinkUp : exec (.hostLinkUp k) s = execHostLinkUp k s := rfl
theorem exec_hostLinkDown : exec (.hostLinkDown k) s = .next (s.setHport k (s.hport k).down) := rfl
theorem exec_arpRequest (f : Frame) : exec (.arpRequest k f) s = .next (s.answerFrame k f 0 true (!f.v6)) := rfl
theorem exec_neighbourSolicitation (f : Frame) : exec (.neighbourSolicitation k f) s = .next (s.answerFrame k f 1 true f.v6) := rfl
theorem exec_echoRequest (f : Frame) : exec (.echoRequest k f) s = .next (s.answerFrame k f 2 false true) := rfl
theorem exec_pfcFrame (quanta : List (Option (BitVec 16))) : exec (.pfcFrame k quanta) s = execPfcFrame k quanta s := rfl
theorem exec_pfcXon : exec (.pfcXon k) s = execPfcXon k s := rfl
theorem exec_pfcPauseExpiry (i : Nat) : exec (.pfcPauseExpiry k i) s = execPfcPauseExpiry k i s := rfl

end

/-! ### The enable (R557) -/

theorem blockAt_hst {i : Nat} (hi : i < 0x100000) : blockAt (0xB00000 + i) = (.hst, i) := by
  rw [blockAt]
  iterate 8 rw [if_neg (by omega)]
  rw [if_pos (by omega)]
  congr 1; omega

section
variable (s : State) {k : Nat} (hk : k < 2)
include hk

/-- R577: where HST_PCTRL of port `k` stands. -/
theorem blockAt_pctrl : blockAt (0xB01004 + 0x100 * k) = (.hst, 0x1004 + 0x100 * k) := by
  rw [show 0xB01004 + 0x100 * k = 0xB00000 + (0x1004 + 0x100 * k) by omega]
  exact blockAt_hst (by omega)

theorem State.cell_pctrl : s.cell (0xB01004 + 0x100 * k) = some ⟨.keyed, (s.hport k).ctrl.toNat⟩ := by
  simp only [State.cell, blockAt_pctrl hk]
  obtain rfl | rfl : k = 0 ∨ k = 1 := by omega
  · rfl
  · rfl

theorem State.effect_pctrl (v : W32) : s.effect .owl (0xB01004 + 0x100 * k) v = s.pctrl k (BitVec.ofNat 4 v.toNat) := by
  simp only [State.effect, blockAt_pctrl hk]
  obtain rfl | rfl : k = 0 ∨ k = 1 := by omega
  · rfl
  · rfl

theorem State.write_pctrl (v : W32) (hkey : s.CanKey .owl (0xB01004 + 0x100 * k)) :
    s.write .owl (0xB01004 + 0x100 * k) v =
      (s.disarm .owl (unlockOf (0xB01004 + 0x100 * k))).pctrl k (BitVec.ofNat 4 v.toNat) := by
  obtain ⟨hp, ha⟩ := hkey
  have hunlock : isUnlock (0xB01004 + 0x100 * k) = false := by
    unfold isUnlock
    rw [blockAt_pctrl hk]
    simp [unlockAt]; omega
  have hbar : owlBarred .owl (0xB01004 + 0x100 * k) = false := by
    unfold owlBarred; rw [blockAt_pctrl hk]; rfl
  rw [State.write_of_pathUp _ _ _ _ hp, show reach .owl (0xB01004 + 0x100 * k) = 0xB01004 + 0x100 * k from rfl,
    State.regWrite_keyed v (by omega) hbar hunlock (s.cell_pctrl hk), if_pos ha]
  exact State.effect_pctrl _ hk v

end

/-- The value written keeps the control bits but enable. -/
theorem getLsbD_enable (c : BitVec 4) (v : Bool) :
    (BitVec.ofNat 4 (BitVec.ofNat 32 (c.toNat / 2 * 2 + b2n v)).toNat).getLsbD 0 = v := by
  revert c v; decide

/-! ### Frames (R558, R559) -/

section
variable {s : State} {k : Nat} {f : Frame} {kind : Nat} {group ok : Bool} (hup : (s.hport k).up = true)
include hup

/-- R559: a frame that is answered. -/
theorem State.answerFrame_answered (htakes : (s.hport k).takes f = true) (hwhole : f.fragment = false)
    (hmac : f.dstMac = (s.hport k).mac) (hmine : (s.hport k).mine f = true) (hok : ok = true) :
    ∃ g : HSent, s.answerFrame k f kind group ok = s.setHport k { s.hport k with sent := (s.hport k).sent ++ [g] } ∧
      g.kind = kind ∧ g.srcMac = (s.hport k).mac ∧ g.dstMac = f.srcMac ∧ g.data = f.payload := by
  have hgo : (s.hport k).takes f ∧ !f.fragment ∧ (f.dstMac = (s.hport k).mac ∨ (group ∧ f.dstMac.getLsbD 0)) ∧
      (s.hport k).mine f ∧ ok := ⟨htakes, by simp [hwhole], .inl hmac, hmine, hok⟩
  have hdown : ¬ (!(s.hport k).up) = true := by simp [hup]
  exact ⟨_, (if_neg hdown).trans (if_pos hgo), rfl, hmac, rfl, rfl⟩

/-- R558, R577: a frame that the MAC does not accept. -/
theorem State.answerFrame_dropped (htakes : (s.hport k).takes f = false) : s.answerFrame k f kind group ok = s.rxDrop k := by
  have hgo : ¬ ((s.hport k).takes f ∧ !f.fragment ∧ (f.dstMac = (s.hport k).mac ∨ (group ∧ f.dstMac.getLsbD 0)) ∧
      (s.hport k).mine f ∧ ok) := fun h => by simp [htakes] at h
  have hdown : ¬ (!(s.hport k).up) = true := by simp [hup]
  exact (if_neg hdown).trans (if_neg hgo)

end

/-! ### Priority flow control (R575) -/

theorem foldl_zipIdx_replicate {α β : Type} (f : β → α × Nat → β) (a : α) (hf : ∀ b j, f b (a, j) = b) (n j : Nat) (b : β) :
    ((List.replicate n a).zipIdx j).foldl f b = b := by
  induction n generalizing j b with
  | zero => rfl
  | succ n ih => rw [List.replicate_succ, List.zipIdx_cons, List.foldl_cons, hf, ih]

/-- R575: a PFC frame that names priority `i` alone. -/
theorem exec_pfcFrame_one {s : State} {k : Nat} (i : Nat) (n : BitVec 16) (hup : (s.hport k).up = true) :
    exec (.pfcFrame k (List.replicate i none ++ [some n])) s = .next (s.setHport k { s.hport k with
      paused := if n = 0 then tdel (s.hport k).paused i
        else tput (s.hport k).paused i (s.clk + pauseClks (s.hport k).width n.toNat) }) := by
  have hdown : ¬ (!(s.hport k).up) = true := by simp [hup]
  rw [exec_pfcFrame]
  refine (if_neg hdown).trans ?_
  rw [List.zipIdx_append, List.foldl_append, foldl_zipIdx_replicate _ _ fun _ _ => rfl]
  simp

/-- Settles O54: each command sets its own port, and the clause is what it sets. -/
theorem hostPorts : Obligations.HostPorts := by
  refine ⟨?_, ?_, ?_, ?_, ?_, ?_, ?_, ?_, ?_, ?_⟩
  · intro s k v hk hkey
    have hctrl := getLsbD_enable (s.hport k).ctrl v
    refine leads_of_exec ((exec_hostPortEnable s k v).trans (congrArg _ (s.write_pctrl hk _ hkey)))
      ⟨onlyHost_setHport (s.disarm _ _) k _, ?_⟩
    rw [State.pctrl, State.setHport_get_hport_same, hctrl]
    cases v with
    | true => exact ⟨hctrl, (Bool.and_true _).symm, rfl⟩
    | false => exact ⟨hctrl, (Bool.and_false _).symm, rfl⟩
  · intro s k hoff
    rw [exec_hostLinkUp]
    refine if_neg fun h => ?_
    obtain ⟨hen, hlay⟩ := h
    obtain h | h := hoff
    · exact absurd (h.symm.trans hlay) Bool.false_ne_true
    · exact absurd (h.symm.trans hen) Bool.false_ne_true
  · intro s k hen hlay
    exact leads_setHport_eq ((exec_hostLinkUp s k).trans (if_pos ⟨hen, hlay⟩))
  · intro s k
    exact leads_setHport_eq (exec_hostLinkDown s k)
  · intro s k f kind c hup htakes hwhole hmac hmine hc
    have answered {group ok : Bool} (hok : ok = true) (he : exec c s = .next (s.answerFrame k f kind group ok)) :=
      let ⟨g, hg, hrest⟩ := State.answerFrame_answered (kind := kind) (group := group) hup htakes hwhole hmac hmine hok
      leads_setHport (P := fun h => ∃ g : HSent, h = { s.hport k with sent := (s.hport k).sent ++ [g] } ∧ g.kind = kind ∧
        g.srcMac = (s.hport k).mac ∧ g.dstMac = f.srcMac ∧ g.data = f.payload) (he.trans (congrArg _ hg)) ⟨g, rfl, hrest⟩
    obtain ⟨rfl, hv, rfl⟩ | ⟨rfl, hv, rfl⟩ | ⟨rfl, rfl⟩ := hc
    · exact answered (by simp [hv]) (exec_arpRequest s k f)
    · exact answered hv (exec_neighbourSolicitation s k f)
    · exact answered rfl (exec_echoRequest s k f)
  · intro s k f c hup htakes hc
    have dropped {kind : Nat} {group ok : Bool} (he : exec c s = .next (s.answerFrame k f kind group ok)) :
        Leads c s fun t => OnlyHost k s t ∧ t.hport k = { s.hport k with rxdrop := sat (s.hport k).rxdrop } :=
      leads_setHport_eq (he.trans (congrArg _ (State.answerFrame_dropped hup htakes)))
    obtain rfl | rfl | rfl := hc
    · exact dropped (exec_arpRequest s k f)
    · exact dropped (exec_neighbourSolicitation s k f)
    · exact dropped (exec_echoRequest s k f)
  · intro s k i n _ hup hn
    refine leads_setHport (P := fun h => thas h.paused i = true ∧ tget 0 h.paused i = _) (exec_pfcFrame_one i n hup) ?_
    rw [if_neg hn]
    exact ⟨by simp [thas_tput], tget_tput_same ..⟩
  · intro s k i _ hup
    refine leads_setHport (P := fun h => thas h.paused i = false) (exec_pfcFrame_one i 0 hup) ?_
    rw [if_pos rfl]
    simp [thas_tdel]
  · intro s k hx hload
    exact leads_setHport_eq ((exec_pfcXon s k).trans (congrArg _ (if_pos ⟨hx, hload⟩)))
  · intro s k i hpaused hover
    refine leads_setHport (P := fun h => thas h.paused i = false)
      ((exec_pfcPauseExpiry s k i).trans (congrArg _ (if_pos ⟨hpaused, hover⟩))) ?_
    simp [thas_tdel]

end Sys2Proof.Machine
end

section
/-! SUPPORT. The cold start (R101, R413): where its statement fails. -/

namespace Sys2Proof.Machine
open Sys2Proof

/-- A device whose channels train, with the controller of channel 0 under hold: Owl, which runs since step 3, may write hold (R430) then. -/
def heldInTraining : State :=
  { State.reset with pwrgood := true, phase := .training, chans := [(0, { Chan.reset with hold := true })] }

/-- R403: one rank of an MRDIMM of the speed at which the channels train. -/
def trainedDimm : Dimm := ⟨2, 1, 0, 16, 0, true, 1, 2, 3, 4, true⟩

theorem heldInTraining_held : ((heldInTraining.trained 0 trainedDimm).chan 0).st = .held := by decide

/-- Refutes O9: a controller under hold enters self-refresh when its channel's training ends (R413), so its channel reads HELD, where the
clause of CHANNEL_TRAINING_END has RUN or ABSENT. -/
theorem not_coldStart : ¬ Obligations.ColdStart := by
  rintro ⟨-, -, -, htraining, -⟩
  obtain ⟨t, hexec, hst, -⟩ := htraining heldInTraining 0 trainedDimm (by decide) rfl rfl
  obtain rfl : heldInTraining.trained 0 trainedDimm = t := Host.Outcome.next.inj hexec
  rw [heldInTraining_held] at hst
  split at hst <;> cases hst

end Sys2Proof.Machine
end

section
/-! SUPPORT. The edges of PWRGOOD, the loss of the clock and a thermal trip (R90, R101, R486, R494, R532, R580, R615): every unit held in
reset, the ports at their straps' plan, and the built-in tests of the units that were out of service. -/

namespace Sys2Proof.Machine
open Sys2Proof

/-! ### The ports at their straps' plan (R97) -/

theorem State.strapPorts_frame (s : State) : s.strapPorts = { s with ports := s.strapPorts.ports } :=
  List.foldlRecOn _ _ (motive := fun t : State => t = { s with ports := t.ports }) rfl fun t ht k _ => by
    rw [ht]; rfl

/-- Setting ports one after another leaves in each port of the list the plan set there. -/
theorem State.foldl_setPort_planMask {m : W32} {f : Port → Port} (hf : ∀ p, (f p).planMask = m) (l : List Nat) (s : State) (k : Nat)
    (h : k ∈ l ∨ (s.port k).planMask = m) : ((l.foldl (fun s j => s.setPort j (f (s.port j))) s).port k).planMask = m := by
  induction l generalizing s with
  | nil => exact h.resolve_left List.not_mem_nil
  | cons j l ih =>
    refine ih _ ?_
    rw [State.setPort_get_port]
    by_cases hj : j = k
    · exact .inr (by rw [if_pos hj, hf])
    · rw [if_neg hj]
      exact h.imp_left fun hk => (List.mem_cons.1 hk).resolve_left (Ne.symm hj)

/-- R46: STRAP_FABW in TOP_STRAP. -/
theorem bitsOf_strapReg_fabw (x : Straps) : bitsOf (strapReg x).toNat 9 2 = x.fabw.toNat := by
  have := x.boot.isLt; have := x.layout.isLt; have := x.dram.isLt; have := x.mgt.isLt; have := x.fabw.isLt; have := x.id.isLt
  simp only [bitsOf, strapReg, BitVec.toNat_ofNat]
  omega

theorem State.strapPorts_planMask {s : State} {x : Straps} (hx : s.top.straps = strapReg x) {k : Nat} (hk : k < 8) :
    (s.strapPorts.port k).planMask = strapPlan x := by
  have hm : (s.strapPorts.port k).planMask = BitVec.ofNat 32 (2 ^ ([32, 16, 8, 4].getD (bitsOf s.top.straps.toNat 9 2) 32) - 1) :=
    State.foldl_setPort_planMask (f := fun p => { p.settleBoth _ with planMask := _, goPlan := _ }) (fun _ => rfl) _ _ _
      (.inl (List.mem_range.2 hk))
  rw [hm, hx, bitsOf_strapReg_fabw, strapPlan]

/-! ### Built-in tests (R486, R494) -/

theorem getLsbD_setBit {w : Nat} (x : BitVec w) (i j : Nat) : (setBit x i).getLsbD j = (x.getLsbD j || decide (j < w) && decide (i = j)) := by
  rw [setBit, BitVec.getLsbD_or, BitVec.getLsbD_ofNat, Nat.testBit_two_pow]

theorem getLsbD_clearBit {w : Nat} (x : BitVec w) (i j : Nat) :
    (x &&& ~~~(BitVec.ofNat w (2 ^ i))).getLsbD j = (x.getLsbD j && decide (i ≠ j)) := by
  rw [BitVec.getLsbD_and, BitVec.getLsbD_not, BitVec.getLsbD_ofNat, Nat.testBit_two_pow]
  by_cases hj : j < w
  · simp [hj]
  · simp [BitVec.getLsbD_of_ge x j (Nat.le_of_not_lt hj)]

/-- R486: the test of one engine: its state, its bit of TOP_ENGLIVE, and a record of a failure. -/
theorem State.testEngine_eq (s : State) (e : Nat) (pass : Bool) : s.testEngine e pass = { s with
    top := { s.top with engLive := if pass then setBit s.top.engLive e else s.top.engLive &&& ~~~(BitVec.ofNat 64 (2 ^ e)) }
    engines := tput s.engines e { s.eng e with st := if pass then .idle else .fenced, gated := !pass }
    owl := (s.testEngine e pass).owl, flash := (s.testEngine e pass).flash } := by
  cases pass with
  | true => rfl
  | false =>
    simp only [State.testEngine, Bool.false_eq_true, if_false]
    exact (State.ledgerAdd_logged ..).frame

/-- R486: TOP_ENGLIVE names the engines in service, and the others are fenced. -/
def State.EnginesTell (s : State) : Prop := ∀ e < 64, (s.eng e).st = if s.top.engLive.getLsbD e then .idle else .fenced

/-- What the ports' plans and the tests of the units in `out` may change, from `s` to `t`. -/
structure Tested (out : BitVec 96) (s t : State) : Prop where
  frame : t = { s with
    top := t.top, ports := t.ports, engines := t.engines, setts := t.setts, owl := t.owl, flash := t.flash, free := t.free }
  tell : t.EnginesTell
  spared : ∀ e < 64, out.getLsbD e = false → t.top.engLive.getLsbD e = s.top.engLive.getLsbD e

theorem Tested.testEngine {out : BitVec 96} {s t : State} (h : Tested out s t) {e : Nat} (he : out.getLsbD e = true) (pass : Bool) :
    Tested out s (t.testEngine e pass) := by
  obtain ⟨hframe, htell, hspared⟩ := h
  have heq := t.testEngine_eq e pass
  have hst (j : Nat) : ((t.testEngine e pass).eng j).st = if e = j then (if pass then .idle else .fenced) else (t.eng j).st := by
    rw [heq]
    exact (congrArg Engine.st (tget_tput ..)).trans (apply_ite ..)
  have hlive (j : Nat) (hj : j < 64) :
      (t.testEngine e pass).top.engLive.getLsbD j = if e = j then pass else t.top.engLive.getLsbD j := by
    rw [heq]
    cases pass with
    | true => rw [if_pos rfl, getLsbD_setBit]; by_cases h : e = j <;> simp [h, hj]
    | false => rw [if_neg Bool.false_ne_true, getLsbD_clearBit]; by_cases h : e = j <;> simp [h]
  refine ⟨by rw [heq, hframe], fun j hj => ?_, fun j hj hout => ?_⟩
  · rw [hst, hlive j hj, htell j hj]
    split
    · rfl
    · rfl
  · have hne : e ≠ j := fun hej => by simp [← hej, he] at hout
    rw [hlive j hj, if_neg hne, hspared j hj hout]

theorem Tested.setSett {out : BitVec 96} {s t : State} (h : Tested out s t) (n : Nat) (x : Sett) : Tested out s (t.setSett n x) :=
  ⟨by rw [State.setSett, h.frame], h.tell, h.spared⟩

theorem Tested.drawBits {out : BitVec 96} {s t : State} (h : Tested out s t) (w : Nat) : Tested out s (t.drawBits w).2 :=
  ⟨by rw [State.drawBits, h.frame], h.tell, h.spared⟩

/-- R486, R494: the tests at a cold reset. -/
theorem Tested.coldTests {out : BitVec 96} {s t : State} (h : Tested out s t) : Tested out s (t.coldTests out) := by
  unfold State.coldTests
  split
  · exact h
  · refine List.foldlRecOn _ _ (motive := Tested out s) ?_ fun t ht n _ => ht.setSett n _
    refine List.foldlRecOn _ _ (motive := Tested out s) (h.drawBits 96) fun t ht e he => ht.testEngine ?_ _
    exact (List.mem_filter.1 he).2

@[simp] theorem State.coldTests_none (s : State) : s.coldTests 0 = s := if_pos rfl

/-! ### The edges -/

/-- The state in which a cold reset starts: every unit held, and its straps in TOP_STRAP. -/
def State.coldStart (s : State) (wrstN : Bool) (clkLost : Nat) (straps : BitVec 17) : State := { s.allHeld.readFuses with
  pwrgood := true, wrstN := wrstN, phase := .waitPll, clkLost := clkLost, unitsOut := 0, top := { TopS.reset with straps := straps } }

section
variable (s : State)

theorem exec_pwrgoodRise (x : Straps) (w : Bool) (h : s.pwrgood = false) :
    exec (.pwrgoodRise x w) s = .next ((s.coldStart w 0 (strapReg x)).strapPorts.coldTests (s.unitsOut ||| s.outNow)) :=
  if_neg (by simp [h])

theorem exec_pwrgoodFall (h : s.pwrgood = true) : exec .pwrgoodFall s =
    .next { s.allHeld with flash := if s.fallTears then s.flash.tear else s.flash, free := s.free + 1 } :=
  congrArg _ (if_pos h)

theorem exec_clockLoss (b : Bool) (h : s.pwrgood = true) (ht : s.thermtrip = false) : exec (.clockLoss b) s =
    .next ((s.coldStart s.wrstN (if b then 1 else 2) s.top.straps).strapPorts.coldTests (s.unitsOut ||| s.outNow)) :=
  if_pos ⟨h, by simp [ht]⟩

theorem exec_thermtrip (h : s.pwrgood = true) (ht : s.thermtrip = false) : exec .thermtrip s =
    .next { s.allHeld with pwrgood := true, thermtrip := true, top := { TopS.reset with straps := s.top.straps } } :=
  if_pos ⟨h, by simp [ht]⟩

theorem TopS.reset_engLive : ∀ e < 64, TopS.reset.engLive.getLsbD e = true := by decide

/-- After every unit was held, TOP_ENGLIVE names all engines, and each is IDLE. -/
theorem State.coldStart_tested (out : BitVec 96) (w : Bool) (c : Nat) (x : BitVec 17) :
    Tested out (s.coldStart w c x) ((s.coldStart w c x).strapPorts.coldTests out) := by
  refine Tested.coldTests ?_
  rw [State.strapPorts_frame]
  exact ⟨rfl, fun e he => (if_pos (TopS.reset_engLive e he)).symm, fun _ _ _ => rfl⟩

/-- R486, R494: with no unit out of service no test runs. -/
theorem State.coldStart_whole {s : State} (hout : s.unitsOut = 0) (hnow : s.outNow = 0) (w : Bool) (c : Nat) (x : BitVec 17) :
    (s.coldStart w c x).strapPorts.coldTests (s.unitsOut ||| s.outNow) =
      { s.coldStart w c x with ports := (s.coldStart w c x).strapPorts.ports } := by
  rw [hout, hnow]
  exact (State.coldTests_none _).trans (State.strapPorts_frame _)

/-- R532: a torn write leaves the older copy's settings, where that copy is sound. -/
theorem FlashS.tear_of_ok {f : FlashS} (h : f.older.ok = true) : f.tear = { f with
    cfgSeq := f.older.seq, cfgAt := none, older := { f.copy with ok := false }, preferB := f.older.preferB, bootcnt := f.older.bootcnt
    epochOfs := f.older.epochOfs, cert := f.older.cert, root := f.older.root, layKeys := f.older.layKeys, mgt := f.older.mgt
    regs := f.older.regs, regNamed := f.older.regNamed } := if_pos h

end

/-- Settles O8: the ports apart, every unit is as `State.allHeld` leaves it, and the built-in tests touch the units they test. -/
theorem powerAndClockEdges : Obligations.PowerAndClockEdges := by
  refine ⟨?_, ?_, ?_, ?_, ?_, ?_, fun s => rfl⟩
  · intro s x w hp hout hnow
    refine leads_of_exec ((exec_pwrgoodRise s x w hp).trans (congrArg _ (State.coldStart_whole hout hnow ..))) ⟨rfl, fun k hk => ?_⟩
    exact State.strapPorts_planMask (s := s.coldStart w 0 (strapReg x)) rfl hk
  · intro s x w hp
    obtain ⟨hframe, htell, hspared⟩ := s.coldStart_tested (s.unitsOut ||| s.outNow) w 0 (strapReg x)
    refine leads_of_exec (exec_pwrgoodRise s x w hp) ⟨(congrArg State.phase hframe :), (congrArg State.unitsOut hframe :),
      (congrArg State.dram hframe :), (congrArg State.fuse hframe :), fun e he => ⟨htell e he, fun hout => ?_⟩⟩
    exact (hspared e he hout).trans (TopS.reset_engLive e he)
  · intro s hp
    rw [exec_pwrgoodFall s hp, State.fallTears]
    simp
  · intro f h
    rw [FlashS.tear_of_ok h]
    exact ⟨rfl, rfl, rfl, rfl, rfl, rfl, rfl, rfl, rfl, rfl, rfl, rfl⟩
  · intro s b hp ht hout hnow
    exact leads_of_exec ((exec_clockLoss s b hp ht).trans (congrArg _ (State.coldStart_whole hout hnow ..))) rfl
  · intro s hp ht
    exact exec_thermtrip s hp ht

end Sys2Proof.Machine
end

section
/-! SUPPORT. A warm reset (R91, R106, R498, R499, R610): what its steps leave of the settings, the flash and the image, whatever the
descriptors, the controllers and the requests that they end. -/

namespace Sys2Proof.Machine
open Sys2Proof

/-! ### What the ends of descriptors and drained controllers cannot change -/

/-- The state without what `State.admin` takes away, and without input queues and scrubbers. -/
def State.steady (s : State) : State := { s.admin with inq := [], scrubs := [] }

theorem State.steady_of_admin {s t : State} (h : t.admin = s.admin) : t.steady = s.steady :=
  congrArg (fun x : State => { x with inq := [], scrubs := [] }) h

theorem State.foldl_steady {α : Type} {f : State → α → State} (hf : ∀ s a, (f s a).steady = s.steady) (l : List α) (s : State) :
    (l.foldl f s).steady = s.steady :=
  List.foldlRecOn l f (motive := fun t => t.steady = s.steady) rfl fun t ht a _ => (hf t a).trans ht

section
variable {s t : State} (h : t.steady = s.steady)
include h

theorem State.flash_of_steady : t.flash = s.flash := (congrArg State.flash h :)
theorem State.fuse_of_steady : t.fuse = s.fuse := (congrArg State.fuse h :)
theorem State.top_of_steady : t.top = s.top := (congrArg State.top h :)
theorem State.lay_of_steady : t.lay = s.lay := (congrArg State.lay h :)
theorem State.staged_of_steady : t.owl.staged = s.owl.staged := (congrArg (·.owl.staged) h :)
theorem State.hibWbk_of_steady : t.owl.hibWbk = s.owl.hibWbk := (congrArg (·.owl.hibWbk) h :)

end

section
variable (s : State)

/-! ### Records and descriptors (R340, R497) -/


@[simp] theorem State.writeRecord_admin (q : Nat) (e : EndRec) (d : Desc) (engine ctr : Byte) :
    (s.writeRecord q e d engine ctr).admin = s.admin := State.writeRecordWith_admin State.death_admin ..
@[simp] theorem State.endStarted_admin (q : Nat) (e : EndRec) (d : Desc) (engine ctr : Byte) :
    (s.endStarted q e d engine ctr).admin = s.admin := State.endStartedWith_admin State.death_admin ..
@[simp] theorem State.endHandOver_admin (q : Nat) (st : Status) (chain : Nat) : (s.endHandOver q st chain).admin = s.admin :=
  s.writeRecord_admin ..
@[simp] theorem State.endUnstarted_admin (q : Nat) (st : Status) (d : Desc) : (s.endUnstarted q st d).admin = s.admin :=
  s.writeRecord_admin ..
@[simp] theorem State.giveBack_admin (q : Nat) (d : Desc) : (s.giveBack q d).admin = s.admin := s.setQueue_admin ..
@[simp] theorem State.countEnd_admin (e : Nat) (st : Status) : (s.countEnd e st).admin = s.admin := s.setEng_admin ..

@[simp] theorem State.flushRecords_admin : s.flushRecords.admin = s.admin :=
  have now (s : State) (l : List Txn) := State.foldl_admin (State.devThenWith_admin State.death_admin) l s
  (now _ _).trans (now _ _)

@[simp] theorem State.unstageQueue_admin (q : Nat) : (s.unstageQueue q).admin = s.admin := by
  refine State.foldl_admin (fun s e => ?_) _ _
  dsimp only
  split
  · rfl
  · split <;> simp

@[simp] theorem State.cancelFetched_admin (q : Nat) (st : Status) : (s.cancelFetched q st).admin = s.admin := by
  have unstarted (l : List Desc) := State.foldl_admin (fun s d => s.endUnstarted_admin q st d) l
  have handOvers (l : List Nat) := State.foldl_admin (fun s c => s.endHandOver_admin q st c) l
  unfold State.cancelFetched
  extract_lets s0 x s1 s2 s3
  have h1 : s1.admin = s.admin := (s0.setQueue_admin ..).trans (s.unstageQueue_admin q)
  have h2 : s2.admin = s.admin := (unstarted x.chainRd s1).trans h1
  have h3 : s3.admin = s.admin := (handOvers x.hand s2).trans h2
  exact (unstarted x.ready s3).trans h3

/-- R497: a scheduler stops. -/
@[simp] theorem State.stopQueue_admin (q : Nat) : (s.stopQueue q).admin = s.admin := by
  unfold State.stopQueue
  extract_lets x s1 s2 y s3
  have h1 : s1.admin = s.admin := by
    unfold s1
    split
    · rfl
    · exact (State.endStarted_admin ..).trans (s.setQueue_admin ..)
  have h2 : s2.admin = s.admin := (s1.cancelFetched_admin ..).trans h1
  have h3 : s3.admin = s.admin := by
    refine Eq.trans (State.foldl_admin (fun s c => ?_) y.inbox s2) h2
    exact s.endHandOver_admin ..
  exact (s3.setQueue_admin ..).trans h3

@[simp] theorem State.inqRecord_steady (e : Nat) (r : EndRec) (d : Desc) : (s.inqRecord e r d).steady = s.steady := rfl

/-- R497: the descriptor of a stopped engine completes. -/
@[simp] theorem State.stopEnds_steady (e : Nat) : (s.stopEnds e).steady = s.steady := by
  unfold State.stopEnds
  dsimp only
  split
  · rfl
  · split
    · rfl
    · split
      · rfl
      · refine (State.steady_of_admin (State.countEnd_admin ..)).trans ?_
        split
        · exact State.inqRecord_steady ..
        · exact State.steady_of_admin (State.endStarted_admin ..)

/-- R497: an engine stops. -/
@[simp] theorem State.stopEngine_steady (e : Nat) : (s.stopEngine e).steady = s.steady := by
  simp only [State.stopEngine, State.stopEnds_steady]
  split
  · rfl
  · exact State.steady_of_admin (State.giveBack_admin ..)

theorem State.stopsEnd_steady : s.stopsEnd.steady = s.steady := by
  unfold State.stopsEnd
  split
  · exact State.foldl_steady State.stopEnds_steady _ _
  · rfl

/-! ### Step 1 (R91, R106) -/

/-- R86, R88: the abandoned replacement's answer is Owl's. -/
theorem State.abandonLoad_keeps :
    s.abandonLoad.flash = s.flash ∧ s.abandonLoad.fuse = s.fuse ∧ s.abandonLoad.owl.hibWbk = s.owl.hibWbk := by
  unfold State.abandonLoad
  split
  · exact ⟨rfl, rfl, rfl⟩
  · refine ⟨?_, ?_, ?_⟩
    · rw [State.reply_frame]
    · rw [State.reply_frame]
    · rw [State.reply_owl]

theorem State.warmStep1_keeps (tries : Nat) : (s.warmStep1 tries).flash = s.flash ∧ (s.warmStep1 tries).fuse = s.fuse ∧
    (s.warmStep1 tries).owl.hibWbk = s.owl.hibWbk := by
  unfold State.warmStep1
  extract_lets s1 s2 s3
  have h1 : s1.steady = s.steady :=
    (State.foldl_steady State.stopEngine_steady _ _).trans (State.steady_of_admin s.flushRecords_admin)
  have h2 : s2.steady = s.steady :=
    (State.steady_of_admin ((State.flushRecords_admin _).trans (State.foldl_admin State.stopQueue_admin _ _))).trans h1
  have h3 : s3.steady = s.steady := by
    refine (State.foldl_steady (fun s x => ?_) _ _).trans h2
    dsimp only
    split
    · exact State.steady_of_admin (State.setPart_admin ..)
    · rfl
  clear_value s3
  obtain ⟨hflash, hfuse, hwbk⟩ := s3.abandonLoad_keeps
  exact ⟨hflash.trans (State.flash_of_steady h3), hfuse.trans (State.fuse_of_steady h3), hwbk.trans (State.hibWbk_of_steady h3)⟩

theorem State.warmStep1_sets (tries : Nat) : (s.warmStep1 tries).top.ready = false ∧ (s.warmStep1 tries).phase = .warmFlush ∧
    (s.warmStep1 tries).arms = [] ∧ (s.warmStep1 tries).owl.warmAt = s.clk ∧ (s.warmStep1 tries).owl.warmTries = tries :=
  ⟨rfl, rfl, rfl, rfl, rfl⟩

variable {s}

theorem State.takeHeldWbk_none (h : s.owl.hibWbk = []) : s.takeHeldWbk = { s with owl := { s.owl with hibWbk := [], swept := false } } := by
  simp only [State.takeHeldWbk, h, List.foldl_nil]

/-- R106 step 1, with no message that HIBERNATE held. -/
theorem State.startWarm_leaves (h : s.owl.hibWbk = []) : s.startWarm.top.ready = false ∧ s.startWarm.phase = .warmFlush ∧
    s.startWarm.arms = [] ∧ s.startWarm.owl.warmAt = s.clk ∧ s.startWarm.flash = s.flash ∧ s.startWarm.fuse = s.fuse := by
  obtain ⟨hflash, hfuse, hwbk⟩ := s.warmStep1_keeps 1
  obtain ⟨hready, hphase, harms, hat, -⟩ := s.warmStep1_sets 1
  rw [State.startWarm, State.takeHeldWbk_none (hwbk.trans h)]
  generalize s.warmStep1 1 = t at *
  exact ⟨hready, hphase, harms, hat, hflash, hfuse⟩

/-- R91: a request in RUN, with no wipe, entry or warm reset under way, is carried out. -/
theorem State.warmRequest_run (hgood : s.pwrgood = true) (htrip : s.thermtrip = false) (hphase : s.phase = .running)
    (hready : s.top.ready = true) (hwipe : s.sec.wipeRun = false) (hpwr : s.owl.pwr = .run) (htransit : s.owl.transit = false) :
    s.warmRequest = s.startWarm := by
  simp [State.warmRequest, State.inWarm, hgood, htrip, hphase, hready, hwipe, hpwr, htransit]

theorem exec_wrstNFall {ns : Nat} (h : 1000 ≤ ns) : exec (.wrstNFall ns) s = .next ({ s with wrstN := true } : State).warmRequest :=
  if_pos h

end


/-! ### Drained controllers (R413, R415, R419) -/

section
variable (s : State)

@[simp] theorem State.dramStore_admin (loc pa : Nat) (v : LineVal) : (s.dramStore loc pa v).admin = s.admin := rfl
@[simp] theorem State.countCeDram_admin (p : Nat) : (s.countCeDram p).admin = s.admin := rfl

@[simp] theorem State.performWrite_admin (ch sub i : Nat) : (s.performWrite ch sub i).admin = s.admin := by
  simp only [State.performWrite]
  split
  · rfl
  · rw [State.setChan_admin]; split <;> simp

@[simp] theorem State.drainWrites_admin (ch sub n : Nat) : (s.drainWrites ch sub n).admin = s.admin := by
  induction n generalizing s with
  | zero => rfl
  | succ n ih =>
    rw [State.drainWrites]
    split
    · rfl
    · rw [ih, State.performWrite_admin]

@[simp] theorem State.countCorrected_admin (loc : Nat) (pa : Option Nat) (e : List (Nat × Nat)) (dev : Option Nat) :
    (s.countCorrected loc pa e dev).admin = s.admin := by
  unfold State.countCorrected
  dsimp only
  split
  · simp
  · split <;> simp

@[simp] theorem State.dramLost_admin (loc pa : Nat) (e : List (Nat × Nat)) (cause : Byte) :
    (s.dramLost loc pa e cause).1.admin = s.admin := by
  simp [State.dramLost]

@[simp] theorem State.dramRead_admin (loc pa : Nat) (errs : List (Nat × Byte)) (cause : Byte) :
    (s.dramRead loc pa errs cause).1.admin = s.admin := by
  unfold State.dramRead
  dsimp only
  split
  · simp
  · split <;> simp

@[simp] theorem State.rmwOp_admin (pa : Nat) (v : LineVal) (id : Nat) : (s.rmwOp pa v id).1.admin = s.admin := by
  unfold State.rmwOp
  split
  · rfl
  · split
    · simp
    · dsimp only
      simp only [State.answer_admin, State.counterStep_admin]
      split <;> simp

@[simp] theorem State.rmwRun_admin (line : Nat) (errs : List (Nat × Byte)) : (s.rmwRun line errs).admin = s.admin := by
  unfold State.rmwRun
  extract_lets +onlyGivenNames pa
  split
  · rfl
  · extract_lets +onlyGivenNames ch c ops
    split
    · rfl
    · extract_lets +onlyGivenNames s0 all
      have h0 : s0.admin = s.admin := s.setChan_admin ..
      have hall (s : State) (st : Status) : (all s st).admin = s.admin := by
        refine State.foldl_admin (fun s o => ?_) _ _
        split <;> simp
      clear_value s0 all
      split
      · exact (hall ..).trans h0
      · split
        rename_i s1 v hread
        have h1 : s1.admin = s.admin := by
          split at hread
          · obtain ⟨rfl, -⟩ := Prod.mk.inj hread; exact h0
          · rw [show s1 = _ from (congrArg Prod.fst hread).symm]; simp [h0]
        split
        · exact (hall ..).trans h1
        · have h2 : (ops.foldl (fun (a : State × LineVal) o => a.1.rmwOp pa a.2 o.txn) (s1, v)).1.admin = s.admin :=
            List.foldlRecOn _ _ (motive := fun a : State × LineVal => a.1.admin = s.admin) h1 fun a ha o _ =>
              (a.1.rmwOp_admin ..).trans ha
          exact (State.pushWrite_admin ..).trans h2

@[simp] theorem State.drainRmw_admin (ch n : Nat) : (s.drainRmw ch n).admin = s.admin := by
  induction n generalizing s with
  | zero => simp [State.drainRmw]
  | succ n ih =>
    rw [State.drainRmw]
    split
    · simp
    · rw [ih]; simp

@[simp] theorem State.drainChan_admin (ch : Nat) : (s.drainChan ch).admin = s.admin := by
  simp [State.drainChan]

@[simp] theorem State.flushLine_admin (e : Nat × CLine) : (s.flushLine e).admin = s.admin := by
  unfold State.flushLine
  split
  · split <;> simp
  · rfl

@[simp] theorem State.flushAll_admin : s.flushAll.admin = s.admin := by
  refine (State.foldl_admin State.flushLine_admin _ _).trans (State.foldl_admin (fun s v => ?_) _ _)
  dsimp only
  split
  · exact s.flushLine_admin _
  · exact s.flushLine_admin _

@[simp] theorem State.scrubPause_steady (u : Nat) : (s.scrubPause u).steady = s.steady := rfl

@[simp] theorem State.selfRefresh_steady (ch : Nat) : (s.selfRefresh ch).steady = s.steady := by
  unfold State.selfRefresh
  split
  · exact (State.scrubPause_steady ..).trans (State.steady_of_admin ((State.setChan_admin ..).trans (s.drainChan_admin ch)))
  · rfl

/-! ### Steps 2–5 (R106, R498) -/

/-- What is read of a table is the reset value or one of its entries. -/
theorem tget_rec {α : Type} {P : α → Prop} {d : α} {t : Tab α} {i : Nat} (hd : P d) (ht : ∀ x ∈ t, P x.2) : P (tget d t i) := by
  induction t with
  | nil => exact hd
  | cons x t ih =>
    simp only [tget]
    split
    · exact ht x List.mem_cons_self
    · exact ih fun y hy => ht y (List.mem_cons_of_mem _ hy)

theorem State.partCore_parts (p : Nat) : s.partCore p = { s with parts := (s.partCore p).parts } :=
  List.foldlRecOn _ _ (motive := fun t : State => t = { s with parts := t.parts }) rfl fun t ht k _ => by
    rw [State.setPqos_eq, State.setPart, ht]

/-- R106 step 4: no access, no node and no input packet is left; settings and flash stay. -/
structure CoreReset (s t : State) : Prop where
  txns : t.txns = []
  nodes : t.nodes = []
  inq : t.inq = []
  top : t.top = { s.top with fillDone := false }
  lay : t.lay = s.lay
  owl : t.owl = s.owl
  flash : t.flash = s.flash

theorem State.coreReset_leaves : CoreReset s s.coreReset :=
  List.foldlRecOn _ _ (motive := CoreReset s) ⟨rfl, rfl, rfl, rfl, rfl, rfl, rfl⟩ fun t ht p _ => by
    rw [State.partCore_parts]
    exact ⟨ht.txns, ht.nodes, ht.inq, ht.top, ht.lay, ht.owl, ht.flash⟩

/-- R77: with no image staged the layout in force stays. -/
theorem State.reload_none (h : s.owl.staged = none) : ∃ o q, s.reload = { s with owl := o, qos := q } := by
  unfold State.reload
  rw [h]
  dsimp only
  split
  · exact ⟨_, _, rfl⟩
  · exact ⟨_, _, by rw [State.layoutRejected, State.logEvent_frame]⟩

/-- What steps 3–5 leave, with no image staged. -/
structure WarmHeld (s t : State) : Prop where
  txns : t.txns = []
  nodes : t.nodes = []
  inq : t.inq = []
  top : t.top = { s.top with fillDone := false }
  lay : t.lay = s.lay
  bootcnt : t.flash.bootcnt = s.flash.bootcnt + 1

/-- R106 step 4: the counter of boots advances (log 23). -/
theorem CoreReset.rebooted {s r t : State} (h : CoreReset r t) (hrest : r.steady = s.steady) :
    WarmHeld s (t.writeCfg fun f => { f with bootcnt := f.bootcnt + 1 }) where
  txns := h.txns
  nodes := h.nodes
  inq := h.inq
  top := h.top.trans (by rw [State.top_of_steady hrest])
  lay := h.lay.trans (State.lay_of_steady hrest)
  bootcnt := congrArg (·.bootcnt + 1) (h.flash.trans (State.flash_of_steady hrest))

theorem CoreReset.staged {s r t : State} (h : CoreReset r t) (hrest : r.steady = s.steady) : t.owl.staged = s.owl.staged := by
  rw [h.owl]; exact State.staged_of_steady hrest

/-- R106 step 5. -/
theorem WarmHeld.reloaded {s t : State} (h : WarmHeld s t) (hstaged : t.owl.staged = none) :
    WarmHeld s { t.reload with phase := .warmHold } := by
  obtain ⟨o, q, hreload⟩ := t.reload_none hstaged
  rw [hreload]
  exact ⟨h.txns, h.nodes, h.inq, h.top, h.lay, h.bootcnt⟩

/-- R106 steps 4 and 5. -/
theorem CoreReset.held {s r t : State} (h : CoreReset r t) (hrest : r.steady = s.steady) (hstaged : s.owl.staged = none) :
    WarmHeld s { (t.writeCfg fun f => { f with bootcnt := f.bootcnt + 1 }).reload with phase := .warmHold } :=
  (h.rebooted hrest).reloaded ((h.staged hrest).trans hstaged)

/-- R106 step 3: the channels in self-refresh, with every record and dirty line written. -/
def State.resting : State :=
  let s1 := s.flushRecords
  (List.range 32).foldl (fun s c => (s.setChan c { s.chan c with migPaused := (s.chan c).migr.isSome }).selfRefresh c)
    (((List.range 32).filter fun c => decide ((s1.chan c).st = .run)).foldl State.drainChan s1).flushAll

theorem State.resting_steady : s.resting.steady = s.steady := by
  refine (State.foldl_steady (fun s c => ?_) _ _).trans (State.steady_of_admin ?_)
  · exact (State.selfRefresh_steady ..).trans (State.steady_of_admin (s.setChan_admin ..))
  · exact (State.flushAll_admin _).trans ((State.foldl_admin State.drainChan_admin _ _).trans s.flushRecords_admin)

theorem State.warmHold_eq : s.warmHold =
    { (s.resting.coreReset.writeCfg fun f => { f with bootcnt := f.bootcnt + 1 }).reload with phase := .warmHold } := rfl

theorem State.warmHold_held (h : s.owl.staged = none) : WarmHeld s s.warmHold := by
  rw [State.warmHold_eq]
  exact s.resting.coreReset_leaves.held s.resting_steady h

theorem State.warmHold_phase : s.warmHold.phase = .warmHold := rfl

variable {s}

/-- R497: with no descriptor stopped none is to complete. -/
theorem State.stopsEnd_of_not_stopping (h : s.stopping = false) : s.stopsEnd = s := by
  have hrun (e : Nat) : (s.eng e).run = none := tget_rec (P := fun x : Engine => x.run = none) rfl fun x hx => by
    simpa using List.any_eq_false.1 h x hx
  unfold State.stopsEnd
  split
  · refine List.foldlRecOn _ _ (motive := fun t => t = s) rfl fun t ht e _ => ?_
    rw [ht, State.stopEnds, hrun]
  · rfl

/-- What a channel's failure cannot change of what a warm reset brings into force (R81). -/
def State.image (s : State) : Option Layout × Option Bytes := (s.lay, s.owl.staged)

theorem State.image_of_steady {t : State} (h : t.steady = s.steady) : t.image = s.image :=
  Prod.ext (State.lay_of_steady h) (State.staged_of_steady h)
theorem State.image_of_admin {t : State} (h : t.admin = s.admin) : t.image = s.image := State.image_of_steady (State.steady_of_admin h)

variable (s)

theorem State.ledgerAdd_image (ty : BitVec 16) (body : Bytes) : (s.ledgerAdd ty body).image = s.image := by
  unfold State.ledgerAdd
  extract_lets +onlyGivenNames low src s1
  have h1 : s1.image = s.image := by
    unfold s1
    split
    · exact Eq.trans (State.image_of_admin (State.logEvent_admin ..)) rfl
    · rfl
  clear_value s1
  dsimp only
  split
  · exact h1
  · exact h1

/-- R416: a channel becomes FAILED. -/
theorem State.channelFailed_image (ch : Nat) : (s.channelFailed ch).image = s.image := by
  unfold State.channelFailed
  extract_lets +onlyGivenNames c ids gone s1 gone' s2 s3 s4 s4'
  have h3 : s3.image = s.image := by
    refine State.image_of_admin ((State.foldl_admin (fun s i => ?_) _ s2).trans rfl)
    split
    · rfl
    · exact State.answer_admin ..
  have h4 : s4.image = s.image := (s3.ledgerAdd_image ..).trans h3
  have h5 : s4'.image = s.image := by
    unfold s4'
    split
    · exact (State.image_of_admin (s4.logEvent_admin ..)).trans h4
    · exact h4
  exact (State.image_of_admin (State.foldl_admin (fun s p => s.ringRecord_admin ..) _ _)).trans h5

variable {s}

theorem exec_warmFlushDone (hphase : s.phase = .warmFlush) (hstop : s.stopping = false)
    (hlines : (s.dirtyLines.any fun e => s.stuckLine e.1) = false) (hchans : ∀ c < 32, s.stuckChan c = false) :
    exec .warmFlushDone s = .next s.warmHold := by
  have hchans' : (List.range 32).any s.stuckChan = false :=
    List.any_eq_false.2 fun c hc => Bool.eq_false_iff.1 (hchans c (List.mem_range.1 hc))
  show execWarmFlushDone s = _
  rw [execWarmFlushDone, State.stopsEnd_of_not_stopping hstop]
  exact if_pos ⟨hphase, by simp [hstop], by simp only [hlines]; rfl, by simp only [hchans']; rfl⟩

/-- R498: after 50 ms what has not ended is given up, and steps 3–5 follow. -/
theorem exec_warmFlushTimeout (hphase : s.phase = .warmFlush) (hlate : 120000000 + s.owl.warmAt ≤ s.clk) :
    ∃ t : State, t.image = s.image ∧ exec .warmFlushTimeout s = .next t.warmHold := by
  refine ⟨_, ?_, if_pos ⟨hphase, hlate⟩⟩
  refine List.foldlRecOn _ _ (motive := fun t : State => t.image = s.image) ?_ fun t ht c _ => ?_
  · exact State.image_of_steady (State.stopsEnd_steady _)
  · exact (State.image_of_admin (State.logEvent_admin ..)).trans ((t.channelFailed_image c).trans ht)

end

/-! ### Steps 6–8 (R106, R186, R230, R255, R499) -/

theorem tget_map {α β : Type} (f : α → β) {d : α} (e : β) {t : Tab α} {i : Nat} (h : tget d t i ≠ d) :
    tget e (t.map fun x => (x.1, f x.2)) i = f (tget d t i) := by
  induction t with
  | nil => exact absurd rfl h
  | cons x t ih =>
    by_cases hx : x.1 = i
    · simp [tget, hx]
    · simp only [tget, hx, if_false, List.map_cons] at h ⊢
      exact ih h

section
variable (s : State)

/-- Nothing has changed but the lines stored in DRAM. -/
def OnlyDram (s t : State) : Prop := t = { s with dram := t.dram, dramPois := t.dramPois, dramKey := t.dramKey }

theorem OnlyDram.dramStore {s t : State} (h : OnlyDram s t) (loc pa : Nat) (v : LineVal) : OnlyDram s (t.dramStore loc pa v) := by
  unfold OnlyDram at *
  rw [State.dramStore, h]

/-- R106 step 6: a channel leaves self-refresh. -/
def Chan.wake (c : Chan) : Chan :=
  { c with st := if c.st = .selfRefresh then (if c.hold then .held else .run) else c.st, migPaused := false }

/-- R106 steps 6 and 7: the state in which the Burrow's fill begins, before draining is cleared. -/
def State.awake : State :=
  ({ s with chans := s.chans.map fun x => (x.1, x.2.wake), dedup := [], scr := [], scrPois := [], phase := .warmFill } : State).writeCfg
    fun f => { f with epochOfs := f.epochOfs + 1 }

theorem State.awake_chan {c : Nat} (h : (s.chan c).st = .selfRefresh) :
    (s.awake.chan c).st = if (s.chan c).hold then .held else .run := by
  have hne : s.chan c ≠ Chan.reset := fun hr => by rw [hr] at h; cases h
  have hwake : s.awake.chan c = (s.chan c).wake := tget_map Chan.wake Chan.reset hne
  exact (congrArg Chan.st hwake).trans (if_pos h)

/-- R255: the clearing of draining touches DRAM and nothing else. -/
theorem State.warmExit_onlyDram : OnlyDram s.awake s.warmExit := by
  refine List.foldlRecOn _ _ (motive := OnlyDram s.awake) rfl fun t ht p _ => ?_
  refine List.foldlRecOn _ _ (motive := OnlyDram s.awake) ht fun t ht i _ => ?_
  dsimp only
  split
  · exact ht
  · split
    · exact ht
    · split
      · exact ht.dramStore ..
      · exact ht

theorem State.warmExit_leaves : s.warmExit.phase = .warmFill ∧ s.warmExit.dedup = [] ∧ s.warmExit.scr = [] ∧ s.warmExit.scrPois = [] ∧
    s.warmExit.flash.epochOfs = s.flash.epochOfs + 1 ∧
    ∀ c, (s.chan c).st = .selfRefresh → (s.warmExit.chan c).st = if (s.chan c).hold then .held else .run := by
  rw [s.warmExit_onlyDram]
  exact ⟨rfl, rfl, rfl, rfl, rfl, fun c h => s.awake_chan h⟩

/-- R486, R494: the built-in tests leave memory alone. -/
theorem State.selfTests_memory (x : BitVec 96) : (s.selfTests x).dram = s.dram ∧ (s.selfTests x).scr = s.scr := by
  refine List.foldlRecOn _ _ (motive := fun t : State => t.dram = s.dram ∧ t.scr = s.scr) ?_ fun t ht n _ => ?_
  · refine List.foldlRecOn _ _ (motive := fun t : State => t.dram = s.dram ∧ t.scr = s.scr) ⟨rfl, rfl⟩ fun t ht e _ => ?_
    rw [State.testEngine_eq]
    exact ht
  · dsimp only
    split
    · exact ht
    · exact ht

/-- R499: the second failure of a warm reset leaves the device waiting. -/
theorem State.warmFails_second (h : 1 < s.owl.warmTries) :
    s.warmFails = { s with phase := .warmFailed, owl := s.warmFails.owl } := by
  have hfails : s.warmFails = { s.logEvent 0x1B 0 2 0 0xFF with phase := .warmFailed } := if_neg (Nat.not_le.2 h)
  rw [hfails, State.logEvent_frame]

theorem State.warmFails_first (h : s.owl.warmTries ≤ 1) : s.warmFails = (s.logEvent 0x1B 0 2 0 0xFF).warmStep1 2 := if_pos h

end

section
variable {s : State}

theorem exec_warmSelfRefreshExit (hphase : s.phase = .warmHold) (hlate : 153600 + s.owl.warmAt ≤ s.clk) :
    exec .warmSelfRefreshExit s = .next s.warmExit := if_pos ⟨hphase, hlate⟩

theorem exec_warmZeroFillDone (x : BitVec 96) (hphase : s.phase = .warmFill) :
    exec (.warmZeroFillDone true x) s = .next { s.selfTests x with phase := .warmRelease } := if_pos hphase

theorem exec_warmZeroFillDone_failed (x : BitVec 96) (hphase : s.phase = .warmFill) :
    exec (.warmZeroFillDone false x) s = .next s.warmFails := if_pos hphase

theorem exec_warmResetTimeout (hphase : s.phase = .warmFill) (hlate : 24000000000 + s.owl.warmAt ≤ s.clk) :
    exec .warmResetTimeout s = .next s.warmFails :=
  if_pos ⟨by simp [State.inWarm, hphase], by simp [hphase], hlate⟩

end

/-- Settles O10: the operations that end descriptors and drain controllers keep the settings (`State.steady`), so each step leaves what it
sets itself. -/
theorem warmResetSteps : Obligations.WarmResetSteps := by
  refine ⟨?_, ?_, ?_, ?_, ?_, ?_, ?_⟩
  · intro s ns hns hgood htrip hphase hready hwipe hpwr htransit hwbk
    have hreq := State.warmRequest_run (s := { s with wrstN := true }) hgood htrip hphase hready hwipe hpwr htransit
    exact leads_of_exec ((exec_wrstNFall hns).trans (congrArg _ hreq)) (State.startWarm_leaves (s := { s with wrstN := true }) hwbk)
  · intro s hphase hstop hlines hchans hstaged
    obtain ⟨htxns, hnodes, hinq, htop, hlay, hboot⟩ := s.warmHold_held hstaged
    exact leads_of_exec (exec_warmFlushDone hphase hstop hlines hchans) ⟨s.warmHold_phase, htxns, hnodes, hinq, htop, hboot, hlay⟩
  · intro s hphase hlate hstaged
    obtain ⟨t, himage, hexec⟩ := exec_warmFlushTimeout hphase hlate
    obtain ⟨hlay, hstaged'⟩ := Prod.mk.inj himage
    obtain ⟨htxns, hnodes, hinq, -, hlay', -⟩ := t.warmHold_held (hstaged'.trans hstaged)
    exact leads_of_exec hexec ⟨t.warmHold_phase, htxns, hnodes, hinq, hlay'.trans hlay⟩
  · intro s hphase hlate
    exact leads_of_exec (exec_warmSelfRefreshExit hphase hlate) s.warmExit_leaves
  · intro s x hphase
    have hmem := s.selfTests_memory x
    refine leads_of_exec (exec_warmZeroFillDone x hphase) ?_
    generalize s.selfTests x = t at *
    exact ⟨rfl, hmem⟩
  · intro s x hphase htries
    obtain ⟨-, hphase', -, -, htries'⟩ := (s.logEvent 0x1B 0 2 0 0xFF).warmStep1_sets 2
    exact leads_of_exec ((exec_warmZeroFillDone_failed x hphase).trans (congrArg _ (s.warmFails_first htries))) ⟨hphase', htries'⟩
  · intro s hphase htries hlate
    exact leads_of_exec (exec_warmResetTimeout hphase hlate) (s.warmFails_second htries)

end Sys2Proof.Machine
end

section
/-! SUPPORT. A partition reset during a warm reset (R121, R488, R495, R497): the write of reset_req takes effect, and the engines, which the
warm reset has stopped, are not reset. -/

namespace Sys2Proof.Machine
open Sys2Proof

section
variable {s : State} {path : Path} {p : Nat}

/-! ### The write of PART_RESET (R24, R31–R34, R121) -/

theorem blockAt_partReset (hp : p < 32) : blockAt (pageBase p + 0x108) = (.page p, 0x108) := blockAt_page hp (by decide)

theorem isUnlock_partReset (hp : p < 32) : isUnlock (pageBase p + 0x108) = false := by
  simp [isUnlock, blockAt_partReset hp, unlockAt]

theorem owlBarred_partReset (hp : p < 32) : owlBarred path (pageBase p + 0x108) = false := by
  simp [owlBarred, blockAt_partReset hp]

theorem State.cell_partReset (hp : p < 32) : s.cell (pageBase p + 0x108) = some ⟨.keyed, b2n (s.part p).resetReq⟩ := by
  simp only [State.cell, blockAt_partReset hp]; rfl

theorem State.effect_partReset (hp : p < 32) : s.effect path (pageBase p + 0x108) 1 = s.partReset p := by
  simp only [State.effect, blockAt_partReset hp]; rfl

/-- R32–R34: a path that may write reset_req uses up its arming and starts what R121 says. -/
theorem exec_partReset (hp : p < 32) (h : s.CanPage path p 0x108) :
    exec (.partReset path p) s = .next ((s.disarm path (unlockOf (pageBase p + 0x108))).partReset p) := by
  obtain ⟨hup, hpage, harmed⟩ := h
  have h4 : (pageBase p + 0x108) % 4 = 0 := by rw [pageBase]; omega
  have hwrite : s.regWrite path (pageBase p + 0x108) 1 = (s.disarm path (unlockOf (pageBase p + 0x108))).partReset p := by
    rw [State.regWrite_keyed 1 h4 (owlBarred_partReset hp) (isUnlock_partReset hp) (State.cell_partReset hp), if_pos harmed,
      State.effect_partReset hp]
  exact congrArg _ ((if_pos ⟨hup, hpage⟩ : s.pageReg path p 0x108 1 = _).trans hwrite)

/-! ### Engines in a warm reset (R488, R497) -/

/-- R488: within a warm reset no engine reset starts. -/
theorem State.engineReset_of_inWarm (h : s.inWarm = true) (e : Nat) : s.engineReset e = s := if_pos (.inr (.inr h))

theorem State.foldl_engineReset_of_inWarm (h : s.inWarm = true) (l : List Nat) : l.foldl State.engineReset s = s :=
  List.foldlRecOn l _ (motive := fun t => t = s) rfl fun t ht e _ => by rw [ht, State.engineReset_of_inWarm h]

/-- R121, R495: the reset of a partition without queues, within a warm reset, sets its state and nothing else. -/
theorem State.partReset_of_inWarm {r : PartRec} (hwarm : s.inWarm = true) (hquiesced : (s.part p).st = .quiesced)
    (hprec : s.prec p = some r) (hcompat : r.compat = true) (hqueues : r.queueCount = 0) :
    s.partReset p = s.setPart p { s.part p with st := .resetting, resetReq := true } := by
  have hprec' : (s.setPart p { s.part p with st := .resetting, resetReq := true }).prec p = some r := hprec
  have hwarm' : (s.setPart p { s.part p with st := .resetting, resetReq := true }).inWarm = true := hwarm
  have hgo : ¬ (s.part p).st ≠ .quiesced := not_not.2 hquiesced
  simp only [State.partReset, hprec, hcompat, if_neg hgo, Bool.not_true, Bool.false_eq_true, if_false, hprec', hqueues,
    List.range_zero, List.foldl_nil, State.foldl_engineReset_of_inWarm hwarm']

/-- So a write of reset_req within a warm reset leaves every engine as it stands. -/
theorem exec_partReset_eng {t : State} {r : PartRec} (hp : p < 32) (hcan : s.CanPage path p 0x108) (hwarm : s.inWarm = true)
    (hquiesced : (s.part p).st = .quiesced) (hprec : s.prec p = some r) (hcompat : r.compat = true) (hqueues : r.queueCount = 0)
    (hexec : exec (.partReset path p) s = .next t) (e : Nat) : t.eng e = s.eng e := by
  rw [exec_partReset hp hcan, State.partReset_of_inWarm (s := s.disarm ..) hwarm hquiesced hprec hcompat hqueues] at hexec
  cases hexec
  rfl

end

/-- R67: a partition in compatibility mode, with engine 0 and no queue. -/
def compatRec : PartRec := { compat := true, engines := 1 }

/-- Refutes O35: the clause on the write of reset_req has no premise that excludes a warm reset. In step 2 of one (R106) Owl arms and
writes reset_req of a QUIESCED partition; state then reads RESETTING, but engine 0 stays IDLE, for the model starts no engine reset within
a warm reset (R488, R497). -/
theorem not_partitions : ¬ Obligations.Partitions := by
  rintro ⟨-, -, -, -, -, -, -, hreset, -, -⟩
  obtain ⟨s, hwarm, hcan, hprec, hquiesced, hidle⟩ : ∃ s : State, s.inWarm = true ∧ s.CanPage .owl 0 0x108 ∧
      s.prec 0 = some compatRec ∧ (s.part 0).st = .quiesced ∧ (s.eng 0).st = .idle :=
    ⟨{ State.reset with
        phase := .warmFlush
        owl := { OwlS.reset with st := .run }
        lay := some { Layout.reset with parts := [compatRec] }
        parts := [(0, { PartS.reset with st := .quiesced, opHold := true })]
        arms := [⟨unlockOf (pageBase 0 + 0x108), false, 0⟩] },
      rfl, ⟨by decide, by decide, by decide⟩, by decide +kernel, by decide, by decide⟩
  obtain ⟨t, hexec, -, -, hengines⟩ := hreset s .owl 0 compatRec (by decide) hcan hprec rfl hquiesced
  have hkept : t.eng 0 = s.eng 0 := exec_partReset_eng (by decide) hcan hwarm hquiesced hprec rfl rfl hexec 0
  have hreset0 := hengines 0 (by decide) (by decide)
  rw [hkept, hidle] at hreset0
  exact absurd hreset0 (by decide)

end Sys2Proof.Machine
end

section
/-! SUPPORT. The ports of the link layer (R134–R168): what an operation on one port leaves of the others and of the rest of the state, and
what sending, a unit's header and the end of an exchange leave of the port itself. -/

namespace Sys2Proof.Machine
open Sys2Proof

/-! ### One port and the rest of the state -/

section
variable {k : Nat} {s t u : State}

theorem OnlyPort.refl : OnlyPort k s s := ⟨rfl, fun _ _ => rfl⟩

theorem OnlyPort.trans (h : OnlyPort k s t) (g : OnlyPort k t u) : OnlyPort k s u :=
  ⟨by rw [g.1, h.1], fun j hj => (g.2 j hj).trans (h.2 j hj)⟩

theorem State.setPort_only (p : Port) : OnlyPort k s (s.setPort k p) :=
  ⟨rfl, fun _ hj => by rw [State.setPort_get_port, if_neg (Ne.symm hj)]⟩

theorem State.sendLcbs_only (ls : List Nat) (ty : Byte) : OnlyPort k s (s.sendLcbs k ls ty) := State.setPort_only _

theorem State.putLanes_only (p : Port) : OnlyPort k s (s.putLanes k p) := (State.setPort_only p).trans (State.sendLcbs_only ..)

theorem OnlyPort.pqos (h : OnlyPort k s t) (q j : Nat) : t.pqos q j = s.pqos q j := by rw [h.1]; rfl

@[simp] theorem State.sendLcbs_port (ls : List Nat) (ty : Byte) :
    (s.sendLcbs k ls ty).port k = { s.port k with lcbs := (s.port k).lcbs ++ ls.map fun l => (l, s.lcbWord k l ty) } :=
  State.setPort_get_port_same ..

theorem State.putLanes_port (p : Port) :
    (s.putLanes k p).port k = { p with lcbs := ((s.putLanes k p).port k).lcbs } := by
  rw [State.putLanes, State.sendLcbs_port, State.setPort_get_port_same]

end

/-! ### Lanes -/

section
variable (p : Port) (l j : Nat)

theorem Port.lane_setLane (x : LaneS) : (p.setLane l x).lane j = if l = j then x else p.lane j := tget_tput ..
@[simp] theorem Port.lane_setLane_same (x : LaneS) : (p.setLane l x).lane l = x := tget_tput_same ..

/-- A fold of an operation on lanes changes lanes only. -/
theorem Port.foldl_lanes {α : Type} {f : Port → α → Port} (hf : ∀ p a, f p a = { p with lanes := (f p a).lanes }) (xs : List α) :
    xs.foldl f p = { p with lanes := (xs.foldl f p).lanes } :=
  List.foldlRecOn xs f (motive := fun q => q = { p with lanes := q.lanes }) rfl fun q hq a _ => by rw [hf, hq]

/-- What each step keeps of a lane, the fold keeps. -/
theorem Port.foldl_lane {α β : Type} {f : Port → α → Port} {g : LaneS → β} (hf : ∀ p a, g ((f p a).lane j) = g (p.lane j)) (xs : List α) :
    g ((xs.foldl f p).lane j) = g (p.lane j) :=
  List.foldlRecOn xs f (motive := fun q => g (q.lane j) = g (p.lane j)) rfl fun _ hq a _ => (hf _ a).trans hq

/-- What a change of a lane keeps of the lane, it keeps of every lane. -/
theorem Port.lane_setLane_keeps {β : Type} {g : LaneS → β} {x : LaneS} (h : g x = g (p.lane l)) :
    g ((p.setLane l x).lane j) = g (p.lane j) := by
  rw [Port.lane_setLane]; split
  · subst j; exact h
  · rfl

end

theorem mem_lanesIn {m : W32} {l : Nat} : l ∈ lanesIn m ↔ l < 32 ∧ m.getLsbD l = true := by
  simp [lanesIn, lowBits, BitVec.getLsbD]

theorem Port.lanesReady_congr {p q : Port} (h : ∀ l, (q.lane l).st = (p.lane l).st) (m : W32) : q.lanesReady m = p.lanesReady m := by
  simp only [Port.lanesReady, h]

/-- R158, R160: a lane's state once a mask is in force. -/
def LaneS.settled (x : LaneS) (m : W32) (l : Nat) : LaneState :=
  if x.st = .failed then .failed
  else if m.getLsbD l then .inPlan
  else if !x.power then .off
  else if x.st = .off ∧ !x.ident then .off else .standby

def Port.settleLane (m : W32) (p : Port) (l : Nat) : Port :=
  if (p.lane l).settled m l = (p.lane l).st then p else p.setLane l { p.lane l with st := (p.lane l).settled m l }

theorem Port.settle_eq (p : Port) (m : W32) : p.settle m = (List.range 32).foldl (Port.settleLane m) { p with plan := m } := rfl

/-- R158, R160: a mask that comes into force changes the plan and lanes. -/
theorem Port.settle_frame (p : Port) (m : W32) : p.settle m = { p with plan := m, lanes := (p.settle m).lanes } := by
  rw [Port.settle_eq]
  refine Port.foldl_lanes _ (fun q l => ?_) _
  unfold Port.settleLane; split <;> rfl

/-- R160: a lane that is FAILED stays so, and no other becomes it. -/
theorem LaneS.settled_failed (x : LaneS) (m : W32) (l : Nat) : x.settled m l = .failed ↔ x.st = .failed := by
  unfold LaneS.settled
  split
  · simp [*]
  · repeat' split
    all_goals simp [*]

theorem Port.settleLane_lane_failed (m : W32) (p : Port) (l j : Nat) :
    decide (((Port.settleLane m p l).lane j).st = .failed) = decide ((p.lane j).st = .failed) := by
  unfold Port.settleLane; split
  · rfl
  · exact p.lane_setLane_keeps l j (g := fun x => decide (x.st = .failed)) (decide_eq_decide.2 (LaneS.settled_failed ..))

theorem Port.settle_lane_failed (p : Port) (m : W32) (j : Nat) : ((p.settle m).lane j).st = .failed ↔ (p.lane j).st = .failed := by
  have h := Port.foldl_lane { p with plan := m } j (g := fun x => decide (x.st = .failed))
    (fun q l => Port.settleLane_lane_failed m q l j) (List.range 32)
  rw [Port.settle_eq]
  exact decide_eq_decide.1 h

/-! ### Sending (R147, R151, R155, R158) -/

/-- The port with all that sending and the counting of messages can change taken away. -/
def Port.link (p : Port) : Port :=
  { p with
    txSeq := 0, buf := [], winUnits := 0, ackAt := 0, nakDue := false, sent := [], crUsed := [], txq := [], planq := [], txPlan := 0
    unroute := 0, rspDrop := 0, txnEv := 0 }

section
variable (p : Port) (clk : Nat)

@[simp] theorem Port.emit_link (kind : BitVec 4) (seq : BitVec 12) (r pb : Bool) (plan : Option (Byte × Byte × W32 × Byte)) (m : Option Msgs) :
    (p.emit kind seq r pb plan m).link = p.link := rfl
@[simp] theorem Port.sendPlain_link (kind : BitVec 4) (seq : BitVec 12) : (p.sendPlain kind seq).link = p.link := rfl
@[simp] theorem Port.sendMsg_link (m : Msgs) : (p.sendMsg clk m).link = p.link := rfl

@[simp] theorem Port.offer_link (e : EgMsg) : (p.offer clk e).link = p.link := by
  unfold Port.offer; split <;> rfl

@[simp] theorem Port.sendPlanNow_link (x : Byte × Byte × W32 × Byte) : (p.sendPlanNow clk x).link = p.link := by
  unfold Port.sendPlanNow; split <;> rfl

@[simp] theorem Port.sendPlan_link (op id : Byte) (m : W32) (reason : Byte) : (p.sendPlan clk op id m reason).link = p.link := by
  unfold Port.sendPlan; split
  · simp
  · rfl

theorem Port.drainPlan_link (l : List (Byte × Byte × W32 × Byte)) : (Port.drainPlan clk l p).link = p.link := by
  induction l generalizing p with
  | nil => rfl
  | cons x xs ih =>
    unfold Port.drainPlan; split
    · rw [ih, Port.sendPlanNow_link]
    · rfl

theorem Port.drain_link (n : Nat) (kept rest : List EgMsg) : (Port.drain clk n kept rest p).link = p.link := by
  induction n generalizing p kept rest with
  | zero => rfl
  | succ n ih =>
    cases rest with
    | nil => rfl
    | cons e rest =>
      unfold Port.drain; split
      · rw [ih, Port.sendMsg_link]
      · exact ih ..

@[simp] theorem Port.flush_link : (p.flush clk).link = p.link := (Port.drain_link ..).trans (Port.drainPlan_link ..)

@[simp] theorem Port.sendOn_link : (p.sendOn clk).link = p.link := by
  unfold Port.sendOn; dsimp only; split <;> simp

/-- With nothing that waits, a flush sends nothing. -/
theorem Port.flush_idle (htxq : p.txq = []) (hplanq : p.planq = []) : p.flush clk = p := by
  cases p; cases htxq; cases hplanq; rfl

/-- With nothing that waits, what a port sends next is an IDLE unit, which stores nothing for replay. -/
theorem Port.sendOn_idle_buf (htxq : p.txq = []) (hplanq : p.planq = []) : (p.sendOn clk).buf = p.buf := by
  rw [Port.sendOn, Port.flush_idle p clk htxq hplanq]; exact if_pos rfl ▸ rfl

theorem Port.sendPlan_txq (op id : Byte) (m : W32) (reason : Byte) : (p.sendPlan clk op id m reason).txq = p.txq := by
  unfold Port.sendPlan Port.sendPlanNow; split
  · split <;> rfl
  · rfl

end

theorem State.putLanes_link (s : State) (k : Nat) (p : Port) :
    ((s.putLanes k p).port k).link = { p.link with lcbs := ((s.putLanes k p).port k).lcbs } := by
  rw [State.putLanes, State.sendLcbs_port, State.setPort_get_port_same]; rfl

/-! ### Headers and replay (R149–R153, R158) -/

/-- The port with all that a replay event or the header of a received unit can change taken away, where no GO waits. -/
def Port.linkRx (p : Port) : Port :=
  { p.link with crTot := [], sameCnt := 0, staleNak := 0, replays := 0, evstat := 0, winAt := [], timerAt := none }

/-- The port with all that such a header can change taken away, the end of an exchange among it. -/
def Port.linkPlan (p : Port) : Port :=
  { p.linkRx with goPlan := 0, planOut := none, goWait := false, cmdPlan := false, planRes := 0, plans := 0 }

section
variable {p q : Port}

section
variable (h : q.link = p.link)
include h

theorem Port.st_of_link : q.st = p.st := (congrArg Port.st h :)
theorem Port.plan_of_link : q.plan = p.plan := (congrArg Port.plan h :)
theorem Port.lanes_of_link : q.lanes = p.lanes := (congrArg Port.lanes h :)
theorem Port.lane_of_link (j : Nat) : q.lane j = p.lane j := by rw [Port.lane, Port.lanes_of_link h]; rfl
theorem Port.rxSlots_of_link : q.rxSlots = p.rxSlots := (congrArg Port.rxSlots h :)
theorem Port.rxSeq_of_link : q.rxSeq = p.rxSeq := (congrArg Port.rxSeq h :)

end

theorem Port.linkRx_of_link (h : q.link = p.link) : q.linkRx = p.linkRx := by rw [Port.linkRx, h]; rfl
theorem Port.linkPlan_of_linkRx (h : q.linkRx = p.linkRx) : q.linkPlan = p.linkPlan := by rw [Port.linkPlan, h]; rfl
theorem Port.planOut_of_linkRx (h : q.linkRx = p.linkRx) : q.planOut = p.planOut := (congrArg Port.planOut h :)
theorem Port.goWait_of_linkRx (h : q.linkRx = p.linkRx) : q.goWait = p.goWait := (congrArg Port.goWait h :)

variable (h : q.linkPlan = p.linkPlan)
include h

theorem Port.st_of_linkPlan : q.st = p.st := (congrArg Port.st h :)
theorem Port.lanes_of_linkPlan : q.lanes = p.lanes := (congrArg Port.lanes h :)
theorem Port.plan_of_linkPlan : q.plan = p.plan := (congrArg Port.plan h :)
theorem Port.planId_of_linkPlan : q.planId = p.planId := (congrArg Port.planId h :)
theorem Port.planIn_of_linkPlan : q.planIn = p.planIn := (congrArg Port.planIn h :)
theorem Port.autoDrop_of_linkPlan : q.autoDrop = p.autoDrop := (congrArg Port.autoDrop h :)
theorem Port.rxSeq_of_linkPlan : q.rxSeq = p.rxSeq := (congrArg Port.rxSeq h :)
theorem Port.rxSlots_of_linkPlan : q.rxSlots = p.rxSlots := (congrArg Port.rxSlots h :)

end

section
variable (p : Port) (clk : Nat)

/-- R151, R152: a stored unit sent again. -/
def Port.resend (p : Port) (u : TxUnit) : Port := p.emit (if u.plan.isSome then 3 else 0) u.seq true u.pb u.plan u.msg

theorem Port.foldl_resend (l : List TxUnit) :
    l.foldl Port.resend p = { p with nakDue := (l.foldl Port.resend p).nakDue, sent := (l.foldl Port.resend p).sent } :=
  List.foldlRecOn l _ (motive := fun q : Port => q = { p with nakDue := q.nakDue, sent := q.sent }) rfl fun q hq u _ => by
    rw [hq]; rfl

/-- R151–R153: a replay event sends units again and starts the timer anew. -/
theorem Port.replayFrom_frame (r : BitVec 12) :
    p.replayFrom r clk = { p with
      nakDue := (p.replayFrom r clk).nakDue, sent := (p.replayFrom r clk).sent, replays := (p.replayFrom r clk).replays
      evstat := (p.replayFrom r clk).evstat, sameCnt := (p.replayFrom r clk).sameCnt, winAt := (p.replayFrom r clk).winAt
      timerAt := none, ackAt := clk } := by
  have h : p.replayFrom r clk = (p.buf.dropWhile fun u => u.seq != r).foldl Port.resend _ := rfl
  rw [h, Port.foldl_resend]; rfl

/-- R153: a replay event is counted, but for one that the timer began in the same clock. -/
theorem Port.replayFrom_replays (r : BitVec 12) (h : ∀ n, p.timerAt ≠ some (clk, n)) :
    (p.replayFrom r clk).replays = sat p.replays := by
  have hfold : p.replayFrom r clk = (p.buf.dropWhile fun u => u.seq != r).foldl Port.resend _ := rfl
  rw [hfold, Port.foldl_resend]
  cases ht : p.timerAt with
  | none => rfl
  | some x =>
    have hclk : x.1 ≠ clk := fun e => h x.2 (by rw [ht, ← e])
    exact if_neg (by simp [hclk])

@[simp] theorem Port.replayFrom_linkRx (r : BitVec 12) : (p.replayFrom r clk).linkRx = p.linkRx := by
  rw [Port.replayFrom_frame]; rfl

/-- R149: an acknowledgement frees the units before it. -/
theorem Port.ackTo_buf (n : BitVec 12) : (p.ackTo n clk).buf = p.buf.drop (n - p.oldest).toNat := by
  unfold Port.ackTo
  dsimp only
  split
  · simp [*]
  · split <;> rfl

theorem Port.ackTo_linkRx (n : BitVec 12) (h : p.goWait = false) : (p.ackTo n clk).linkRx = p.linkRx := by
  unfold Port.ackTo
  dsimp only
  split
  · rfl
  · rw [if_neg (by simp [h])]; rfl

theorem Port.ackTo_linkPlan (n : BitVec 12) : (p.ackTo n clk).linkPlan = p.linkPlan := by
  unfold Port.ackTo
  dsimp only
  split
  · rfl
  · split <;> rfl

theorem Port.ackTo_planOut (n : BitVec 12) (h : p.planOut = none) : (p.ackTo n clk).planOut = none := by
  unfold Port.ackTo
  dsimp only
  split
  · exact h
  · split
    · rfl
    · exact h

/-- R149: an acknowledgement leaves what waits to be sent. -/
theorem Port.ackTo_waiting (n : BitVec 12) : (p.ackTo n clk).txq = p.txq ∧ (p.ackTo n clk).planq = p.planq := by
  unfold Port.ackTo
  dsimp only
  split
  · exact ⟨rfl, rfl⟩
  · split <;> exact ⟨rfl, rfl⟩

/-- R158, R159: with the acknowledgement of its GO this side's exchange is done. -/
theorem Port.ackTo_go {n : BitVec 12} {b : TxUnit} {x : W32 × Byte} (hwait : p.goWait = true)
    (hb : b ∈ p.buf.take (n - p.oldest).toNat) (hplan : b.plan = some (4, p.planId, x)) :
    p.ackTo n clk =
      { p with buf := p.buf.drop (n - p.oldest).toNat, sameCnt := 0, ackAt := clk, goPlan := p.planOut.getD p.goPlan }.outEnds 2 := by
  have hd : (n - p.oldest).toNat ≠ 0 := fun h => by simp [h] at hb
  unfold Port.ackTo
  dsimp only
  rw [if_neg hd, if_pos ⟨hwait, List.any_eq_true.2 ⟨b, hb, by simp [hplan]⟩⟩]

/-- R149: a header with an ACK of units that were sent acts as that ACK, beside what it reports of credits. -/
theorem Port.takeHdr_ack {h : W64} (hkind : bitsOf h.toNat 58 2 = 1)
    (hin : (BitVec.ofNat 12 (bitsOf h.toNat 46 12) + 1 - p.oldest).toNat ≤ p.buf.length) :
    ∃ c, p.takeHdr h clk = { p with crTot := c }.ackTo (BitVec.ofNat 12 (bitsOf h.toNat 46 12) + 1) clk := by
  unfold Port.takeHdr
  simp only [hkind, if_true]
  split
  · exact ⟨_, if_pos (decide_eq_true hin)⟩
  · exact ⟨p.crTot, if_pos (decide_eq_true hin)⟩

/-- R149–R151, R155: a header reports credits, and acknowledges, starts a replay event or is counted. -/
theorem Port.takeHdr_keeps {β : Type} {g : Port → β} (h : W64) (hcr : ∀ q c, g { q with crTot := c } = g q)
    (hack : ∀ n c, g (Port.ackTo { p with crTot := c } n clk) = g p) (hrep : ∀ q r, g (Port.replayFrom q r clk) = g q)
    (hstale : ∀ q c e, g { q with staleNak := c, evstat := e } = g q) : g (p.takeHdr h clk) = g p := by
  unfold Port.takeHdr
  extract_lets kind q c p1 inRange
  obtain ⟨t, ht⟩ : ∃ t, p1 = { p with crTot := t } := by
    unfold p1; split
    · exact ⟨_, rfl⟩
    · exact ⟨p.crTot, rfl⟩
  have h1 : g p1 = g p := ht ▸ hcr ..
  have hack1 (n : BitVec 12) : g (p1.ackTo n clk) = g p := ht ▸ hack n t
  split
  · split
    · exact hack1 _
    · exact h1
  · split
    · split
      · exact (hrep ..).trans (hack1 _)
      · exact (hstale ..).trans h1
    · exact h1

theorem Port.takeHdr_linkRx (h : W64) (hwait : p.goWait = false) : (p.takeHdr h clk).linkRx = p.linkRx :=
  p.takeHdr_keeps clk h (fun _ _ => rfl) (fun _ _ => Port.ackTo_linkRx _ _ _ hwait)
    (fun q r => q.replayFrom_linkRx clk r) fun _ _ _ => rfl

theorem Port.takeHdr_linkPlan (h : W64) : (p.takeHdr h clk).linkPlan = p.linkPlan :=
  p.takeHdr_keeps clk h (fun _ _ => rfl) (fun _ _ => Port.ackTo_linkPlan ..)
    (fun q r => Port.linkPlan_of_linkRx (q.replayFrom_linkRx clk r)) fun _ _ _ => rfl

theorem Port.takeHdr_planOut (h : W64) (hout : p.planOut = none) : (p.takeHdr h clk).planOut = none :=
  (p.takeHdr_keeps (g := Port.planOut) clk h (fun _ _ => rfl)
    (fun n c => (Port.ackTo_planOut { p with crTot := c } clk n hout).trans hout.symm)
    (fun q r => Port.planOut_of_linkRx (q.replayFrom_linkRx clk r)) fun _ _ _ => rfl).trans hout

end
end Sys2Proof.Machine
end

section
/-! SUPPORT. Flow units that arrive (R136, R142–R151, R158): what a unit that passes its checks leaves to its effect, and what the answer
that goes out after it leaves alone. -/

namespace Sys2Proof.Machine
open Sys2Proof

/-! ### A FAILED lane looked at again (R162) -/

theorem State.dropFailed_of_autoDrop {s : State} {k : Nat} (h : (s.port k).autoDrop = false) : s.dropFailed k = s :=
  if_neg fun ⟨_, hdrop, _⟩ => by simp [h] at hdrop

/-- A port that keeps its auto_drop is not looked at where no acknowledgement asks for it. -/
theorem State.unitHdr_of_noDrop {s : State} {k : Nat} {p : Port} (h : s.NoDrop k) (hp : p.autoDrop = (s.port k).autoDrop) :
    s.unitHdr k p = s.setPort k p := by
  unfold State.unitHdr
  obtain hwait | hdrop := h
  · exact if_neg fun ⟨hw, _⟩ => by simp [hwait] at hw
  · dsimp only
    split
    · exact State.dropFailed_of_autoDrop (by rw [State.setPort_get_port_same, hp, hdrop])
    · rfl

/-! ### The blocks of a unit (R136) -/

section
variable (p : Port) (u : FlowUnit) (clk : Nat)

theorem Port.unitBlocks_frame : p.unitBlocks u clk = { p with lanes := (p.unitBlocks u clk).lanes } := p.foldl_lanes (fun _ _ => rfl) _

theorem LaneS.badBlock_st (x : LaneS) (c : Bool) : (x.badBlock c clk).st = x.st := by
  unfold LaneS.badBlock; split <;> rfl

theorem Port.unitBlocks_lane_st (l : Nat) : ((p.unitBlocks u clk).lane l).st = (p.lane l).st :=
  p.foldl_lane l (g := LaneS.st) (fun q _ => q.lane_setLane_keeps _ _ (LaneS.badBlock_st ..)) _

/-! ### Units that pass -/

/-- R146, R148, R149: the port as a sequenced unit that passes leaves it to the unit's effect. -/
def Port.took : Port :=
  Port.takeHdr { p.unitBlocks u clk with rxSeq := (p.unitBlocks u clk).rxSeq + 1, rxAny := true, dupUntil := (p.unitBlocks u clk).rxSeq + 1 }
    u.hdr clk

theorem Port.took_linkPlan : (p.took u clk).linkPlan =
    Port.linkPlan { p with lanes := (p.unitBlocks u clk).lanes, rxSeq := p.rxSeq + 1, rxAny := true, dupUntil := p.rxSeq + 1 } := by
  rw [Port.took, Port.takeHdr_linkPlan, Port.unitBlocks_frame]

theorem Port.took_linkRx (h : p.goWait = false) : (p.took u clk).linkRx =
    Port.linkRx { p with lanes := (p.unitBlocks u clk).lanes, rxSeq := p.rxSeq + 1, rxAny := true, dupUntil := p.rxSeq + 1 } := by
  rw [Port.took, Port.takeHdr_linkRx, Port.unitBlocks_frame]
  rw [Port.unitBlocks_frame]; exact h

theorem Port.took_planOut (h : p.planOut = none) : (p.took u clk).planOut = none := by
  rw [Port.took, Port.takeHdr_planOut]
  rw [Port.unitBlocks_frame]; exact h

@[simp] theorem Port.took_rxSlots : (p.took u clk).rxSlots = p.rxSlots := (Port.rxSlots_of_linkPlan (p.took_linkPlan u clk) :)
@[simp] theorem Port.took_rxSeq : (p.took u clk).rxSeq = p.rxSeq + 1 := (Port.rxSeq_of_linkPlan (p.took_linkPlan u clk) :)
@[simp] theorem Port.took_plan : (p.took u clk).plan = p.plan := (Port.plan_of_linkPlan (p.took_linkPlan u clk) :)
@[simp] theorem Port.took_planId : (p.took u clk).planId = p.planId := (Port.planId_of_linkPlan (p.took_linkPlan u clk) :)
@[simp] theorem Port.took_planIn : (p.took u clk).planIn = p.planIn := (Port.planIn_of_linkPlan (p.took_linkPlan u clk) :)
@[simp] theorem Port.took_autoDrop : (p.took u clk).autoDrop = p.autoDrop := (Port.autoDrop_of_linkPlan (p.took_linkPlan u clk) :)

theorem Port.took_lanesReady (m : W32) : (p.took u clk).lanesReady m = p.lanesReady m :=
  Port.lanesReady_congr (fun l => by
    rw [Port.lane, Port.lanes_of_linkPlan (p.took_linkPlan u clk)]; exact p.unitBlocks_lane_st u clk l) m

end

/-- R147: the answer to a unit goes out while the link is up. -/
def State.unitAnswer (s : State) (k : Nat) : State :=
  if (s.port k).st = .active then s.setPort k ((s.port k).sendOn s.clk) else s

section
variable {s : State} {k : Nat}

theorem State.unitAnswer_only : OnlyPort k s (s.unitAnswer k) := by
  unfold State.unitAnswer; split
  · exact State.setPort_only _
  · exact .refl

/-- With nothing that waits, the answer stores no unit. -/
theorem State.unitAnswer_buf (htxq : (s.port k).txq = []) (hplanq : (s.port k).planq = []) :
    ((s.unitAnswer k).port k).buf = (s.port k).buf := by
  unfold State.unitAnswer; split
  · rw [State.setPort_get_port_same, Port.sendOn_idle_buf _ _ htxq hplanq]
  · rfl

theorem State.unitAnswer_link : ((s.unitAnswer k).port k).link = (s.port k).link := by
  unfold State.unitAnswer; split
  · rw [State.setPort_get_port_same, Port.sendOn_link]
  · rfl

/-- R146, R148: a whole unit in sequence acts on the port that its blocks and its header leave, and is answered. -/
theorem State.seqIn_of_ok {u : FlowUnit} {ty : Nat} (h : s.UnitOk k u ty) (act : State → State) :
    s.seqIn k u ty act = (act (s.setPort k ((s.port k).took u s.clk))).unitAnswer k := by
  obtain ⟨hst, hgood, hreplay, hseq, hdrop⟩ := h
  have hblocks := (s.port k).unitBlocks_frame u s.clk
  have hseq' : ((s.port k).unitBlocks u s.clk).rxSeq = (s.port k).rxSeq := by rw [hblocks]
  have hdup' : ((s.port k).unitBlocks u s.clk).dupUntil = (s.port k).rxSeq := by rw [hblocks]; exact hseq.symm
  have hreplay' : ((s.port k).unitBlocks u s.clk).waitReplay = false := by rw [hblocks]; exact hreplay
  have hgood' : unitGood ((s.port k).unitBlocks u s.clk).rxSeq.toNat u ty = true := by rw [hseq']; exact hgood
  unfold State.seqIn
  dsimp only
  rw [if_neg (not_not.2 hst), hgood', if_neg (by decide), if_neg (ne_true_of_eq_false hreplay'),
    if_neg (not_not.2 (hseq'.trans hdup'.symm)), State.unitHdr_of_noDrop hdrop]
  · rfl
  · exact (s.port k).took_autoDrop u s.clk

/-- R148: a whole unsequenced unit acts on the port that its blocks and its header leave, and is answered. -/
theorem State.plainIn_of_ok {u : FlowUnit} {ty : Nat} {act : Port → Port} (hst : (s.port k).st = .active)
    (hgood : unitGood 0xF000 u ty = true) (hdrop : s.NoDrop k) (hact : ∀ p, (act p).autoDrop = p.autoDrop) :
    s.plainIn k u ty act = (s.setPort k (act (((s.port k).unitBlocks u s.clk).takeHdr u.hdr s.clk))).unitAnswer k := by
  unfold State.plainIn State.unitTaken
  dsimp only
  rw [if_neg (not_not.2 hst), hgood, if_neg (by decide), State.unitHdr_of_noDrop hdrop]
  · rfl
  · rw [hact, Port.autoDrop_of_linkPlan (Port.takeHdr_linkPlan ..), Port.unitBlocks_frame]

end

/-! ### The statement's clauses -/

section
variable {s : State} {k : Nat} {u : FlowUnit}

/-- What is read of a port once its answer has gone out is what sending leaves alone. -/
theorem unitAnswer_leads {c : Instr} {t : State} {Q : Port → Prop} (hexec : exec c s = .next (t.unitAnswer k)) (honly : OnlyPort k s t)
    (hQ : ∀ p, p.link = (t.port k).link → Q p) : Leads c s fun t => OnlyPort k s t ∧ Q (t.port k) :=
  ⟨_, hexec, honly.trans State.unitAnswer_only, hQ _ State.unitAnswer_link⟩

theorem seqIn_leads {c : Instr} {ty : Nat} {act : State → State} {t : State} {Q : Port → Prop} (h : s.UnitOk k u ty)
    (hexec : exec c s = .next (s.seqIn k u ty act)) (hact : act (s.setPort k ((s.port k).took u s.clk)) = t)
    (honly : OnlyPort k (s.setPort k ((s.port k).took u s.clk)) t) (hQ : ∀ p, p.link = (t.port k).link → Q p) :
    Leads c s fun t => OnlyPort k s t ∧ Q (t.port k) :=
  unitAnswer_leads (hexec.trans (congrArg _ (hact ▸ State.seqIn_of_ok h act))) ((State.setPort_only _).trans honly) hQ

/-- R148: the slots of DATA. -/
theorem dataUnit_leads (h : s.UnitOk k u 0) : Leads (.dataUnit k u) s fun t =>
    OnlyPort k s t ∧ (t.port k).rxSlots = (s.port k).rxSlots ++ u.slots ∧ (t.port k).rxSeq = (s.port k).rxSeq + 1 := by
  refine seqIn_leads (Q := fun p => p.rxSlots = _ ∧ p.rxSeq = _) h rfl rfl (State.setPort_only _) fun p hp => ?_
  simp only [State.setPort_get_port_same] at hp
  exact ⟨(Port.rxSlots_of_link hp).trans (by simp), (Port.rxSeq_of_link hp).trans (by simp)⟩

/-! #### Acknowledgements and REPLAY -/

section
variable (hst : (s.port k).st = .active)
include hst

theorem plainIn_leads {c : Instr} {ty : Nat} {act : Port → Port} {Q : Port → Prop} (hgood : unitGood 0xF000 u ty = true)
    (hdrop : s.NoDrop k) (hexec : exec c s = .next (s.plainIn k u ty act)) (hact : ∀ p, (act p).autoDrop = p.autoDrop)
    (hQ : ∀ p, p.link = (act (((s.port k).unitBlocks u s.clk).takeHdr u.hdr s.clk)).link → Q p) :
    Leads c s fun t => OnlyPort k s t ∧ Q (t.port k) :=
  unitAnswer_leads (hexec.trans (congrArg _ (State.plainIn_of_ok hst hgood hdrop hact))) (State.setPort_only _) fun p hp =>
    hQ p (by rw [hp, State.setPort_get_port_same])

/-- R150: REPLAY names the sequence from which the partner sends again. -/
theorem replayUnit_leads (hgood : unitGood 0xF000 u 2 = true) (hdrop : s.NoDrop k) : Leads (.replayUnit k u) s fun t =>
    OnlyPort k s t ∧ (t.port k).waitReplay = false ∧ (t.port k).rxSeq = BitVec.ofNat 12 ((u.slots.getD 0 0).toNat % 4096) :=
  plainIn_leads (Q := fun p => p.waitReplay = _ ∧ p.rxSeq = _) hst hgood hdrop rfl (fun _ => rfl) fun _ hp =>
    ⟨(congrArg Port.waitReplay hp :), (Port.rxSeq_of_link hp :)⟩

variable {q : BitVec 12} (hgood : unitGood 0xF000 u 1 = true) (hkind : bitsOf u.hdr.toNat 58 2 = 1)
  (hq : q = BitVec.ofNat 12 (bitsOf u.hdr.toNat 46 12)) (hin : (q + 1 - (s.port k).oldest).toNat ≤ (s.port k).buf.length)
include hgood hkind hq hin

omit hst hgood in
/-- R149: an IDLE unit's ACK of units that were sent acts as that ACK. -/
theorem idleUnit_ack : ∃ x c, ((s.port k).unitBlocks u s.clk).takeHdr u.hdr s.clk =
    Port.ackTo { s.port k with lanes := x, crTot := c } (q + 1) s.clk := by
  rw [Port.unitBlocks_frame]
  subst hq
  exact ⟨_, Port.takeHdr_ack _ _ hkind hin⟩

/-- R149: the units that an ACK acknowledges leave the replay buffer. -/
theorem idleUnit_leads_ack (htxq : (s.port k).txq = []) (hplanq : (s.port k).planq = []) (hdrop : s.NoDrop k) :
    Leads (.idleUnit k u) s fun t =>
      OnlyPort k s t ∧ (t.port k).buf = (s.port k).buf.drop (q + 1 - (s.port k).oldest).toNat ∧ (t.port k).rxSeq = (s.port k).rxSeq := by
  obtain ⟨x, c, hack⟩ := idleUnit_ack hkind hq hin
  have hseq : (Port.takeHdr ((s.port k).unitBlocks u s.clk) u.hdr s.clk).rxSeq = (s.port k).rxSeq := by
    rw [Port.rxSeq_of_linkPlan (Port.takeHdr_linkPlan ..), Port.unitBlocks_frame]
  have hwaiting := Port.ackTo_waiting { s.port k with lanes := x, crTot := c } s.clk (q + 1)
  refine ⟨_, congrArg Host.Outcome.next (State.plainIn_of_ok hst hgood hdrop fun _ => rfl),
    (State.setPort_only _).trans State.unitAnswer_only, ?_, ?_⟩
  · rw [State.unitAnswer_buf] <;> rw [State.setPort_get_port_same, id, hack]
    · exact Port.ackTo_buf ..
    · exact hwaiting.1.trans htxq
    · exact hwaiting.2.trans hplanq
  · rw [Port.rxSeq_of_link State.unitAnswer_link, State.setPort_get_port_same]
    exact hseq

/-- R158, R159: the ACK of the GO that this side sent ends the exchange. -/
theorem idleUnit_leads_go {m n : W32} {r : Byte} {b : TxUnit} (hwait : (s.port k).goWait = true) (hauto : (s.port k).autoDrop = false)
    (hout : (s.port k).planOut = some m) (hb : b ∈ (s.port k).buf.take (q + 1 - (s.port k).oldest).toNat)
    (hplan : b.plan = some (4, (s.port k).planId, n, r)) :
    Leads (.idleUnit k u) s fun t =>
      OnlyPort k s t ∧ (t.port k).planOut = none ∧ (t.port k).goWait = false ∧ (t.port k).planRes = 2 ∧ (t.port k).goPlan = m := by
  obtain ⟨x, c, hack⟩ := idleUnit_ack hkind hq hin
  refine plainIn_leads (Q := fun p => p.planOut = _ ∧ p.goWait = _ ∧ p.planRes = _ ∧ p.goPlan = _) hst hgood (.inr hauto) rfl
    (fun _ => rfl) fun p hp => ?_
  rw [id, hack, Port.ackTo_go { s.port k with lanes := x, crTot := c } s.clk hwait hb hplan] at hp
  exact ⟨(congrArg Port.planOut hp :), (congrArg Port.goWait hp :), (congrArg Port.planRes hp :),
    (congrArg Port.goPlan hp : p.goPlan = (s.port k).planOut.getD (s.port k).goPlan).trans (by rw [hout]; rfl)⟩

end

/-! #### The exchange of PLAN units -/

theorem State.planReq_accept {id : Byte} {m : W32} (hout : (s.port k).planOut = none)
    (hsize : planSizes.contains (lanesIn m).length = true) (hready : (s.port k).lanesReady m = true) :
    s.planReq k id m = s.setPort k (Port.sendPlan { s.port k with planIn := some (id, m) } s.clk 2 id m 0) := by
  simp [State.planReq, hout, List.contains_iff_mem.1 hsize, hready]

section
variable {id : Byte} {m : W32} (hout : (s.port k).planOut = some m) (hid : id = (s.port k).planId) (hwait : (s.port k).goWait = false)
include hout hid hwait

theorem State.planAcc_own :
    s.planAcc k id = s.putLanes k (Port.sendPlan { (s.port k).settle m with goWait := true } s.clk 4 id m 0) := by
  simp [State.planAcc, hout, hid, hwait]

theorem State.planRej_own {r : Byte} (hauto : (s.port k).autoDrop = false) :
    s.planRej k id r = s.setPort k (Port.outEnds { s.port k with planReason := r } 4) := by
  unfold State.planRej
  dsimp only
  rw [if_neg (by simp [hout, hid, hwait])]
  split
  · rfl
  · exact State.dropFailed_of_autoDrop (by rw [State.setPort_get_port_same]; exact hauto)

end

theorem State.planAccepted_own {id : Byte} {m : W32} (hin : (s.port k).planIn = some (id, m)) (hauto : (s.port k).autoDrop = false) :
    s.planAccepted k id m =
      s.putLanes k { (Port.planEnds { s.port k with planIn := none }).settle m with goPlan := m } := by
  unfold State.planAccepted
  dsimp only
  rw [if_pos hin, State.dropFailed_of_autoDrop]
  rw [State.putLanes_port, Port.settle_frame]
  exact hauto

/-- R158: a REQ of a legal plan whose lanes are ready is accepted. -/
theorem planUnitReq_leads {id r : Byte} {m : W32} (h : s.UnitOk k u 3) (hf : planFields u = (1, id, m, r)) (hout : (s.port k).planOut = none)
    (hsize : planSizes.contains (lanesIn m).length = true) (hready : (s.port k).lanesReady m = true) :
    Leads (.planUnitReq k u) s fun t => OnlyPort k s t ∧ (t.port k).planIn = some (id, m) ∧ (t.port k).plan = (s.port k).plan := by
  have hport := State.setPort_get_port_same s k ((s.port k).took u s.clk)
  have hact := State.planReq_accept (k := k) (id := id) (s := s.setPort k ((s.port k).took u s.clk))
    (by rw [hport]; exact Port.took_planOut _ _ _ hout) hsize (by rw [hport, Port.took_lanesReady]; exact hready)
  refine seqIn_leads (Q := fun p => p.planIn = _ ∧ p.plan = _) h rfl (by simpa only [hf, if_true] using hact) (State.setPort_only _)
    fun p hp => ?_
  rw [State.setPort_get_port_same, Port.sendPlan_link, hport] at hp
  exact ⟨(congrArg Port.planIn hp :), (congrArg Port.plan hp :).trans ((s.port k).took_plan u s.clk)⟩

section
variable {r : Byte} {m n : W32} (h : s.UnitOk k u 3) (hout : (s.port k).planOut = some m) (hwait : (s.port k).goWait = false)
include h hout hwait

omit h in
theorem planUnit_own : ((s.setPort k ((s.port k).took u s.clk)).port k).planOut = some m ∧
    (s.port k).planId = ((s.setPort k ((s.port k).took u s.clk)).port k).planId ∧
    ((s.setPort k ((s.port k).took u s.clk)).port k).goWait = false := by
  have hrx := (s.port k).took_linkRx u s.clk hwait
  rw [State.setPort_get_port_same]
  exact ⟨(Port.planOut_of_linkRx hrx :).trans hout, by simp, (Port.goWait_of_linkRx hrx :).trans hwait⟩

/-- R158: ACC of this side's exchange puts its mask in force and sends GO. -/
theorem planUnitAcc_leads (hf : planFields u = (2, (s.port k).planId, n, r)) :
    Leads (.planUnitAcc k u) s fun t =>
      OnlyPort k s t ∧ (t.port k).plan = m ∧ (t.port k).planOut = some m ∧ (t.port k).goWait = true := by
  obtain ⟨hout', hid, hwait'⟩ := planUnit_own (u := u) hout hwait
  have hact := State.planAcc_own hout' hid hwait'
  refine seqIn_leads (Q := fun p => p.plan = _ ∧ p.planOut = _ ∧ p.goWait = _) h rfl (by simpa only [hf, if_true] using hact)
    (State.putLanes_only _) fun p hp => ?_
  rw [State.putLanes_link, Port.sendPlan_link, Port.settle_frame] at hp
  exact ⟨(congrArg Port.plan hp :), (congrArg Port.planOut hp :).trans hout', (congrArg Port.goWait hp :)⟩

/-- R158: REJ of this side's exchange ends it. -/
theorem planUnitRej_leads (hf : planFields u = (3, (s.port k).planId, n, r)) (hauto : (s.port k).autoDrop = false) :
    Leads (.planUnitRej k u) s fun t =>
      OnlyPort k s t ∧ (t.port k).plan = (s.port k).plan ∧ (t.port k).planOut = none ∧ (t.port k).planRes = 4 ∧
      (t.port k).planReason = r := by
  obtain ⟨hout', hid, hwait'⟩ := planUnit_own (u := u) hout hwait
  have hact := State.planRej_own (r := r) hout' hid hwait' (by rw [State.setPort_get_port_same, Port.took_autoDrop]; exact hauto)
  refine seqIn_leads (Q := fun p => p.plan = _ ∧ p.planOut = _ ∧ p.planRes = _ ∧ p.planReason = _) h rfl
    (by simpa only [hf, if_true] using hact) (State.setPort_only _) fun p hp => ?_
  rw [State.setPort_get_port_same, State.setPort_get_port_same] at hp
  exact ⟨(congrArg Port.plan hp :).trans ((s.port k).took_plan u s.clk), (congrArg Port.planOut hp :), (congrArg Port.planRes hp :),
    (congrArg Port.planReason hp :)⟩

end

/-- R158: GO of the exchange that this side accepted puts its mask in force. -/
theorem planUnitGo_leads {id r : Byte} {m : W32} (h : s.UnitOk k u 3) (hf : planFields u = (4, id, m, r))
    (hin : (s.port k).planIn = some (id, m)) (hauto : (s.port k).autoDrop = false) :
    Leads (.planUnitGo k u) s fun t =>
      OnlyPort k s t ∧ (t.port k).plan = m ∧ (t.port k).goPlan = m ∧ (t.port k).planIn = none := by
  have hport := State.setPort_get_port_same s k ((s.port k).took u s.clk)
  have hact := State.planAccepted_own (k := k) (s := s.setPort k ((s.port k).took u s.clk))
    (by rw [hport, Port.took_planIn]; exact hin) (by rw [hport, Port.took_autoDrop]; exact hauto)
  refine seqIn_leads (Q := fun p => p.plan = _ ∧ p.goPlan = _ ∧ p.planIn = _) h rfl (by simpa only [hf, if_true] using hact)
    (State.putLanes_only _) fun p hp => ?_
  rw [State.putLanes_link, Port.settle_frame] at hp
  exact ⟨(congrArg Port.plan hp :), (congrArg Port.goPlan hp :), (congrArg Port.planIn hp :)⟩

end

/-- Settles O20: each unit acts on the port that its blocks and its header leave, and the answer that goes out sends only. -/
theorem flowUnits : Obligations.FlowUnits := by
  refine ⟨fun s k u => dataUnit_leads, ?_, ?_, fun s k u => replayUnit_leads, ?_, ?_, ?_, ?_⟩
  · intro s k u q hst hgood hkind hq htxq hplanq hdrop hin
    exact idleUnit_leads_ack hst hgood hkind hq hin htxq hplanq hdrop
  · intro s k u q m n r b hst hgood hkind hq hin hwait hauto hout hb hplan
    exact idleUnit_leads_go hst hgood hkind hq hin hwait hauto hout hb hplan
  · exact fun s k u id r m => planUnitReq_leads
  · exact fun s k u r m n h hf hout hwait => planUnitAcc_leads h hout hwait hf
  · exact fun s k u r m n h hf hout hwait => planUnitRej_leads h hout hwait hf
  · exact fun s k u id r m => planUnitGo_leads

end Sys2Proof.Machine
end

section
/-! SUPPORT. What neither a message that leaves nor the service of requests on lines can change of a port (R147, R187, R197, R225–R227): all
that `Port.link` keeps. It is what `State.admin`, which has no ports, leaves out; one lemma for each operation that a message without a
way out can reach. -/

namespace Sys2Proof.Machine
open Sys2Proof

/-- What sending and the counting of messages leave of every port. -/
def State.links (s : State) (k : Nat) : Port := (s.port k).link

/-! ### Banks, counters and records -/

section
variable (s : State)

theorem State.foldl_links {α : Type} {f : State → α → State} (hf : ∀ s a, (f s a).links = s.links) (l : List α) (s : State) :
    (l.foldl f s).links = s.links :=
  List.foldlRecOn l f (motive := fun t => t.links = s.links) rfl fun t ht a _ => (hf t a).trans ht

theorem State.setPort_links (k : Nat) {p : Port} (h : p.link = (s.port k).link) : (s.setPort k p).links = s.links := by
  funext j
  simp only [State.links, State.setPort_get_port]
  split
  · subst k; exact h
  · rfl

theorem LineFrame.links {s t : State} (h : LineFrame s t) : t.links = s.links := by
  rw [h]; rfl

@[simp] theorem State.setPart_links (p : Nat) (x : PartS) : (s.setPart p x).links = s.links := rfl
@[simp] theorem State.setSett_links (n : Nat) (x : Sett) : (s.setSett n x).links = s.links := rfl
@[simp] theorem State.setEng_links (e : Nat) (x : Engine) : (s.setEng e x).links = s.links := rfl
@[simp] theorem State.setQueue_links (q : Nat) (x : Queue) : (s.setQueue q x).links = s.links := rfl
@[simp] theorem State.setChan_links (c : Nat) (x : Chan) : (s.setChan c x).links = s.links := rfl
@[simp] theorem State.setNode_links (d : Node) (g : NodeG) : (s.setNode d g).links = s.links := rfl
@[simp] theorem State.setTxn_links (t : Txn) : (s.setTxn t).links = s.links := rfl
@[simp] theorem State.dropTxn_links (id : Nat) : (s.dropTxn id).links = s.links := rfl
@[simp] theorem State.openTxn_links (t : Txn) : (s.openTxn t).links = s.links := rfl
@[simp] theorem State.setPqos_links (p k : Nat) (x : PortQos) : (s.setPqos p k x).links = s.links := rfl
@[simp] theorem State.countLookup_links (n : Nat) : (s.countLookup n).links = s.links := rfl
@[simp] theorem State.countSnpto_links (n : Nat) : (s.countSnpto n).links = s.links := rfl
@[simp] theorem State.countUncovered_links (n : Nat) : (s.countUncovered n).links = s.links := rfl
@[simp] theorem State.countVicfull_links : s.countVicfull.links = s.links := rfl
@[simp] theorem State.countUnroute_links (k : Nat) : (s.countUnroute k).links = s.links := s.setPort_links k rfl
@[simp] theorem State.countRspDrop_links (k : Nat) : (s.countRspDrop k).links = s.links := s.setPort_links k rfl
@[simp] theorem State.countCeSram_links (p : Nat) : (s.countCeSram p).links = s.links := rfl
@[simp] theorem State.settPoison_links (n : Nat) : (s.settPoison n).links = s.links := rfl
@[simp] theorem State.closeSnoop_links (tag : BitVec 16) : (s.closeSnoop tag).links = s.links := rfl
@[simp] theorem State.offerPort_links (k : Nat) (m : Msgs) : (s.offerPort k m).links = s.links := s.setPort_links k (Port.offer_link ..)
@[simp] theorem State.dedDone_links (f : OrigFab) (a : Msgs) : (s.dedDone f a).links = s.links := rfl
@[simp] theorem State.startDrain_links (r : Bool) (target init q : Nat) : (s.startDrain r target init q).links = s.links := rfl
@[simp] theorem State.hostLine_links (t : Txn) (a : Ans) : (s.hostLine t a).links = s.links := rfl
@[simp] theorem State.setDirEnt_links (pa : Nat) (e : DirEnt) : (s.setDirEnt pa e).links = s.links := by rw [State.setDirEnt_frame]; rfl
@[simp] theorem State.countPoison_links (pa : Nat) : (s.countPoison pa).links = s.links := by rw [State.countPoison_frame]; rfl
@[simp] theorem State.logEvent_links (k st d : Byte) (a : W64) (p : Byte) : (s.logEvent k st d a p).links = s.links := by
  unfold State.logEvent; split <;> rfl

@[simp] theorem State.d1Count_links (p : Nat) (f : Dbg → Dbg) : (s.d1Count p f).links = s.links := by
  unfold State.d1Count; split <;> rfl

@[simp] theorem State.d1Trace_links (p : Nat) (ty st : Byte) (asid : BitVec 16) (va : Nat) (port : Byte) :
    (s.d1Trace p ty st asid va port).links = s.links := by
  unfold State.d1Trace
  split
  · dsimp only; split <;> split <;> rfl
  · rfl

@[simp] theorem State.engAnswer_links (t : Txn) (a : Ans) : (s.engAnswer t a).links = s.links := by
  simp only [State.engAnswer]; split <;> rfl

@[simp] theorem State.queueError_links (q reason : Nat) : (s.queueError q reason).links = s.links := by
  simp only [State.queueError]; split <;> rfl

@[simp] theorem State.withFree_links (n : Nat) : ({ s with free := n } : State).links = s.links := rfl

/-! ### Lines stored -/

@[simp] theorem State.scrStore_links (off : Nat) (v : LineVal) : (s.scrStore off v).links = s.links := rfl
@[simp] theorem State.install_links (pa : Nat) (v : LineVal) (d : Bool) (busy : List Nat) : (s.install pa v d busy).links = s.links :=
  (s.install_frame ..).links
@[simp] theorem State.storeLine_links (pa : Nat) (v : LineVal) (busy : List Nat) : (s.storeLine pa v busy).links = s.links :=
  (s.storeLine_frame ..).links
@[simp] theorem State.pushWrite_links (pa : Nat) (v : LineVal) : (s.pushWrite pa v).links = s.links := (s.pushWrite_frame ..).links
@[simp] theorem State.poisonLine_links (pa : Nat) : (s.poisonLine pa).links = s.links := (s.poisonLine_frame ..).links
@[simp] theorem State.devWrite_links (pa : Nat) (bs : Bytes) : (s.devWrite pa bs).1.links = s.links := (s.devWrite_frame ..).links

@[simp] theorem State.ringRecord_links (p : Nat) (k st d : Byte) (a : Nat) : (s.ringRecord p k st d a).links = s.links := by
  obtain ⟨t, r, h, e⟩ := s.ringWrite_frame p k st d a
  rw [State.ringRecord, State.logEvent_links, e]
  exact h.links

@[simp] theorem State.poisonRecord_links (pa : Nat) (cause : Byte) : (s.poisonRecord pa cause).links = s.links := by
  unfold State.poisonRecord; split <;> simp

@[simp] theorem State.poisonTracked_links (pa : Nat) (cause : Byte) : (s.poisonTracked pa cause).links = s.links := by
  simp only [State.poisonTracked, State.setDirEnt_links]; split <;> simp

@[simp] theorem State.pushRead_links (id pa : Nat) : (s.pushRead id pa).links = s.links := by
  unfold State.pushRead; split <;> rfl

@[simp] theorem State.pushReads_links (id : Nat) (l : List Nat) : (l.foldl (fun s a => s.pushRead id a) s).links = s.links :=
  State.foldl_links (fun s a => s.pushRead_links id a) _ _

@[simp] theorem State.qWriteBack_links (q off : Nat) (v : W32) : (s.qWriteBack q off v).links = s.links := by
  unfold State.qWriteBack; split <;> simp

@[simp] theorem State.countFault_links (asid : BitVec 16) : (s.countFault asid).links = s.links := by
  simp only [State.countFault]
  split
  · rfl
  · exact State.devWrite_links ..

/-! ### The directory -/

@[simp] theorem State.deadOwner_links (pa : Nat) : (s.deadOwner pa).links = s.links := by
  unfold State.deadOwner
  split
  · split <;> simp
  · rfl

@[simp] theorem State.dirLost_links (pa : Nat) : (s.dirLost pa).links = s.links := by
  simp only [State.dirLost, State.logEvent_links, State.setSett_links]
  refine State.foldl_links (fun s k => ?_) _ _
  split <;> simp

@[simp] theorem State.dirLookup_links (t : Txn) (pa : Nat) : (s.dirLookup t pa).links = s.links := by
  simp only [State.dirLookup, State.deadOwner_links]
  split
  · simp
  · split <;> simp

@[simp] theorem State.recallLine_links (id line : Nat) : (s.recallLine id line).links = s.links := by
  unfold State.recallLine
  split
  · split <;> simp
  · rfl

@[simp] theorem State.reserveOwner_links (kind : SnpKind) (pa : Nat) (dst : List (Node ⊕ Nat)) :
    (s.reserveOwner kind pa dst).links = s.links := by
  unfold State.reserveOwner
  split
  · unfold State.reserveSharer; split <;> simp
  · rfl

@[simp] theorem State.startHold_links (pa : Nat) : (s.startHold pa).links = s.links := by
  simp only [State.startHold]; split <;> simp

@[simp] theorem State.countUncovered_times_links (n c : Nat) :
    ((List.range c).foldl (fun s _ => s.countUncovered n) s).links = s.links := State.foldl_links (fun s _ => s.countUncovered_links n) _ _

@[simp] theorem State.dirFinish_links (t : Txn) (pa : Nat) : (s.dirFinish t pa).1.links = s.links := by
  simp only [State.dirFinish]
  repeat' split
  all_goals simp

/-! ### Answers, counters and data -/

@[simp] theorem State.respond_links (f : OrigFab) (p : Option Nat) (m : Msgs) : (s.respond f p m).links = s.links := by
  unfold State.respond
  dsimp only
  split
  · simp
  · split
    · simp
    · split
      · exact s.setPort_links _ (Port.offer_link ..)
      · simp

@[simp] theorem State.answer_links (t : Txn) (a : Ans) : (s.answer t a).links = s.links := by
  have sent (s1 : State) (m : Msgs) : (t.copies.foldl (fun s (k, g) => s.respond { t.fab with port := k, gen := g } (some t.part) m)
      s1).links = s1.links := State.foldl_links (fun s c => s.respond_links ..) _ _
  unfold State.answer
  cases t.kind <;> dsimp only <;> split <;> simp [sent] <;> split <;> simp

@[simp] theorem State.pubAnswer_links (t : Txn) (st : Status) (ver : Option W32) : (s.pubAnswer t st ver).links = s.links := by
  rw [State.pubAnswer, State.answer_links]; split <;> simp

@[simp] theorem State.watchLine_links (pa : Nat) (old new : Bytes) : (s.watchLine pa old new).links = s.links := by
  unfold State.watchLine
  split
  · rfl
  · split <;> simp

@[simp] theorem State.watchLines_links (olds : List (Nat × Bytes)) : (s.watchLines olds).links = s.links :=
  State.foldl_links (fun s _ => s.watchLine_links ..) _ _

@[simp] theorem State.writeStored_links (l : Leaf) (base va : Nat) (bs : Bytes) (whole pois : Bool) :
    (s.writeStored l base va bs whole pois).links = s.links := by
  refine State.foldl_links (fun s _ => ?_) _ _
  split
  · rfl
  · rw [State.storeLine_links]; split <;> simp

@[simp] theorem State.performWr_links (t : Txn) : (s.performWr t).1.links = s.links := by
  simp only [State.performWr, State.writeStored_links]; rfl

@[simp] theorem State.handOff_links (p pa : Nat) (line : Bytes) : (s.handOff p pa line).1.links = s.links := by
  simp only [State.handOff]; split <;> rfl

@[simp] theorem State.counterStep_links (pa : Nat) (l : Bytes) : (s.counterStep pa l).1.links = s.links := by
  unfold State.counterStep
  split
  · rfl
  · split
    · dsimp only
      split
      · simp
      · rfl
    · rfl

@[simp] theorem State.counterCheck_links (pa : Nat) : (s.counterCheck pa).links = s.links := by
  unfold State.counterCheck
  split
  · rfl
  · dsimp only; split <;> simp

@[simp] theorem State.counterChecks_links (l : List Nat) : (l.foldl State.counterCheck s).links = s.links :=
  State.foldl_links (fun s => s.counterCheck_links) _ _

@[simp] theorem State.landWr_links (t : Txn) : (s.landWr t).1.links = s.links := by
  simp [State.landWr]

@[simp] theorem State.takeData_links (l : Leaf) (base va : Nat) (data : Bytes) (pois fire : Bool) :
    (s.takeData l base va data pois fire).links = s.links := by
  simp only [State.takeData, State.watchLines_links]
  split <;> simp

@[simp] theorem State.takeLine_links (l : Leaf) (pa : Nat) (data : Bytes) (pois fire : Bool) :
    (s.takeLine l pa data pois fire).links = s.links := s.takeData_links ..

@[simp] theorem State.addOne_links (t : Txn) : (s.addOne t).1.links = s.links := by
  simp only [State.addOne]
  repeat' split
  all_goals simp

@[simp] theorem State.lineNoise_links (pa : Nat) (err : BitVec 80) : (s.lineNoise pa err).links = s.links := by
  unfold State.lineNoise
  split
  · rfl
  · split
    · rfl
    · dsimp only
      split
      · split <;> rfl
      · split
        · rw [State.countCeSram_links]; split <;> rfl
        · split <;> rfl
      · simp only [State.logEvent_links, State.poisonRecord_links, State.scrStore_links]; split <;> rfl
    · split
      · rfl
      · dsimp only
        split
        · split <;> rfl
        · split
          · split <;> rfl
          · split
            · split
              · rw [State.countCeSram_links]; split <;> rfl
              · split <;> rfl
            · split <;> rfl
        · split
          · simp only [State.logEvent_links, State.poisonRecord_links, State.setSett_links]; split <;> rfl
          · rw [State.logEvent_links]; split <;> rfl

@[simp] theorem State.touchLines_links (t : Txn) : (s.touchLines t).links = s.links := by
  refine State.foldl_links (fun s a => ?_) _ _
  split
  · rfl
  · split
    · rfl
    · dsimp only
      split
      · rw [State.install_links]; rfl
      · rfl

@[simp] theorem State.toMemory_links (t : Txn) : (s.toMemory t).links = s.links := by
  simp only [State.toMemory]
  repeat' split
  all_goals simp

@[simp] theorem State.perform_links (t : Txn) : (s.perform t).links = s.links := by
  simp only [State.perform]
  repeat' split
  all_goals simp

@[simp] theorem State.dataStage_links (t : Txn) : (s.dataStage t).links = s.links := by
  simp only [State.dataStage]
  repeat' split
  all_goals simp

/-! ### Snoops -/

@[simp] theorem State.multicast_links (g : Nat) (m : Msgs) : (s.multicast g m).links = s.links := by
  unfold State.multicast
  refine (State.foldl_links (fun s k => ?_) _ _).trans rfl
  split <;> simp

@[simp] theorem State.snoop1_links (t : Txn) (kind : SnpKind) (pa : Nat) (reason : BitVec 4) (dst : Node ⊕ Nat) (owner : Bool) :
    (s.snoop1 t kind pa reason dst owner).1.links = s.links := by
  simp only [State.snoop1]
  repeat' split
  all_goals simp

@[simp] theorem State.snoopAll_links (t : Txn) (kind : SnpKind) (pa : Nat) (reason : BitVec 4) (owner : Bool) (dst : List (Node ⊕ Nat)) :
    (s.snoopAll t kind pa reason owner dst).1.links = s.links := by
  induction dst generalizing s with
  | nil => rfl
  | cons x xs ih => exact (ih _).trans (s.snoop1_links ..)

theorem State.links_of_snoopAll {s s1 : State} {t : Txn} {kind : SnpKind} {pa : Nat} {reason : BitVec 4} {owner : Bool}
    {dst : List (Node ⊕ Nat)} {l : List (BitVec 16)} (h : s.snoopAll t kind pa reason owner dst = (s1, l)) : s1.links = s.links := by
  rw [← s.snoopAll_links t kind pa reason owner dst, h]

@[simp] theorem State.completePoisoned_links (t : Txn) : (s.completePoisoned t).links = s.links := by
  unfold State.completePoisoned; split <;> simp

@[simp] theorem State.timeoutSnoop_links (tag : BitVec 16) (death : Bool) (c : Nat) : (s.timeoutSnoop tag death c).links = s.links := by
  simp only [State.timeoutSnoop]
  split
  · rfl
  · generalize hs : State.poisonTracked _ _ _ = s2
    have h2 : s2.links = s.links := by
      rw [← hs, State.poisonTracked_links]
      refine (State.foldl_links (fun s _ => ?_) _ _).trans (s.setSett_links ..)
      split
      · split <;> simp
      · simp
    split
    · exact h2
    · split <;> simp [h2]

@[simp] theorem State.tookTurn_links (t : Txn) (lines : List Nat) : (s.tookTurn t lines).links = s.links := by
  simp only [State.tookTurn]; split <;> simp

@[simp] theorem State.park_links (t : Txn) : (s.park t).links = s.links := by
  unfold State.park
  repeat' split
  all_goals simp

@[simp] theorem State.publishFlip_links (t : Txn) (da : Nat) (d : Bytes) (pa : Nat) :
    (s.publishFlip t da d pa).links = s.links := by
  simp only [State.publishFlip, State.startDrain_links]
  split <;> simp

/-! ### The device's own accesses -/

@[simp] theorem State.handHeld_links (pa : Nat) : (s.handHeld pa).links = s.links := by
  unfold State.handHeld
  split
  · rfl
  · dsimp only
    split
    · split
      · rfl
      · split <;> simp <;> rfl
    · rfl

@[simp] theorem State.clearDraining_links (pa : Nat) : (s.clearDraining pa).links = s.links := by
  unfold State.clearDraining; split <;> simp

@[simp] theorem State.setFire_links (pa : Nat) (st : Byte) : (s.setFire pa st).links = s.links := by
  unfold State.setFire
  split
  · split <;> simp
  · rfl

@[simp] theorem State.recordThen_links (t : Txn) : (s.recordThen t).links = s.links := by
  have land := s.landWr_links t
  simp only [State.recordThen]
  split
  · rfl
  · split
    · split
      · simp_all
      · simp_all
    · simp

@[simp] theorem State.devThen_links (t : Txn) : (s.devThen t).links = s.links := by
  simp only [State.devThen, State.deadOwner_links]
  repeat' split
  all_goals simp

end

/-! ### Snoops with no way out, and the death of a node (R225–R227) -/

section
variable {die : State → Node → State} (hd : ∀ s d, (die s d).links = s.links)
include hd

theorem State.unanswered_links (s : State) (tags : List (BitVec 16)) : (s.unanswered die tags).links = s.links :=
  (State.foldl_links hd _ _).trans (State.foldl_links (fun s x => by simp) _ _)

theorem State.devServe_links {k : State → Txn → State} (hk : ∀ s t, (k s t).links = s.links) (s : State) (t : Txn) :
    (s.devServe k die t).links = s.links := by
  have h := State.unanswered_links hd
  unfold State.devServe
  dsimp only
  split
  · exact hk s t
  · split
    · simp
    · split
      · simp [hk]
      · split
        · simp
        · split
          · simp [h]
          · split <;> simp [h, hk]

theorem State.devAccessWith_links (s : State) (pa : Nat) (change : Bool) (cont : BitVec 24) :
    (s.devAccessWith die pa change cont).links = s.links := by
  unfold State.devAccessWith
  split
  · rfl
  · exact (State.devServe_links hd State.devThen_links _ _).trans (s.openTxn_links _)

theorem State.writeRecordWith_links (s : State) (q : Nat) (e : EndRec) (d : Desc) (engine ctr : Byte) :
    (s.writeRecordWith die q e d engine ctr).links = s.links := by
  unfold State.writeRecordWith
  dsimp only
  split
  · rfl
  · split
    · rfl
    · split
      · rw [State.queueError_links, State.schedFault]; split <;> simp
      · split
        · exact State.devServe_links hd State.devThen_links _ _
        · simp

theorem State.endStartedWith_links (s : State) (q : Nat) (e : EndRec) (d : Desc) (engine ctr : Byte) :
    (s.endStartedWith die q e d engine ctr).links = s.links := State.writeRecordWith_links hd ..

theorem State.devThenWith_links (s : State) (t : Txn) : (s.devThenWith die t).links = s.links := by
  unfold State.devThenWith
  split
  · dsimp only
    split
    · simp
    · simp [State.endStartedWith_links hd]
  · simp

theorem State.servePublish_links (s : State) (t : Txn) : (s.servePublish die t).links = s.links := by
  have hun := State.unanswered_links hd
  have hdev := State.devAccessWith_links hd
  unfold State.servePublish
  split
  · simp
  · rename_i da _
    extract_lets +onlyGivenNames early n k s1 src t1 e free
    have h1 : s1.links = s.links := by simp [s1]
    have answered (st : Status) (v : Option W32) : (s1.pubAnswer t1 st v).links = s.links := (s1.pubAnswer_links ..).trans h1
    have parked : (s1.park t1).links = s.links := (s1.park_links t1).trans h1
    clear_value s1 t1 e
    split
    · split
      · exact answered ..
      · split
        · exact answered ..
        · exact (hdev ..).trans parked
    · rename_i ls _ _
      extract_lets +onlyGivenNames v pa st ver clear change
      have hclear (x : State) : (clear x).links = x.links := by unfold clear; split <;> simp
      have hchange (x : State) : (change x).links = x.links := by unfold change; split <;> simp [hclear]
      clear_value v st clear change
      split
      · exact answered ..
      · split
        · exact answered ..
        · split
          · extract_lets +onlyGivenNames hs
            split
            · exact (hchange s1).trans h1
            · split
              · exact answered ..
              · split
                · exact parked
                · extract_lets +onlyGivenNames t2
                  split
                  rename_i s2 _ hsnp
                  have h2 : s2.links = s.links := (State.links_of_snoopAll hsnp).trans h1
                  split
                  · exact (hchange s2).trans h2
                  · exact (hun ..).trans h2
          · exact answered ..

theorem State.afterSnoops_links (s : State) (t : Txn) : (s.afterSnoops die t).links = s.links := by
  unfold State.afterSnoops; split <;> simp [State.servePublish_links hd]

theorem State.snoopsDoneWith_links (s : State) (n id : Nat) : (s.snoopsDoneWith die n id).links = s.links := by
  unfold State.snoopsDoneWith
  split
  · rfl
  · split
    · rfl
    · split
      · split
        · simp [State.devThenWith_links hd]
        · exact State.afterSnoops_links hd ..
      · split
        · simp
        · split <;> simp

theorem State.snoopAnswerWith_links (s : State) (tag : BitVec 16) (src : Node) (data : Option (Bytes × Bool)) :
    (s.snoopAnswerWith die tag src data).links = s.links := by
  unfold State.snoopAnswerWith
  extract_lets +onlyGivenNames n
  split
  · rfl
  · extract_lets +onlyGivenNames pa s1 left
    have h1 : s1.links = s.links := by
      unfold s1
      split
      · rfl
      · split
        · split <;> simp
        · simp
    split
    · extract_lets +onlyGivenNames s2
      have h2 : s2.links = s.links := by simp [s2, State.snoopsDoneWith_links hd, h1]
      split
      · exact (State.devAccessWith_links hd ..).trans h2
      · exact h2
    · simp [h1]

theorem State.deathAt_links (d : Node) (s : State) (n : Nat) : (State.deathAt die d s n).links = s.links := by
  refine (State.foldl_links (fun s x => ?_) _ _).trans rfl
  split
  · simp [State.snoopsDoneWith_links hd]
  · exact State.snoopAnswerWith_links hd ..

end

theorem State.deathFuel_links (f : Nat) (s : State) (d : Node) : (State.deathFuel f s d).links = s.links := by
  induction f generalizing s d with
  | zero => rfl
  | succ f ih =>
    unfold State.deathFuel
    split
    · rfl
    · exact (State.foldl_links (State.deathAt_links ih d) _ _).trans (s.setNode_links ..)

theorem State.death_links (s : State) (d : Node) : (s.death d).links = s.links := State.deathFuel_links ..

/-! ### Messages that a port leaves behind (R197) -/

/-- R197: a message queued on a port that goes down is discarded, sent by another port or unanswered. -/
theorem State.requeue_links (s : State) (e : EgMsg) : (s.requeue e).links = s.links := by
  unfold State.requeue
  dsimp only
  split
  · simp
  · split
    · rfl
    · split
      · simp
      · split
        · split
          · rfl
          · exact (State.snoopsDoneWith_links State.death_links ..).trans
              ((State.unanswered_links State.death_links _ _).trans (s.countUnroute_links _))
        · simp

end Sys2Proof.Machine
end

section
/-! SUPPORT. Link states (R140, R141, R158–R166): what a link that goes down, trains or retrains leaves of its lanes, and that nothing
else changes where no message waits for the port. -/

namespace Sys2Proof.Machine
open Sys2Proof

/-! ### Lanes cleared -/

section
variable (p : Port)

theorem Port.lane_foldl_setLane (f : LaneS → LaneS) {l : List Nat} (hl : l.Nodup) (j : Nat) :
    (l.foldl (fun p i => p.setLane i (f (p.lane i))) p).lane j = if j ∈ l then f (p.lane j) else p.lane j := by
  induction l generalizing p with
  | nil => rfl
  | cons i l ih =>
    obtain ⟨hi, hl⟩ := List.nodup_cons.1 hl
    rw [List.foldl_cons, ih _ hl, Port.lane_setLane]
    by_cases h : i = j
    · subst i; simp [hi]
    · simp [h, Ne.symm h]

theorem Port.freshLanes_frame : p.freshLanes = { p with lanes := p.freshLanes.lanes } := p.foldl_lanes (fun _ _ => rfl) _

theorem Port.freshLanes_lane (j : Nat) : p.freshLanes.lane j = if j < 32 then (p.lane j).fresh else p.lane j := by
  rw [Port.freshLanes, Port.lane_foldl_setLane p LaneS.fresh List.nodup_range]; simp

theorem Port.freshLanes_laneFails : p.freshLanes.laneFails = p.laneFails := by rw [Port.freshLanes_frame]
theorem Port.freshUnits_laneFails : p.freshUnits.laneFails = p.laneFails := rfl
theorem Port.freshUnits_lane (j : Nat) : p.freshUnits.lane j = p.lane j := rfl

theorem Port.freshLanes_keeps {β : Type} {g : LaneS → β} (h : ∀ x, g (LaneS.fresh x) = g x) (j : Nat) :
    g (p.freshLanes.lane j) = g (p.lane j) := by
  rw [Port.freshLanes_lane]; split
  · exact h _
  · rfl

/-- R159: the end of an exchange is recorded, and PLAN units that wait are dropped. -/
theorem Port.abandonPlan_frame : p.abandonPlan = { p with
    planOut := p.abandonPlan.planOut, planIn := none, goWait := p.abandonPlan.goWait, cmdPlan := p.abandonPlan.cmdPlan, planq := []
    planRes := p.abandonPlan.planRes, plans := p.abandonPlan.plans, evstat := p.abandonPlan.evstat } := by
  unfold Port.abandonPlan
  split
  · rfl
  · split <;> rfl

theorem Port.abandonPlan_laneFails : p.abandonPlan.laneFails = p.laneFails := by rw [Port.abandonPlan_frame]
theorem Port.abandonPlan_lane (j : Nat) : p.abandonPlan.lane j = p.lane j := by rw [Port.abandonPlan_frame]; rfl

end

/-! ### The link goes down (R163, R166, R197) -/

/-- R163, R166: port `k` has gone from its state to DOWN with reason `r`. -/
structure Fallen (k : Nat) (r : Byte) (s t : State) : Prop where
  st : (t.port k).st = .down
  reason : (t.port k).reason = r
  downs : (t.port k).downs = sat (s.port k).downs
  laneFails : (t.port k).laneFails = (s.port k).laneFails
  lane : ∀ j, (t.port k).lane j = (s.port k).freshLanes.lane j

section
variable {s t u : State} {k : Nat} {r : Byte}

theorem Fallen.of_link (h : Fallen k r s t) (hlink : (u.port k).link = (t.port k).link) : Fallen k r s u where
  st := (Port.st_of_link hlink).trans h.st
  reason := (congrArg Port.reason hlink :).trans h.reason
  downs := (congrArg Port.downs hlink :).trans h.downs
  laneFails := (congrArg Port.laneFails hlink :).trans h.laneFails
  lane j := (Port.lane_of_link hlink j).trans (h.lane j)

theorem Fallen.sendLcbs (h : Fallen k r s t) (ls : List Nat) (ty : Byte) : Fallen k r s (t.sendLcbs k ls ty) := by
  obtain ⟨hst, hreason, hdowns, hfails, hlane⟩ := h
  refine ⟨?_, ?_, ?_, ?_, fun j => ?_⟩ <;> rw [State.sendLcbs_port]
  exacts [hst, hreason, hdowns, hfails, hlane j]

theorem State.goDown_off (h : (s.port k).st = .down ∨ (s.port k).st = .disabled) : s.goDown k r = s := if_pos h

theorem State.goDown_fallen (hdown : (s.port k).st ≠ .down) (hdis : (s.port k).st ≠ .disabled) : Fallen k r s (s.goDown k r) := by
  unfold State.goDown
  rw [if_neg (not_or.2 ⟨hdown, hdis⟩)]
  extract_lets lost p1 p2 egress s1 s2 s3
  have hfails : p1.laneFails = (s.port k).laneFails := by
    rw [Port.freshUnits_laneFails, Port.freshLanes_laneFails, Port.abandonPlan_laneFails]
  have hlane (j : Nat) : p1.lane j = (s.port k).freshLanes.lane j := by
    rw [Port.freshUnits_lane, Port.freshLanes_lane, Port.freshLanes_lane, Port.abandonPlan_lane]
  have hlink : ((List.foldl State.requeue s3 (s.port k).txq).port k).link = (s1.port k).link := by
    refine congrFun (f := State.links _) (g := State.links _) ((State.foldl_links State.requeue_links _ _).trans
      ((State.foldl_links (fun s e => s.requeue_links _) _ _).trans (State.foldl_links (fun s q => ?_) _ _))) k
    split <;> rfl
  clear_value p1
  have hp2 : Fallen k r s (s.setPort k p2) := by
    refine ⟨?_, ?_, ?_, ?_, ?_⟩ <;> rw [State.setPort_get_port_same]
    exacts [hfails, hlane]
  have hs1 : Fallen k r s s1 := hp2.sendLcbs _ _
  exact hs1.of_link hlink

/-- With no message that waits for the port, nothing else changes. -/
theorem State.goDown_idle (h : s.PortIdle k) : OnlyPort k s (s.goDown k r) ∧ ((s.goDown k r).port k).txq = [] := by
  obtain ⟨htxq, hegress⟩ := h
  by_cases hoff : (s.port k).st = .down ∨ (s.port k).st = .disabled
  · rw [State.goDown_off hoff]
    exact ⟨.refl, htxq⟩
  · unfold State.goDown
    rw [if_neg hoff]
    extract_lets lost p1 p2 egress s1 s2 s3
    have htxq1 : (s1.port k).txq = [] := by unfold s1; rw [State.sendLcbs_port, State.setPort_get_port_same]
    have hs1 : OnlyPort k s s1 := (State.setPort_only _).trans (State.sendLcbs_only ..)
    have hnone : egress = [] := List.flatMap_eq_nil_iff.2 fun q hq => by rw [hegress q (List.mem_range.1 hq)]; rfl
    have hs2 : s2 = s1 := by
      clear_value s1
      refine List.foldlRecOn _ _ (motive := fun t => t = s1) rfl fun t ht q hq => ?_
      rw [ht, hs1.pqos, hegress q (List.mem_range.1 hq)]; rfl
    clear_value s1 s2 egress
    have hs3 : s3 = s1 := by unfold s3; rw [hnone]; exact hs2
    rw [htxq, List.foldl_nil, hs3]
    exact ⟨hs1, htxq1⟩

end
end Sys2Proof.Machine
end

section
/-! SUPPORT. Lanes in training (R140, R141, R158–R162, R165): what the steps of a training, a retrain and a plan change keep of the lanes,
whether or not the link goes down in them. -/

namespace Sys2Proof.Machine
open Sys2Proof

/-! ### What such a step keeps -/

/-- Port `k` keeps the power bits of its lanes; with no message that waits for it, nothing else changes, and none waits afterwards. -/
structure PowerKept (k : Nat) (s t : State) : Prop where
  power : ∀ l, ((t.port k).lane l).power = ((s.port k).lane l).power
  idle : s.PortIdle k → OnlyPort k s t ∧ (t.port k).txq = []

/-- It keeps the lanes' states and the count of failures too. -/
structure LanesKept (k : Nat) (s t : State) : Prop extends PowerKept k s t where
  laneSt : ∀ l, ((t.port k).lane l).st = ((s.port k).lane l).st
  laneFails : (t.port k).laneFails = (s.port k).laneFails

section
variable {s t u : State} {k : Nat}

theorem State.PortIdle.of_only (h : s.PortIdle k) (honly : OnlyPort k s t) (htxq : (t.port k).txq = []) : t.PortIdle k :=
  ⟨htxq, fun q hq => by rw [honly.pqos, h.2 q hq]⟩

theorem PowerKept.trans (h : PowerKept k s t) (g : PowerKept k t u) : PowerKept k s u where
  power l := (g.power l).trans (h.power l)
  idle hidle :=
    have ⟨honly, htxq⟩ := h.idle hidle
    have ⟨honly', htxq'⟩ := g.idle (hidle.of_only honly htxq)
    ⟨honly.trans honly', htxq'⟩

theorem LanesKept.trans (h : LanesKept k s t) (g : LanesKept k t u) : LanesKept k s u where
  toPowerKept := h.toPowerKept.trans g.toPowerKept
  laneSt l := (g.laneSt l).trans (h.laneSt l)
  laneFails := g.laneFails.trans h.laneFails

theorem LanesKept.refl : LanesKept k s s := ⟨⟨fun _ => rfl, fun h => ⟨.refl, h.1⟩⟩, fun _ => rfl, rfl⟩

theorem PowerKept.setPort {p : Port} (hpower : ∀ l, (p.lane l).power = ((s.port k).lane l).power) (htxq : p.txq = (s.port k).txq) :
    PowerKept k s (s.setPort k p) where
  power l := by rw [State.setPort_get_port_same, hpower]
  idle h := ⟨State.setPort_only _, by rw [State.setPort_get_port_same, htxq, h.1]⟩

theorem LanesKept.setPort {p : Port} (hpower : ∀ l, (p.lane l).power = ((s.port k).lane l).power)
    (hst : ∀ l, (p.lane l).st = ((s.port k).lane l).st) (hfails : p.laneFails = (s.port k).laneFails) (htxq : p.txq = (s.port k).txq) :
    LanesKept k s (s.setPort k p) where
  toPowerKept := .setPort hpower htxq
  laneSt l := by rw [State.setPort_get_port_same, hst]
  laneFails := by rw [State.setPort_get_port_same, hfails]

theorem State.sendLcbs_kept (ls : List Nat) (ty : Byte) : LanesKept k s (s.sendLcbs k ls ty) :=
  .setPort (fun _ => rfl) (fun _ => rfl) rfl rfl

theorem State.goDown_kept (r : Byte) : LanesKept k s (s.goDown k r) := by
  by_cases hoff : (s.port k).st = .down ∨ (s.port k).st = .disabled
  · rw [State.goDown_off hoff]; exact .refl
  · obtain ⟨hdown, hdis⟩ := not_or.1 hoff
    have h := State.goDown_fallen (r := r) hdown hdis
    refine ⟨⟨fun l => ?_, State.goDown_idle⟩, fun l => ?_, h.laneFails⟩
    · rw [h.lane]; exact Port.freshLanes_keeps _ (g := LaneS.power) (fun _ => rfl) l
    · rw [h.lane]; exact Port.freshLanes_keeps _ (g := LaneS.st) (fun _ => rfl) l

/-! ### The phases (R140) -/

variable (s k)

theorem State.takeProp_kept (m : W32) : LanesKept k s (s.takeProp k m) := by
  have h (p : Port) (hp : p = { s.port k with prop := m, phase := p.phase }) (ls : List Nat) (ty : Byte) :
      LanesKept k s ((s.setPort k p).sendLcbs k ls ty) :=
    (LanesKept.setPort (fun _ => by rw [hp]; rfl) (fun _ => by rw [hp]; rfl) (by rw [hp]) (by rw [hp])).trans (State.sendLcbs_kept ..)
  unfold State.takeProp
  dsimp only
  split
  · exact h _ rfl ..
  · split
    · exact h _ rfl ..
    · exact h _ rfl ..

theorem State.checkFour_kept : LanesKept k s (s.checkFour k) := by
  unfold State.checkFour; dsimp only; split
  · exact State.goDown_kept _
  · exact .refl

theorem State.phase2Check_kept : LanesKept k s (s.phase2Check k) := by
  unfold State.phase2Check; dsimp only; split
  · exact .refl
  · split
    · exact State.goDown_kept _
    · exact s.takeProp_kept k _

/-- R140: the runs of blocks on all lanes begin anew. -/
def Port.recount (p : Port) : Port := (List.range 32).foldl (fun p l => p.setLane l { p.lane l with cnt := 0 }) p

theorem Port.recount_frame (p : Port) : p.recount = { p with lanes := p.recount.lanes } := p.foldl_lanes (fun _ _ => rfl) _

theorem Port.recount_lane (p : Port) (j : Nat) : p.recount.lane j = if j < 32 then { p.lane j with cnt := 0 } else p.lane j := by
  rw [Port.recount, Port.lane_foldl_setLane p (fun x => { x with cnt := 0 }) List.nodup_range]; simp

theorem State.recount_kept : LanesKept k s (s.setPort k (s.port k).recount) := by
  refine .setPort (fun l => ?_) (fun l => ?_) (by rw [Port.recount_frame]) (by rw [Port.recount_frame])
  · rw [Port.recount_lane]; split <;> rfl
  · rw [Port.recount_lane]; split <;> rfl

theorem State.cutMask_kept (m : W32) : LanesKept k s (s.cutMask k m) := by
  unfold State.cutMask; dsimp only; split
  · exact State.goDown_kept _
  · split
    · exact .refl
    · exact (s.recount_kept k).trans (State.takeProp_kept ..)

end

/-! ### Lanes that fail or are excluded (R140, R161) -/

section
variable (p : Port) (l j : Nat)

theorem Port.failLane_frame : p.failLane l = { p with
    lanes := (p.failLane l).lanes, laneFails := (p.failLane l).laneFails, evstat := (p.failLane l).evstat } := by
  unfold Port.failLane; split <;> rfl

/-- R161: a lane that fails is FAILED and counted; the others stay. -/
theorem Port.failLane_lane (h : (p.lane l).st ≠ .failed) :
    (p.failLane l).lane j = if l = j then { p.lane l with st := .failed, training := false } else p.lane j := by
  rw [← Port.lane_setLane, Port.failLane, if_neg h]; rfl

theorem Port.failLane_laneFails (h : (p.lane l).st ≠ .failed) : (p.failLane l).laneFails = sat p.laneFails := by
  rw [Port.failLane, if_neg h]

theorem Port.failLane_power : ((p.failLane l).lane j).power = (p.lane j).power := by
  by_cases h : (p.lane l).st = .failed
  · rw [Port.failLane, if_pos h]
  · rw [Port.failLane_lane p l j h]; split
    · subst j; rfl
    · rfl

theorem Port.exclude_power : ((p.exclude l).lane j).power = (p.lane j).power := by
  unfold Port.exclude; dsimp only; split
  · exact p.lane_setLane_keeps l j (g := LaneS.power) rfl
  · rw [Port.failLane_power]
    exact p.lane_setLane_keeps l j (g := LaneS.power) rfl

theorem Port.exclude_txq : (p.exclude l).txq = p.txq := by
  unfold Port.exclude; dsimp only; split
  · rfl
  · rw [Port.failLane_frame]; rfl

end

/-! ### A lane that a training loses (R140, R165) -/

section
variable (s : State) (k : Nat)

/-- R140: lanes that disagree with the most are excluded, which keeps every power bit. -/
theorem State.phase1Check_power : PowerKept k s (s.phase1Check k) := by
  unfold State.phase1Check
  extract_lets +onlyGivenNames p ls key votes best p1 s1
  split
  · exact LanesKept.refl.toPowerKept
  · have hdis (b : Nat) (q : Port) (hq : q = ls.foldl (fun (p : Port) l =>
        if key l = key b then p else (p.setLane l { p.lane l with ident := false }).exclude l) p) :
        (∀ l, (q.lane l).power = (p.lane l).power) ∧ q.txq = p.txq := by
      refine hq ▸ List.foldlRecOn ls _ (motive := fun (q : Port) => (∀ l, (q.lane l).power = (p.lane l).power) ∧ q.txq = p.txq)
        ⟨fun _ => rfl, rfl⟩ fun q ⟨hpower, htxq⟩ i _ => ?_
      split
      · exact ⟨hpower, htxq⟩
      · refine ⟨fun l => ?_, (Port.exclude_txq ..).trans htxq⟩
        rw [Port.exclude_power]
        exact (q.lane_setLane_keeps i l (g := LaneS.power) (x := { q.lane i with ident := false }) rfl).trans (hpower l)
    have hp1 : (∀ l, (p1.lane l).power = (p.lane l).power) ∧ p1.txq = p.txq := by
      unfold p1
      clear_value best
      cases best with
      | none => exact ⟨fun _ => rfl, rfl⟩
      | some b =>
        have h := hdis b _ rfl
        dsimp only
        split
        · exact h
        · exact ⟨h.1, h.2⟩
    clear_value p1
    have hs1 : PowerKept k s s1 := (PowerKept.setPort (p := { p1 with phase := 2 }) hp1.1 hp1.2).trans
      (State.checkFour_kept ..).toPowerKept
    clear_value s1
    split
    · exact hs1.trans (State.sendLcbs_kept ..).toPowerKept
    · exact hs1

theorem State.phase1Check_of_retrain (h : (s.port k).st ≠ .train) : s.phase1Check k = s := if_pos (.inl h)

theorem State.lostLane_power : PowerKept k s (s.lostLane k) := by
  unfold State.lostLane
  dsimp only
  refine (s.checkFour_kept k).toPowerKept.trans ?_
  split
  · exact LanesKept.refl.toPowerKept
  · split
    · exact State.phase1Check_power ..
    · exact (State.phase2Check_kept ..).toPowerKept
    · split
      · exact (State.goDown_kept _).toPowerKept
      · exact (State.takeProp_kept ..).toPowerKept
    · exact (State.cutMask_kept ..).toPowerKept
    · exact LanesKept.refl.toPowerKept

theorem State.checkFour_cases : s.checkFour k = s ∨ ((s.checkFour k).port k).st = .down := by
  unfold State.checkFour
  dsimp only
  split
  · rename_i h
    refine .inr (State.goDown_fallen (fun hdown => ?_) fun hdis => ?_).st
    · simp [hdown] at h
    · simp [hdis] at h
  · exact .inl rfl

/-- R161, R165: but for phase 1 of TRAIN no lane becomes FAILED for it. -/
theorem State.lostLane_kept (h : (s.port k).st = .train → (s.port k).phase ≠ 1) : LanesKept k s (s.lostLane k) := by
  unfold State.lostLane
  dsimp only
  refine (s.checkFour_kept k).trans ?_
  obtain hs | hdown := s.checkFour_cases k
  · rw [hs]
    split
    · exact .refl
    · split
      · rename_i hphase
        rw [State.phase1Check_of_retrain s k fun htrain => h htrain hphase]
        exact .refl
      · exact State.phase2Check_kept ..
      · split
        · exact State.goDown_kept _
        · exact State.takeProp_kept ..
      · exact State.cutMask_kept ..
      · exact .refl
  · rw [if_pos (by simp [hdown])]
    exact .refl

/-! ### A FAILED lane in the plan (R162) -/

theorem Port.startPlan_keeps (p : Port) (clk : Nat) (m : W32) :
    (p.startPlan clk m).lanes = p.lanes ∧ (p.startPlan clk m).laneFails = p.laneFails ∧ (p.startPlan clk m).txq = p.txq := by
  unfold Port.startPlan
  split
  · exact ⟨rfl, rfl, rfl⟩
  · split
    · exact ⟨rfl, rfl, rfl⟩
    · have hlink := Port.sendPlan_link { p with planId := p.planId + 1, planRes := 1, planReason := 0, planOut := some m } clk 1
        (p.planId + 1) m 0
      exact ⟨(Port.lanes_of_link hlink :), (congrArg Port.laneFails hlink :), Port.sendPlan_txq ..⟩

theorem State.dropFailed_kept : LanesKept k s (s.dropFailed k) := by
  unfold State.dropFailed
  dsimp only
  split
  · split
    · exact State.goDown_kept _
    · rename_i m _
      obtain ⟨hlanes, hfails, htxq⟩ := (s.port k).startPlan_keeps s.clk m
      exact .setPort (fun l => by rw [Port.lane, hlanes]; rfl) (fun l => by rw [Port.lane, hlanes]; rfl) hfails htxq
  · exact .refl

end
end Sys2Proof.Machine
end

section
/-! SUPPORT. Triggers of the link (R151, R161, R163–R165): a retrain that can start, the return to ACTIVE, and a lane that fails. -/

namespace Sys2Proof.Machine
open Sys2Proof

/-! ### A retrain starts (R141, R164, R165) -/

/-- R162, R165: of lanes whose training is cleared, RETRAIN proposes what `State.CanRetrain` says. -/
theorem Port.propose_of_retrain {p q : Port} (hst : q.st = .retrain) (hgo : q.goPlan = p.goPlan) (hplan : q.plan = p.plan)
    (hlane : ∀ l < 32, q.lane l = (p.lane l).fresh) :
    q.propose = cutPlan
      ((lanesIn p.goPlan).filter fun l =>
        if p.plan.getLsbD l then decide ((p.lane l).st ≠ .failed) else decide ((p.lane l).st = .standby) && p.powered l)
      ((List.range 32).filter fun l => decide ((p.lane l).st = .standby) && (p.plan.getLsbD l || p.powered l)) := by
  have husable (l : Nat) (hl : l < 32) : q.usable l =
      if p.plan.getLsbD l then decide ((p.lane l).st ≠ .failed) else decide ((p.lane l).st = .standby) && p.powered l := by
    simp [Port.usable, Port.powered, hst, hplan, hlane l hl, LaneS.fresh]
  unfold Port.propose
  rw [hgo]
  refine congrArg₂ cutPlan (List.filter_congr fun l hl => husable l (mem_lanesIn.1 hl).1) (List.filter_congr fun l hl => ?_)
  rw [husable l (List.mem_range.1 hl), hlane l (List.mem_range.1 hl)]
  by_cases hstandby : (p.lane l).st = .standby
  · cases hp : p.plan.getLsbD l <;> simp [hst, LaneS.fresh, hstandby]
  · simp [hst, LaneS.fresh, hstandby]

section
variable {s : State} {k : Nat}

/-- R141, R165: a trigger takes a link that can retrain to RETRAIN. -/
theorem State.retrain_of_can (h : s.CanRetrain k) : OnlyPort k s (s.retrain k) ∧ ((s.retrain k).port k).st = .retrain := by
  obtain ⟨hst, hlast, hlegal⟩ := h
  obtain ⟨m, hm⟩ := Option.isSome_iff_exists.1 hlegal
  unfold State.retrain
  rw [if_neg (not_not.2 hst), if_neg (by simp [hlast])]
  extract_lets p1 p2
  have hgo : p1.goPlan = (s.port k).goPlan := by unfold p1; rw [Port.freshLanes_frame, Port.abandonPlan_frame]
  have hplan : p1.plan = (s.port k).plan := by unfold p1; rw [Port.freshLanes_frame, Port.abandonPlan_frame]
  have hlane (l : Nat) (hl : l < 32) : p1.lane l = ((s.port k).lane l).fresh := by
    rw [Port.freshLanes_lane, if_pos hl, Port.abandonPlan_lane]
  clear_value p1
  have hpropose : p2.propose = some m := (Port.propose_of_retrain (q := p2) rfl hgo hplan hlane).trans hm
  have hp2 : p2.st = .retrain := rfl
  clear_value p2
  rw [hpropose]
  exact ⟨((State.setPort_only _).trans (State.sendLcbs_only ..)).trans (State.sendLcbs_only ..), by
    rw [State.sendLcbs_port, State.sendLcbs_port, State.setPort_get_port_same]; exact hp2⟩

/-! ### The link returns to ACTIVE (R140, R162) -/

theorem State.dropFailed_of_sound (h : ∀ j ∈ lanesIn (s.port k).plan, ((s.port k).lane j).st ≠ .failed) : s.dropFailed k = s :=
  if_neg fun ⟨_, _, hany⟩ => by
    obtain ⟨j, hj, hfailed⟩ := List.any_eq_true.1 hany
    exact h j hj (of_decide_eq_true hfailed)

theorem State.laneMargins_logged (s : State) (k : Nat) : OnlyLogged s (s.laneMargins k) := by
  unfold State.laneMargins
  dsimp only
  split
  · exact ⟨rfl, rfl, fun _ => rfl⟩
  · exact OnlyLogged.trans (t := { s with owl := { s.owl with marginAt := tput s.owl.marginAt k s.clk } }) ⟨rfl, rfl, fun _ => rfl⟩
      (State.ledgerAdd_logged ..)

theorem OnlyLogged.port {s t : State} (h : OnlyLogged s t) (j : Nat) : t.port j = s.port j := by rw [h.frame]; rfl

/-- R553, R162: on the way to ACTIVE the margins go to the ledger, and a plan without a FAILED lane stands. -/
theorem State.activeEnd {t : State} (honly : OnlyPort k s t) (hsound : ∀ j ∈ lanesIn (t.port k).plan, ((t.port k).lane j).st ≠ .failed) :
    ((t.laneMargins k).dropFailed k).port k = t.port k ∧
    (t.laneMargins k).dropFailed k = { s with
      ports := ((t.laneMargins k).dropFailed k).ports, owl := ((t.laneMargins k).dropFailed k).owl
      flash := ((t.laneMargins k).dropFailed k).flash } ∧
    ∀ j, j ≠ k → ((t.laneMargins k).dropFailed k).port j = s.port j := by
  have hlog := State.laneMargins_logged t k
  have hdrop : (t.laneMargins k).dropFailed k = t.laneMargins k := State.dropFailed_of_sound (by rw [hlog.port]; exact hsound)
  rw [hdrop]
  exact ⟨hlog.port k, by rw [hlog.frame, honly.1], fun j hj => (hlog.port j).trans (honly.2 j hj)⟩

theorem Port.settleBoth_frame (p : Port) (m : W32) :
    p.settleBoth m = { p with plan := m, lanes := (p.settle m).lanes, txPlan := m, upAt := p.sent.length } := by
  rw [Port.settleBoth, Port.settle_frame]

section
variable (p : Port)

@[simp] theorem State.putLanes_st : ((s.putLanes k p).port k).st = p.st := by rw [State.putLanes_port]
@[simp] theorem State.putLanes_plan : ((s.putLanes k p).port k).plan = p.plan := by rw [State.putLanes_port]
@[simp] theorem State.putLanes_replays : ((s.putLanes k p).port k).replays = p.replays := by rw [State.putLanes_port]
@[simp] theorem State.putLanes_lane (j : Nat) : ((s.putLanes k p).port k).lane j = p.lane j := by rw [State.putLanes_port]; rfl

theorem Port.settleBoth_lane_failed (m : W32) (j : Nat) : ((p.settleBoth m).lane j).st = .failed ↔ (p.lane j).st = .failed := by
  have hlanes : (p.settleBoth m).lanes = (p.settle m).lanes := by rw [Port.settleBoth_frame]
  rw [← p.settle_lane_failed m j]
  simp only [Port.lane, hlanes]

/-- R151, R163: the port as the phases of a retrain leave it to its replay event. -/
def Port.resumed (clk : Nat) : Port :=
  { p.settleBoth p.prop with st := .active, phase := 0, since := clk, cmdRetrain := false, timerAt := none }

theorem Port.resumed_frame (clk : Nat) : p.resumed clk = { p with
    plan := p.prop, lanes := (p.settle p.prop).lanes, txPlan := p.prop, upAt := p.sent.length
    st := .active, phase := 0, since := clk, cmdRetrain := false, timerAt := none } := by
  rw [Port.resumed, Port.settleBoth_frame]

theorem Port.resumed_lane_failed (clk j : Nat) : ((p.resumed clk).lane j).st = .failed ↔ (p.lane j).st = .failed := by
  have hlanes : (p.resumed clk).lanes = (p.settleBoth p.prop).lanes := by rw [Port.resumed]
  rw [← p.settleBoth_lane_failed p.prop j]
  simp only [Port.lane, hlanes]

theorem Port.replay_linkPlan (r : BitVec 12) (clk : Nat) : ((p.replayFrom r clk).flush clk).linkPlan = p.linkPlan :=
  Port.linkPlan_of_linkRx ((Port.linkRx_of_link (Port.flush_link ..)).trans (p.replayFrom_linkRx clk r))

end

/-- R151, R162, R163, R165: a retrain whose phases have ended. -/
theorem retrainComplete_leads (hst : (s.port k).st = .retrain) (hphase : (s.port k).phase = 5)
    (hsound : ∀ j < 32, (s.port k).prop.getLsbD j = true → ((s.port k).lane j).st ≠ .failed) :
    Leads (.retrainComplete k) s fun t =>
      (t.port k).st = .active ∧ (t.port k).plan = (s.port k).prop ∧ (t.port k).replays = sat (s.port k).replays ∧
      t = { s with ports := t.ports, owl := t.owl, flash := t.flash } ∧ ∀ j, j ≠ k → t.port j = s.port j := by
  have hexec : exec (.retrainComplete k) s = execRetrainComplete k s := rfl
  have hplan : ((s.port k).resumed s.clk).plan = (s.port k).prop := by rw [Port.resumed_frame]
  have hreplays : ((s.port k).resumed s.clk).replays = (s.port k).replays := by rw [Port.resumed_frame]
  have hactive : ((s.port k).resumed s.clk).st = .active := by rw [Port.resumed_frame]
  have htimer : ((s.port k).resumed s.clk).timerAt = none := by rw [Port.resumed_frame]
  have hfailed := (s.port k).resumed_lane_failed s.clk
  have hrun : execRetrainComplete k s = .next (((s.putLanes k ((((s.port k).resumed s.clk).replayFrom ((s.port k).resumed s.clk).oldest
      s.clk).flush s.clk)).laneMargins k).dropFailed k) := if_pos ⟨hst, hphase⟩
  generalize (s.port k).resumed s.clk = p at *
  have hkept := p.replay_linkPlan p.oldest s.clk
  have hcount : ((p.replayFrom p.oldest s.clk).flush s.clk).replays = sat p.replays :=
    (congrArg Port.replays (Port.flush_link ..) :).trans (Port.replayFrom_replays _ _ _ (by simp [htimer]))
  have hplan' := (Port.plan_of_linkPlan hkept).trans hplan
  generalize (p.replayFrom p.oldest s.clk).flush s.clk = q at *
  obtain ⟨hport, hframe, hothers⟩ := State.activeEnd (s := s) (k := k) (t := s.putLanes k q) (State.putLanes_only _) fun j hj => by
    rw [State.putLanes_plan, hplan', mem_lanesIn] at hj
    rw [State.putLanes_lane, Port.lane, Port.lanes_of_linkPlan hkept]
    exact fun h => hsound j hj.1 hj.2 ((hfailed j).1 h)
  refine ⟨_, hexec.trans hrun, ?_, ?_, ?_, hframe, hothers⟩ <;> rw [hport]
  · rw [State.putLanes_st, Port.st_of_linkPlan hkept, hactive]
  · rw [State.putLanes_plan, hplan']
  · rw [State.putLanes_replays, hcount, hreplays]

/-! ### The statement's clauses -/

/-- R151, R163–R165: a trigger that takes the link down. -/
theorem goDown_leads {c : Instr} {r : Byte} (hexec : exec c s = .next (s.goDown k r)) (hdown : (s.port k).st ≠ .down)
    (hdis : (s.port k).st ≠ .disabled) :
    Leads c s fun t => (t.port k).st = .down ∧ (t.port k).reason = r ∧ (s.PortIdle k → OnlyPort k s t) :=
  have h := State.goDown_fallen hdown hdis
  ⟨_, hexec, h.st, h.reason, fun hidle => (State.goDown_idle hidle).1⟩

/-- R164: a trigger that starts a retrain. -/
theorem retrain_leads {c : Instr} (hexec : exec c s = .next (s.retrain k)) (hcan : s.CanRetrain k) :
    Leads c s fun t => OnlyPort k s t ∧ (t.port k).st = .retrain :=
  ⟨_, hexec, State.retrain_of_can hcan⟩

/-- R161: a lane at its limit fails: it is FAILED and counted, whatever follows. -/
theorem laneFail_leads {l : Nat} (hst : ((s.port k).lane l).st ≠ .failed) (hlimit : (s.port k).atLimit l s.clk = true)
    (hphase : (s.port k).st = .train → (s.port k).phase ≠ 1) :
    Leads (.laneFail k l) s fun t =>
      ((t.port k).lane l).st = .failed ∧ (t.port k).laneFails = sat (s.port k).laneFails ∧ (s.PortIdle k → OnlyPort k s t) := by
  have hexec : exec (.laneFail k l) s = execLaneFail k l s := rfl
  unfold Leads
  rw [hexec, execLaneFail, if_neg (by simp [hst, hlimit])]
  have hq : (((s.port k).setLane l { (s.port k).lane l with win := [] }).lane l).st ≠ .failed := by rwa [Port.lane_setLane_same]
  have hq_fails : ((s.port k).setLane l { (s.port k).lane l with win := [] }).laneFails = (s.port k).laneFails := rfl
  have hp_lane := Port.failLane_lane _ l l hq
  have hp_fails := Port.failLane_laneFails _ l hq
  have hp_frame := Port.failLane_frame ((s.port k).setLane l { (s.port k).lane l with win := [] }) l
  generalize Port.failLane _ l = p at hp_lane hp_fails hp_frame ⊢
  have hp_st : p.st = (s.port k).st := by rw [hp_frame]; rfl
  have hp_phase : p.phase = (s.port k).phase := by rw [hp_frame]; rfl
  have hp_txq : p.txq = (s.port k).txq := by rw [hp_frame]; rfl
  extract_lets s1
  have hport : s1.port k = p := State.setPort_get_port_same ..
  have hs1 : OnlyPort k s s1 := State.setPort_only _
  clear_value s1
  have hkept : LanesKept k s1 (if (s.port k).st = .active then (if (s.port k).plan.getLsbD l then s1.dropFailed k else s1) else s1.lostLane k) := by
    split
    · split
      · exact s1.dropFailed_kept k
      · exact .refl
    · exact s1.lostLane_kept k (by rw [hport, hp_st, hp_phase]; exact hphase)
  refine ⟨_, rfl, ?_, ?_, fun hidle => hs1.trans (hkept.idle (hidle.of_only hs1 ?_)).1⟩
  · rw [hkept.laneSt, hport, hp_lane, if_pos rfl]
  · rw [hkept.laneFails, hport, hp_fails, hq_fails]
  · rw [hport, hp_txq, hidle.1]

/-- R151: the replay timer's event. -/
theorem replayTimer_leads (hst : (s.port k).st = .active) (hbuf : (s.port k).buf ≠ [])
    (htime : (s.port k).ackAt + max 240 (s.port k).replayCfg.toNat ≤ s.clk) (halone : ∀ n, (s.port k).timerAt ≠ some (s.clk, n)) :
    Leads (.replayTimer k) s fun t =>
      OnlyPort k s t ∧ (t.port k).replays = sat (s.port k).replays ∧ (t.port k).buf = (s.port k).buf ∧ (t.port k).ackAt = s.clk := by
  have hexec : exec (.replayTimer k) s = _ := if_pos ⟨hst, hbuf, htime⟩
  refine ⟨_, hexec, State.setPort_only _, ?_, ?_, ?_⟩ <;> rw [State.setPort_get_port_same]
  · exact Port.replayFrom_replays _ _ _ halone
  · rw [Port.replayFrom_frame]
  · rw [Port.replayFrom_frame]

end

/-- Settles O19: a trigger takes the link down, starts a retrain, ends one, fails a lane, or is a replay event. -/
theorem linkTriggers : Obligations.LinkTriggers := by
  refine ⟨?_, ?_, fun s k => retrainComplete_leads, ?_, ?_, fun s k l => laneFail_leads, ?_, ?_, ?_, fun s k => replayTimer_leads⟩
  · intro s k hst htime
    exact goDown_leads (if_pos ⟨hst, htime⟩) (by simp [hst]) (by simp [hst])
  · intro s k hst htime
    exact goDown_leads (if_pos ⟨hst, htime⟩) (by simp [hst]) (by simp [hst])
  · exact fun s k l hcan hplan => retrain_leads (if_pos hplan) hcan
  · intro s k hst
    exact goDown_leads (if_pos hst) (by simp [hst]) (by simp [hst])
  · exact fun s k hcan hsame => retrain_leads (if_pos hsame) hcan
  · exact fun s k hcan hwin => retrain_leads (if_pos hwin) hcan
  · intro s k hst hlast
    exact goDown_leads (if_pos ⟨hst, hlast⟩) (by simp [hst]) (by simp [hst])

end Sys2Proof.Machine
end

section
/-! SUPPORT. Lane control blocks that arrive (R136–R141, R160): what a block that is received whole leaves to its effect, and what the last
block of a run does. -/

namespace Sys2Proof.Machine
open Sys2Proof

/-! ### Runs of blocks (R140) -/

/-- Port `k` has changed in its lanes' counts of blocks in a row, and nothing else has. -/
structure Recounted (k : Nat) (s t : State) : Prop where
  only : OnlyPort k s t
  frame : t.port k = { s.port k with lanes := (t.port k).lanes }
  lane : ∀ j, (t.port k).lane j = { (s.port k).lane j with cnt := ((t.port k).lane j).cnt }

section
variable {s t : State} {k l : Nat}

theorem Recounted.refl : Recounted k s s := ⟨.refl, rfl, fun _ => rfl⟩

theorem Recounted.setPort (n : Nat) : Recounted k s (s.setPort k ((s.port k).setLane l { (s.port k).lane l with cnt := n })) where
  only := State.setPort_only _
  frame := by rw [State.setPort_get_port_same]; rfl
  lane j := by
    rw [State.setPort_get_port_same, Port.lane_setLane]; split
    · subst j; rfl
    · rfl

section
variable {blk : BitVec 272} {ty : Byte} {w : Nat} {act : State → Nat → State} (h : s.LcbOk k blk ty w)
include h

/-- R140: a block of the type that its lane counts acts at once. -/
theorem State.lcbIn_run (hty : ((s.port k).lane l).cntTy = ty) : s.lcbIn k l blk ty act = act s w := by
  obtain ⟨hdown, hdis, hsync, hblk, hw⟩ := h
  simp [State.lcbIn, hdown, hdis, hsync, hblk, hw, hty]

/-- R140: a block of another type ends a run first. -/
theorem State.lcbIn_of_ok : ∃ t, s.lcbIn k l blk ty act = act t w ∧ Recounted k s t := by
  obtain ⟨hdown, hdis, hsync, hblk, hw⟩ := h
  by_cases hrun : ty = ((s.port k).lane l).cntTy ∨ ((s.port k).lane l).cnt = 0
  · exact ⟨s, by simp [State.lcbIn, hdown, hdis, hsync, hblk, hw, hrun], .refl⟩
  · refine ⟨_, ?_, Recounted.setPort (l := l) 0⟩
    have hne : ({ (s.port k).lane l with cnt := 0 } : LaneS) ≠ (s.port k).lane l := fun e =>
      hrun (.inr (congrArg LaneS.cnt e).symm)
    simp only [State.lcbIn, hdown, hdis, hsync, hblk, hw, false_or, ne_eq, not_true, if_false, if_neg hrun, if_neg hne, if_true,
      Bool.false_eq_true]

theorem lcbIn_leads {c : Instr} {P : State → Prop} (hexec : exec c s = .next (s.lcbIn k l blk ty act))
    (hact : ∀ t, Recounted k s t → P (act t w)) : Leads c s P := by
  obtain ⟨t, ht, hcount⟩ := State.lcbIn_of_ok (l := l) (act := act) h
  exact ⟨_, hexec.trans (congrArg _ ht), hact t hcount⟩

end

/-- R140: the sixteenth block in a row. -/
theorem LaneS.bump_full {x : LaneS} {ty : Byte} (hty : x.cntTy = ty) (hcnt : 15 ≤ x.cnt) : x.bump ty = { x with cnt := 16 } := by
  subst hty
  simp only [LaneS.bump, if_true]
  rw [Nat.min_eq_left (by omega)]

end

/-! ### Lanes that take part (R140, R141) -/

section
variable {p q : Port}

theorem Port.usable_congr (hst : q.st = p.st) (hphase : q.phase = p.phase) (hplan : q.plan = p.plan) {j : Nat}
    (hlane : ((q.lane j).st, (q.lane j).power, (q.lane j).ident, (q.lane j).excl) =
      ((p.lane j).st, (p.lane j).power, (p.lane j).ident, (p.lane j).excl)) : q.usable j = p.usable j := by
  simp only [Prod.mk.injEq] at hlane
  obtain ⟨h1, h2, h3, h4⟩ := hlane
  simp only [Port.usable, Port.powered, hst, hphase, hplan, h1, h2, h3, h4]

theorem Port.mem_trainees {j : Nat} : j ∈ p.trainees ↔
    j < 32 ∧ p.usable j = true ∧ (p.st = .train ∨ p.plan.getLsbD j = true ∨ p.prop.getLsbD j = true) := by
  simp [Port.trainees, or_assoc]

end

section
variable {s t : State} {k : Nat} (h : Recounted k s t)
include h

theorem Recounted.clk : t.clk = s.clk := by rw [h.only.1]

/-- The count of blocks in a row has no part in a retrain. -/
theorem Recounted.canRetrain (hcan : s.CanRetrain k) : t.CanRetrain k := by
  obtain ⟨hst, hlast, hlegal⟩ := hcan
  have hst' (j : Nat) : ((t.port k).lane j).st = ((s.port k).lane j).st := by rw [h.lane]
  have hpowered (j : Nat) : (t.port k).powered j = (s.port k).powered j := by unfold Port.powered; rw [h.lane]
  have hplan : (t.port k).plan = (s.port k).plan := by rw [h.frame]
  have hgo : (t.port k).goPlan = (s.port k).goPlan := by rw [h.frame]
  refine ⟨by rw [h.frame]; exact hst, by rw [h.clk, h.frame]; exact hlast, ?_⟩
  simpa only [hst', hpowered, hplan, hgo] using hlegal

theorem Recounted.portIdle (hidle : s.PortIdle k) : t.PortIdle k := hidle.of_only h.only (by rw [h.frame]; exact hidle.1)

end

theorem Recounted.trainees {s t : State} {k : Nat} (h : Recounted k s t) (j : Nat) :
    (t.port k).trainees.contains j = (s.port k).trainees.contains j := by
  have hst : (t.port k).st = (s.port k).st := by rw [h.frame]
  have hphase : (t.port k).phase = (s.port k).phase := by rw [h.frame]
  have hplan : (t.port k).plan = (s.port k).plan := by rw [h.frame]
  have hprop : (t.port k).prop = (s.port k).prop := by rw [h.frame]
  have husable : (t.port k).usable j = (s.port k).usable j := Port.usable_congr hst hphase hplan (by rw [h.lane])
  rw [Bool.eq_iff_iff, List.contains_iff_mem, List.contains_iff_mem, Port.mem_trainees, Port.mem_trainees, husable, hst, hplan, hprop]

/-- Other lanes of a port take part as before when one lane changes. -/
theorem Port.mem_trainees_setLane {p : Port} {l j : Nat} {x : LaneS} (hne : j ≠ l) :
    j ∈ (p.setLane l x).trainees ↔ j ∈ p.trainees := by
  have hlane : (p.setLane l x).lane j = p.lane j := (p.lane_setLane l j x).trans (if_neg (Ne.symm hne))
  have husable : (p.setLane l x).usable j = p.usable j :=
    Port.usable_congr (p := p) (q := p.setLane l x) rfl rfl rfl (by rw [hlane])
  rw [Port.mem_trainees, Port.mem_trainees, husable]; rfl

end Sys2Proof.Machine
end

section
/-! SUPPORT. What the last block of each run and the blocks for the link do (R140, R141, R160). -/

namespace Sys2Proof.Machine
open Sys2Proof

section
variable {s : State} {k l : Nat} {b : BitVec 272} {w : Nat}

/-! ### Training blocks (R140) -/

/-- R140: phase 1 goes on while a lane that takes part is not identified. -/
theorem State.phase1Check_waits {j : Nat} (hj : j ∈ (s.port k).trainees) (hident : ((s.port k).lane j).ident = false) :
    s.phase1Check k = s := if_pos (.inr (.inr (List.any_eq_true.2 ⟨j, hj, by simp [hident]⟩)))

/-- R140: phase 3 goes on while a lane of the proposed plan is not deskewed. -/
theorem State.phase3Check_waits {j : Nat} (hj : j ∈ lanesIn (s.port k).prop) (hskew : ((s.port k).lane j).skewDone = false) :
    s.phase3Check k = s := if_pos (.inr (.inr (List.any_eq_true.2 ⟨j, hj, by simp [hskew]⟩)))

/-- R140: the sixteenth TS_ID block in a row identifies its lane. -/
theorem tsId_leads {j : Nat} (h : s.LcbOk k b lcbTsId w) (hst : (s.port k).st = .train) (hphase : (s.port k).phase = 1)
    (hl : (s.port k).trainees.contains l = true) (hident : ((s.port k).lane l).ident = false)
    (hty : ((s.port k).lane l).cntTy = lcbTsId) (hcnt : 15 ≤ ((s.port k).lane l).cnt) (hlane : bitsOf w 83 5 = l)
    (hj : (s.port k).trainees.contains j = true) (hne : j ≠ l) (hjident : ((s.port k).lane j).ident = false) :
    Leads (.tsId k l b) s fun t =>
      OnlyPort k s t ∧ ((t.port k).lane l).ident = true ∧ ((t.port k).lane l).node = cwNode w ∧
      ((t.port k).lane l).nport = cwPort w ∧ ((t.port k).lane l).ngen = cwGen w := by
  have hwaits (x : LaneS) : (s.setPort k ((s.port k).setLane l x)).phase1Check k = s.setPort k ((s.port k).setLane l x) := by
    refine State.phase1Check_waits (j := j) ?_ ?_ <;> rw [State.setPort_get_port_same]
    · exact (Port.mem_trainees_setLane hne).2 (List.contains_iff_mem.1 hj)
    · rw [Port.lane_setLane, if_neg (Ne.symm hne), hjident]
  refine ⟨_, congrArg Host.Outcome.next (State.lcbIn_run h hty), ?_⟩
  dsimp only
  rw [LaneS.bump_full hty hcnt, if_neg (by simp [hst, hphase, hident, List.contains_iff_mem.1 hl]), if_neg (Nat.lt_irrefl 16),
    if_neg (not_not.2 hlane), hwaits]
  exact ⟨State.setPort_only _, by simp⟩

theorem LaneS.equalise_rnds (x : LaneS) : (x.equalise w).rnds = x.rnds + 1 := rfl

/-- R138, R140: a request of one round is applied, and the round's TS_EQ block is sent. -/
theorem tsEq_leads (h : s.LcbOk k b lcbTsEq w) (hstranger : (s.port k).stranger w = false) (hphase : (s.port k).phase = 2)
    (hl : (s.port k).trainees.contains l = true) (hpreset : bitsOf w 76 4 ≠ 0xF) (hrnds : ((s.port k).lane l).rnds = 0) :
    Leads (.tsEq k l b) s fun t =>
      OnlyPort k s t ∧ (t.port k).lane l = ((s.port k).lane l).equalise w ∧ ((t.port k).lane l).rnds = 1 ∧
      (t.port k).lcbs.length = (s.port k).lcbs.length + 1 := by
  refine lcbIn_leads h rfl fun t ht => ?_
  have hstranger' : (t.port k).stranger w = false := by rw [ht.frame]; exact hstranger
  have hphase' : (t.port k).phase = 2 := by rw [ht.frame]; exact hphase
  have hrnds' : ((t.port k).lane l).rnds = 0 := by rw [ht.lane]; exact hrnds
  have heq : ((t.port k).lane l).equalise w = ((s.port k).lane l).equalise w := by rw [ht.lane]; rfl
  have hrounds : (((t.port k).lane l).equalise w).rnds = 1 := by rw [LaneS.equalise_rnds, hrnds']
  have hlcbs' (x : LaneS) : ((t.port k).setLane l x).lcbs = (s.port k).lcbs := by rw [ht.frame]; rfl
  dsimp only
  rw [if_neg (by simp [hstranger']), if_neg (by simp [hphase', List.contains_iff_mem.1 ((ht.trainees l).trans hl)]),
    if_neg (by simp [hpreset]), if_pos (by simp [hrnds'])]
  refine ⟨ht.only.trans ((State.setPort_only _).trans (State.sendLcbs_only ..)), ?_⟩
  rw [State.sendLcbs_port, State.setPort_get_port_same]
  refine ⟨?_, ?_, ?_⟩
  · exact (Port.lane_setLane_same ..).trans heq
  · exact (congrArg LaneS.rnds (Port.lane_setLane_same ..)).trans hrounds
  · rw [List.length_append, hlcbs']; rfl

/-- R140: the sixteenth TS_DONE block in a row, of a lane that is fit, ends its deskew. -/
theorem tsDone_leads {j skew : Nat} {m : BitVec 16} (h : s.LcbOk k b lcbTsDone w) (hphase : (s.port k).phase = 3)
    (htraining : ((s.port k).lane l).training = false) (hl : (s.port k).trainees.contains l = true)
    (hty : ((s.port k).lane l).cntTy = lcbTsDone) (hcnt : 15 ≤ ((s.port k).lane l).cnt) (hfit : laneFit skew m = true)
    (hj : j < 32) (hprop : (s.port k).prop.getLsbD j = true) (hne : j ≠ l) (hskew : ((s.port k).lane j).skewDone = false) :
    Leads (.tsDone k l b skew m) s fun t =>
      OnlyPort k s t ∧ ((t.port k).lane l).skewDone = true ∧ ((t.port k).lane l).margin = m := by
  have hwaits (x : LaneS) : (s.setPort k ((s.port k).setLane l x)).phase3Check k = s.setPort k ((s.port k).setLane l x) := by
    refine State.phase3Check_waits (j := j) ?_ ?_ <;> rw [State.setPort_get_port_same]
    · exact mem_lanesIn.2 ⟨hj, hprop⟩
    · rw [Port.lane_setLane, if_neg (Ne.symm hne), hskew]
  refine ⟨_, congrArg Host.Outcome.next (State.lcbIn_run h hty), ?_⟩
  dsimp only
  rw [LaneS.bump_full hty hcnt, if_neg (by simp [htraining]), if_neg (by simp [hphase, List.contains_iff_mem.1 hl]), if_neg (Nat.lt_irrefl 16),
    if_pos hfit, hwaits]
  exact ⟨State.setPort_only _, by simp⟩

/-! ### GO (R140, R162) -/

theorem Port.freshUnits_plan (p : Port) : p.freshUnits.plan = p.plan := rfl

/-- R140, R146, R162: the link enters ACTIVE on a plan without a FAILED lane. -/
theorem State.linkActive_of_sound (hsound : ∀ j ∈ lanesIn (s.port k).prop, ((s.port k).lane j).st ≠ .failed) :
    ((s.linkActive k).port k).st = .active ∧ ((s.linkActive k).port k).plan = (s.port k).prop ∧ ((s.linkActive k).port k).rxSeq = 0 ∧
    s.linkActive k = { s with ports := (s.linkActive k).ports, owl := (s.linkActive k).owl, flash := (s.linkActive k).flash } ∧
    ∀ j, j ≠ k → (s.linkActive k).port j = s.port j := by
  unfold State.linkActive
  extract_lets p first p1 p2 s1
  have hplan : p1.plan = (s.port k).prop := by rw [Port.freshUnits_plan, Port.settleBoth_frame]
  have hfailed (j : Nat) : (p1.lane j).st = .failed ↔ ((s.port k).lane j).st = .failed := by
    rw [Port.freshUnits_lane, Port.settleBoth_lane_failed]
  have hseq : p1.rxSeq = 0 := rfl
  clear_value p1
  have hlink : (s1.port k).link = { p2.link with lcbs := (s1.port k).lcbs } := by
    rw [State.sendLcbs_port, State.setPort_get_port_same, ← p2.flush_link s.clk]; rfl
  have hp2 : p2.st = .active ∧ p2.plan = p1.plan ∧ p2.rxSeq = p1.rxSeq ∧ p2.lanes = p1.lanes := ⟨rfl, rfl, rfl, rfl⟩
  have hs1 : OnlyPort k s s1 := (State.setPort_only _).trans (State.sendLcbs_only ..)
  clear_value s1 p2
  obtain ⟨hst2, hplan2, hseq2, hlanes2⟩ := hp2
  have hst1 : (s1.port k).st = .active := (congrArg Port.st hlink :).trans hst2
  have hplan1 : (s1.port k).plan = (s.port k).prop := (congrArg Port.plan hlink :).trans (hplan2.trans hplan)
  have hseq1 : (s1.port k).rxSeq = 0 := (congrArg Port.rxSeq hlink :).trans (hseq2.trans hseq)
  have hlanes1 : (s1.port k).lanes = p1.lanes := (congrArg Port.lanes hlink :).trans hlanes2
  obtain ⟨hport, hframe, hothers⟩ := State.activeEnd hs1 fun j hj => by
    rw [hplan1] at hj
    rw [Port.lane, hlanes1]
    exact fun hf => hsound j hj ((hfailed j).1 hf)
  rw [hport]
  exact ⟨hst1, hplan1, hseq1, hframe, hothers⟩

/-- R140: the sixteenth TS_GO block in a row on the last lane of the plan. -/
theorem tsGo_leads (h : s.LcbOk k b lcbTsGo w) (hst : (s.port k).st = .train) (hphase : (s.port k).phase = 4) (hl : l < 32)
    (hprop : (s.port k).prop.getLsbD l = true) (hmask : BitVec.ofNat 32 (bitsOf w 8 32) = (s.port k).prop)
    (hruns : ∀ j < 32, (s.port k).prop.getLsbD j = true →
      ((s.port k).lane j).cntTy = lcbTsGo ∧ ((s.port k).lane j).st ≠ .failed ∧ (if j = l then 15 else 16) ≤ ((s.port k).lane j).cnt) :
    Leads (.tsGo k l b) s fun t =>
      (t.port k).st = .active ∧ (t.port k).plan = (s.port k).prop ∧ (t.port k).rxSeq = 0 ∧
      t = { s with ports := t.ports, owl := t.owl, flash := t.flash } ∧ ∀ j, j ≠ k → t.port j = s.port j := by
  obtain ⟨hty, hlst, hcnt⟩ := hruns l hl hprop
  rw [if_pos rfl] at hcnt
  refine ⟨_, congrArg Host.Outcome.next (State.lcbIn_run h hty), ?_⟩
  dsimp only
  have hall : (lanesIn (s.port k).prop).all (fun j =>
      decide ((((s.port k).setLane l { (s.port k).lane l with cnt := 16 }).lane j).cntTy = lcbTsGo) &&
      decide (16 ≤ (((s.port k).setLane l { (s.port k).lane l with cnt := 16 }).lane j).cnt)) = true := by
    refine List.all_eq_true.2 fun j hj => ?_
    obtain ⟨hj32, hjprop⟩ := mem_lanesIn.1 hj
    obtain ⟨hjty, -, hjcnt⟩ := hruns j hj32 hjprop
    rw [Port.lane_setLane]
    by_cases hjl : j = l
    · subst j; simp [hty]
    · rw [if_neg hjl] at hjcnt
      simp [Ne.symm hjl, hjty, hjcnt]
  rw [LaneS.bump_full hty hcnt, if_neg (by simp [Port.stranger, hst]), if_neg (by simp [hst, hphase, hprop]),
    if_neg (not_not.2 hmask), if_pos hall, if_pos hst]
  have hcount : Recounted k s (s.setPort k ((s.port k).setLane l { (s.port k).lane l with cnt := 16 })) := .setPort 16
  generalize s.setPort k ((s.port k).setLane l { (s.port k).lane l with cnt := 16 }) = s1 at *
  have hprop1 : (s1.port k).prop = (s.port k).prop := by rw [hcount.frame]
  obtain ⟨hst1, hplan1, hseq1, hframe1, hothers1⟩ := State.linkActive_of_sound (s := s1) (k := k) fun j hj => by
    rw [hprop1] at hj
    obtain ⟨hj32, hjprop⟩ := mem_lanesIn.1 hj
    rw [hcount.lane]
    exact (hruns j hj32 hjprop).2.1
  exact ⟨hst1, hplan1.trans hprop1, hseq1, by rw [hframe1, hcount.only.1],
    fun j hj => (hothers1 j hj).trans (hcount.only.2 j hj)⟩

/-! ### Blocks for the link and for one lane (R141, R160) -/

/-- R160: lane training of one lane begins. -/
theorem State.laneTrain_lane : ((s.laneTrain k l).port k).lane l =
    { ((s.port k).lane l).fresh with training := true, clearFail := ((s.port k).lane l).clearFail } := by
  rw [State.laneTrain, State.sendLcbs_port, State.setPort_get_port_same]
  exact Port.lane_setLane_same ..

theorem State.laneTrain_only : OnlyPort k s (s.laneTrain k l) := (State.setPort_only _).trans (State.sendLcbs_only ..)

/-- R141: a STANDBY block reports the partner's state of its lane. -/
theorem standbyLcb_leads (h : s.LcbOk k b lcbStandby w) : Leads (.standbyLcb k l b) s fun t =>
    OnlyPort k s t ∧ ((t.port k).lane l).peer = LaneState.ofCode (bitsOf w 81 2) :=
  lcbIn_leads h rfl fun t ht => ⟨ht.only.trans (State.setPort_only _), by rw [State.setPort_get_port_same, Port.lane_setLane_same]⟩

/-- R141: the sixteenth LANE_TRAIN block in a row begins this side's lane training. -/
theorem laneTrainLcb_leads (h : s.LcbOk k b lcbLaneTrain w) (hst : ((s.port k).lane l).st ≠ .inPlan)
    (hpower : ((s.port k).lane l).power = true) (htraining : ((s.port k).lane l).training = false)
    (hty : ((s.port k).lane l).cntTy = lcbLaneTrain) (hcnt : 15 ≤ ((s.port k).lane l).cnt) :
    Leads (.laneTrainLcb k l b) s fun t => OnlyPort k s t ∧ ((t.port k).lane l).training = true := by
  refine ⟨_, congrArg Host.Outcome.next (State.lcbIn_run h hty), ?_⟩
  dsimp only
  rw [LaneS.bump_full hty hcnt, if_neg (by simp [hst, hpower]), if_neg (Nat.lt_irrefl 16), if_neg (by simp [htraining])]
  refine ⟨((State.setPort_only _).trans State.laneTrain_only).trans (State.sendLcbs_only ..), ?_⟩
  rw [State.sendLcbs_port]
  exact (congrArg LaneS.training State.laneTrain_lane :)

/-- R141: a RETRAIN block on a lane of the plan starts a retrain. -/
theorem retrainLcb_leads (h : s.LcbOk k b lcbRetrain w) (hcan : s.CanRetrain k) (hplan : (s.port k).plan.getLsbD l = true) :
    Leads (.retrainLcb k l b) s fun t => OnlyPort k s t ∧ (t.port k).st = .retrain := by
  refine lcbIn_leads h rfl fun t ht => ?_
  obtain ⟨honly, hst⟩ := State.retrain_of_can (ht.canRetrain hcan)
  rw [if_pos (by rw [ht.frame]; exact hplan)]
  exact ⟨ht.only.trans honly, hst⟩

/-- R141: the second DOWN block takes the link down with the reason that it carries. -/
theorem downLcb_leads (h : s.LcbOk k b lcbDown w)
    (hseen : 1 ≤ (((List.range 32).map fun j => ((s.port k).lane j).downCnt).foldl (· + ·) 0)) :
    Leads (.downLcb k l b) s fun t =>
      (t.port k).st = .down ∧ (t.port k).reason = BitVec.ofNat 8 (bitsOf w 40 8) ∧ (s.PortIdle k → OnlyPort k s t) := by
  refine lcbIn_leads h rfl fun t ht => ?_
  have hcounts : ((List.range 32).map fun j => ((t.port k).lane j).downCnt) = (List.range 32).map fun j => ((s.port k).lane j).downCnt :=
    List.map_congr_left fun j _ => by rw [ht.lane]
  have hst : (t.port k).st = (s.port k).st := by rw [ht.frame]
  dsimp only
  rw [hcounts, if_pos hseen]
  have hfall := State.goDown_fallen (s := t) (k := k) (r := BitVec.ofNat 8 (bitsOf w 40 8)) (by rw [hst]; exact h.1) (by rw [hst]; exact h.2.1)
  exact ⟨hfall.st, hfall.reason, fun hidle => ht.only.trans (State.goDown_idle (ht.portIdle hidle)).1⟩

end

/-- Settles O18: a block that is received whole changes at most its lane's count of blocks in a row before it acts. -/
theorem laneControlBlocks : Obligations.LaneControlBlocks := by
  refine ⟨?_, fun s k l b w => tsEq_leads, ?_, fun s k l b w => tsGo_leads, fun s k l b w => retrainLcb_leads, fun s k l b w => downLcb_leads,
    fun s k l b w => standbyLcb_leads, fun s k l b w => laneTrainLcb_leads⟩
  · exact fun s k l j b w => tsId_leads
  · exact fun s k l j b w skew m => tsDone_leads

end Sys2Proof.Machine
end

section
/-! SUPPORT. The keyed writes of LNK (R158, R160, R163, R164, R168): what a write of its control register, of its command register and of a
lane's register does. -/

namespace Sys2Proof.Machine
open Sys2Proof

/-! ### The write of an LNK register (R23, R31–R34) -/

section
variable {s : State} {k i : Nat} (hk : k < 8) (hi : i < 0x10000)
include hk hi

theorem blockAt_lnk : blockAt (lnkOff k i) = (.lnk k, i) := by
  rw [lnkOff, blockAt, if_neg (by omega), if_pos (by omega)]
  congr 2 <;> omega

/-- R32–R34: a keyed write to a register of LNK uses up the arming of its block and does what the register says. -/
theorem State.write_lnk {x : Nat} (v : W32) (h4 : i % 4 = 0) (hunlock : i ≠ 0x50) (hcell : s.lnkCell k i = some ⟨.keyed, x⟩)
    (hkey : s.CanKey .owl (lnkOff k i)) :
    s.write .owl (lnkOff k i) v = (s.disarm .owl (unlockOf (lnkOff k i))).lnkWrite k i v := by
  obtain ⟨hup, harmed⟩ := hkey
  have hblock := blockAt_lnk hk hi
  have h4' : lnkOff k i % 4 = 0 := by rw [lnkOff]; omega
  have hbar : owlBarred .owl (lnkOff k i) = false := by rw [owlBarred, hblock]; rfl
  have hno : isUnlock (lnkOff k i) = false := by simp [isUnlock, hblock, unlockAt, hunlock]
  have hcell' : s.cell (lnkOff k i) = some ⟨.keyed, x⟩ := by rw [← hcell, State.cell, hblock]
  rw [State.write_of_pathUp _ _ _ _ hup, show reach .owl (lnkOff k i) = lnkOff k i from rfl,
    State.regWrite_keyed v h4' hbar hno hcell', if_pos harmed, State.effect, hblock]

/-- What holds after the register's write whatever armings are left, holds after the command. -/
theorem lnkKey_leads {c : Instr} {v : W32} {x : Nat} {P : State → Prop} (h4 : i % 4 = 0) (hunlock : i ≠ 0x50)
    (hcell : s.lnkCell k i = some ⟨.keyed, x⟩) (hkey : s.CanKey .owl (lnkOff k i))
    (hexec : exec c s = .next (s.write .owl (lnkOff k i) v)) (h : ∀ a, P (State.lnkWrite { s with arms := a } k i v)) : Leads c s P :=
  ⟨_, hexec, by rw [State.write_lnk hk hi v h4 hunlock hcell hkey]; exact h _⟩

end

section
variable {s t u : State} {k l : Nat}

theorem OnlyPort.of_arms {a : List Arming} (h : OnlyPort k { s with arms := a } t) : OnlyPort k { s with arms := t.arms } t := by
  have harms : t.arms = a := by rw [h.1]
  rw [harms]; exact h

/-! ### TRAIN begins (R140, R163) -/

theorem Port.trainees_of_fresh {p : Port} (hst : p.st = .train) (hphase : p.phase = 1) (hexcl : ∀ j < 32, (p.lane j).excl = false) :
    p.trainees = (List.range 32).filter p.powered :=
  List.filter_congr fun j hj => by simp [Port.usable, hst, hphase, hexcl j (List.mem_range.1 hj)]

/-- R140: with four powered lanes the link trains. -/
theorem State.startTrain_of_powered (h : 4 ≤ ((List.range 32).filter (s.port k).powered).length) :
    OnlyPort k s (s.startTrain k) ∧ ((s.startTrain k).port k).st = .train ∧ ((s.startTrain k).port k).phase = 1 ∧
      ((s.startTrain k).port k).autoUp = (s.port k).autoUp ∧ ((s.startTrain k).port k).holdoffDone = (s.port k).holdoffDone := by
  unfold State.startTrain
  extract_lets p s1
  have hframe : p = { s.port k with lanes := p.lanes } := Port.freshLanes_frame _
  have hlane (j : Nat) (hj : j < 32) : p.lane j = ((s.port k).lane j).fresh := by rw [Port.freshLanes_lane, if_pos hj]
  clear_value p
  have hport : s1.port k = { p with st := .train, since := s.clk, phase := 1, prop := 0 } := State.setPort_get_port_same ..
  have honly : OnlyPort k s s1 := State.setPort_only _
  clear_value s1
  have hlane1 (j : Nat) (hj : j < 32) : (s1.port k).lane j = ((s.port k).lane j).fresh := by rw [hport]; exact hlane j hj
  have hpowered : (List.range 32).filter (s1.port k).powered = (List.range 32).filter (s.port k).powered :=
    List.filter_congr fun j hj => by rw [Port.powered, Port.powered, hlane1 j (List.mem_range.1 hj)]; rfl
  have htrainees : (s1.port k).trainees = (List.range 32).filter (s.port k).powered :=
    (Port.trainees_of_fresh (by rw [hport]) (by rw [hport]) fun j hj => by rw [hlane1 j hj]; rfl).trans hpowered
  rw [htrainees, if_neg (by omega)]
  refine ⟨honly.trans (State.sendLcbs_only ..), ?_, ?_, ?_, ?_⟩ <;> rw [State.sendLcbs_port, hport]
  · exact (congrArg Port.autoUp hframe :)
  · exact (congrArg Port.holdoffDone hframe :)

theorem State.tryTrain_waits
    (h : (s.port k).st = .down → (s.port k).holdoffDone = true → (s.port k).autoUp = true → (s.port k).enable = false) :
    s.tryTrain k = s :=
  if_neg fun ⟨hst, hdone, hauto, henable, _⟩ => by rw [h hst hdone hauto] at henable; cases henable

theorem State.tryTrain_starts (hst : (s.port k).st = .down) (hdone : (s.port k).holdoffDone = true) (hauto : (s.port k).autoUp = true)
    (henable : (s.port k).enable = true) (hlayout : s.top.layoutOk = true) : s.tryTrain k = s.startTrain k :=
  if_pos ⟨hst, hdone, hauto, henable, hlayout⟩

/-! ### The control register (R163) -/

/-- R163, R168: the value of the control register. -/
def lnkCtrlWord (e a d : Bool) : W32 := BitVec.ofNat 32 (b2n e + bit a 1 + bit d 2)

theorem getLsbD_lnkCtrl (e a d : Bool) :
    (lnkCtrlWord e a d).getLsbD 0 = e ∧ (lnkCtrlWord e a d).getLsbD 1 = a ∧ (lnkCtrlWord e a d).getLsbD 2 = d := by
  revert e a d; decide

theorem State.lnkCtrl_eq (e a d : Bool) : s.lnkCtrl k (lnkCtrlWord e a d) =
    ((if e = (s.port k).enable then s else s.lnkEnable k e).lnkAutoUp k a).lnkAutoDrop k d := by
  obtain ⟨he, ha, hd⟩ := getLsbD_lnkCtrl e a d
  rw [State.lnkCtrl, he, ha, hd]

/-- R162: but in ACTIVE auto_drop is set and nothing follows. -/
theorem State.lnkAutoDrop_of_inactive (d : Bool) (h : (s.port k).st ≠ .active) :
    s.lnkAutoDrop k d = s.setPort k { s.port k with autoDrop := d } := by
  unfold State.lnkAutoDrop
  dsimp only
  split
  · exact if_neg fun ⟨hst, _⟩ => h (by rwa [State.setPort_get_port_same] at hst)
  · rfl

/-- R163: a link that does not train sets auto_up and auto_drop, and nothing follows. -/
theorem State.lnkAuto_waits (a d : Bool) (hst : (s.port k).st ≠ .active)
    (hwait : (s.port k).st = .down → (s.port k).holdoffDone = true → (s.port k).enable = false) :
    OnlyPort k s ((s.lnkAutoUp k a).lnkAutoDrop k d) ∧
      ((s.lnkAutoUp k a).lnkAutoDrop k d).port k = { s.port k with autoUp := a, autoDrop := d } := by
  have hport : (s.setPort k { s.port k with autoUp := a }).port k = { s.port k with autoUp := a } := State.setPort_get_port_same ..
  have hup : s.lnkAutoUp k a = s.setPort k { s.port k with autoUp := a } :=
    State.tryTrain_waits fun h1 h2 _ => by rw [hport] at h1 h2 ⊢; exact hwait h1 h2
  rw [hup, State.lnkAutoDrop_of_inactive d (by rw [hport]; exact hst), hport]
  exact ⟨(State.setPort_only _).trans (State.setPort_only _), State.setPort_get_port_same ..⟩

/-- R163: enable takes a DISABLED link to DOWN, where its hold-off begins. -/
theorem State.lnkCtrl_enables (a d : Bool) (hst : (s.port k).st = .disabled) (henable : (s.port k).enable = false) :
    OnlyPort k s (s.lnkCtrl k (lnkCtrlWord true a d)) ∧
      (s.lnkCtrl k (lnkCtrlWord true a d)).port k =
        { s.port k with enable := true, st := .down, since := s.clk, holdoffDone := false, autoUp := a, autoDrop := d } := by
  have hset : s.lnkEnable k true = s.setPort k { s.port k with enable := true, st := .down, since := s.clk, holdoffDone := false } :=
    if_pos hst
  rw [State.lnkCtrl_eq, if_neg (by simp [henable]), hset]
  have hport := State.setPort_get_port_same s k { s.port k with enable := true, st := .down, since := s.clk, holdoffDone := false }
  obtain ⟨honly, hport'⟩ := State.lnkAuto_waits (k := k) a d
    (s := s.setPort k { s.port k with enable := true, st := .down, since := s.clk, holdoffDone := false })
    (by rw [hport]; simp) (by rw [hport]; simp)
  exact ⟨(State.setPort_only _).trans honly, hport'.trans (by rw [hport])⟩

/-- R163: without enable the link goes down and is DISABLED. -/
theorem State.lnkCtrl_disables (a d : Bool) (henable : (s.port k).enable = true) :
    ((s.lnkCtrl k (lnkCtrlWord false a d)).port k).st = .disabled ∧
      ((s.lnkCtrl k (lnkCtrlWord false a d)).port k).enable = false ∧
      (s.PortIdle k → OnlyPort k s (s.lnkCtrl k (lnkCtrlWord false a d))) := by
  have hset : s.lnkEnable k false = (s.goDown k 3).setPort k { (s.goDown k 3).port k with enable := false, st := .disabled } := rfl
  rw [State.lnkCtrl_eq, if_neg (by simp [henable]), hset]
  have hdown (hidle : s.PortIdle k) := (State.goDown_idle (r := 3) hidle).1
  generalize s.goDown k 3 = t at hdown
  have hport := State.setPort_get_port_same t k { t.port k with enable := false, st := .disabled }
  obtain ⟨honly, hport'⟩ := State.lnkAuto_waits (k := k) (s := t.setPort k { t.port k with enable := false, st := .disabled }) a d
    (by rw [hport]; simp) (by rw [hport]; simp)
  rw [hport', hport]
  exact ⟨rfl, rfl, fun hidle => ((hdown hidle).trans (State.setPort_only _)).trans honly⟩

/-- R163: auto_up starts the training of a link whose hold-off has ended. -/
theorem State.lnkCtrl_trains (d : Bool) (hst : (s.port k).st = .down) (hdone : (s.port k).holdoffDone = true)
    (henable : (s.port k).enable = true) (hlayout : s.top.layoutOk = true)
    (hlanes : 4 ≤ ((List.range 32).filter (s.port k).powered).length) :
    OnlyPort k s (s.lnkCtrl k (lnkCtrlWord true true d)) ∧
      ((s.lnkCtrl k (lnkCtrlWord true true d)).port k).autoUp = true ∧
      ((s.lnkCtrl k (lnkCtrlWord true true d)).port k).st = .train ∧
      ((s.lnkCtrl k (lnkCtrlWord true true d)).port k).phase = 1 := by
  rw [State.lnkCtrl_eq, if_pos henable.symm, State.lnkAutoUp]
  have hport := State.setPort_get_port_same s k { s.port k with autoUp := true }
  have hset : OnlyPort k s (s.setPort k { s.port k with autoUp := true }) := State.setPort_only _
  have hlayout' : (s.setPort k { s.port k with autoUp := true }).top.layoutOk = true := hlayout
  generalize s.setPort k { s.port k with autoUp := true } = t at hport hset hlayout'
  rw [State.tryTrain_starts (by rw [hport]; exact hst) (by rw [hport]; exact hdone) (by rw [hport]) (by rw [hport]; exact henable) hlayout']
  obtain ⟨honly, htrain, hphase, hauto, _⟩ := State.startTrain_of_powered (s := t) (k := k) (by rw [hport]; exact hlanes)
  rw [State.lnkAutoDrop_of_inactive d (by simp [htrain]), State.setPort_get_port_same]
  exact ⟨(hset.trans honly).trans (State.setPort_only _), by rw [hauto, hport], htrain, hphase⟩

/-- R163: the end of the hold-off, with a training where auto_up and enable are 1. -/
theorem downHoldoffEnd_leads (hst : (s.port k).st = .down) (hdone : (s.port k).holdoffDone = false) (hlayout : s.top.layoutOk = true)
    (htime : (s.port k).since + (s.port k).downCfg.toNat * 2400 ≤ s.clk)
    (hlanes : 4 ≤ ((List.range 32).filter (s.port k).powered).length) :
    Leads (.downHoldoffEnd k) s fun t =>
      OnlyPort k s t ∧ (t.port k).holdoffDone = true ∧
      (t.port k).st = (if (s.port k).autoUp ∧ (s.port k).enable then .train else .down) := by
  have htime' : (s.port k).downCfg.toNat * Config.usClk + (s.port k).since ≤ s.clk := by rw [Nat.add_comm]; exact htime
  refine ⟨_, if_pos ⟨hst, by rw [hdone]; rfl, hlayout, htime'⟩, ?_⟩
  have hport := State.setPort_get_port_same s k { s.port k with holdoffDone := true }
  have hset : OnlyPort k s (s.setPort k { s.port k with holdoffDone := true }) := State.setPort_only _
  have hlayout' : (s.setPort k { s.port k with holdoffDone := true }).top.layoutOk = true := hlayout
  generalize s.setPort k { s.port k with holdoffDone := true } = t at hport hset hlayout'
  split
  · rename_i hgo
    rw [State.tryTrain_starts (by rw [hport]; exact hst) (by rw [hport]) (by rw [hport]; exact hgo.1) (by rw [hport]; exact hgo.2) hlayout']
    obtain ⟨honly, htrain, _, _, hdone'⟩ := State.startTrain_of_powered (s := t) (k := k) (by rw [hport]; exact hlanes)
    exact ⟨hset.trans honly, by rw [hdone', hport], htrain⟩
  · rename_i hgo
    have hoff : (s.port k).autoUp = true → (s.port k).enable = false := by simpa using hgo
    rw [State.tryTrain_waits (by rw [hport]; exact fun _ _ => hoff)]
    exact ⟨hset, by rw [hport], by rw [hport]; exact hst⟩

/-! ### The command register (R158, R163, R164) -/

/-- R163: cmd_down takes the link down. -/
theorem State.lnkCmd_down (hst : (s.port k).st = .active) :
    ((s.lnkCmd k 4).port k).st = .down ∧ ((s.lnkCmd k 4).port k).reason = 2 ∧
      ((s.lnkCmd k 4).port k).downs = sat (s.port k).downs ∧ (s.PortIdle k → OnlyPort k s (s.lnkCmd k 4)) := by
  have hcmd : s.lnkCmd k 4 = s.goDown k 2 := if_pos (by simp [hst])
  rw [hcmd]
  have hfall := State.goDown_fallen (s := s) (k := k) (r := 2) (by simp [hst]) (by simp [hst])
  exact ⟨hfall.st, hfall.reason, hfall.downs, fun hidle => (State.goDown_idle hidle).1⟩

/-- R164: cmd_retrain starts a retrain. -/
theorem State.lnkCmd_retrains (hcan : s.CanRetrain k) :
    OnlyPort k s (s.lnkCmd k 2) ∧ ((s.lnkCmd k 2).port k).st = .retrain ∧ ((s.lnkCmd k 2).port k).cmdRetrain = true := by
  have hcmd : s.lnkCmd k 2 = s.lnkRetrain k := rfl
  obtain ⟨honly, hst⟩ := State.retrain_of_can hcan
  rw [hcmd, State.lnkRetrain]
  generalize s.retrain k = t at honly hst
  dsimp only
  rw [if_pos ⟨hcan.1, hst⟩, State.setPort_get_port_same]
  exact ⟨honly.trans (State.setPort_only _), hst, rfl⟩

/-- R158: an exchange for a legal mask whose lanes are ready begins. -/
theorem Port.startPlan_link {p : Port} {clk : Nat} {m : W32} (hst : p.st = .active) (hout : p.planOut = none) (hin : p.planIn = none)
    (hsize : planSizes.contains (lanesIn m).length = true) (hready : p.lanesReady m = true) :
    (p.startPlan clk m).link = { p with planId := p.planId + 1, planRes := 1, planReason := 0, planOut := some m }.link := by
  rw [Port.startPlan, if_neg (by simp [hst, hout, hin]), if_neg (by rw [hsize, hready]; decide)]
  exact Port.sendPlan_link ..

/-- R158: cmd_plan starts an exchange for plan_mask. -/
theorem State.lnkCmd_plans (hst : (s.port k).st = .active) (hout : (s.port k).planOut = none) (hin : (s.port k).planIn = none)
    (hsize : planSizes.contains (lanesIn (s.port k).planMask).length = true)
    (hready : (s.port k).lanesReady (s.port k).planMask = true) :
    OnlyPort k s (s.lnkCmd k 1) ∧ ((s.lnkCmd k 1).port k).planOut = some (s.port k).planMask ∧
      ((s.lnkCmd k 1).port k).planId = (s.port k).planId + 1 ∧ ((s.lnkCmd k 1).port k).planRes = 1 := by
  have hcmd : s.lnkCmd k 1 = s.lnkPlanGo k := if_pos (by
    change true = true ∧ (s.port k).planOut.isNone = true ∧ (s.port k).planIn.isNone = true
    simp [hout, hin])
  have hlink := Port.startPlan_link (clk := s.clk) hst hout hin hsize hready
  rw [hcmd, State.lnkPlanGo]
  generalize (s.port k).startPlan s.clk (s.port k).planMask = p at hlink
  rw [State.setPort_get_port_same]
  exact ⟨State.setPort_only _, (congrArg Port.planOut hlink :), (congrArg Port.planId hlink :), (congrArg Port.planRes hlink :)⟩

/-! ### A lane's register (R140, R160, R168) -/

/-- The bits of a lane register's value. -/
theorem getLsbD_lanePower (v : Bool) : (BitVec.ofNat 32 (bit v 8)).getLsbD 8 = v ∧ (BitVec.ofNat 32 (bit v 8)).getLsbD 9 = false := by
  revert v; decide

theorem getLsbD_laneClearFail (v : Bool) :
    (BitVec.ofNat 32 (512 + bit v 8)).getLsbD 8 = v ∧ (BitVec.ofNat 32 (512 + bit v 8)).getLsbD 9 = true := by
  revert v; decide

theorem State.laneWrite_power (v : Bool) : s.laneWrite k l (BitVec.ofNat 32 (bit v 8)) =
    if v = ((s.port k).lane l).power then s else s.lnkLanePower k l v := by
  obtain ⟨hpower, hclear⟩ := getLsbD_lanePower v
  rw [State.laneWrite, hpower, hclear]; rfl

/-- R140: only a training is looked at again when a lane is lost. -/
theorem State.lostLane_of_untrained (h : (s.port k).st ≠ .train ∧ (s.port k).st ≠ .retrain) : s.lostLane k = s := by
  have hfour : s.checkFour k = s := if_neg fun ⟨hst, _⟩ => hst.elim h.1 h.2
  rw [State.lostLane, hfour]; exact if_pos h

/-- R160: a lane that gets power begins lane training where its link is up. -/
theorem State.lnkLanePower_on : OnlyPort k s (s.lnkLanePower k l true) ∧ (((s.lnkLanePower k l true).port k).lane l).power = true := by
  have hport := State.setPort_get_port_same s k ((s.port k).setLane l { (s.port k).lane l with power := true })
  have hset : OnlyPort k s (s.setPort k ((s.port k).setLane l { (s.port k).lane l with power := true })) := State.setPort_only _
  have hlane : (((s.setPort k ((s.port k).setLane l { (s.port k).lane l with power := true })).port k).lane l).power = true := by
    rw [hport, Port.lane_setLane_same]
  unfold State.lnkLanePower
  dsimp only
  rw [if_neg (by decide)]
  split
  · exact ⟨hset.trans State.laneTrain_only, by rw [State.laneTrain_lane]; exact hlane⟩
  · exact ⟨hset, hlane⟩

/-- R140, R160: a training goes on without a lane that loses its power. -/
theorem State.lnkLanePower_off : (((s.lnkLanePower k l false).port k).lane l).power = false ∧
    (((s.port k).st ≠ .train ∧ (s.port k).st ≠ .retrain) ∨ s.PortIdle k → OnlyPort k s (s.lnkLanePower k l false)) := by
  have hoff : ∃ y : LaneS, s.lnkLanePower k l false = (s.setPort k ((s.port k).setLane l y)).lostLane k ∧ y.power = false :=
    ⟨_, rfl, rfl⟩
  obtain ⟨y, heq, hy⟩ := hoff
  have hport : (s.setPort k ((s.port k).setLane l y)).port k = (s.port k).setLane l y := State.setPort_get_port_same ..
  have hset : OnlyPort k s (s.setPort k ((s.port k).setLane l y)) := State.setPort_only _
  rw [heq]
  generalize s.setPort k ((s.port k).setLane l y) = t at hport hset
  have hlost := State.lostLane_power t k
  refine ⟨by rw [hlost.power, hport, Port.lane_setLane_same, hy], ?_⟩
  rintro (hst | hidle)
  · rw [State.lostLane_of_untrained (by rw [hport]; exact hst)]
    exact hset
  · exact hset.trans (hlost.idle (hidle.of_only hset (by rw [hport]; exact hidle.1))).1

/-- R140, R160: the power bit takes the value written. -/
theorem State.laneWrite_powers (v : Bool) :
    (((s.laneWrite k l (BitVec.ofNat 32 (bit v 8))).port k).lane l).power = v ∧
      (v = true ∨ ((s.port k).st ≠ .train ∧ (s.port k).st ≠ .retrain) ∨ s.PortIdle k →
        OnlyPort k s (s.laneWrite k l (BitVec.ofNat 32 (bit v 8)))) := by
  rw [State.laneWrite_power]
  split
  · rename_i hsame
    exact ⟨hsame.symm, fun _ => .refl⟩
  · cases v with
    | true =>
      obtain ⟨honly, hpower⟩ := State.lnkLanePower_on (s := s) (k := k) (l := l)
      exact ⟨hpower, fun _ => honly⟩
    | false =>
      obtain ⟨hpower, honly⟩ := State.lnkLanePower_off (s := s) (k := k) (l := l)
      exact ⟨hpower, fun h => honly (h.resolve_left (by decide))⟩

/-- R160, R168: clear_fail takes a FAILED lane to lane training. -/
theorem State.laneWrite_clears (hst : ((s.port k).lane l).st = .failed) (htraining : ((s.port k).lane l).training = false) :
    OnlyPort k s (s.laneWrite k l (BitVec.ofNat 32 (512 + bit ((s.port k).lane l).power 8))) ∧
      (((s.laneWrite k l (BitVec.ofNat 32 (512 + bit ((s.port k).lane l).power 8))).port k).lane l).training = true ∧
      (((s.laneWrite k l (BitVec.ofNat 32 (512 + bit ((s.port k).lane l).power 8))).port k).lane l).clearFail = true := by
  have hwrite : s.laneWrite k l (BitVec.ofNat 32 (512 + bit ((s.port k).lane l).power 8)) = s.lnkClearFail k l := by
    obtain ⟨hpower, hclear⟩ := getLsbD_laneClearFail ((s.port k).lane l).power
    rw [State.laneWrite, hpower, hclear]; simp
  rw [hwrite, State.lnkClearFail]
  dsimp only
  rw [if_pos ⟨hst, by rw [htraining]; rfl⟩, State.laneTrain_lane, State.setPort_get_port_same, Port.lane_setLane_same]
  exact ⟨(State.setPort_only _).trans State.laneTrain_only, rfl, rfl⟩

/-- R168: where a lane's register stands, and that it is keyed. -/
theorem State.lnkCell_lane (hl : l < 32) : ∃ x, s.lnkCell k (0x1000 + 16 * l) = some ⟨.keyed, x⟩ := by
  interval_cases l <;> exact ⟨_, rfl⟩

theorem State.lnkWrite_lane (hl : l < 32) (v : W32) : s.lnkWrite k (0x1000 + 16 * l) v = s.laneWrite k l v := by
  interval_cases l <;> rfl

/-- What holds after the write of a lane's register whatever armings are left, holds after the command. -/
theorem laneKey_leads {c : Instr} {v : W32} {P : State → Prop} (hk : k < 8) (hl : l < 32)
    (hkey : s.CanKey .owl (lnkOff k (0x1000 + 16 * l)))
    (hexec : exec c s = .next (s.write .owl (lnkOff k (0x1000 + 16 * l)) v))
    (h : ∀ a, P (State.laneWrite { s with arms := a } k l v)) : Leads c s P := by
  obtain ⟨x, hcell⟩ := State.lnkCell_lane (s := s) (k := k) hl
  refine lnkKey_leads hk (by omega) (by omega) (by omega) hcell hkey hexec fun a => ?_
  rw [State.lnkWrite_lane hl]
  exact h a

end

/-- Settles O17: a keyed write uses up the arming of its block, and then its register's operation acts on the port. -/
theorem linkCommands : Obligations.LinkCommands := by
  refine ⟨?_, ?_, ?_, ?_, ?_, ?_, ?_, ?_, fun s k => downHoldoffEnd_leads⟩
  · intro s k hk hkey hst henable
    refine lnkKey_leads hk (by decide) (by decide) (by decide) rfl hkey rfl fun a => ?_
    obtain ⟨honly, hport⟩ := State.lnkCtrl_enables (s := { s with arms := a }) (s.port k).autoUp (s.port k).autoDrop hst henable
    exact ⟨honly.of_arms, (congrArg Port.st hport :), (congrArg Port.enable hport :), (congrArg Port.since hport :)⟩
  · intro s k hk hkey henable
    refine lnkKey_leads hk (by decide) (by decide) (by decide) rfl hkey rfl fun a => ?_
    obtain ⟨hst, henable', honly⟩ := State.lnkCtrl_disables (s := { s with arms := a }) (s.port k).autoUp (s.port k).autoDrop henable
    exact ⟨hst, henable', fun hidle => (honly hidle).of_arms⟩
  · intro s k hk hkey hst hdone henable hlayout hlanes
    have hword : lnkCtrlWord true true (s.port k).autoDrop =
        BitVec.ofNat 32 (b2n (s.port k).enable + 2 + bit (s.port k).autoDrop 2) := by rw [henable]; rfl
    have hexec : exec (.lnkAutoUp k) s = .next (s.write .owl (lnkOff k 0x10) (lnkCtrlWord true true (s.port k).autoDrop)) := by
      rw [hword]; rfl
    refine lnkKey_leads hk (by decide) (by decide) (by decide) rfl hkey hexec fun a => ?_
    obtain ⟨honly, hport⟩ := State.lnkCtrl_trains (s := { s with arms := a }) (s.port k).autoDrop hst hdone henable hlayout hlanes
    exact ⟨honly.of_arms, hport⟩
  · intro s k hk hkey hst
    refine lnkKey_leads hk (by decide) (by decide) (by decide) rfl hkey rfl fun a => ?_
    obtain ⟨hdown, hreason, hdowns, honly⟩ := State.lnkCmd_down (s := { s with arms := a }) hst
    exact ⟨hdown, hreason, hdowns, fun hidle => (honly hidle).of_arms⟩
  · intro s k hk hkey hcan
    refine lnkKey_leads hk (by decide) (by decide) (by decide) rfl hkey rfl fun a => ?_
    obtain ⟨honly, hport⟩ := State.lnkCmd_retrains (s := { s with arms := a }) hcan
    exact ⟨honly.of_arms, hport⟩
  · intro s k hk hkey hst hout hin hsize hready
    refine lnkKey_leads hk (by decide) (by decide) (by decide) rfl hkey rfl fun a => ?_
    obtain ⟨honly, hport⟩ := State.lnkCmd_plans (s := { s with arms := a }) hst hout hin hsize hready
    exact ⟨honly.of_arms, hport⟩
  · intro s k l v hk hl hkey
    refine laneKey_leads hk hl hkey rfl fun a => ?_
    obtain ⟨hpower, honly⟩ := State.laneWrite_powers (s := { s with arms := a }) (k := k) (l := l) v
    exact ⟨hpower, fun h => (honly h).of_arms⟩
  · intro s k l hk hl hkey hst htraining
    refine laneKey_leads hk hl hkey rfl fun a => ?_
    obtain ⟨honly, hport⟩ := State.laneWrite_clears (s := { s with arms := a }) hst htraining
    exact ⟨honly.of_arms, hport⟩

end Sys2Proof.Machine
end

section
/-! SUPPORT. Traffic (R188, R460, R466–R471, R473, R475–R479): what a command leaves of one partition's state on one port, a message that
leaves its egress queue, and the registers that clear maxima and apply settings. -/

namespace Sys2Proof.Machine
open Sys2Proof

/-! ### One partition's state on one port -/

@[simp] theorem State.setPqos_get_same (s : State) (p k : Nat) (x : PortQos) : (s.setPqos p k x).pqos p k = x := by
  simp [State.setPqos_get]

/-- Nothing but what partition `p` holds on port `k` has changed. -/
structure OnlyPqos (p k : Nat) (s t : State) : Prop where
  frame : t = { s with parts := t.parts }
  others : ∀ q j, ¬ (q = p ∧ j = k) → t.pqos q j = s.pqos q j

theorem State.setPqos_only (s : State) (p k : Nat) (x : PortQos) : OnlyPqos p k s (s.setPqos p k x) where
  frame := rfl
  others q j hne := by rw [State.setPqos_get, if_neg fun h => hne ⟨h.1.symm, h.2.symm⟩]

theorem OnlyPqos.trans {p k : Nat} {s t u : State} (h : OnlyPqos p k s t) (g : OnlyPqos p k t u) : OnlyPqos p k s u where
  frame := by rw [g.frame, h.frame]
  others q j hne := (g.others q j hne).trans (h.others q j hne)

section
variable {α : Type} {f : State → α → State} {key : α → Nat × Nat} (hf : ∀ s a, OnlyPqos (key a).1 (key a).2 s (f s a))
include hf

theorem State.foldl_pqos_frame (l : List α) (s : State) : l.foldl f s = { s with parts := (l.foldl f s).parts } :=
  List.foldlRecOn l f (motive := fun t => t = { s with parts := t.parts }) rfl fun t ht a _ => by rw [(hf t a).frame, ht]

/-- Changes of other (partition, port)s leave this one. -/
theorem State.foldl_pqos_other {p k : Nat} (l : List α) (s : State) (hl : (p, k) ∉ l.map key) : (l.foldl f s).pqos p k = s.pqos p k :=
  List.foldlRecOn l f (motive := fun t => t.pqos p k = s.pqos p k) rfl fun t ht a ha =>
    ((hf t a).others p k fun h => hl (List.mem_map.2 ⟨a, ha, Prod.ext h.1.symm h.2.symm⟩)).trans ht

/-- One change of each (partition, port): each is changed as it stood. -/
theorem State.foldl_pqos {l : List α} (s : State) (hl : (l.map key).Nodup) {a : α} (ha : a ∈ l) :
    ∃ r : State, r = { s with parts := r.parts } ∧ r.pqos (key a).1 (key a).2 = s.pqos (key a).1 (key a).2 ∧
      (l.foldl f s).pqos (key a).1 (key a).2 = (f r a).pqos (key a).1 (key a).2 := by
  obtain ⟨before, after, rfl⟩ := List.append_of_mem ha
  rw [List.map_append, List.map_cons, List.nodup_middle, List.nodup_cons, List.mem_append, not_or] at hl
  obtain ⟨⟨hbefore, hafter⟩, -⟩ := hl
  refine ⟨before.foldl f s, State.foldl_pqos_frame hf .., State.foldl_pqos_other hf _ _ hbefore, ?_⟩
  rw [List.foldl_append, List.foldl_cons, State.foldl_pqos_other hf _ _ hafter]

end

/-- An action on every (partition, port) of a layout with one partition. -/
theorem State.eachPq_one {f : State → Nat → Nat → State} {s : State} {p k : Nat} (hf : ∀ s k, OnlyPqos p k s (f s p k))
    (hpart : s.partList = [p]) (hk : k < 10) :
    s.eachPq f = { s with parts := (s.eachPq f).parts } ∧
    ∃ r : State, r = { s with parts := r.parts } ∧ r.pqos p k = s.pqos p k ∧ (s.eachPq f).pqos p k = (f r p k).pqos p k := by
  have heach : s.eachPq f = (List.range 10).foldl (fun s k => f s p k) s := by rw [State.eachPq, hpart]; rfl
  have hkeys : ((List.range 10).map fun k => (p, k)).Nodup := List.nodup_range.map fun _ _ h => (Prod.mk.inj h).2
  rw [heach]
  exact ⟨State.foldl_pqos_frame (key := fun k => (p, k)) hf _ _,
    State.foldl_pqos (key := fun k => (p, k)) hf s hkeys (List.mem_range.2 hk)⟩

/-! ### The refill and the depth sample (R460, R467, R473, R476) -/

section
variable (s : State) (p k : Nat)

/-- R473: an apply that takes effect changes the settings in force; the buckets and the queue stay. -/
theorem PortQos.takeApply_frame (q : PortQos) : q.takeApply = { q with inForce := q.takeApply.inForce, applyDue := false } := by
  unfold PortQos.takeApply
  split
  · rfl
  · next h => rw [Bool.not_eq_true] at h; rw [← h]

theorem State.refillOne_only : OnlyPqos p k s (s.refillOne p k) := (s.setPqos_only ..).trans (State.setPqos_only ..)

theorem State.refillOne_keeps : ((s.refillOne p k).pqos p k).inForce = (s.pqos p k).takeApply.inForce ∧
    ((s.refillOne p k).pqos p k).egress = (s.pqos p k).egress := by
  simp only [State.refillOne, State.setPqos_get_same, true_and]
  rw [PortQos.takeApply_frame]

/-- R460: a policer with settings of its own is refilled at them. -/
theorem State.refillOne_policer {q : PortQos} (hq : q = (s.pqos p k).takeApply) (hon : q.inForce.ctrl.getLsbD 0 = true) :
    ((s.refillOne p k).pqos p k).committed = refill q.inForce.cir.toNat (burstOf k q.inForce.cbs) (s.pqos p k).committed ∧
    ((s.refillOne p k).pqos p k).peak = refill q.inForce.pir.toNat (burstOf k q.inForce.pbs) (s.pqos p k).peak := by
  have hpolicer : (s.setPqos p k q).policer p k =
      some ⟨q.inForce.cir.toNat, q.inForce.pir.toNat, burstOf k q.inForce.cbs, burstOf k q.inForce.pbs, q.inForce.ctrl.getLsbD 1⟩ := by
    simp only [State.policer, State.setPqos_get_same, hon, if_true]
  simp only [State.refillOne, ← hq, hpolicer, State.setPqos_get_same]
  rw [hq, PortQos.takeApply_frame]
  exact ⟨rfl, rfl⟩

/-- R466, R467: a shaper with settings of its own is refilled at them. -/
theorem State.refillOne_shaper {q : PortQos} (hq : q = (s.pqos p k).takeApply) (hon : q.inForce.ctrl.getLsbD 2 = true) :
    ((s.refillOne p k).pqos p k).shaper = refill q.inForce.srate.toNat (burstOf k q.inForce.sburst) (s.pqos p k).shaper := by
  have hshaper : (s.setPqos p k q).shaperOf p k = (q.inForce.srate.toNat, burstOf k q.inForce.sburst) := by
    simp only [State.shaperOf, State.setPqos_get_same, hon, if_true]
  simp only [State.refillOne, ← hq, hshaper, State.setPqos_get_same]
  rw [hq, PortQos.takeApply_frame]

theorem exec_policerRefill (h : s.due 0 16 = true) : exec .policerRefill s = .next ((s.took 0 16).eachPq State.refillOne) :=
  congrArg _ (if_pos h)

theorem exec_queueDepthSample (h : s.due 1 1024 = true) :
    exec .queueDepthSample s = .next ((s.took 1 1024).eachPq State.sampleOne) :=
  congrArg _ (if_pos h)

end

/-! ### A message leaves its egress queue (R188, R466–R468, R475) -/

/-- A fold that keeps one of two at each step ends with one of those it was given. -/
theorem foldl_choice_mem {α : Type} {f : α → α → α} (hf : ∀ a b, f a b = a ∨ f a b = b) (l : List α) (a : α) :
    l.foldl f a ∈ a :: l :=
  List.foldlRecOn l f (motive := (· ∈ a :: l)) List.mem_cons_self fun b hb c hc => by
    obtain h | h := hf b c
    · rw [h]; exact hb
    · rw [h]; exact List.mem_cons_of_mem _ hc

section
variable {s : State} {k p : Nat} {e : EgMsg} {rest : List EgMsg} (hhead : (s.pqos p k).egress = e :: rest)

/-- R468: the round-robin visits each queue once, the one that is served among them. -/
theorem State.nextEgress_visits {w : Nat} {visits : List (Nat × Nat)} (h : s.nextEgress k = some (w, visits)) :
    (visits.map Prod.fst).Nodup ∧ w ∈ visits.map Prod.fst := by
  have hnodup : (((List.range 32).map fun i => (tget 31 s.qos.turn k + 1 + i) % 32).filter (s.egReady k)).Nodup := by
    refine (List.Nodup.map_on (fun i hi j hj hij => ?_) List.nodup_range).filter _
    rw [List.mem_range] at hi hj
    omega
  rw [State.nextEgress] at h
  dsimp only at h
  split at h
  · cases h
  · next a l hready =>
    cases h
    rw [List.map_map, show (Prod.fst ∘ fun p : Nat => _) = id from rfl, List.map_id]
    refine ⟨hnodup, ?_⟩
    rw [hready]
    exact foldl_choice_mem (fun b q => (ite_eq_or_eq ..).symm) l a

/-- R468: the quanta that one queue gets. -/
def State.giveQuantum (k : Nat) (s : State) (v : Nat × Nat) : State :=
  if v.2 = 0 then s else s.setPqos v.1 k { s.pqos v.1 k with deficit := (s.pqos v.1 k).deficit + v.2 * s.quantum v.1 k }

theorem State.giveQuanta_eq (w : Nat) (visits : List (Nat × Nat)) : s.giveQuanta k w visits =
    { visits.foldl (State.giveQuantum k) s with qos :=
      { (visits.foldl (State.giveQuantum k) s).qos with turn := tput (visits.foldl (State.giveQuantum k) s).qos.turn k w } } := rfl

theorem State.giveQuantum_only (v : Nat × Nat) : OnlyPqos v.1 k s (State.giveQuantum k s v) := by
  unfold State.giveQuantum
  split
  · exact ⟨rfl, fun _ _ _ => rfl⟩
  · exact State.setPqos_only ..

theorem State.giveQuantum_pqos (v : Nat × Nat) : (State.giveQuantum k s v).pqos v.1 k =
    { s.pqos v.1 k with deficit := (s.pqos v.1 k).deficit + v.2 * s.quantum v.1 k } := by
  unfold State.giveQuantum
  split
  · next h => rw [h, Nat.zero_mul, Nat.add_zero]
  · exact State.setPqos_get_same ..

theorem State.giveQuanta_frame (w : Nat) (visits : List (Nat × Nat)) : s.giveQuanta k w visits =
    { s with parts := (s.giveQuanta k w visits).parts, qos := { s.qos with turn := tput s.qos.turn k w } } := by
  rw [State.giveQuanta_eq, State.foldl_pqos_frame (f := State.giveQuantum k) (key := fun v => (v.1, k)) fun s v =>
    State.giveQuantum_only (s := s) v]

/-- R468: a queue that the round-robin visits gets its quantum at each visit. -/
theorem State.giveQuanta_pqos {w n : Nat} {visits : List (Nat × Nat)} (hnodup : (visits.map Prod.fst).Nodup) (hmem : (p, n) ∈ visits) :
    (s.giveQuanta k w visits).pqos p k = { s.pqos p k with deficit := (s.pqos p k).deficit + n * s.quantum p k } := by
  have hkeys : (visits.map fun v => (v.1, k)).Nodup := by
    have hpair := hnodup.map (f := fun q => (q, k)) fun _ _ h => (Prod.mk.inj h).1
    rwa [List.map_map] at hpair
  obtain ⟨r, hr, hpqos, hlast⟩ := State.foldl_pqos (f := State.giveQuantum k) (key := fun v => (v.1, k))
    (fun s v => State.giveQuantum_only (s := s) v) s hkeys hmem
  have hquantum : r.quantum p k = s.quantum p k := by rw [hr]; rfl
  show (visits.foldl (State.giveQuantum k) s).pqos p k = _
  rw [hlast, State.giveQuantum_pqos, hpqos, hquantum]

/-- R466: a message that its port takes is sent at once. -/
theorem State.offer_of_takes (hframe : e.frame = none) (htakes : s.portTakes k e = true) (clk : Nat) :
    (s.port k).offer clk e = (s.port k).sendMsg clk e.m := by
  simp only [State.portTakes, hframe, Bool.and_eq_true] at htakes
  obtain ⟨⟨-, hcan⟩, hfirst⟩ := htakes
  exact if_pos ⟨hcan, hfirst⟩

include hhead

theorem State.egressDepart_stale (hstale : s.staleMsg e = true) : s.egressDepart k p =
    (s.setPqos p k { s.pqos p k with egress := rest, waited := false }).countRspDrop e.arrPort := by
  simp [State.egressDepart, hhead, hstale]

theorem State.egressDepart_waits (hfresh : s.staleMsg e = false) (htakes : s.portTakes k e = true)
    (hshort : (s.pqos p k).shaper < e.size * 1200) (hfirst : (s.pqos p k).waited = false) :
    s.egressDepart k p = s.setPqos p k { s.pqos p k with waited := true, shpWaits := sat (s.pqos p k).shpWaits } := by
  simp [State.egressDepart, hhead, hfresh, htakes, hshort, hfirst]

theorem State.egressDepart_departs {visits : List (Nat × Nat)} (hframe : e.frame = none) (hfresh : s.staleMsg e = false)
    (htakes : s.portTakes k e = true) (hfits : e.size * 1200 ≤ (s.pqos p k).shaper) (hnext : s.nextEgress k = some (p, visits)) :
    s.egressDepart k p =
      ((s.giveQuanta k p visits).setPqos p k (((s.giveQuanta k p visits).pqos p k).depart e.size s.clk e.since)).setPort k
        ((s.port k).sendMsg s.clk e.m) := by
  have hport : (s.giveQuanta k p visits).port k = s.port k := by rw [State.giveQuanta_frame]; rfl
  have hclk : (s.giveQuanta k p visits).clk = s.clk := by rw [State.giveQuanta_frame]
  have hlong : ¬ (s.pqos p k).shaper < e.size * 1200 := Nat.not_lt.2 hfits
  have hoffer := State.offer_of_takes hframe htakes s.clk
  simp only [State.egressDepart, hhead, hfresh, htakes, hnext, hframe, Bool.false_eq_true, Bool.not_true, ne_eq, not_true_eq_false,
    if_false, if_neg hlong]
  show State.setPort _ k (((s.giveQuanta k p visits).port k).offer (s.giveQuanta k p visits).clk e) = _
  rw [hport, hclk, hoffer]

end

/-! ### Registers (R24, R476, R478, R479) -/

section
variable {s : State} {path : Path} {p k : Nat} (hp : p < 32) (hk : k < 10)
include hp hk

theorem blockAt_maxclr : blockAt (pageBase p + (0x4050 + 0x100 * k)) = (.page p, 0x4050 + 0x100 * k) := blockAt_page hp (by omega)

theorem State.cell_maxclr : s.cell (pageBase p + (0x4050 + 0x100 * k)) = some ⟨.rw, 0⟩ := by
  simp only [State.cell, blockAt_maxclr hp hk]
  interval_cases k <;> rfl

/-- R476: a path that reaches the page clears the maxima that it names. -/
theorem State.pageReg_maxclr (hup : s.pathUp path = true) (hpage : Path.toPage path p = true) (v : W32) :
    s.pageReg path p (0x4050 + 0x100 * k) v = s.maxClr p k v := by
  have hblock := blockAt_maxclr hp hk
  have h4 : (pageBase p + (0x4050 + 0x100 * k)) % 4 = 0 := by rw [pageBase]; omega
  have hbar : owlBarred path (pageBase p + (0x4050 + 0x100 * k)) = false := by
    simp [owlBarred, hblock]; omega
  have hunlock : isUnlock (pageBase p + (0x4050 + 0x100 * k)) = false := by
    simp [isUnlock, hblock, unlockAt]; omega
  have heffect : s.effect path (pageBase p + (0x4050 + 0x100 * k)) v = s.maxClr p k v := by
    simp only [State.effect, hblock]
    interval_cases k <;> rfl
  rw [State.pageReg, if_pos ⟨hup, hpage⟩, State.regWrite_rw v h4 hbar hunlock (State.cell_maxclr hp hk), heffect]

theorem blockAt_qosApply : blockAt (0xA0101C + 0x400 * p + 0x40 * k) = (.qos, 0x101C + 0x400 * p + 0x40 * k) := by
  rw [blockAt]
  iterate 7 rw [if_neg (by omega)]
  rw [if_pos (by omega)]
  congr 1; omega

/-- R477: the partition, the port and the register of the block that the offset names. -/
theorem qosApply_place : (0x101C + 0x400 * p + 0x40 * k - 0x1000) / 0x400 = p ∧ (0x101C + 0x400 * p + 0x40 * k) % 0x400 / 0x40 = k ∧
    (0x101C + 0x400 * p + 0x40 * k) % 0x40 = 0x1C := by omega

theorem State.cell_qosApply : s.cell (0xA0101C + 0x400 * p + 0x40 * k) = some ⟨.keyed, 16 * (s.pqos p k).result.toNat⟩ := by
  have hin : 0x1000 ≤ 0x101C + 0x400 * p + 0x40 * k ∧ 0x101C + 0x400 * p + 0x40 * k < 0x9000 ∧
      (0x101C + 0x400 * p + 0x40 * k) % 0x400 < 0x280 := by omega
  obtain ⟨hp', hk', hi⟩ := qosApply_place hp hk
  simp only [State.cell, blockAt_qosApply hp hk]
  unfold State.qosCell
  split
  · omega
  · omega
  · omega
  · rw [if_pos hin, hp', hk', hi]; rfl

/-- R32–R34, R478: Owl's keyed write of an apply. -/
theorem exec_qosApply (hkey : s.CanKey .owl (0xA0101C + 0x400 * p + 0x40 * k)) :
    exec (.qosApply p k) s = .next ((s.disarm .owl (unlockOf (0xA0101C + 0x400 * p + 0x40 * k))).qosApply p k) := by
  obtain ⟨hup, harmed⟩ := hkey
  have hblock := blockAt_qosApply hp hk
  have hbar : owlBarred .owl (0xA0101C + 0x400 * p + 0x40 * k) = false := by rw [owlBarred, hblock]; rfl
  have hunlock : isUnlock (0xA0101C + 0x400 * p + 0x40 * k) = false := by simp [isUnlock, hblock, unlockAt]; omega
  have heffect (t : State) : t.effect .owl (0xA0101C + 0x400 * p + 0x40 * k) 1 = t.qosApply p k := by
    obtain ⟨hp', hk', hi⟩ := qosApply_place hp hk
    simp only [State.effect, hblock, State.qosWrite, hp', hk', hi]
    rfl
  have hwrite : s.write .owl (0xA0101C + 0x400 * p + 0x40 * k) 1 =
      (s.disarm .owl (unlockOf (0xA0101C + 0x400 * p + 0x40 * k))).qosApply p k := by
    rw [State.write_of_pathUp _ _ _ _ hup, show reach .owl (0xA0101C + 0x400 * p + 0x40 * k) = 0xA0101C + 0x400 * p + 0x40 * k from rfl,
      State.regWrite_keyed 1 (by omega) hbar hunlock (State.cell_qosApply hp hk), if_pos harmed, heffect]
  exact congrArg _ hwrite

end

/-! ### The statement's clauses -/

section
variable (s : State) (k p : Nat)

theorem exec_egressDepart : exec (.egressDepart k p) s = .next (s.egressDepart k p) := rfl
theorem exec_maxclrDepth (path : Path) : exec (.maxclrDepth path p k) s = .next (s.pageReg path p (0x4050 + 0x100 * k) 1) := rfl
theorem exec_maxclrDelay (path : Path) : exec (.maxclrDelay path p k) s = .next (s.pageReg path p (0x4050 + 0x100 * k) 2) := rfl
theorem exec_gateSlotStart : exec .gateSlotStart s = execGateSlotStart s := rfl

end

/-- R460: on the one partition of a layout, a refill is that of each of its ports. -/
theorem policerRefill_leads {s : State} {p k : Nat} {q : PortQos} (hdue : s.due 0 16 = true) (hpart : s.partList = [p]) (hk : k < 10)
    (hq : q = (s.pqos p k).takeApply) : Leads .policerRefill s fun t =>
      t = { s with parts := t.parts, cadence := t.cadence } ∧ (t.pqos p k).inForce = q.inForce ∧
      (t.pqos p k).egress = (s.pqos p k).egress ∧
      (q.inForce.ctrl.getLsbD 0 = true →
        (t.pqos p k).committed = min ((s.pqos p k).committed + q.inForce.cir.toNat) (burstOf k q.inForce.cbs * 1200) ∧
        (t.pqos p k).peak = min ((s.pqos p k).peak + q.inForce.pir.toNat) (burstOf k q.inForce.pbs * 1200)) ∧
      (q.inForce.ctrl.getLsbD 2 = true →
        (t.pqos p k).shaper = min ((s.pqos p k).shaper + q.inForce.srate.toNat) (burstOf k q.inForce.sburst * 1200)) := by
  obtain ⟨hframe, r, -, hpqos, hlast⟩ := State.eachPq_one (s := s.took 0 16) (fun s k => s.refillOne_only p k) hpart hk
  replace hpqos : r.pqos p k = s.pqos p k := hpqos
  rw [← hpqos] at hq ⊢
  obtain ⟨hforce, hegress⟩ := r.refillOne_keeps p k
  refine leads_of_exec (exec_policerRefill s hdue) ⟨?_, ?_, ?_, fun hon => ?_, fun hon => ?_⟩
  · rw [hframe]; rfl
  · rw [hlast, hforce, hq]
  · rw [hlast, hegress]
  · rw [hlast]; exact r.refillOne_policer p k hq hon
  · rw [hlast]; exact r.refillOne_shaper p k hq hon

/-- R466–R468, R475: the message that the round-robin serves leaves by its port. -/
theorem egressDepart_leads {s : State} {k p : Nat} {e : EgMsg} {rest : List EgMsg} {visits : List (Nat × Nat)}
    (hhead : (s.pqos p k).egress = e :: rest) (hframe : e.frame = none) (htakes : s.portTakes k e = true) (hfresh : s.staleMsg e = false)
    (hfits : e.size * 1200 ≤ (s.pqos p k).shaper) (hnext : s.nextEgress k = some (p, visits)) :
    Leads (.egressDepart k p) s fun t =>
      t = { s with parts := t.parts, ports := t.ports, qos := { s.qos with turn := tput s.qos.turn k p } } ∧
      (∀ j, j ≠ k → t.port j = s.port j) ∧
      t.port k = (s.port k).sendMsg s.clk e.m ∧ (t.pqos p k).egress = rest ∧
      (t.pqos p k).shaper = (s.pqos p k).shaper - e.size * 1200 ∧
      (t.pqos p k).shpBytes = satAdd (s.pqos p k).shpBytes e.size ∧
      ∀ n, (p, n) ∈ visits →
        (t.pqos p k).deficit = if rest = [] then 0 else (s.pqos p k).deficit + n * s.quantum p k - e.size := by
  obtain ⟨hnodup, hserved⟩ := State.nextEgress_visits hnext
  have hgiven {n : Nat} (hmem : (p, n) ∈ visits) := State.giveQuanta_pqos (s := s) (k := k) (w := p) hnodup hmem
  have hgives := State.giveQuanta_frame (s := s) (k := k) p visits
  have hleft (x : PortQos) (f : Port) (j : Nat) : (((s.giveQuanta k p visits).setPqos p k x).setPort k f).pqos p j =
      ((s.giveQuanta k p visits).setPqos p k x).pqos p j := rfl
  obtain ⟨⟨_, n⟩, hmem, rfl⟩ := List.mem_map.1 hserved
  refine leads_of_exec ((exec_egressDepart ..).trans
    (congrArg _ (State.egressDepart_departs hhead hframe hfresh htakes hfits hnext))) ⟨?_, ?_, ?_, ?_, ?_, ?_, ?_⟩
  · rw [hgives]; rfl
  · intro j hj
    rw [State.setPort_get_port, if_neg hj.symm, hgives]; rfl
  · exact State.setPort_get_port_same ..
  · rw [hleft, State.setPqos_get_same, hgiven hmem, PortQos.depart]
    simp only [hhead, List.drop_one, List.tail_cons]
  · rw [hleft, State.setPqos_get_same, hgiven hmem, PortQos.depart]
  · rw [hleft, State.setPqos_get_same, hgiven hmem, PortQos.depart]
  · intro n hmem
    rw [hleft, State.setPqos_get_same, hgiven hmem, PortQos.depart]
    simp only [hhead, List.drop_one, List.tail_cons, List.isEmpty_iff]

/-- R476: on the one partition of a layout, a sample is that of each of its ports. -/
theorem queueDepthSample_leads {s : State} {p k : Nat} (hdue : s.due 1 1024 = true) (hpart : s.partList = [p]) (hk : k < 10) :
    Leads .queueDepthSample s fun t =>
      t = { s with parts := t.parts, cadence := t.cadence } ∧ (t.pqos p k).egress = (s.pqos p k).egress ∧
      (t.pqos p k).samples = sat (s.pqos p k).samples ∧
      (t.pqos p k).depthSum = satAdd (s.pqos p k).depthSum (((s.pqos p k).egress.map (·.size)).foldl (· + ·) 0) := by
  obtain ⟨hframe, r, -, hpqos, hlast⟩ := State.eachPq_one (f := State.sampleOne) (s := s.took 1 1024)
    (fun s k => s.setPqos_only p k _) hpart hk
  replace hpqos : r.pqos p k = s.pqos p k := hpqos
  rw [← hpqos]
  refine leads_of_exec (exec_queueDepthSample s hdue) ⟨?_, ?_⟩
  · rw [hframe]; rfl
  · rw [hlast, State.sampleOne, State.setPqos_get_same]; exact ⟨rfl, rfl, rfl⟩

/-- R469–R471: a slot that lets requests in, where none waits. -/
theorem gateSlotStart_leads {s : State} (hlay : s.lay ≠ none)
    (hslot : 32 ≤ slotOwner s.gateSlots s.qos.gate ∨ 32 < slotLeft s.gateSlots s.qos.gate)
    (hnone : ∀ u ∈ s.txns, u.phase ≠ .parked) :
    Leads .gateSlotStart s fun t => t = { s with qos := { s.qos with gateOpen := true } } := by
  have hopens : ¬ (s.lay.isNone = true ∨ slotOwner s.gateSlots s.qos.gate < 32 ∧ slotLeft s.gateSlots s.qos.gate ≤ 32) := by
    rintro (h | ⟨howner, hleft⟩)
    · exact hlay (Option.isNone_iff_eq_none.1 h)
    · omega
  have hparked : s.txns.filter (fun u => decide (u.phase = .parked)) = [] :=
    List.filter_eq_nil_iff.2 fun u hu h => hnone u hu (of_decide_eq_true h)
  refine leads_of_exec ((exec_gateSlotStart s).trans (if_neg hopens)) ?_
  dsimp only
  rw [hparked]; rfl

/-- Settles O46: a refill and a sample act on each (partition, port) alone, a departure on its own, and the registers on theirs. -/
theorem trafficControls : Obligations.TrafficControls := by
  refine ⟨fun s p k q => policerRefill_leads, fun s k p e rest visits => egressDepart_leads, ?_, ?_, fun s p k => queueDepthSample_leads,
    fun s => gateSlotStart_leads, ?_, ?_, ?_, ?_, ?_⟩
  · intro s k p e rest hhead hstale
    refine leads_of_exec ((exec_egressDepart ..).trans (congrArg _ (State.egressDepart_stale hhead hstale))) ⟨rfl, ?_, ?_⟩
    · exact congrArg PortQos.egress (State.setPqos_get_same s p k _)
    · exact congrArg Port.rspDrop (State.setPort_get_port_same ..)
  · intro s k p e rest hhead _ htakes hfresh hshort hfirst
    exact leads_of_exec ((exec_egressDepart ..).trans (congrArg _ (State.egressDepart_waits hhead hfresh htakes hshort hfirst)))
      ⟨rfl, State.setPqos_get_same ..⟩
  · intro s howner hleft
    exact leads_of_exec (if_pos ⟨howner, hleft⟩) rfl
  · intro s path p k hp hk hup hpage
    refine leads_of_exec ((exec_maxclrDepth ..).trans (congrArg _ (State.pageReg_maxclr hp hk hup hpage 1))) ⟨rfl, ?_⟩
    rw [State.maxClr, State.setPqos_get_same]
    by_cases h : (s.pqos p k).depthAt = some s.clk <;> simp [h]
  · intro s path p k hp hk hup hpage
    refine leads_of_exec ((exec_maxclrDelay ..).trans (congrArg _ (State.pageReg_maxclr hp hk hup hpage 2))) ⟨rfl, ?_⟩
    rw [State.maxClr, State.setPqos_get_same]
    by_cases h : (s.pqos p k).delayAt = some s.clk <;> simp [h]
  · intro s p k hp hk hkey happlied
    exact leads_of_exec ((exec_qosApply hp hk hkey).trans (congrArg _ (if_pos happlied))) ⟨rfl, State.setPqos_get_same ..⟩
  · intro s p k hp hk hkey hrefused
    exact leads_of_exec ((exec_qosApply hp hk hkey).trans (congrArg _ (if_neg hrefused))) ⟨rfl, State.setPqos_get_same .., rfl⟩

end Sys2Proof.Machine
end

section
/-! SUPPORT. Messages that arrive (R155, R176, R180, R199, R227): what the receive checks leave of one that passes them, and the
fabric-management messages. -/

namespace Sys2Proof.Machine
open Sys2Proof

/-! ### The receive checks (R155, R176, R180, R198) -/

section
variable {s : State} {k : Nat} {ty : BitVec 6} {m : Msg}

/-- R155: the slots of a message leave the receive buffer of its port. -/
theorem State.takeMsg_port : ∃ freed slots, (s.takeMsg k ty m).port k = { s.port k with rxFreed := freed, rxSlots := slots } :=
  ⟨_, _, State.setPort_get_port_same ..⟩

theorem State.takeMsg_only : OnlyPort k s (s.takeMsg k ty m) := State.setPort_only _

theorem State.takeMsg_fmgOk (d : Node) : (s.takeMsg k ty m).fmgOk k d = s.fmgOk k d := by
  obtain ⟨freed, slots, hport⟩ := State.takeMsg_port (s := s) (k := k) (ty := ty) (m := m)
  simp only [State.fmgOk, hport]

/-- R441: no disturbance is no error. -/
theorem sramCheck_zero : sramCheck 0 ≠ .uncorrectable := by decide

/-- R176, R180: the generation check of a message that passes, with the table undisturbed. -/
theorem State.Passes.genCheck (h : s.Passes k ty m) : (s.takeMsg k ty m).genCheck ty m 0 = (true, s.takeMsg k ty m) := by
  by_cases hclass : tyClass ty = 5
  · simp only [State.genCheck, if_neg sramCheck_zero]
    simp [hclass]
  · obtain ⟨hknown, hnode⟩ := h.live hclass
    have hknown' : (s.takeMsg k ty m).nodeKnown m.src = true := hknown
    have hnode' : (s.takeMsg k ty m).node m.src = { gen := m.srcGen } := hnode
    simp only [State.genCheck, if_neg sramCheck_zero]
    split
    · simp [State.srcCheck, hknown', hnode']
    · simp [hnode']

variable (h : s.Passes k ty m) (hfmg : tyClass ty = 5 → s.fmgOk k m.src = true) (act : State → State)
include h hfmg

/-- R176: what is left of the receive checks of a message that passes: its type, and for a snoop's answer its snoop. -/
theorem State.Passes.receive : s.receive k ty m 0 act =
    if !received ty then (s.takeMsg k ty m).countUnexpect k
    else if (ty = tySnpAck ∨ ty = tySnpData) ∧
        !((s.sett (m.tag.toNat / 4096)).snoops.any fun x => x.tag == m.tag && x.wait.contains m.src) then
      (s.takeMsg k ty m).countUnexpect k
    else act (s.takeMsg k ty m) := by
  have hroute : (s.takeMsg k ty m).routeChecks ty m = true := h.route
  have hsource : ¬ (tyClass ty = 5 ∧ !(s.takeMsg k ty m).fmgOk k m.src) := by
    rintro ⟨hclass, hbad⟩
    rw [State.takeMsg_fmgOk, hfmg hclass] at hbad
    exact Bool.false_ne_true hbad
  simp only [State.receive, h.active, h.crc, h.form, hroute, hsource, h.genCheck, ne_eq, not_true_eq_false, Bool.not_true,
    Bool.false_eq_true, if_false]
  rfl

/-- R176: a type that the device does not receive is dropped and counted. -/
theorem State.Passes.receive_unexpected (hty : received ty = false) : s.receive k ty m 0 act = (s.takeMsg k ty m).countUnexpect k := by
  rw [h.receive hfmg, hty]; rfl

/-- R176: a message that passes, other than a snoop's answer, does what it does. -/
theorem State.Passes.receive_acts (hty : received ty = true) (hack : ty ≠ tySnpAck) (hdata : ty ≠ tySnpData) :
    s.receive k ty m 0 act = act (s.takeMsg k ty m) := by
  rw [h.receive hfmg, hty]
  simp [hack, hdata]

end

section
variable {s : State} {k : Nat} {ty : BitVec 6} {m : Msg}

theorem State.countUnexpect_takeMsg : OnlyPort k s ((s.takeMsg k ty m).countUnexpect k) ∧
    (((s.takeMsg k ty m).countUnexpect k).port k).unexpect = sat (s.port k).unexpect := by
  obtain ⟨freed, slots, hport⟩ := State.takeMsg_port (s := s) (k := k) (ty := ty) (m := m)
  refine ⟨State.takeMsg_only.trans (State.setPort_only _), ?_⟩
  rw [State.countUnexpect, State.setPort_get_port_same, hport]

/-- R176: what a message of a type that the device does not receive leaves. -/
theorem State.Passes.dropped (h : s.Passes k ty m) (hfmg : tyClass ty = 5 → s.fmgOk k m.src = true) (hty : received ty = false)
    {c : Instr} {act : State → State} (hexec : exec c s = .next (s.receive k ty m 0 act)) :
    Leads c s fun t => OnlyPort k s t ∧ (t.port k).unexpect = sat (s.port k).unexpect :=
  leads_of_exec (hexec.trans (congrArg _ (h.receive_unexpected hfmg act hty))) State.countUnexpect_takeMsg

end

/-! ### A message handed to a port (R147) -/

/-- A message that is offered is sent or waits. -/
theorem Port.offer_length (p : Port) (clk : Nat) (e : EgMsg) :
    (p.offer clk e).sent.length + (p.offer clk e).txq.length = p.sent.length + p.txq.length + 1 := by
  unfold Port.offer
  split
  · show (p.sent ++ [_]).length + p.txq.length = _
    rw [List.length_append, List.length_singleton]; omega
  · show p.sent.length + (p.txq ++ [e]).length = _
    rw [List.length_append, List.length_singleton]; omega

/-! ### Recorded nodes and their death (R180, R227) -/

section
variable (s : State) (d e : Node)

theorem State.setNode_node (g : NodeG) : (s.setNode d g).node e = if d = e then g else s.node e := by
  simp only [State.node, State.setNode, tget_tput, BitVec.toNat_inj]

@[simp] theorem State.setNode_node_same (g : NodeG) : (s.setNode d g).node d = g := by rw [State.setNode_node, if_pos rfl]

/-- R227: the sweep for a dead node starts, or waits for the one that runs. -/
def Sett.queueSweep (x : Sett) (d : Node) : Sett :=
  match x.sweep with
  | none => { x with sweep := some d }
  | some _ => { x with sweepQ := x.sweepQ ++ [d] }

@[simp] theorem Sett.queueSweep_snoops (x : Sett) (d : Node) : (x.queueSweep d).snoops = x.snoops := by
  unfold Sett.queueSweep
  split
  · rfl
  · rfl

/-- R227: what a death does at a sett before the snoops that wait for the node. -/
def State.startDeath (s : State) (d : Node) (n : Nat) : State :=
  let s1 := s.settEv n 4 fun t => { t with nodeDeaths := sat t.nodeDeaths }
  { s1 with txns := s1.txns.filter fun t => !(t.sett == n && decide (t.phase = TxPhase.parked) && t.node == some d) }.setSett n
    ((s1.sett n).queueSweep d)

theorem State.deathAt_eq (die : State → Node → State) (n : Nat) : State.deathAt die d s n =
    (((s.startDeath d n).sett n).snoops.filter fun x => x.wait.contains d).foldl (fun s x =>
      if x.ownerSnp then ((s.timeoutSnoop x.tag true 1).recallLine x.txn x.line).snoopsDoneWith die n x.txn
      else s.snoopAnswerWith die x.tag d none) (s.startDeath d n) := rfl

theorem State.startDeath_snoops (n j : Nat) : ((s.startDeath d n).sett j).snoops = (s.sett j).snoops := by
  have hcount : ((s.settEv n 4 fun t => { t with nodeDeaths := sat t.nodeDeaths }).sett j).snoops = (s.sett j).snoops := by
    rw [State.settEv, State.setSett_get_sett]
    split
    · next h => rw [h]
    · rfl
  rw [← hcount, State.startDeath, State.setSett_get_sett]
  split
  · next h => rw [Sett.queueSweep_snoops, h]
  · rfl

/-- R227: a death at a sett where no open snoop waits for the node. -/
theorem State.deathAt_unawaited (die : State → Node → State) (n : Nat)
    (hwait : ∀ x ∈ (s.sett n).snoops, x.wait.contains d = false) :
    State.deathAt die d s n = s.startDeath d n := by
  have hnone : ((s.startDeath d n).sett n).snoops.filter (fun x => x.wait.contains d) = [] := by
    rw [State.startDeath_snoops]
    exact List.filter_eq_nil_iff.2 fun x hx => by rw [hwait x hx]; exact Bool.false_ne_true
  rw [State.deathAt_eq, hnone, List.foldl_nil]

/-- R227: a death at setts where no open snoop waits for the node leaves the recorded nodes. -/
theorem State.foldl_deathAt_nodes (die : State → Node → State) (l : List Nat) (s : State)
    (hwait : ∀ n ∈ l, ∀ x ∈ (s.sett n).snoops, x.wait.contains d = false) : (l.foldl (State.deathAt die d) s).nodes = s.nodes := by
  induction l generalizing s with
  | nil => rfl
  | cons n l ih =>
    have hrest : ∀ j ∈ l, ∀ x ∈ ((s.startDeath d n).sett j).snoops, x.wait.contains d = false := fun j hj => by
      rw [State.startDeath_snoops]; exact hwait j (.tail n hj)
    rw [List.foldl_cons, State.deathAt_unawaited s d die n (hwait n (.head l)), ih _ hrest]
    rfl

theorem State.deathFuel_live (f : Nat) (hlive : s.nodeDead d = false) : State.deathFuel (f + 1) s d =
    (List.range 16).foldl (State.deathAt (State.deathFuel f) d) (s.setNode d { s.node d with dead := true, relearn := false }) :=
  if_neg (by rw [hlive]; exact Bool.false_ne_true)

/-- R227: a death where no open snoop waits for the node marks it dead. -/
theorem State.death_unawaited (hlive : s.nodeDead d = false) (hwait : ∀ n < 16, ∀ x ∈ (s.sett n).snoops, x.wait.contains d = false) :
    ((s.death d).node d).dead = true := by
  obtain ⟨f, hf⟩ : ∃ f, s.death d = State.deathFuel (f + 1) s d := ⟨2097151, rfl⟩
  have hnodes := State.foldl_deathAt_nodes d (State.deathFuel f) (List.range 16)
    (s.setNode d { s.node d with dead := true, relearn := false }) fun n hn => hwait n (List.mem_range.1 hn)
  rw [hf, State.deathFuel_live s d f hlive, State.node, hnodes]
  exact congrArg NodeG.dead (State.setNode_node_same ..)

end

/-! ### Fabric management (R199, R227) -/

section
variable {s : State} {k : Nat} {m : Msg}

/-- R227: the node that FM_NODE_DOWN names dies, where the generation that it carries is the recorded one. -/
theorem State.Passes.fmNodeDown {d : Node} (h : s.Passes k tyFmDown m) (hsource : s.fmgOk k m.src = true)
    (hd : d = BitVec.ofNat 21 (m.slot 1)) (hknown : s.nodeKnown d = true) (hlive : (s.node d).dead = false)
    (hgen : (s.node d).relearn = true ∨ (s.node d).gen = BitVec.ofNat 8 (bitsOf (m.slot 1) 21 8)) :
    exec (.fmNodeDown k m) s = .next ((s.takeMsg k tyFmDown m).death d) := by
  subst hd
  have hdies : s.nodeKnown (BitVec.ofNat 21 (m.slot 1)) = true ∧ (!(s.node (BitVec.ofNat 21 (m.slot 1))).dead) = true ∧
      ((s.node (BitVec.ofNat 21 (m.slot 1))).relearn = true ∨
        (s.node (BitVec.ofNat 21 (m.slot 1))).gen = BitVec.ofNat 8 (bitsOf (m.slot 1) 21 8)) := ⟨hknown, by rw [hlive]; rfl, hgen⟩
  exact congrArg Host.Outcome.next ((h.receive_acts (fun _ => hsource) _ rfl (by decide) (by decide)).trans (if_pos hdies))

theorem State.Passes.fmNodeUp {d : Node} (h : s.Passes k tyFmUp m) (hsource : s.fmgOk k m.src = true)
    (hd : d = BitVec.ofNat 21 (m.slot 1)) :
    exec (.fmNodeUp k m) s = .next ((s.takeMsg k tyFmUp m).setNode d
      { s.node d with gen := BitVec.ofNat 8 (bitsOf (m.slot 1) 21 8), dead := false, relearn := false }) := by
  subst hd
  exact congrArg Host.Outcome.next (h.receive_acts (fun _ => hsource) _ rfl (by decide) (by decide))

theorem State.Passes.fmEcho (h : s.Passes k tyFmEcho m) (hsource : s.fmgOk k m.src = true) :
    exec (.fmEcho k m) s = .next ((s.takeMsg k tyFmEcho m).offerPort k
      { ty := tyFmEchoRsp, dst := m.src, tag := m.tag, srcGen := s.srcGen, body := m.body.take 1 }) :=
  congrArg Host.Outcome.next (h.receive_acts (fun _ => hsource) _ rfl (by decide) (by decide))

end

/-- Settles O27: each message passes the receive checks, and then marks its node, answers on its port, or is counted. -/
theorem fabricManagement : Obligations.FabricManagement := by
  refine ⟨?_, ?_, ?_, ?_, ?_⟩
  · intro s k m d h hsource hd hknown hlive hgen hwait
    have hdead : s.nodeDead d = false := by rw [State.nodeDead, hlive, Bool.and_false]
    exact leads_of_exec (h.fmNodeDown hsource hd hknown hlive hgen) (State.death_unawaited (s.takeMsg k tyFmDown m) d hdead hwait)
  · intro s k m d h hsource hd
    refine leads_of_exec (h.fmNodeUp hsource hd)
      ⟨rfl, fun j hj => State.takeMsg_only.2 j hj, State.setNode_node_same .., fun e he => ?_⟩
    exact (State.setNode_node ..).trans (if_neg he.symm)
  · intro s k m h hsource
    refine leads_of_exec (h.fmEcho hsource) ⟨State.takeMsg_only.trans (State.setPort_only _), ?_⟩
    obtain ⟨freed, slots, hport⟩ := State.takeMsg_port (s := s) (k := k) (ty := tyFmEcho) (m := m)
    rw [State.offerPort, State.setPort_get_port_same, Port.offer_length, hport]
  · intro s k m h hsource
    exact h.dropped (fun _ => hsource) (by decide) rfl
  · intro s k ty m h hty hclass
    exact h.dropped (fun h5 => absurd h5 hclass) hty (congrArg _ (if_neg (by rw [hty]; exact Bool.false_ne_true)))

end Sys2Proof.Machine
end

section
/-! SUPPORT. A parked request competes again (R218): where the statement about the home's timers fails. -/

namespace Sys2Proof.Machine
open Sys2Proof

/-- R67: partition 0, with 4 MiB of scratch, key slot 3 and the ASIDs 16–31. -/
def scratchRec : PartRec := { part := 0, keySlot := 3, scratch := 4, asidBase := 16, asidCount := 16 }

/-- A translation of page 1 of ASID 17 to the last 32 bytes of that scratch and the 32 bytes after it. No walk gives it: it starts amid
a line. -/
def straddlingXl : Xl :=
  { asid := 17, page := 1, base := 0x8000003FFFE0
    leaf := { Leaf.reset with keySlot := 3, cls := .priv, acc := true, r := true } }

/-- A parked RD_ONCE of node 5 for the first line of that page. -/
def straddlingTxn : Txn :=
  { id := 0, kind := .fab, fab := { OrigFab.reset with src := 5, tag := 9 }, ty := .rdOnce, asid := 17, va := 0x200000
    line := 0x8000003FFFC0 / 64, phase := .parked }

/-- The last line of the scratch: its first byte is 1. -/
def lastLine : LineVal := ⟨1 :: List.replicate 63 0, false⟩

/-- R218: a running device in which that request waits alone. -/
def straddling : State :=
  { State.reset with
    lay := some { Layout.reset with nodeId := 7, routes := [⟨0, 20, 0xFF⟩], parts := [scratchRec] }
    nodes := [(5, {})]
    sec := { SecS.reset with slots := [(3, 1)] }
    xlt := { XltS.reset with ctx := [(0, 17, List.replicate 12 0 ++ toLe 4 5 ++ List.replicate 16 0)] }
    ports := [(0, { st := .active })]
    setts := [(0, { Sett.reset with tc := [straddlingXl] })]
    scr := [(0x3FFFC0, 1)]
    txns := [straddlingTxn] }

/-- The answer to it carries half of the line, shifted, and zeros. -/
theorem straddling_bodies :
    (match exec (.requestWake 0 (0x8000003FFFC0 / 64)) straddling with
      | .next t => (t.pqos 0 0).egress.map fun e : EgMsg => e.m.body
      | _ => []) = [bytesSlots 4 (List.replicate 64 0)] := by decide +kernel

/-- Refutes O28: the clause on a parked request has no premise that its translation starts where a line does. One that starts 32 bytes
before the end of a scratch has one stored line, the last of that scratch, for no address belongs to the bytes past it; the answer then
carries the second half of that line and zeros, not the line. -/
theorem not_homeTimers : ¬ Obligations.HomeTimers := by
  rintro ⟨hwake, -⟩
  have hfree : straddling.Free 0 0x8000003FFFC0 := ⟨by decide +kernel, by decide +kernel, by decide +kernel⟩
  have hscratch : ∀ a, straddling.whereIs 0x8000003FFFC0 = some (.dram a) → (straddling.cached a).isSome = true := by
    intro a ha
    have hscr : (match straddling.whereIs 0x8000003FFFC0 with | some (.dram _) => false | _ => true) = true := by decide +kernel
    rw [ha] at hscr
    cases hscr
  have hstored : straddling.storedLines straddlingXl.leaf straddlingXl.base straddlingTxn.va = [0x8000003FFFC0] := by decide +kernel
  have hstatus : straddling.leafStatus .fab .rdOnce straddlingTxn.op.toNat straddlingXl.leaf [0x8000003FFFC0] = .ok := by
    decide +kernel
  have hadmitted : straddling.admission straddlingTxn.asid straddlingTxn.va straddlingTxn.fab.src = .ok := by decide +kernel
  have hview : straddling.view 0x8000003FFFC0 = some lastLine := by decide +kernel
  obtain ⟨t, hexec, -, -, -, e, hegress, -, -, hbody⟩ :=
    hwake straddling straddlingTxn 0x8000003FFFC0 0 straddlingXl lastLine rfl rfl rfl rfl rfl rfl rfl (by decide +kernel)
      (by decide +kernel) rfl rfl hstored rfl hstatus hadmitted (by decide +kernel) (by decide +kernel) (by decide +kernel)
      (by decide +kernel) hfree hscratch hview rfl (by decide +kernel)
  have hempty : (straddling.pqos straddlingTxn.part 0).egress = [] := by decide +kernel
  have hbodies := straddling_bodies
  have hline : straddlingTxn.line = 0x8000003FFFC0 / 64 := rfl
  have hpart : straddlingTxn.part = 0 := rfl
  have hsett : straddlingTxn.sett = 0 := rfl
  rw [hempty, hpart, List.nil_append] at hegress
  rw [hsett, hline] at hexec
  rw [hexec] at hbodies
  simp only [hegress, List.map_cons, List.map_nil, hbody, List.cons.injEq, and_true] at hbodies
  exact absurd hbodies (by decide +kernel)

end Sys2Proof.Machine
end

section
/-! SUPPORT. PUBLISH and the end of its drain in a GATE slot of another partition (R250, R253, R470): where the statements about them
fail. -/

namespace Sys2Proof.Machine
open Sys2Proof

/-- R67, R70: partition 0 is shared, partition 1 fenced; the first half of the GATE cycle is partition 1's, the other half is shared. -/
def gatedLayout : Layout :=
  { Layout.reset with
    nodeId := 7, sets := [⟨0, 17179869184, 1, 2⟩], routes := [⟨0, 20, 0xFF⟩], extents := [⟨0, 0, 64⟩]
    parts := [scratchRec, { part := 1, fenced := true, keySlot := 4 }], gateLen := 128, gate := [(1, 64), (0x3F, 64)] }

/-- R70: check 0x1A passes that GATE record. -/
theorem gatedLayout_checked : gatedLayout.check1A true = true := by decide

/-- R241: the descriptor of region 0 of partition 0, with these flags: version 3, one page of 2 MiB at 0x800000. -/
def regionLine (flags : Byte) : Bytes := toLe 4 3 ++ [flags, 0, 0, 0] ++ toLe 8 0x800000 ++ toLe 4 1 ++ List.replicate 44 0

/-- The translation of page 2 of ASID 17 to 0x600000, where the new version is staged. -/
def stagedXl : Xl :=
  { asid := 17, page := 2, base := 0x600000
    leaf := { Leaf.reset with addr := 0x600000, keySlot := 3, cls := .priv, acc := true, a := true, w := true, r := true } }

/-- A running device in the slot of partition 1, with that descriptor in its line cache. -/
def gatedDevice (flags : Byte) : State :=
  { State.reset with
    pwrgood := true
    pll := true
    phase := .running
    lay := some gatedLayout
    top := { TopS.reset with ready := true }
    nodes := [(5, {})]
    chans := [(0, { st := .run, dimm := ⟨1, 1, 0, 16, 0, true, 1, 2, 3, 4, true⟩ })]
    sec := { SecS.reset with slots := [(3, 1)] }
    xlt := { XltS.reset with ctx := [(3, 17, List.replicate 12 0 ++ toLe 4 5 ++ List.replicate 16 0)] }
    ports := [(0, { st := .active })]
    setts := [(0, { Sett.reset with tc := [stagedXl], cache := [(0, { CLine.reset with data := regionLine flags })] })] }

/-- No request is open there. -/
theorem gatedDevice_numbered (flags : Byte) : (gatedDevice flags).TxnsNumbered := fun _ hu => absurd hu List.not_mem_nil

/-- The one place where a line lies is in the line cache. -/
theorem State.cached_of_whereIs {s : State} {pa b : Nat} (hplace : s.whereIs pa = some (.dram b)) (hcached : (s.cached b).isSome = true) :
    ∀ a, s.whereIs pa = some (.dram a) → (s.cached a).isSome = true := by
  intro a ha
  obtain rfl : b = a := by simpa using hplace.symm.trans ha
  exact hcached

/-- R173: a PUBLISH of node 5 for region 0, version 3 expected, one page staged at 0x400000 of ASID 17. -/
def publishMsg : Msg :=
  let m : Msg := ⟨2, 5, 7, 9, 0, 0, false, false, false, false, 0,
    [BitVec.ofNat 128 (0x400000 * 2 ^ 64 + 17 * 2 ^ 48), BitVec.ofNat 128 (2 ^ 32 + 3)]⟩
  { m with crc := crc32c (crcBytes tyPublish m) }

/-- R218, R470: the PUBLISH parks until the shared half of the cycle; nothing has been flipped and no drain started. -/
theorem publish_parks : Leads (.publish 0 publishMsg .none) (gatedDevice 1) fun t =>
    t.txns.map Txn.phase = [.parked] ∧ t.xlt.drains = [] :=
  ⟨_, rfl, by decide +kernel⟩

/-- Refutes O25: the statement has no premise that the GATE slot in force takes lookups of the publisher's partition (R470). One of a shared
partition that arrives in a slot of a fenced partition meets every premise, and parks. -/
theorem not_publishFlipsDescriptor : ¬ Obligations.PublishFlipsDescriptor := by
  intro h
  have hpasses : (gatedDevice 1).Passes 0 tyPublish publishMsg :=
    ⟨rfl, by decide +kernel, by decide +kernel, by decide +kernel, fun _ => by decide +kernel⟩
  have hfree : (gatedDevice 1).Free 0 0 := ⟨by decide +kernel, by decide +kernel, by decide +kernel⟩
  have hcached : ∀ a, (gatedDevice 1).whereIs 0 = some (.dram a) → ((gatedDevice 1).cached a).isSome = true :=
    State.cached_of_whereIs (b := 0) (by decide +kernel) (by decide +kernel)
  obtain ⟨t, hexec, -, -, hdrains, -⟩ :=
    h (gatedDevice 1) 0 publishMsg 0 0 0 stagedXl 0 ⟨regionLine 1, false⟩ hpasses rfl rfl (by decide +kernel) (by decide +kernel) rfl
      (by decide +kernel) (by decide +kernel) (by decide +kernel) (by decide +kernel) (by decide +kernel) (by decide +kernel)
      (by decide +kernel) (by decide +kernel) (gatedDevice_numbered 1) (by decide +kernel) (by decide +kernel) (by decide +kernel) hfree
      (by decide +kernel) (by decide +kernel) rfl rfl hcached (by decide +kernel) (by decide +kernel)
  obtain ⟨t', hexec', -, hnone⟩ := publish_parks
  obtain rfl : t' = t := Host.Outcome.next.inj (hexec'.symm.trans hexec)
  rw [hnone] at hdrains
  cases hdrains

/-- R253: the drain of a publication of that region; every unit has reported. -/
def publishDrain : Drain := { id := 4, region := true, target := 0, init := 2, got := invUnits, rep := invUnits }

/-- The same device, with the descriptor draining. -/
def drainedDevice : State := { gatedDevice 3 with xlt := { XltS.reset with drains := [publishDrain] } }

/-- R243, R470: the access that would clear draining parks, and the descriptor line stays. -/
theorem regionDrainComplete_parks : Leads (.regionDrainComplete 0) drainedDevice fun t =>
    t.txns.map Txn.phase = [.parked] ∧ t.view 0 = some ⟨regionLine 3, false⟩ :=
  ⟨_, rfl, by decide +kernel⟩

/-- Refutes O34: the clause on the end of a publication's drain has no premise that the GATE slot in force takes lookups of the region's
partition (R470). In a slot of another partition SETT[0]'s access to the descriptor line parks, and draining is not cleared yet. -/
theorem not_invalidations : ¬ Obligations.Invalidations := by
  rintro ⟨-, -, -, -, -, -, -, -, hend⟩
  have hfree : drainedDevice.Free (settOf 0) 0 := ⟨by decide +kernel, by decide +kernel, by decide +kernel⟩
  have hcached : ∀ a, drainedDevice.whereIs 0 = some (.dram a) → (drainedDevice.cached a).isSome = true :=
    State.cached_of_whereIs (b := 0) (by decide +kernel) (by decide +kernel)
  obtain ⟨t, hexec, -, -, -, hview⟩ :=
    hend drainedDevice 0 publishDrain 0 0 0 ⟨regionLine 3, false⟩ (by decide +kernel) (by decide +kernel) (by decide +kernel)
      (by decide +kernel) rfl (by decide +kernel) (by decide +kernel) (by decide +kernel) rfl (by decide +kernel) (by decide)
      (by decide +kernel) (by decide +kernel) hfree (by decide +kernel) (gatedDevice_numbered 3) hcached
  obtain ⟨t', hexec', -, hkept⟩ := regionDrainComplete_parks
  obtain rfl : t' = t := Host.Outcome.next.inj (hexec'.symm.trans hexec)
  rw [hkept] at hview
  exact absurd hview (by decide +kernel)

end Sys2Proof.Machine
end

section
/-! SUPPORT. The end of a walk in a GATE slot of another partition (R277, R284, R470): where the statement about it fails. -/

namespace Sys2Proof.Machine
open Sys2Proof

/-- R274: the pointer to the table at an address. -/
def pointerEntry (table : Nat) : Nat := 1 + table * 2 ^ 64

/-- R275: the leaf that `stagedXl` holds: PRIVATE, of 2 MiB at 0x600000, under key slot 3; accelerators read, write and use atomics. -/
def stagedEntry : Nat := 0x8F3 + 3 * 2 ^ 22 + 0x600000 * 2 ^ 64

/-- A clean line of the line cache that holds one table entry, at an offset. -/
def entryLine (off entry : Nat) : CLine :=
  { CLine.reset with data := List.replicate off 0 ++ toLe 16 entry ++ List.replicate (48 - off) 0 }

/-- R271: the context of ASID 17: one root table, at 0xA00000; it admits node 5. -/
def tableContext : Bytes := toLe 8 0xA00000 ++ [1, 0] ++ toLe 2 1 ++ toLe 4 5 ++ List.replicate 16 0

/-- R271, R277 step 2: it is well formed. -/
theorem tableContext_ok : ctxOk tableContext = true := by decide

/-- A walk of page 2 of ASID 17. -/
def stagedWalk : Walk := { asid := 17, page := 2 }

/-- R277: the gated device in the slot of partition 1, with that walk; the entries on its way stand in the line cache. -/
def walkingDevice : State :=
  { gatedDevice 1 with
    xlt := { XltS.reset with walk := [stagedWalk], ctx := [(3, 17, tableContext)] }
    setts := [(0, { Sett.reset with
      cache := [(0x28000, entryLine 0 (pointerEntry 0xA22000)), (0x28880, entryLine 0 (pointerEntry 0xA44000)),
        (0x29100, entryLine 32 stagedEntry)] })] }

/-- R277: the walk reads the three levels and has its leaf. -/
theorem walkingDevice_walkFor : walkingDevice.walkFor 17 (mib2 * 2) = .ok stagedXl := by decide +kernel

/-- R470: in a slot of partition 1 the walk of partition 0's ASID does not end. -/
theorem walkComplete_waits : Leads (.walkComplete 17 2) walkingDevice fun t => t.xlt.walk = [stagedWalk] ∧ t.xlt.oc = [] :=
  ⟨_, rfl, by decide +kernel⟩

/-- Refutes O33: no clause on a completed walk has a premise that the GATE slot in force takes lookups of the partition that owns its ASID
(R470). In a slot of another partition a walk whose leaf is there waits, and nothing enters the overflow cache. -/
theorem not_walkEnds : ¬ Obligations.WalkEnds := by
  rintro ⟨hleaf, -⟩
  obtain ⟨t, hexec, -, hended, -⟩ :=
    hleaf walkingDevice stagedWalk stagedXl rfl (by decide +kernel) (by decide +kernel) (by decide +kernel) walkingDevice_walkFor
  obtain ⟨t', hexec', hwaits, -⟩ := walkComplete_waits
  obtain rfl : t' = t := Host.Outcome.next.inj (hexec'.symm.trans hexec)
  rw [hwaits] at hended
  cases hended

end Sys2Proof.Machine
end

section
/-! SUPPORT. A queue's enabling, and the start of a packet of an input queue, within a warm reset (R323, R354, R497): where the statements
about them fail. -/

namespace Sys2Proof.Machine
open Sys2Proof

/-- R67: partition 0, with one queue. -/
def oneQueueRec : PartRec := { scratchRec with queueCount := 1 }

/-- R106, R323: a device in step 2 of a warm reset, Owl running; the queue of partition 0 is disabled, and its entry holds zeros. -/
def flushingDevice : State :=
  { State.reset with
    phase := .warmFlush
    owl := { OwlS.reset with st := .run }
    lay := some { Layout.reset with sets := [⟨0, 17179869184, 1, 2⟩], extents := [⟨0, 0, 64⟩], parts := [oneQueueRec] }
    chans := [(0, { st := .run, dimm := ⟨1, 1, 0, 16, 0, true, 1, 2, 3, 4, true⟩ })]
    sec := { SecS.reset with slots := [(3, 1)] }
    fills := [(none, [(0, 64, 1)])] }

/-- R497: the queue is enabled, and the check of its entry waits for the end of the reset. -/
theorem queueEnable_waits : Leads (.queueEnable .owl 0 0) flushingDevice fun t => (t.queue 0).err = 0 :=
  ⟨_, rfl, by decide +kernel⟩

/-- R323: an entry of zeros fails its check: it names an ASID that is not the partition's. -/
theorem flushingDevice_qCheck : flushingDevice.qCheck 0 (List.replicate 64 0) = 2 := by decide +kernel

/-- Refutes O37: the clause on enabling has no premise that excludes a warm reset. Within one the check of the queue's entry waits for its
end (R497), so an entry that will fail its check leaves no reason in the queue yet. -/
theorem not_workQueues : ¬ Obligations.WorkQueues := by
  rintro ⟨henable, -⟩
  have hread : flushingDevice.devRead 0x7E00000 64 = (List.replicate 64 0, .ok) := by decide +kernel
  obtain ⟨t, hexec, -, -, -, hfails, -⟩ :=
    henable flushingDevice .owl 0 0 0 0x7E00000 oneQueueRec _ (by decide) (by decide) (by decide) rfl (by decide +kernel) (by decide) rfl rfl
      rfl (by decide +kernel) hread
  obtain ⟨t', hexec', hwaits⟩ := queueEnable_waits
  obtain rfl : t' = t := Host.Outcome.next.inj (hexec'.symm.trans hexec)
  obtain ⟨herr, -⟩ := hfails (by rw [flushingDevice_qCheck]; decide)
  rw [hwaits, flushingDevice_qCheck] at herr
  cases herr

/-- R354: a packet of 16 words: a COPY. -/
def copyPacket : List FWord := (List.range 16).map fun i => ⟨if i = 0 then 1 else 0, i == 15⟩

/-- R106: a device in step 2 of a warm reset, with that packet in the input queue of engine 0. -/
def packetDevice : State :=
  { State.reset with phase := .warmFlush, inq := [(0, { Fifo.reset with send := copyPacket })] }

theorem packetDevice_takePacket : takePacket (packetDevice.inqOf 0).send = some (copyPacket, []) := by decide

/-- R497: no descriptor starts within a warm reset. -/
theorem State.inqStart_of_inWarm {s : State} (h : s.inWarm = true) (e : Nat) : s.inqStart e = s := if_pos (.inl h)

/-- Refutes O40: the clause on a packet of an input queue has no premise that excludes a warm reset. Within one no descriptor starts (R497):
the packet stays, and the engine stays IDLE. -/
theorem not_descriptorEnds : ¬ Obligations.DescriptorEnds := by
  rintro ⟨-, -, -, -, hstart⟩
  obtain ⟨t, hexec, -, hrunning, -⟩ :=
    hstart packetDevice 0 copyPacket [] _ rfl rfl rfl rfl (by decide) packetDevice_takePacket rfl rfl (by decide) (by decide) (by decide)
  obtain rfl : packetDevice = t :=
    (State.inqStart_of_inWarm (s := packetDevice) rfl 0).symm.trans (Host.Outcome.next.inj hexec)
  cases hrunning

end Sys2Proof.Machine
end

section
/-! SUPPORT. The record of a descriptor of the scheduler whose completion ring lies in a Tracked page, in a GATE slot of another partition
(R340, R470): where the statement about these descriptors fails. -/

namespace Sys2Proof.Machine
open Sys2Proof

/-- R275: a Tracked leaf of 2 MiB at 0x600000, under key slot 3, that engines read and write. -/
def trackedEntry : Nat := 0x133 + 3 * 2 ^ 22 + 0x600000 * 2 ^ 64

/-- The translation of page 2 of ASID 17 by that leaf. -/
def trackedXl : Xl :=
  { asid := 17, page := 2, base := 0x600000
    leaf := { Leaf.reset with addr := 0x600000, keySlot := 3, cls := .tracked, eng := true, w := true, r := true } }

/-- R322: a queue of ASID 17 with its completion ring at the start of page 2, and rings of 16 entries. -/
def trackedCfg : QCfg := ⟨0x200000, 0x400000, 17, 4, 4, false⟩

/-- R330: a NOP. -/
def nopDesc : Desc := { bytes := List.replicate 64 0, index := 0 }

/-- R338, R470: a running device in the slot of partition 1, a fenced one; the scheduler has the NOP of partition 0's queue in hand, and
the table entries and the line of its completion ring stand in the line cache. -/
def recordingDevice : State :=
  { gatedDevice 1 with
    lay := some { gatedLayout with parts := [oneQueueRec, { part := 1, fenced := true, keySlot := 4 }] }
    xlt := { XltS.reset with ctx := [(3, 17, tableContext)] }
    queues := [(0, { Queue.reset with en := true, cfg := some trackedCfg, sched := some nopDesc, open_ := 1 })]
    setts := [(0, { Sett.reset with
      cache := [(0x18000, { CLine.reset with data := List.replicate 64 0 }), (0x28000, entryLine 0 (pointerEntry 0xA22000)),
        (0x28880, entryLine 0 (pointerEntry 0xA44000)), (0x29100, entryLine 32 trackedEntry)] })] }

/-- R324: the ring's page, as the scheduler's write finds it. -/
theorem recordingDevice_schedXl : recordingDevice.schedXl 17 0x400000 .wrPart = .ok trackedXl := by decide +kernel

theorem recordingDevice_free : recordingDevice.Free 0 0x600000 := ⟨by decide +kernel, by decide +kernel, by decide +kernel⟩

/-- R324, R340: the record can be written, but for the slot. -/
theorem recordingDevice_recordRoom :
    recordingDevice.RecordRoom 0 trackedCfg trackedXl 0x400000 0x600000 ⟨List.replicate 64 0, false⟩ where
  cfg := rfl
  noErr := rfl
  at_ := rfl
  page := recordingDevice_schedXl
  plain := rfl
  line := by decide +kernel
  old := by decide +kernel
  size := rfl
  clean := rfl
  here := State.cached_of_whereIs (b := 0x600000) (by decide +kernel) (by decide +kernel)
  apart := by
    have hentry : recordingDevice.qEntry 0 = some 0x7E00000 := by decide +kernel
    rintro a ha
    obtain rfl : 0x7E00000 = a := Option.some.inj (hentry.symm.trans ha)
    decide +kernel
  status := by decide +kernel
  plainLine := by decide +kernel
  free := fun _ => ⟨by decide +kernel, recordingDevice_free, fun _ hu => absurd hu List.not_mem_nil⟩

/-- R218, R470: the write of the record parks until the shared half of the cycle, and the line stays. -/
theorem nop_parks : Leads (.nop 0) recordingDevice fun t =>
    t.txns.map Txn.phase = [.parked] ∧ t.view 0x600000 = some ⟨List.replicate 64 0, false⟩ :=
  ⟨_, rfl, by decide +kernel⟩

/-- Refutes O38: where the completion ring lies in a Tracked page, no clause has a premise that the GATE slot in force takes lookups of the
queue's partition (R470). In a slot of another partition the record of a NOP waits parked. -/
theorem not_schedulerDescriptors : ¬ Obligations.SchedulerDescriptors := by
  rintro ⟨hnop, -⟩
  obtain ⟨t, hexec, -, hrecorded⟩ :=
    hnop recordingDevice 0 0x400000 0x600000 nopDesc trackedCfg trackedXl _ rfl (by decide) (by decide) recordingDevice_recordRoom
  obtain ⟨t', hexec', -, hkept⟩ := nop_parks
  obtain rfl : t' = t := Host.Outcome.next.inj (hexec'.symm.trans hexec)
  have hrecord := hrecorded.record
  rw [hkept] at hrecord
  exact absurd hrecord (by decide +kernel)

end Sys2Proof.Machine
end

section
/-! SUPPORT. An engine's transfers whose translations miss (R277, R284, R319): what issuing them leaves. -/

namespace Sys2Proof.Machine
open Sys2Proof

/-! ### What a translation for an engine reads -/

/-- Two states differ, of all that a translation for engine `e` reads, in nothing: only requests, walks, draws, what engines are at, and
counters of partitions are not the same. -/
structure State.TranslatesAs (e : Nat) (s t : State) : Prop where
  frame : t = { s with
    txns := t.txns, nextTxn := t.nextTxn, parts := t.parts, engines := t.engines, free := t.free
    xlt := { s.xlt with walk := t.xlt.walk } }
  ext : ∀ p, (t.part p).ext = (s.part p).ext
  tc : (t.eng e).tc = (s.eng e).tc
  pub : (t.eng e).run.map (fun r => r.pubOld ++ r.pub) = (s.eng e).run.map fun r => r.pubOld ++ r.pub

namespace State.TranslatesAs

variable {e : Nat} {s t u : State}

theorem refl (e : Nat) (s : State) : State.TranslatesAs e s s := ⟨rfl, fun _ => rfl, rfl, rfl⟩

theorem trans (h : State.TranslatesAs e s t) (g : State.TranslatesAs e t u) : State.TranslatesAs e s u where
  frame := by rw [g.frame, h.frame]
  ext p := (g.ext p).trans (h.ext p)
  tc := g.tc.trans h.tc
  pub := g.pub.trans h.pub

variable (h : State.TranslatesAs e s t)
include h

theorem whereIs (pa : Nat) : t.whereIs pa = s.whereIs pa := by
  have hquota : t.scrQuota = s.scrQuota := by rw [h.frame]; rfl
  have hbase : t.scrBase = s.scrBase := by rw [h.frame]; rfl
  simp only [State.whereIs, hquota, hbase, h.ext]

theorem canon (pa : Nat) : t.canon pa = s.canon pa := by simp only [State.canon, h.whereIs]

theorem view (pa : Nat) : t.view pa = s.view pa := by
  have hheld : t.held = s.held := by rw [h.frame]; rfl
  have hloc : t.locOf = s.locOf := by rw [h.frame]; rfl
  have hline : t.dramLine = s.dramLine := by rw [h.frame]; rfl
  have hscr : t.scrLine = s.scrLine := by rw [h.frame]; rfl
  simp only [State.view, h.whereIs, hheld, hloc, hline, hscr]

theorem lineStatus (pa : Nat) : t.lineStatus pa = s.lineStatus pa := by
  have hsett : t.sett = s.sett := by rw [h.frame]; rfl
  have hchan : t.chan = s.chan := by rw [h.frame]; rfl
  have hloc : t.locOf = s.locOf := by rw [h.frame]; rfl
  have hkey : t.keyAt = s.keyAt := by rw [h.frame]; rfl
  simp only [State.lineStatus, h.whereIs, hsett, hchan, hloc, hkey]

theorem devRead (pa n : Nat) : t.devRead pa n = s.devRead pa n := by
  simp only [State.devRead, h.canon, h.lineStatus, h.view]

theorem resolvePub (p : Nat) (l : Leaf) (va : Nat) : t.resolvePub p l va = s.resolvePub p l va := by
  have hdesc : t.regionDesc = s.regionDesc := by rw [h.frame]; rfl
  have hextent : t.inOneExtent = s.inOneExtent := by rw [h.frame]; rfl
  simp only [State.resolvePub, hdesc, hextent, h.devRead]

theorem ownedDesc (p : Nat) (l : Leaf) : t.ownedDesc p l = s.ownedDesc p l := by
  have hdesc : t.regionDesc = s.regionDesc := by rw [h.frame]; rfl
  have howned : t.owned = s.owned := by rw [h.frame]; rfl
  simp only [State.ownedDesc, hdesc, howned, h.lineStatus]

theorem pubOf (asid : BitVec 16) (va : Nat) : t.pubOf .eng e asid va = s.pubOf .eng e asid va := by
  have hpub (x : State) : x.pubOf .eng e asid va = ((x.eng e).run.map fun r => r.pubOld ++ r.pub).bind (pubGet · asid va) := by
    simp only [State.pubOf, if_true]
    cases (x.eng e).run <;> rfl
  rw [hpub, hpub, h.pub]

/-- R284: a lookup for the engine finds the same. -/
theorem lookup (n : Nat) (asid : BitVec 16) (va : Nat) : t.lookup .eng e n asid va = s.lookup .eng e n asid va := by
  have hdrains : t.xlt.drains = s.xlt.drains := by rw [h.frame]
  have hoc : t.xlt.oc = s.xlt.oc := by rw [h.frame]
  have hpart : t.asidPart = s.asidPart := by rw [h.frame]; rfl
  have htc : t.tcOf .eng e n = s.tcOf .eng e n := h.tc
  simp only [State.lookup, h.pubOf, htc, hdrains, hoc, hpart, h.ownedDesc, h.resolvePub]

/-- R74, R322: the queues, and the partitions they belong to, are the same. -/
theorem queue (q : Nat) : t.queue q = s.queue q := by rw [h.frame]; rfl

theorem queuePart (q : Nat) : t.queuePart q = s.queuePart q := by rw [h.frame]; rfl

end State.TranslatesAs

/-! ### One request (R217, R218, R277) -/

section
variable {s : State} {t : Txn} {e n : Nat}

theorem State.d1Count_translatesAs (e : Nat) (s : State) (p : Nat) (f : Dbg → Dbg) : State.TranslatesAs e s (s.d1Count p f) := by
  unfold State.d1Count
  split
  · refine ⟨rfl, fun q => ?_, rfl, rfl⟩
    rw [State.setDbg, State.setPart_get_part]
    split
    · next hq => rw [hq]
    · rfl
  · exact .refl e s

@[simp] theorem State.d1Count_txns (s : State) (p : Nat) (f : Dbg → Dbg) : (s.d1Count p f).txns = s.txns := by
  unfold State.d1Count; split <;> rfl

@[simp] theorem State.d1Count_nextTxn (s : State) (p : Nat) (f : Dbg → Dbg) : (s.d1Count p f).nextTxn = s.nextTxn := by
  unfold State.d1Count; split <;> rfl

@[simp] theorem State.d1Count_engines (s : State) (p : Nat) (f : Dbg → Dbg) : (s.d1Count p f).engines = s.engines := by
  unfold State.d1Count; split <;> rfl

/-- R218: a full park, by the requests that stand in it and those that may have to. -/
theorem State.parkFull_iff : s.parkFull n = true ↔
    1024 ≤ (s.txns.filter fun t => t.sett == n && decide (t.phase = .parked)).length +
      (s.txns.filter fun t => t.sett == n && decide (t.phase = .walk) && t.ty != .wbDirty && t.ty != .wbClean).length :=
  decide_eq_true_iff

/-- R277: a request whose own checks found nothing is translated. -/
theorem State.take_of_ok (h : t.xst = .ok) : s.take t = s.translate t := if_pos h

/-- A full park stays full when more requests are open. -/
theorem State.parkFull_mono {u : State} {l : List Txn} (h : u.txns = s.txns ++ l) (hfull : s.parkFull n = true) : u.parkFull n = true := by
  rw [State.parkFull_iff] at hfull ⊢
  rw [h]
  simp only [List.filter_append, List.length_append]
  omega

/-- R218: a request at the ring input takes no place in the park. -/
theorem State.parkFull_append_ring {u : State} (h : u.txns = s.txns ++ [t]) (ht : t.phase = .ring) : u.parkFull n = s.parkFull n := by
  rw [Bool.eq_iff_iff, State.parkFull_iff, State.parkFull_iff, h]
  simp [ht]

/-- R218: while a park is full, those at the sett's ring input stay there. -/
theorem State.admitRing_of_full (h : s.parkFull n = true) : s.admitRing n = s := by
  refine List.foldlRecOn _ _ (motive := fun u => u = s) rfl fun u hu i _ => ?_
  rw [hu]
  cases s.txn i with
  | none => rfl
  | some t => exact if_pos h

/-- R218: the only request at the ring input is taken when the park is not full. -/
theorem State.admitRing_single (hone : (s.txns.filter fun u => u.sett == n && decide (u.phase = .ring)) = [t]) (hfound : s.txn t.id = some t)
    (hroom : s.parkFull n = false) (hkind : t.kind = .eng) :
    s.admitRing n = (s.setTxn { t with phase := .walk, since := s.clk }).take { t with phase := .walk, since := s.clk } := by
  simp only [State.admitRing, hone, List.map_cons, List.map_nil, List.foldl_cons, List.foldl_nil, hfound, hroom, hkind,
    Bool.false_eq_true, if_false, reduceCtorEq]

/-- R277: a request that misses waits for a walk. -/
theorem State.translate_miss (h : s.lookup t.kind t.unit t.sett t.asid t.va = none) :
    ∃ w, s.translate t = { s.setTxn { t with phase := .walk } with xlt := { s.xlt with walk := w } } := by
  simp only [State.translate, h]
  split
  · exact ⟨_, rfl⟩
  · exact ⟨_, rfl⟩

/-- The youngest of the open requests, changed. -/
theorem State.setTxn_last {l : List Txn} {u v : Txn} (h : s.txns = l ++ [u]) (hid : v.id = u.id) (hl : ∀ x ∈ l, x.id < u.id) :
    (s.setTxn v).txns = l ++ [v] := by
  have hkeep : ∀ x ∈ l, (if x.id = v.id then v else x) = x := fun x hx => if_neg (hid ▸ (hl x hx).ne)
  simp only [State.setTxn, h, List.map_append, List.map_cons, List.map_nil, hid, if_true]
  rw [List.map_congr_left (hid ▸ hkeep), List.map_id']

/-- R218: whoever stands at the ring input of sett `n` waits for a full park. -/
def State.RingWaits (s : State) (n : Nat) : Prop := ∀ u ∈ s.txns, u.sett = n → u.phase = .ring → s.parkFull n = true

theorem State.RingWaits.of_txns {u : State} (h : s.RingWaits n) (hu : u.txns = s.txns) : u.RingWaits n := fun x hx hsett hring =>
  State.parkFull_mono (hu.trans (List.append_nil _).symm) (h x (hu ▸ hx) hsett hring)

theorem State.RingWaits.append {u : State} (h : s.RingWaits n) (hu : u.txns = s.txns ++ [t])
    (ht : t.sett = n → t.phase = .ring → s.parkFull n = true) : u.RingWaits n := by
  intro x hx hsett hring
  rw [hu, List.mem_append, List.mem_singleton] at hx
  obtain hx | rfl := hx
  · exact State.parkFull_mono hu (h x hx hsett hring)
  · exact State.parkFull_mono hu (ht hsett hring)

/-- R218: a request as it is opened at the ring input of its sett. -/
def State.ringTxn (s : State) (t : Txn) : Txn := { t with id := s.nextTxn, since := s.clk, sett := settOf t.va, phase := .ring }

/-- R277: the same request once the sett has taken it and it waits for its walk. -/
def State.walkTxn (s : State) (t : Txn) : Txn := { s.ringTxn t with phase := .walk }

/-- The state in which it stands there. -/
def State.atRing (s : State) (t : Txn) : State := (s.openTxn (s.ringTxn t)).d1Count t.part fun d => { d with reqs := sat d.reqs }

theorem State.request_eq (hty : t.ty ≠ .publish ∧ t.ty ≠ .wbDirty ∧ t.ty ≠ .wbClean) :
    s.request t = (s.atRing t).admitRing (settOf t.va) := by
  obtain ⟨hpub, hdirty, hclean⟩ := hty
  simp only [State.request, if_neg hpub, beq_eq_false_iff_ne.2 hdirty, beq_eq_false_iff_ne.2 hclean, Bool.or_false, Bool.false_eq_true,
    if_false]
  rfl

/-- The request `u` has joined the open ones, and no translation for engine `e` reads anything new. -/
structure State.Opened (e : Nat) (s : State) (u : Txn) (t : State) : Prop where
  alike : State.TranslatesAs e s t
  txns : t.txns = s.txns ++ [u]
  nextTxn : t.nextTxn = s.nextTxn + 1
  engines : t.engines = s.engines

theorem State.opened_atRing (e : Nat) (s : State) (t : Txn) : s.Opened e (s.ringTxn t) (s.atRing t) :=
  ⟨.trans (t := s.openTxn (s.ringTxn t)) ⟨rfl, fun _ => rfl, rfl, rfl⟩ (State.d1Count_translatesAs ..), State.d1Count_txns ..,
    State.d1Count_nextTxn .., State.d1Count_engines ..⟩

/-- The request that was opened last, changed. -/
theorem State.Opened.setTxn {u v : Txn} {x : State} (h : s.Opened e u x) (hid : v.id = u.id) (hold : ∀ y ∈ s.txns, y.id < u.id) :
    s.Opened e v (x.setTxn v) :=
  ⟨h.alike.trans ⟨rfl, fun _ => rfl, rfl, rfl⟩, State.setTxn_last h.txns hid hold, h.nextTxn, h.engines⟩

theorem State.Opened.withWalk {u : Txn} {x : State} (h : s.Opened e u x) (w : List Walk) :
    s.Opened e u { x with xlt := { x.xlt with walk := w } } :=
  ⟨h.alike.trans ⟨rfl, fun _ => rfl, rfl, rfl⟩, h.txns, h.nextTxn, h.engines⟩

section
variable (he : t.kind = .eng) (hunit : t.unit = e) (hxst : t.xst = .ok) (hnum : s.TxnsNumbered)
  (hmiss : s.lookup .eng e (settOf t.va) t.asid t.va = none) (hring : s.RingWaits (settOf t.va))
include he hunit hxst hnum hmiss hring

/-- R217, R218, R277: an engine's request that misses, at a sett with room: it waits for a walk. -/
theorem State.admitRing_miss (hroom : s.parkFull (settOf t.va) = false) :
    s.Opened e (s.walkTxn t) ((s.atRing t).admitRing (settOf t.va)) := by
  have hopened := State.opened_atRing e s t
  have hone : ((s.atRing t).txns.filter fun u => u.sett == settOf t.va && decide (u.phase = .ring)) = [s.ringTxn t] := by
    have hold : ∀ u ∈ s.txns, ¬ (u.sett = settOf t.va ∧ u.phase = .ring) := fun u hu ⟨hsett, hph⟩ =>
      Bool.false_ne_true (hroom.symm.trans (hring u hu hsett hph))
    rw [hopened.txns, List.filter_append, List.filter_eq_nil_iff.2 fun u hu => by simpa using hold u hu]
    simp [State.ringTxn]
  have hfound : (s.atRing t).txn (s.ringTxn t).id = some (s.ringTxn t) := by
    rw [State.txn, hopened.txns, List.find?_append, List.find?_eq_none.2 fun u hu => by simpa [State.ringTxn] using (hnum u hu).ne]
    simp
  have hroom' : (s.atRing t).parkFull (settOf t.va) = false := (State.parkFull_append_ring hopened.txns rfl).trans hroom
  have hclk : (s.atRing t).clk = s.clk := by rw [hopened.alike.frame]
  have hwalk := hopened.setTxn (v := s.walkTxn t) rfl hnum
  obtain ⟨w, hw⟩ := State.translate_miss (s := (s.atRing t).setTxn (s.walkTxn t)) (t := s.walkTxn t)
    (by simpa only [State.walkTxn, State.ringTxn, he, hunit] using (hwalk.alike.lookup _ _ _).trans hmiss)
  have htake := (State.take_of_ok (s := (s.atRing t).setTxn (s.walkTxn t)) (t := s.walkTxn t) hxst).trans hw
  rw [State.admitRing_single hone hfound hroom' he, hclk]
  exact htake ▸ State.Opened.withWalk (.setTxn hwalk rfl hnum) w

/-- R217, R218, R277: an engine's request that misses joins the open ones. It waits for a walk, or at the ring input for a full park. -/
theorem State.request_miss (hty : t.ty ≠ .publish ∧ t.ty ≠ .wbDirty ∧ t.ty ≠ .wbClean) :
    ∃ ph : TxPhase, s.Opened e { s.ringTxn t with phase := ph } (s.request t) ∧
      (ph = .ring → s.parkFull (settOf t.va) = true) := by
  rw [State.request_eq hty]
  cases hfull : s.parkFull (settOf t.va) with
  | true =>
    have hfull' : (s.atRing t).parkFull (settOf t.va) = true :=
      (State.parkFull_append_ring (State.opened_atRing e s t).txns rfl).trans hfull
    rw [State.admitRing_of_full hfull']
    exact ⟨.ring, State.opened_atRing e s t, fun _ => rfl⟩
  | false => exact ⟨.walk, State.admitRing_miss he hunit hxst hnum hmiss hring hfull, nofun⟩

end

end

end Sys2Proof.Machine
end

section
/-! SUPPORT. The lines that an engine asks for and the writes that it issues, when their translations miss (R284, R319). -/

namespace Sys2Proof.Machine
open Sys2Proof

variable {s t u : State} {e a : Nat} {r : Run} {c : QCfg} {l : List Nat} {us vs : List Txn}

/-- R319: engine `e` has sent the requests `us`. -/
structure State.Requested (e : Nat) (s t : State) (us : List Txn) : Prop where
  alike : State.TranslatesAs e s t
  txns : t.txns = s.txns ++ us
  numbered : s.TxnsNumbered → t.TxnsNumbered
  eng : ∃ n, t.eng e = { s.eng e with out := (s.eng e).out ++ us.map (·.va), prog0 := n }
  ring : ∀ n, s.RingWaits n → t.RingWaits n
  mine : ∀ x ∈ us, x.kind = .eng ∧ x.unit = e ∧ x.ugen = (s.eng e).gen

theorem State.Requested.refl (e : Nat) (s : State) : s.Requested e s [] where
  alike := .refl e s
  txns := (List.append_nil _).symm
  numbered h := h
  eng := ⟨(s.eng e).prog0, by rw [List.map_nil, List.append_nil]⟩
  ring _ h := h
  mine x hx := absurd hx List.not_mem_nil

theorem State.Requested.trans (h : s.Requested e t us) (g : t.Requested e u vs) : s.Requested e u (us ++ vs) where
  alike := h.alike.trans g.alike
  txns := by rw [g.txns, h.txns, List.append_assoc]
  numbered := g.numbered ∘ h.numbered
  eng := by
    obtain ⟨n, hn⟩ := h.eng
    obtain ⟨m, hm⟩ := g.eng
    exact ⟨m, by rw [hm, hn]; simp [List.append_assoc]⟩
  ring n := g.ring n ∘ h.ring n
  mine x hx := by
    obtain ⟨n, hn⟩ := h.eng
    obtain hx | hx := List.mem_append.1 hx
    · exact h.mine x hx
    · simpa only [hn] using g.mine x hx

theorem State.Requested.run (h : s.Requested e t us) : (t.eng e).run = (s.eng e).run := by
  obtain ⟨n, hn⟩ := h.eng
  rw [hn]

theorem State.Requested.out (h : s.Requested e t us) : (t.eng e).out = (s.eng e).out ++ us.map (·.va) := by
  obtain ⟨n, hn⟩ := h.eng
  rw [hn]

theorem State.Requested.sbuf (h : s.Requested e t us) : (t.eng e).sbuf = (s.eng e).sbuf := by
  obtain ⟨n, hn⟩ := h.eng
  rw [hn]

/-- R284, R319: engine `e` runs `r`, of a queue, with no fault and no answer to take in, and the translations for the lines `l` miss. -/
structure State.Asks (s : State) (e : Nat) (r : Run) (c : QCfg) (l : List Nat) : Prop where
  run : (s.eng e).run = some r
  sound : r.flt = none ∧ r.inq = false
  ans : (s.eng e).ans = []
  cfg : (s.queue r.q).cfg = some c
  part : ∃ p, s.queuePart r.q = some p
  numbered : s.TxnsNumbered
  misses : ∀ a ∈ l, a < 2 ^ 57 ∧ s.lookup .eng e (settOf a) c.asid a = none ∧ s.RingWaits (settOf a)

namespace State.Asks

theorem mono {m : List Nat} (h : s.Asks e r c l) (hm : ∀ a ∈ m, a ∈ l) : s.Asks e r c m :=
  { h with misses := fun a ha => h.misses a (hm a ha) }

/-- Requests that have been sent leave the further ones as they were. -/
theorem requested (h : s.Asks e r c l) (g : s.Requested e t us) : t.Asks e r c l where
  run := g.run.trans h.run
  sound := h.sound
  ans := by
    obtain ⟨n, hn⟩ := g.eng
    rw [hn, h.ans]
  cfg := by rw [g.alike.queue, h.cfg]
  part := by simpa only [g.alike.queuePart] using h.part
  numbered := g.numbered h.numbered
  misses a ha := by
    obtain ⟨hva, hmiss, hring⟩ := h.misses a ha
    exact ⟨hva, (g.alike.lookup ..).trans hmiss, g.ring _ hring⟩

/-- So does a change of the engine's run and its stream buffer. -/
theorem changed {r' : Run} (h : s.Asks e r c l) (halike : State.TranslatesAs e s t) (htxns : t.txns = s.txns)
    (hnext : t.nextTxn = s.nextTxn) (hrun : (t.eng e).run = some r') (hsound : r'.flt = none ∧ r'.inq = false) (hq : r'.q = r.q)
    (hans : (t.eng e).ans = []) : t.Asks e r' c l where
  run := hrun
  sound := hsound
  ans := hans
  cfg := by rw [hq, halike.queue, h.cfg]
  part := by simpa only [hq, halike.queuePart] using h.part
  numbered u hu := by rw [hnext]; exact h.numbered u (htxns ▸ hu)
  misses a ha := by
    obtain ⟨hva, hmiss, hring⟩ := h.misses a ha
    exact ⟨hva, (halike.lookup ..).trans hmiss, hring.of_txns htxns⟩

/-- R341: the unit's writes are noted as issued, and a free draw is taken. -/
theorem setIssued (h : s.Asks e r c l) (b : Bool) (f : Nat) :
    State.Asks (State.setRun { s with free := f } e { r with issued := b }) e { r with issued := b } c l := by
  have heng : (State.setRun { s with free := f } e { r with issued := b }).eng e = { s.eng e with run := some { r with issued := b } } :=
    State.setEng_get_eng_same ..
  exact h.changed ⟨rfl, fun _ => rfl, by rw [heng], by rw [heng, h.run]; rfl⟩ rfl rfl (by rw [heng]) h.sound rfl (by rw [heng, h.ans])

theorem not_faulted (h : s.Asks e r c l) : s.faulted e = false := by
  rw [State.faulted, h.run]
  simp [h.sound.1]

/-- R319: there is no answer to take in. -/
theorem absorb_eq (h : s.Asks e r c l) (n : Nat) : s.absorb e n = s := by
  cases n with
  | zero => rfl
  | succ n => simp only [State.absorb, h.ans]

end State.Asks

/-- R319, R353: an engine that works, with nothing outstanding, asks for lines. -/
theorem State.Works.asks {op p : Nat} (h : s.Works e op r c p) (hl : s.MissesAt e c l) : s.Asks e r c l where
  run := h.run
  sound := ⟨h.going.2.1, h.going.2.2.2⟩
  ans := h.idle.2
  cfg := h.cfg
  part := ⟨p, h.part⟩
  numbered := h.numbered
  misses a ha := by
    obtain ⟨hva, hmiss, hring⟩ := hl a ha
    exact ⟨hva, hmiss, fun u hu hsett hph => absurd hph (hring u hu hsett)⟩

/-- R319: the request with which engine `e` asks for a line, or writes one. -/
def State.issueTxn (s : State) (e : Nat) (c : QCfg) (p : Nat) (ty : ReqTy) (va : Nat) (data : Bytes) (mask : W64) (pois : Bool)
    (arg op : Nat) : Txn :=
  { kind := .eng, unit := e, ugen := (s.eng e).gen, ty := ty, va := va, data := data, mask := mask, poisonIn := pois
    arg := BitVec.ofNat 24 arg, op := BitVec.ofNat 4 op, asid := c.asid, part := p }

/-- R483: the engine waits for one more answer. -/
def State.asking (s : State) (e va : Nat) : State := s.setEng e { s.eng e with out := (s.eng e).out ++ [va], prog0 := s.clk }

/-- R277, R319: a request whose translation misses leaves the engine and joins the open ones. -/
theorem State.issue_miss (h : s.Asks e r c [a]) (ty : ReqTy) (hty : ty ≠ .publish ∧ ty ≠ .wbDirty ∧ ty ≠ .wbClean) (data : Bytes) (mask : W64)
    (pois : Bool) (arg op : Nat) :
    ∃ x : Txn, s.Requested e (s.issue e ty a data mask pois arg op) [x] ∧
      x.va = a ∧ x.ty = ty ∧ x.mask = mask ∧ x.data = data ∧ x.poisonIn = pois := by
  obtain ⟨p, hpart⟩ := h.part
  obtain ⟨hva, hmiss, hring⟩ := h.misses a (List.mem_singleton_self a)
  have hsent : s.issue e ty a data mask pois arg op = (s.asking e a).request (s.issueTxn e c p ty a data mask pois arg op) := by
    simp only [State.issue, State.asking, State.issueTxn, h.run, h.sound.2, h.cfg, hpart, if_neg (not_le.2 hva), Bool.false_eq_true,
      if_false]
  have halike : State.TranslatesAs e s (s.asking e a) :=
    ⟨rfl, fun _ => rfl, by rw [State.asking, State.setEng_get_eng_same], by rw [State.asking, State.setEng_get_eng_same]⟩
  obtain ⟨ph, hopened, hfull⟩ := State.request_miss (s := s.asking e a) (t := s.issueTxn e c p ty a data mask pois arg op) rfl rfl rfl
    h.numbered ((halike.lookup ..).trans hmiss) hring hty
  rw [hsent]
  refine ⟨_, ⟨halike.trans hopened.alike, hopened.txns, ?numbered, ?eng, ?ring, ?mine⟩, rfl, rfl, rfl, rfl, rfl⟩
  case numbered =>
    intro hnum y hy
    rw [hopened.txns, List.mem_append, List.mem_singleton] at hy
    rw [hopened.nextTxn]
    obtain hy | rfl := hy
    · exact Nat.lt_succ_of_lt (hnum y hy)
    · exact Nat.lt_succ_self _
  case eng => exact ⟨s.clk, by rw [State.eng, hopened.engines]; exact State.setEng_get_eng_same ..⟩
  case ring => exact fun n hn => State.RingWaits.append hn hopened.txns fun hsett hph => by rw [← hsett]; exact hfull hph
  case mine => exact fun y hy => List.mem_singleton.1 hy ▸ ⟨rfl, rfl, rfl⟩

/-- R319: what a write of a unit (address, mask, data, poison) is called as a request. -/
def writeTy (m : W64) : ReqTy := if m = BitVec.allOnes 64 then .wrLine else .wrPart

theorem writeTy_ne (m : W64) : writeTy m ≠ .publish ∧ writeTy m ≠ .wbDirty ∧ writeTy m ≠ .wbClean := by
  unfold writeTy
  split <;> decide

/-- R319: the requests `us` are the writes `ws`, in order. -/
def AreWrites (us : List Txn) (ws : List (Nat × W64 × Bytes × Bool)) : Prop :=
  us.map (fun x => (x.va, x.mask, x.data, x.poisonIn)) = ws ∧ ∀ x ∈ us, x.ty = writeTy x.mask

theorem AreWrites.append {ws xs : List (Nat × W64 × Bytes × Bool)} (h : AreWrites us ws) (g : AreWrites vs xs) :
    AreWrites (us ++ vs) (ws ++ xs) :=
  ⟨by rw [List.map_append, h.1, g.1], fun x hx => (List.mem_append.1 hx).elim (h.2 x) (g.2 x)⟩

/-- R319, R341: writes whose translations miss are issued, all of them. -/
theorem State.writeLines_miss (arg op : Nat) {ws : List (Nat × W64 × Bytes × Bool)} (h : s.Asks e r c (ws.map (·.1))) :
    ∃ us, s.Requested e (s.writeLines e arg op ws) us ∧ AreWrites us ws := by
  induction ws generalizing s with
  | nil => exact ⟨[], .refl e s, rfl, fun x hx => absurd hx List.not_mem_nil⟩
  | cons w ws ih =>
    obtain ⟨a, m, b, p⟩ := w
    obtain ⟨x, hx, hva, hty, hmask, hdata, hpois⟩ :=
      State.issue_miss (a := a) (h.mono fun y hy => List.mem_singleton.1 hy ▸ List.mem_cons_self) (writeTy m) (writeTy_ne m) b m p arg op
    have hnext := (h.requested hx).mono (m := ws.map (·.1)) fun y hy => List.mem_cons_of_mem _ hy
    have hnone := (h.requested hx).absorb_eq
    have hstep : s.writeLines e arg op ((a, m, b, p) :: ws) = (s.issue e (writeTy m) a b m p arg op).writeLines e arg op ws := by
      simp only [State.writeLines, List.foldl_cons, h.not_faulted, Bool.false_eq_true, if_false]
      rw [← writeTy, hnone]
    obtain ⟨us, hus, hwrites⟩ := ih hnext
    rw [hstep]
    refine ⟨x :: us, hx.trans hus, ?_, List.forall_mem_cons.2 ⟨hty.trans (hmask ▸ rfl), hwrites.2⟩⟩
    rw [List.map_cons, hwrites.1, hva, hmask, hdata, hpois]

/-- R319: a line whose translation misses is asked for. -/
theorem State.readLines_miss (arg op : Nat) (h : s.Asks e r c [a]) (hout : (s.eng e).out = []) :
    ∃ x, s.Requested e (s.readLines e arg op [a]) [x] ∧ x.va = a ∧ x.ty = .rdOnce := by
  obtain ⟨x, hx, hva, hty, -⟩ := State.issue_miss h .rdOnce (by decide) [] 0 false arg op
  refine ⟨x, ?_, hva, hty⟩
  have hnone := (h.requested hx).absorb_eq
  simpa only [State.readLines, List.foldl_cons, List.foldl_nil, h.not_faulted, hout, List.contains_nil, Bool.or_self,
    Bool.false_eq_true, if_false, hnone] using hx

end Sys2Proof.Machine
end

section
/-! SUPPORT. One unit of a bulk operation (R339–R341), by what its plan asks for. -/

namespace Sys2Proof.Machine
open Sys2Proof

variable {s : State} {e a op : Nat} {r : Run} {c : QCfg} {l order : List Nat} {ws : List (Nat × W64 × Bytes × Bool)}

/-- R339–R341: the run in hand of engine `e`: a queue's, with nothing of its unit issued, nothing outstanding and no fault. -/
structure State.InUnit (s : State) (e : Nat) (r : Run) : Prop where
  run : (s.eng e).run = some r
  flt : r.flt = none
  issued : r.issued = false
  out : (s.eng e).out = []

/-- A unit that needs no line reads none. -/
theorem State.reads_of_no_need (h : s.InUnit e r) (hplan : ∀ l, r.plan (s.eng e).sbuf order s.free ≠ .need l) (arg op n : Nat) :
    State.runUnit.reads e order arg op n s = s := by
  cases n with
  | zero => rfl
  | succ n =>
    simp only [State.runUnit.reads, h.run, h.flt, Option.isSome_none, Bool.false_eq_true, if_false]

/-- A unit that waits for a line asks for it. -/
theorem State.reads_of_need (h : s.InUnit e r) (hplan : r.plan (s.eng e).sbuf order s.free = .need l) (arg op n : Nat)
    (hlack : lacking ((s.readLines e arg op l).eng e).sbuf l ≠ []) :
    State.runUnit.reads e order arg op (n + 1) s = s.readLines e arg op l := by
  simp only [State.runUnit.reads, h.run, h.flt, hplan, Option.isSome_none, Bool.false_eq_true, if_false, List.isEmpty_iff, hlack]

/-- The state in which the writes of a unit are issued. -/
def State.unitWrites (s : State) (e : Nat) (r : Run) (ws : List (Nat × W64 × Bytes × Bool)) : State :=
  (State.setRun { s with free := s.free + r.d.draws } e { r with issued := true }).writeLines e r.d.rule.1 r.d.rule.2 ws

/-- R341: the unit in hand is over, its writes answered. -/
def State.unitOver (s : State) (e : Nat) (r : Run) : State :=
  s.setEng e { s.eng e with sbuf := r.d.drop r.pos (s.eng e).sbuf, run := some (r.next (s.eng e).sbuf) }

theorem Run.next_issued (r : Run) (b : Bool) (sb : Tab Answer) : Run.next { r with issued := b } sb = r.next sb := rfl

/-- R341: a unit that issues writes waits for their answers. -/
theorem State.runUnit_of_write (h : s.InUnit e r) (hplan : r.plan (s.eng e).sbuf order s.free = .write ws)
    (hrun : ((s.unitWrites e r ws).eng e).run = some { r with issued := true }) (hout : ((s.unitWrites e r ws).eng e).out ≠ []) :
    s.runUnit e order = (s.unitWrites e r ws, false) := by
  have hreads := State.reads_of_no_need h (fun l hl => by rw [hplan] at hl; cases hl)
  simp only [State.runUnit, h.run, h.issued, hreads, hplan, Bool.false_eq_true, if_false]
  rw [← State.unitWrites]
  simp only [hrun, h.flt, List.isEmpty_iff, hout, Option.isSome_none, Bool.false_eq_true, if_false]

/-- R341: a unit that writes nothing is over at once. -/
theorem State.runUnit_of_write_nil (h : s.InUnit e r) (hplan : r.plan (s.eng e).sbuf order s.free = .write []) :
    s.runUnit e order = ((s.unitWrites e r []).unitOver e r, true) := by
  have hreads := State.reads_of_no_need h (fun l hl => by rw [hplan] at hl; cases hl)
  have heng : (s.unitWrites e r []).eng e = { s.eng e with run := some { r with issued := true } } := State.setEng_get_eng_same ..
  simp only [State.runUnit, h.run, h.issued, hreads, hplan, Bool.false_eq_true, if_false]
  rw [← State.unitWrites]
  simp only [heng, Run.next_issued]
  simp only [h.flt, h.out, List.isEmpty_nil, Option.isSome_none, Bool.false_eq_true, if_false, if_true, State.unitOver, heng]

/-- R340: a unit whose check fails ends the run. -/
theorem State.runUnit_of_stop {st : Status} (h : s.InUnit e r) (hplan : r.plan (s.eng e).sbuf order s.free = .stop st) :
    s.runUnit e order = (s.endEarly e st 0, false) := by
  have hreads := State.reads_of_no_need h (fun l hl => by rw [hplan] at hl; cases hl)
  simp only [State.runUnit, h.run, h.issued, h.flt, hreads, hplan, Option.isSome_none, Bool.false_eq_true, if_false]

/-- R319: a unit that lacks a line whose translation misses waits for it. -/
theorem State.runUnit_of_need (h : s.InUnit e r) (hasks : s.Asks e r c [a]) (hplan : ∀ f, r.plan (s.eng e).sbuf order f = .need [a])
    (hlack : lacking (s.eng e).sbuf [a] ≠ []) :
    s.runUnit e order = (s.readLines e r.d.rule.1 r.d.rule.2 [a], false) := by
  obtain ⟨x, hx, -, -⟩ := State.readLines_miss r.d.rule.1 r.d.rule.2 hasks h.out
  have hreads := State.reads_of_need h (hplan s.free) r.d.rule.1 r.d.rule.2 2 (by rwa [hx.sbuf])
  simp only [State.runUnit, h.run, h.issued, hreads, hx.run, hx.sbuf, hplan, h.flt, Option.isSome_none, Bool.false_eq_true, if_false]

/-- R341: the units after one that is over. -/
theorem State.runUnits_of_over {t : State} {k n : Nat} (hk : k < n) (hunit : s.runUnit e order = (t, true)) :
    s.runUnits e order (n - k) = t.runUnits e order (n - (k + 1)) := by
  rw [show n - k = n - (k + 1) + 1 by omega]
  simp only [State.runUnits, hunit, if_true]

/-- R341: a unit that is not over holds the later ones up. -/
theorem State.runUnits_of_pending {t : State} {k n : Nat} (hk : k < n) (hunit : s.runUnit e order = (t, false)) :
    s.runUnits e order (n - k) = t := by
  rw [show n - k = n - (k + 1) + 1 by omega]
  simp only [State.runUnits, hunit, Bool.false_eq_true, if_false]

/-! ### A descriptor (R340–R343) -/

/-- R319, R320: the requests of an engine that had nothing outstanding are the writes that it has issued. -/
theorem issued_of_requested {s' t : State} {us : List Txn} {x : Engine} (hsent : s'.Requested e t us) (hwrites : AreWrites us ws)
    (heng : s'.eng e = x) (hout : x.out = []) (hgen : x.gen = (s.eng e).gen) (htxns : s'.txns = s.txns) : Issued s t e ws := by
  obtain ⟨hws, hty⟩ := hwrites
  refine ⟨us, htxns ▸ hsent.txns, hws, fun u hu => ?_, ?_⟩
  · obtain ⟨hkind, hunit, hgen'⟩ := hsent.mine u hu
    exact ⟨hkind, hunit, hgen'.trans (heng ▸ hgen), hty u hu⟩
  · rw [hsent.out, heng, hout, ← hws, List.nil_append, List.map_map]
    rfl

/-- R340, R341: a run all of whose units are done ends with its count. -/
theorem State.endRun_of_answered (hrun : (s.eng e).run = some r) (hop : r.d.op ≠ 7) (b : Bool) (va : Nat) :
    s.endRun e (if b then .poisoned else .ok) va =
      s.setRun e { r with res := some ⟨if b then .poisoned else .ok, false, fld r.d.bytes 32 8, va⟩ } := by
  cases b <;> simp [State.endRun, hrun, hop]

theorem Issued.out {t : State} (h : Issued s t e ws) : (t.eng e).out = ws.map (·.1) := h.choose_spec.2.2.2

section
variable {p : Nat} (h : s.Works e op r c p)
include h

theorem State.Works.inUnit : s.InUnit e r := ⟨h.run, h.going.2.1, h.going.2.2.1, h.idle.1⟩

variable (hcheck : r.d.check = .ok)
include hcheck

section
variable {t : State} {r1 : Run} (ht : s.runUnits e order (r.d.units - r.pos) = t) (hrun : (t.eng e).run = some r1)
include ht hrun

/-- R340, R341: a descriptor that has ended, or has units to do, is left as its units leave it. -/
theorem State.runDesc_of_going (hgoing : r1.res.isSome ∨ r1.res = none ∧ r1.flt = none ∧ r1.pos < r1.d.units) :
    s.runDesc e op order = t := by
  obtain ⟨hrun0, hst, ⟨hhalt, hgate⟩, ⟨hres0, -, -, hinq⟩, hop⟩ := h
  simp only [State.runDesc, hrun0, hst, hhalt, hgate, hres0, hinq, hop, hcheck, ht, hrun, ne_eq, not_true, Option.isSome_none,
    Bool.false_eq_true, false_and, or_false, if_false]
  obtain hres | ⟨hres, hflt, hpos⟩ := hgoing
  · rw [if_pos hres]
  · simp only [hres, hflt, if_neg (not_le.2 hpos), Option.isSome_none, Bool.false_eq_true, if_false]

/-- R340, R341: a descriptor ends with its last unit. -/
theorem State.runDesc_of_done (hres : r1.res = none) (hflt : r1.flt = none) (hpos : r1.d.units ≤ r1.pos) :
    s.runDesc e op order = t.endRun e (if r1.pois then .poisoned else .ok) 0 := by
  obtain ⟨hrun0, hst, ⟨hhalt, hgate⟩, ⟨hres0, -, -, hinq⟩, hop⟩ := h
  simp only [State.runDesc, hrun0, hst, hhalt, hgate, hres0, hinq, hop, hcheck, ht, hrun, hres, hflt, hpos, ne_eq, not_true,
    Option.isSome_none, Bool.false_eq_true, false_and, or_false, if_false, if_true]

end

/-- R319, R341: a unit whose lines are at hand issues its writes. -/
theorem State.runDesc_issues (hpos : r.pos < r.d.units) (hplan : r.plan (s.eng e).sbuf order s.free = .write ws) (hws : ws ≠ [])
    (hmiss : s.Misses e c ws) : Issued s (s.runDesc e op order) e ws := by
  have hasks := (h.asks hmiss).setIssued true (s.free + r.d.draws)
  obtain ⟨us, hsent, hwrites⟩ := State.writeLines_miss r.d.rule.1 r.d.rule.2 hasks
  have hissued := issued_of_requested (s := s) hsent hwrites (State.setEng_get_eng_same ..) h.idle.1 rfl rfl
  have hunit := State.runUnit_of_write h.inUnit hplan (hsent.run.trans hasks.run)
    (hissued.out ▸ fun hnil => hws (List.map_eq_nil_iff.1 hnil))
  rw [State.runDesc_of_going h hcheck (State.runUnits_of_pending hpos hunit) (hsent.run.trans hasks.run)
    (.inr ⟨h.going.1, h.going.2.1, hpos⟩)]
  exact hissued

/-- R335, R340: a unit whose check fails ends the descriptor. -/
theorem State.runDesc_stops {st : Status} (hpos : r.pos < r.d.units) (hplan : r.plan (s.eng e).sbuf order s.free = .stop st) :
    s.runDesc e op order = s.setRun e { r with res := some ⟨st, false, 0, 0⟩ } := by
  have hend : s.endEarly e st 0 = s.setRun e { r with res := some ⟨st, false, 0, 0⟩ } := by simp only [State.endEarly, h.run]
  refine State.runDesc_of_going h hcheck ?_ (r1 := { r with res := some ⟨st, false, 0, 0⟩ }) ?_ (.inl rfl)
  · rw [State.runUnits_of_pending hpos (State.runUnit_of_stop h.inUnit hplan), hend]
  · rw [State.setRun, State.setEng_get_eng_same]

/-- R340: the last unit, that writes nothing, ends the descriptor. -/
theorem State.runDesc_ends (hop : op ≠ 7) (hpos : r.pos + 1 = r.d.units) (hplan : r.plan (s.eng e).sbuf order s.free = .write []) :
    (s.runDesc e op order).txns = s.txns ∧ ∃ r', ((s.runDesc e op order).eng e).run = some r' ∧
      r'.res = some ⟨if r.pois then .poisoned else .ok, false, fld r.d.bytes 32 8, 0⟩ := by
  have hunits : s.runUnits e order (r.d.units - r.pos) = (s.unitWrites e r []).unitOver e r := by
    rw [State.runUnits_of_over (by omega) (State.runUnit_of_write_nil h.inUnit hplan), ← hpos, Nat.sub_self, State.runUnits]
  have hrun : (((s.unitWrites e r []).unitOver e r).eng e).run = some (r.next ((s.unitWrites e r []).eng e).sbuf) := by
    rw [State.unitOver, State.setEng_get_eng_same]
  rw [State.runDesc_of_done h hcheck hunits hrun h.going.1 h.going.2.1 hpos.ge]
  rw [State.endRun_of_answered hrun (h.op_ ▸ hop)]
  exact ⟨rfl, _, by rw [State.setRun, State.setEng_get_eng_same], rfl⟩

/-- R332, R335: a unit that takes in a line at hand and lacks the next one asks for it. -/
theorem State.runDesc_asks (hpos : r.pos + 1 < r.d.units) (hplan : r.plan (s.eng e).sbuf order s.free = .write [])
    (hdrop : r.d.drop r.pos (s.eng e).sbuf = []) (hnext : ∀ f, (r.next (s.eng e).sbuf).plan [] order f = .need [a])
    (hmiss : s.MissesAt e c [a]) :
    Asked s (s.runDesc e op order) e [a] ∧ ((s.runDesc e op order).eng e).run = some (r.next (s.eng e).sbuf) := by
  obtain ⟨t, ht⟩ : ∃ t, t = (s.unitWrites e r []).unitOver e r := ⟨_, rfl⟩
  have heng : t.eng e = { s.eng e with sbuf := [], run := some (r.next (s.eng e).sbuf) } := by
    have hwritten : (s.unitWrites e r []).eng e = { s.eng e with run := some { r with issued := true } } :=
      State.setEng_get_eng_same ..
    rw [ht, State.unitOver, State.setEng_get_eng_same, hwritten, hdrop]
  have hunits : s.runUnits e order (r.d.units - r.pos) = t.runUnits e order (r.d.units - (r.pos + 1)) :=
    State.runUnits_of_over (by omega) (ht ▸ State.runUnit_of_write_nil h.inUnit hplan)
  have hinUnit : t.InUnit e (r.next (s.eng e).sbuf) := ⟨by rw [heng], h.going.2.1, rfl, by rw [heng]; exact h.idle.1⟩
  have hasks : t.Asks e (r.next (s.eng e).sbuf) c [a] :=
    (h.asks hmiss).changed ⟨by rw [ht]; rfl, fun p => by rw [ht]; rfl, by rw [heng], by rw [heng, h.run]; rfl⟩ (by rw [ht]; rfl)
      (by rw [ht]; rfl) (by rw [heng]) ⟨h.going.2.1, h.going.2.2.2⟩ rfl (by rw [heng]; exact h.idle.2)
  obtain ⟨x, hsent, hva, hty⟩ := State.readLines_miss r.d.rule.1 r.d.rule.2 hasks hinUnit.out
  have hneed := State.runUnit_of_need (order := order) hinUnit hasks (by rw [heng]; exact hnext) (by rw [heng]; exact nofun)
  rw [State.runDesc_of_going h hcheck (hunits.trans (State.runUnits_of_pending hpos hneed)) (hsent.run.trans hasks.run)
    (.inr ⟨h.going.1, h.going.2.1, hpos⟩)]
  refine ⟨⟨[x], hsent.txns.trans (by rw [ht]; rfl), by rw [List.map_singleton, hva], fun u hu => ?_, ?_⟩, hsent.run.trans hasks.run⟩
  · obtain ⟨hkind, hunit, hgen⟩ := hsent.mine u hu
    exact ⟨hkind, hunit, hgen.trans (by rw [heng]), List.mem_singleton.1 hu ▸ hty⟩
  · exact hsent.out.trans (by rw [hinUnit.out, List.map_singleton, hva, List.nil_append])

end

end Sys2Proof.Machine
end

section
/-! SUPPORT. What the unit in hand of each bulk operation asks for (R332–R336), its input lines in the stream buffer. -/

namespace Sys2Proof.Machine
open Sys2Proof

variable {s : State} {e a : Nat} {l : List Nat} {r : Run}

@[simp] theorem length_slice (bs : Bytes) (i n : Nat) : (slice bs i n).length = n := by
  simp only [slice, List.length_append, List.length_replicate, List.length_take]
  omega

theorem slice_zero_length (bs : Bytes) : slice bs 0 bs.length = bs := by simp [slice]

theorem State.AtHand.lacking_eq (h : s.AtHand e l) : lacking (s.eng e).sbuf l = [] :=
  List.filter_eq_nil_iff.2 fun x hx => by simp [h x hx]

theorem State.AtHand.left {b : Nat} (h : s.AtHand e [a, b]) : s.AtHand e [a] := fun x hx => h x (List.mem_cons.2 (.inl (List.mem_singleton.1 hx)))

theorem State.AtHand.right {b : Nat} (h : s.AtHand e [a, b]) : s.AtHand e [b] := fun x hx => h x (List.mem_cons_of_mem _ hx)

/-- R318: what is gathered of lines is the lines' bytes and whether any of them is poisoned. -/
theorem State.gathered_eq (s : State) (e : Nat) (l : List Nat) :
    gathered (s.eng e).sbuf l = (l.flatMap (s.bufData e), l.any (s.bufPois e)) := rfl

theorem State.gathered_line (s : State) (e a : Nat) : gathered (s.eng e).sbuf [a] = (s.bufData e a, s.bufPois e a) := by
  rw [State.gathered_eq, List.flatMap_singleton, List.any_cons, List.any_nil, Bool.or_false]

@[simp] theorem State.length_bufData (s : State) (e a : Nat) : (s.bufData e a).length = 64 := length_slice ..

/-- A line's bytes are one whole write. -/
theorem wholeWrites_line {bs : Bytes} (h : bs.length = 64) (a : Nat) (b : Bool) :
    wholeWrites a bs b = [(a, BitVec.allOnes 64, bs, b)] := by
  have hslice : slice bs 0 64 = bs := h ▸ slice_zero_length bs
  simp [wholeWrites, h, hslice]

/-- R334, R335: one line of an element copy, its index line and its source line at hand. -/
theorem State.elemPlan_of_atHand {idx i : Nat} {src dst : Nat → Nat} (hidx : s.AtHand e [(idx + 4 * i) / 64 * 64])
    (hsrc : s.AtHand e [src (indexAt (s.eng e).sbuf idx i)]) :
    elemPlan (s.eng e).sbuf idx i src dst =
      .write [(dst (indexAt (s.eng e).sbuf idx i), BitVec.allOnes 64, s.bufData e (src (indexAt (s.eng e).sbuf idx i)),
        s.bufPois e (src (indexAt (s.eng e).sbuf idx i)) || s.bufPois e ((idx + 4 * i) / 64 * 64))] := by
  simp only [elemPlan, hidx.lacking_eq, hsrc.lacking_eq, State.gathered_line, wholeWrites_line (State.length_bufData ..), List.isEmpty_nil,
    Bool.not_true, Bool.false_eq_true, if_false]
  rfl

/-- R332: COPY. -/
theorem Run.plan_copy (hop : r.d.op = 1) {i : Nat} (hi : i = if r.d.copyDown then r.d.units - 1 - r.pos else r.pos)
    (h : s.AtHand e [fld r.d.bytes 16 8 + 64 * i]) (order : List Nat) (free : Nat) :
    r.plan (s.eng e).sbuf order free = .write [(fld r.d.bytes 24 8 + 64 * i, BitVec.allOnes 64,
      if r.d.copyOverlap (fld r.d.bytes 24 8 + 64 * i) then toLe 64 (Config.freeBits 512 free).toNat
      else s.bufData e (fld r.d.bytes 16 8 + 64 * i), s.bufPois e (fld r.d.bytes 16 8 + 64 * i))] := by
  have hunits : r.d.units = fld r.d.bytes 32 8 / 64 := by simp only [Desc.units, hop]
  rw [hunits] at hi
  simp only [Run.plan, hop, ← hi, h.lacking_eq, State.gathered_line, List.isEmpty_nil, Bool.not_true, Bool.false_eq_true, if_false]
  rw [wholeWrites_line]
  split
  · exact length_toLe ..
  · exact State.length_bufData ..

/-- R332: FILL. -/
theorem Run.plan_fill (hop : r.d.op = 2) (sb : Tab Answer) (order : List Nat) (free : Nat) :
    r.plan sb order free = .write [(fld r.d.bytes 24 8 + 64 * r.pos, BitVec.allOnes 64,
      (List.replicate 8 (slice r.d.bytes 40 8)).flatten, false)] := by
  simp only [Run.plan, hop]
  rw [wholeWrites_line (by simp)]

/-- R333: CONVERT. -/
theorem Run.plan_convert (hop : r.d.op = 3) {n : Nat} (hn : n = min 2048 (fld r.d.bytes 32 8 - 2048 * r.pos))
    (hl : l = linesOf (fld r.d.bytes 16 8 + fmtSize (fld r.d.bytes 40 1) (2048 * r.pos)) (fmtSize (fld r.d.bytes 40 1) n))
    (h : s.AtHand e l) (order : List Nat) (free : Nat) :
    r.plan (s.eng e).sbuf order free = .write (convertWrites (fld r.d.bytes 40 1) (fld r.d.bytes 41 1)
      (fld r.d.bytes 16 8 + fmtSize (fld r.d.bytes 40 1) (2048 * r.pos)) (fld r.d.bytes 24 8 + fmtSize (fld r.d.bytes 41 1) (2048 * r.pos))
      (s.eng e).sbuf l (convertBytes (fld r.d.bytes 40 1) (fld r.d.bytes 41 1) n
        (if fld r.d.bytes 42 1 = 0 then .rne else if fld r.d.bytes 42 1 = 1 then .rtz else .stoch) free (l.flatMap (s.bufData e)))) := by
  simp only [Run.plan, hop, ← hn, ← hl, h.lacking_eq, State.gathered_eq, List.isEmpty_nil, Bool.not_true, Bool.false_eq_true, if_false]

section
variable {w i o : Nat}

/-- R334: GATHER. -/
theorem Run.plan_gather (hop : r.d.op = 4) (hw : w = 2 ^ (fld r.d.bytes 40 1 - 6)) (hi : i = r.pos / w) (ho : o = 64 * (r.pos % w))
    (h : s.AtHand e [(fld r.d.bytes 16 8 + 4 * i) / 64 * 64,
      fld r.d.bytes 48 8 + indexAt (s.eng e).sbuf (fld r.d.bytes 16 8) i * 2 ^ fld r.d.bytes 40 1 + o]) (order : List Nat) (free : Nat) :
    r.plan (s.eng e).sbuf order free = .write [(fld r.d.bytes 24 8 + i * 2 ^ fld r.d.bytes 40 1 + o, BitVec.allOnes 64,
      s.bufData e (fld r.d.bytes 48 8 + indexAt (s.eng e).sbuf (fld r.d.bytes 16 8) i * 2 ^ fld r.d.bytes 40 1 + o),
      s.bufPois e (fld r.d.bytes 48 8 + indexAt (s.eng e).sbuf (fld r.d.bytes 16 8) i * 2 ^ fld r.d.bytes 40 1 + o) ||
        s.bufPois e ((fld r.d.bytes 16 8 + 4 * i) / 64 * 64))] := by
  simp only [Run.plan, hop, ← hw, ← hi, ← ho]
  exact State.elemPlan_of_atHand h.left h.right

/-- R334: SCATTER. The free draw tells whether the copy of an index named before lands. -/
theorem Run.plan_scatter (hop : r.d.op = 5) (hw : w = 2 ^ (fld r.d.bytes 40 1 - 6)) (hi : i = r.pos / w) (ho : o = 64 * (r.pos % w))
    (h : s.AtHand e [(fld r.d.bytes 16 8 + 4 * i) / 64 * 64, fld r.d.bytes 24 8 + i * 2 ^ fld r.d.bytes 40 1 + o])
    (order : List Nat) (free : Nat) :
    r.plan (s.eng e).sbuf order free =
      if indexAt (s.eng e).sbuf (fld r.d.bytes 16 8) i ∈ r.seen ∧ Config.freeNat free % 2 = 0 then .write []
      else .write [(fld r.d.bytes 48 8 + indexAt (s.eng e).sbuf (fld r.d.bytes 16 8) i * 2 ^ fld r.d.bytes 40 1 + o, BitVec.allOnes 64,
        s.bufData e (fld r.d.bytes 24 8 + i * 2 ^ fld r.d.bytes 40 1 + o),
        s.bufPois e (fld r.d.bytes 24 8 + i * 2 ^ fld r.d.bytes 40 1 + o) || s.bufPois e ((fld r.d.bytes 16 8 + 4 * i) / 64 * 64))] := by
  simp only [Run.plan, hop, ← hw, ← hi, ← ho, List.contains_iff_mem]
  rw [State.elemPlan_of_atHand h.left h.right]

/-- R335: a move of COMPACT. -/
theorem Run.plan_compact_move {m : Nat} (hop : r.d.op = 9) (hw : w = 2 ^ (fld r.d.bytes 40 1 - 6)) (hpos : r.pos = r.d.idxLines + m)
    (hi : i = m / w) (ho : o = 64 * (m % w)) (hidx : s.AtHand e [(fld r.d.bytes 16 8 + 4 * i) / 64 * 64])
    (hmoves : indexAt (s.eng e).sbuf (fld r.d.bytes 16 8) i ≠ i)
    (hsrc : s.AtHand e [fld r.d.bytes 48 8 + indexAt (s.eng e).sbuf (fld r.d.bytes 16 8) i * 2 ^ fld r.d.bytes 40 1 + o])
    (order : List Nat) (free : Nat) :
    r.plan (s.eng e).sbuf order free = .write [(fld r.d.bytes 48 8 + i * 2 ^ fld r.d.bytes 40 1 + o, BitVec.allOnes 64,
      s.bufData e (fld r.d.bytes 48 8 + indexAt (s.eng e).sbuf (fld r.d.bytes 16 8) i * 2 ^ fld r.d.bytes 40 1 + o),
      s.bufPois e (fld r.d.bytes 48 8 + indexAt (s.eng e).sbuf (fld r.d.bytes 16 8) i * 2 ^ fld r.d.bytes 40 1 + o) ||
        s.bufPois e ((fld r.d.bytes 16 8 + 4 * i) / 64 * 64))] := by
  have hlist : ¬ r.pos < r.d.idxLines := by omega
  have hm : r.pos - r.d.idxLines = m := by omega
  simp only [Run.plan, hop, hlist, hm, ← hw, ← hi, ← ho, hidx.lacking_eq, hmoves, List.isEmpty_nil, Bool.not_true, Bool.false_eq_true,
    if_false]
  exact State.elemPlan_of_atHand hidx hsrc

end

/-- R335: a line of COMPACT's index list is checked. -/
theorem Run.plan_compact_check (hop : r.d.op = 9) (hpos : r.pos < r.d.idxLines) (h : s.AtHand e [fld r.d.bytes 16 8 + 64 * r.pos])
    (order : List Nat) (free : Nat) :
    r.plan (s.eng e).sbuf order free =
      if ascending r.seen.head? (r.d.indices r.pos (s.eng e).sbuf) then .write [] else .stop .badDescriptor := by
  simp only [Run.plan, hop, hpos, h.lacking_eq, List.isEmpty_nil, Bool.not_true, Bool.false_eq_true, if_false, if_true]

/-- R335: with nothing in the stream buffer, COMPACT asks for the line of its index list that it works by. -/
theorem Run.plan_compact_need (hop : r.d.op = 9) (hal : fld r.d.bytes 16 8 % 64 = 0) (hpos : r.pos ≤ r.d.idxLines) (order : List Nat)
    (free : Nat) :
    r.plan [] order free =
      .need [if r.pos < r.d.idxLines then fld r.d.bytes 16 8 + 64 * r.pos else fld r.d.bytes 16 8] := by
  by_cases hlist : r.pos < r.d.idxLines
  · simp only [Run.plan, hop, hlist, if_true]
    rfl
  · have hfirst : r.pos - r.d.idxLines = 0 := by omega
    have hline : fld r.d.bytes 16 8 / 64 * 64 = fld r.d.bytes 16 8 := Nat.div_mul_cancel (Nat.dvd_of_mod_eq_zero hal)
    simp only [Run.plan, hop, hlist, hfirst, Nat.zero_div, Nat.mul_zero, Nat.add_zero, hline, if_false]
    rfl

theorem accBytes_dvd (fmt : Nat) : accBytes fmt ∣ 64 := by
  unfold accBytes
  split <;> decide

theorem length_reduceLine (fmt : Nat) (lines : List Bytes) (old : Option Bytes) : (reduceLine fmt lines old).length = 64 := by
  simp [reduceLine, unelems, List.length_flatMap, Function.comp_def, Nat.div_mul_cancel (accBytes_dvd fmt)]

/-- R336: REDUCE. -/
theorem Run.plan_reduce (hop : r.d.op = 6) {n dst : Nat} {src : List Nat} {old : Option Bytes} (hn : n = fld r.d.bytes 48 2)
    (hdst : dst = fld r.d.bytes 24 8 + 64 * r.pos)
    (hsrc : src = (List.range n).map fun k => fld r.d.bytes 16 8 + k * fld r.d.bytes 40 8 + 64 * r.pos)
    (hl : l = if (fld r.d.bytes 51 1).testBit 0 then src ++ [dst] else src) (h : s.AtHand e l)
    (hold : old = if (fld r.d.bytes 51 1).testBit 0 then some (s.bufData e dst) else none) (order : List Nat) (free : Nat) :
    r.plan (s.eng e).sbuf order free = .write [(dst, BitVec.allOnes 64, reduceLine (fld r.d.bytes 50 1)
      ((arrivalOrder n order).map fun k => s.bufData e (fld r.d.bytes 16 8 + k * fld r.d.bytes 40 8 + 64 * r.pos)) old,
      l.any (s.bufPois e))] := by
  simp only [Run.plan, hop, State.gathered_line, ← hn, ← hdst, ← hsrc, ← hold, ← hl, h.lacking_eq, List.isEmpty_nil, Bool.not_true,
    Bool.false_eq_true, if_false]
  rw [wholeWrites_line (length_reduceLine ..), State.gathered_eq]

/-- R332: a line of DIGEST that is at hand is taken in. -/
theorem Run.plan_digest_line (hop : r.d.op = 8) (hpos : r.pos < fld r.d.bytes 32 8 / 64)
    (h : s.AtHand e [fld r.d.bytes 16 8 + 64 * r.pos]) (order : List Nat) (free : Nat) : r.plan (s.eng e).sbuf order free = .write [] := by
  simp only [Run.plan, hop, hpos, h.lacking_eq, List.isEmpty_nil, Bool.not_true, Bool.false_eq_true, if_false, if_true]

/-- R332: DIGEST asks for a line that it lacks. -/
theorem Run.plan_digest_need (hop : r.d.op = 8) (hpos : r.pos < fld r.d.bytes 32 8 / 64) (order : List Nat) (free : Nat) :
    r.plan [] order free = .need [fld r.d.bytes 16 8 + 64 * r.pos] := by
  simp only [Run.plan, hop, hpos, if_true]
  rfl

/-- R332: the last unit of DIGEST. -/
theorem Run.plan_digest_last (hop : r.d.op = 8) (hpos : ¬ r.pos < fld r.d.bytes 32 8 / 64) (sb : Tab Answer) (order : List Nat) (free : Nat) :
    r.plan sb order free =
      .write [(fld r.d.bytes 24 8, lineMask 0 32, sm3Last r.dig (fld r.d.bytes 32 8) ++ List.replicate 32 0, r.pois)] := by
  simp only [Run.plan, hop, hpos, if_false]

end Sys2Proof.Machine
end

section
/-! SUPPORT. The digest of a message taken block by block (R332), and an ascending index list (R335). -/

namespace Sys2Proof.Machine
open Sys2Proof

/-! ### SM3 -/

/-- The working words are words. -/
def Sm3.Words (v : Sm3) : Prop :=
  v.a < 2 ^ 32 ∧ v.b < 2 ^ 32 ∧ v.c < 2 ^ 32 ∧ v.d < 2 ^ 32 ∧ v.e < 2 ^ 32 ∧ v.f < 2 ^ 32 ∧ v.g < 2 ^ 32 ∧ v.h < 2 ^ 32

theorem sm3Iv_words : sm3Iv.Words := by unfold Sm3.Words; decide

theorem rolNat_lt (x n : Nat) : rolNat x n < 2 ^ 32 := Nat.mod_lt _ (by decide)

theorem sm3P0_lt {x : Nat} (h : x < 2 ^ 32) : sm3P0 x < 2 ^ 32 :=
  Nat.xor_lt_two_pow (Nat.xor_lt_two_pow h (rolNat_lt ..)) (rolNat_lt ..)

theorem sm3Round_words {v : Sm3} (h : v.Words) (j w w4 : Nat) : (sm3Round v j w w4).Words := by
  obtain ⟨ha, -, hc, -, he, -, hg, -⟩ := h
  exact ⟨Nat.mod_lt _ (by decide), ha, rolNat_lt .., hc, sm3P0_lt (Nat.mod_lt _ (by decide)), he, rolNat_lt .., hg⟩

theorem sm3Rounds_words {v : Sm3} (h : v.Words) (n j : Nat) (w : List Nat) : (sm3Rounds n j w v).Words := by
  induction n generalizing v j w with
  | zero => exact h
  | succ n ih => exact ih (sm3Round_words h ..) ..

theorem sm3Block_words {v : Sm3} (h : v.Words) (b : Bytes) : (sm3Block v b).Words := by
  obtain ⟨xa, xb, xc, xd, xe, xf, xg, xh⟩ := sm3Rounds_words h 64 0 (sm3Expand 52 ((beWords 16 b).map BitVec.toNat).reverse).reverse
  obtain ⟨va, vb, vc, vd, ve, vf, vg, vh⟩ := h
  exact ⟨Nat.xor_lt_two_pow xa va, Nat.xor_lt_two_pow xb vb, Nat.xor_lt_two_pow xc vc, Nat.xor_lt_two_pow xd vd,
    Nat.xor_lt_two_pow xe ve, Nat.xor_lt_two_pow xf vf, Nat.xor_lt_two_pow xg vg, Nat.xor_lt_two_pow xh vh⟩

/-- A chaining value is read back from the words that hold it. -/
theorem sm3Of_words {v : Sm3} (h : v.Words) : sm3Of ([v.a, v.b, v.c, v.d, v.e, v.f, v.g, v.h].map (BitVec.ofNat 32)) = v := by
  obtain ⟨ha, hb, hc, hd, he, hf, hg, hh⟩ := h
  simp only [List.map_cons, List.map_nil, sm3Of, BitVec.toNat_ofNat, Nat.mod_eq_of_lt ha, Nat.mod_eq_of_lt hb, Nat.mod_eq_of_lt hc,
    Nat.mod_eq_of_lt hd, Nat.mod_eq_of_lt he, Nat.mod_eq_of_lt hf, Nat.mod_eq_of_lt hg, Nat.mod_eq_of_lt hh]

theorem sm3Of_sm3Next {l : List W32} (h : (sm3Of l).Words) (b : Bytes) : sm3Of (sm3Next l b) = sm3Block (sm3Of l) b :=
  sm3Of_words (sm3Block_words h b)

theorem sm3Of_foldl {w : List W32} (h : (sm3Of w).Words) (l : List Bytes) : sm3Of (l.foldl sm3Next w) = l.foldl sm3Block (sm3Of w) := by
  induction l generalizing w with
  | nil => rfl
  | cons b l ih =>
    have hnext := sm3Of_sm3Next h b
    rw [List.foldl_cons, List.foldl_cons, ih (hnext ▸ sm3Block_words h b), hnext]

/-- Whole blocks, one after the other, and the rest. -/
theorem sm3Blocks_flatten {l : List Bytes} (hl : ∀ b ∈ l, b.length = 64) (v : Sm3) (n : Nat) (rest : Bytes) :
    sm3Blocks (l.length + n) v (l.flatten ++ rest) = sm3Blocks n (l.foldl sm3Block v) rest := by
  induction l generalizing v with
  | nil => simp
  | cons b l ih =>
    obtain ⟨hb, hl⟩ := List.forall_mem_cons.1 hl
    have hslice : slice (b ++ (l.flatten ++ rest)) 0 64 = b := by
      rw [slice_append_left (by omega), ← hb, slice_zero_length]
    rw [List.length_cons, Nat.add_right_comm, sm3Blocks, List.flatten_cons, List.append_assoc, hslice, List.drop_left' hb, ih hl,
      List.foldl_cons]

/-- R332: the digest taken block by block is the message's. -/
theorem sm3Last_foldl {l : List Bytes} (hl : ∀ b ∈ l, b.length = 64) :
    sm3Last (l.foldl sm3Next []) (64 * l.length) = sm3 l.flatten := by
  obtain ⟨pad, hpad⟩ : ∃ pad, pad = [0x80] ++ List.replicate 55 0 ++ toBe 8 (8 * (64 * l.length)) := ⟨_, rfl⟩
  have hlen : l.flatten.length = 64 * l.length := by
    rw [List.length_flatten, List.map_congr_left hl, List.map_const', List.sum_replicate, smul_eq_mul, Nat.mul_comm]
  have hpadlen : pad.length = 64 := by simp [hpad, toBe]
  have hz : (119 - 64 * l.length % 64) % 64 = 55 := by omega
  have hmsg : l.flatten ++ [0x80] ++ List.replicate 55 0 ++ toBe 8 (8 * (64 * l.length)) = l.flatten ++ pad := by
    simp only [hpad, List.append_assoc]
  have hblocks : (l.flatten ++ pad).length / 64 = l.length + 1 := by
    rw [List.length_append, hlen, hpadlen]
    omega
  have hlast : slice pad 0 64 = pad := hpadlen ▸ slice_zero_length pad
  simp only [sm3Last, sm3, hlen, hz, ← hpad, hmsg, hblocks]
  rw [sm3Blocks_flatten hl, sm3Of_foldl (w := []) sm3Iv_words, sm3Blocks, sm3Blocks, hlast]
  rfl

/-! ### Index lists -/

/-- R335: the check of an index list. -/
theorem ascending_iff (last : Option Nat) (l : List (Nat × Nat)) :
    ascending last l = true ↔ (∀ x ∈ l, x.1 ≤ x.2) ∧ List.Pairwise (· < ·) (last.toList ++ l.map (·.2)) := by
  simp only [← List.isChain_iff_pairwise]
  induction l generalizing last with
  | nil => cases last <;> simp [ascending]
  | cons x l ih =>
    obtain ⟨i, j⟩ := x
    cases last with
    | none => simp [ascending, ih, and_assoc]
    | some k => simp [ascending, ih, and_assoc, and_left_comm]

end Sys2Proof.Machine
end

section
/-! SUPPORT. O39: the units of the bulk operations (R318–R320, R331–R336). -/

namespace Sys2Proof.Machine
open Sys2Proof

variable {s : State} {e p op : Nat} {r : Run} {c : QCfg}

/-- R331: a descriptor whose checks pass has its index list on a line. -/
theorem Desc.check_index_aligned {d : Desc} (hop : d.op = 9) (h : d.check = .ok) : fld d.bytes 16 8 % 64 = 0 := by
  have hal : (if [fld d.bytes 16 8, fld d.bytes 48 8].all fun a => a % 64 == 0 then Status.ok else .alignFault) = .ok :=
    (Status.first_ok_iff _).1 (by simpa only [Desc.check, hop] using h) _ (by simp)
  by_contra hne
  simp [hne] at hal

theorem Desc.units_digest {d : Desc} (hop : d.op = 8) (h : 0 < fld d.bytes 32 8) : d.units = fld d.bytes 32 8 / 64 + 1 := by
  simp only [Desc.units, hop, if_neg h.ne']

/-- R335: a COMPACT that has units has moves after the check of its list. -/
theorem Desc.idxLines_lt_units {d : Desc} (hop : d.op = 9) {k : Nat} (h : k < d.units) : d.idxLines < d.units := by
  simp only [Desc.units, hop] at h ⊢
  split at h
  · exact absurd h k.not_lt_zero
  · next hn =>
    rw [if_neg hn]
    exact Nat.lt_add_of_pos_right (Nat.mul_pos (Nat.pos_of_ne_zero hn) (Nat.two_pow_pos _))

/-- R332: a DIGEST that has taken in a line. -/
theorem Run.next_digest (hop : r.d.op = 8) (hissued : r.issued = false) (hpos : r.pos < fld r.d.bytes 32 8 / 64) :
    r.next (s.eng e).sbuf =
      { r with pos := r.pos + 1, wrote := [], dig := sm3Next r.dig (s.bufData e (fld r.d.bytes 16 8 + 64 * r.pos)) } := by
  simp [Run.next, hop, hissued, hpos, State.gathered_line]

/-- R335: a COMPACT that has checked a line of its list. -/
theorem Run.next_compact (hop : r.d.op = 9) (hissued : r.issued = false) (hpos : r.pos < r.d.idxLines) (sb : Tab Answer) :
    r.next sb =
      { r with pos := r.pos + 1, wrote := [], seen := ((r.d.indices r.pos sb).getLast?.map (·.2)).toList } := by
  simp [Run.next, hop, hissued, hpos]

/-- R319, R341: a unit of one write, its lines at hand. -/
theorem leads_issued {x : Instr} {order : List Nat} {y : Nat × W64 × Bytes × Bool} (hexec : exec x s = .next (s.runDesc e op order))
    (hw : s.Works e op r c p) (hcheck : r.d.check = .ok) (hpos : r.pos < r.d.units)
    (hplan : r.plan (s.eng e).sbuf order s.free = .write [y]) (hmiss : s.Misses e c [y]) : Leads x s fun t => Issued s t e [y] :=
  leads_of_exec hexec (State.runDesc_issues hw hcheck hpos hplan (List.cons_ne_nil y []) hmiss)

/-- Settles O39. Each clause gives the plan of its operation's unit (`Run.plan_copy` and those after it) to the lemma that says what a unit with
such a plan does: it issues its writes (`State.runDesc_issues`), takes a line in and asks for the next (`State.runDesc_asks`), or ends the
descriptor. -/
theorem engineUnits : Obligations.EngineUnits := by
  unfold Obligations.EngineUnits
  refine ⟨?copy, ?overlap, ?fill, ?convert, ?gather, ?scatter, ?again, ?reduce, ?digest, ?last, fun l hl => sm3Last_foldl hl, ascending_iff,
    ?unordered, ?list, ?move⟩
  case copy =>
    intro s e p i a dst r c hw hcheck hpos hi ha hdst hover hhand hmiss
    subst ha hdst
    refine leads_issued rfl hw hcheck hpos ?_ hmiss
    rw [Run.plan_copy hw.op_ hi hhand, hover]
    rfl
  case overlap =>
    intro s e p i a dst r c hw hcheck hpos hi ha hdst hover hhand hmiss
    subst ha hdst
    refine leads_of_exec rfl ⟨toLe 64 (Config.freeBits 512 s.free).toNat, length_toLe .., ?_⟩
    refine State.runDesc_issues hw hcheck hpos ?_ (List.cons_ne_nil _ _) hmiss
    rw [Run.plan_copy hw.op_ hi hhand, hover]
    rfl
  case fill =>
    intro s e p dst r c ws hw hcheck hpos hdst hws hmiss
    subst hws hdst
    exact leads_issued rfl hw hcheck hpos (Run.plan_fill hw.op_ ..) hmiss
  case convert =>
    intro s e p n r c l rnd ws hw hcheck hpos hn hl hrnd hhand hws hne hmiss
    subst hws hrnd
    exact leads_of_exec rfl (State.runDesc_issues hw hcheck hpos (Run.plan_convert hw.op_ hn hl hhand ..) hne hmiss)
  case gather =>
    intro s e p w i o ln src r c ws hw hcheck hpos hwd hi ho hln hsrc hhand hws hmiss
    subst hws hln hsrc
    exact leads_issued rfl hw hcheck hpos (Run.plan_gather hw.op_ hwd hi ho hhand ..) hmiss
  case scatter =>
    intro s e p w i o ln src r c ws hw hcheck hpos hwd hi ho hln hsrc hhand hlands hws hmiss
    subst hws hln hsrc
    refine leads_issued rfl hw hcheck hpos ?_ hmiss
    rw [Run.plan_scatter hw.op_ hwd hi ho hhand, if_neg fun hagain => hlands hagain.1 hagain.2]
  case again =>
    intro s e p w i o ln src r c hw hcheck hpos hwd hi ho hln hsrc hhand hseen
    subst hln hsrc
    refine leads_of_exec rfl fun hdraw => ?_
    refine State.runDesc_ends hw hcheck (by decide) hpos ?_
    rw [Run.plan_scatter hw.op_ hwd hi ho hhand, if_pos ⟨hseen, hdraw⟩]
  case reduce =>
    intro s e p n dst r c order src l old ws hw hcheck hpos hn hdst hsrc hl hhand hold hws hmiss
    subst hws
    exact leads_issued rfl hw hcheck hpos (Run.plan_reduce hw.op_ hn hdst hsrc hl hhand hold ..) hmiss
  case digest =>
    intro s e p a r c hw hcheck hpos ha hhand hmiss
    have hn : 0 < fld r.d.bytes 32 8 := by omega
    have hnow : r.pos < fld r.d.bytes 32 8 / 64 := by omega
    have hunits := Desc.units_digest hw.op_ hn
    subst ha
    have hasked := State.runDesc_asks hw hcheck (by omega) (Run.plan_digest_line hw.op_ hnow hhand [] s.free) ?drop
      
      (fun f => ?need) hmiss
    case drop => simp only [Desc.drop, hw.op_]
    case need =>
      rw [Run.next_digest hw.op_ hw.going.2.2.1 hnow]
      exact Run.plan_digest_need (r := { r with pos := r.pos + 1, wrote := [], dig := _ }) hw.op_ hpos [] f
    exact leads_of_exec rfl ⟨hasked.1, hasked.2.trans (congrArg some (Run.next_digest hw.op_ hw.going.2.2.1 hnow))⟩
  case last =>
    intro s e p r c ws hw hcheck hn hpos hws hmiss
    have hunits := Desc.units_digest hw.op_ hn
    subst hws
    exact leads_issued rfl hw hcheck (by omega) (Run.plan_digest_last hw.op_ (by omega) ..) hmiss
  case unordered =>
    intro s e p a r c hw hcheck hpos hlist ha hhand hbad
    subst ha
    have hplan : r.plan (s.eng e).sbuf [] s.free = .stop .badDescriptor := by
      rw [Run.plan_compact_check hw.op_ hlist hhand, hbad]
      rfl
    have hstop := State.runDesc_stops hw hcheck hpos hplan
    have hrun := State.setEng_get_eng_same s e { s.eng e with run := some { r with res := some ⟨.badDescriptor, false, 0, 0⟩ } }
    refine leads_of_exec (congrArg Host.Outcome.next hstop) ⟨rfl, ⟨?_, fun k hk => ?_⟩, ?_⟩
    · rw [State.setRun, hrun]
    · rw [State.setRun, State.setEng_get_eng, if_neg hk.symm]
    · rw [State.setRun, hrun]
  case list =>
    intro s e p a b r c hw hcheck hpos hlist ha hhand hgood hb hmiss
    subst ha
    have hplan : r.plan (s.eng e).sbuf [] s.free = .write [] := by rw [Run.plan_compact_check hw.op_ hlist hhand, if_pos hgood]
    have hunits := Desc.idxLines_lt_units hw.op_ hpos
    have hal := Desc.check_index_aligned hw.op_ hcheck
    have hasked := State.runDesc_asks hw hcheck (by omega) hplan ?drop (fun f => ?need) hmiss
    case drop => simp only [Desc.drop, hw.op_, if_neg hlist.not_ge]
    case need =>
      rw [Run.next_compact hw.op_ hw.going.2.2.1 hlist, hb]
      exact Run.plan_compact_need (r := { r with pos := r.pos + 1, wrote := [], seen := _ }) hw.op_ hal hlist [] f
    exact leads_of_exec rfl ⟨hasked.1, hasked.2.trans (congrArg some (Run.next_compact hw.op_ hw.going.2.2.1 hlist _))⟩
  case move =>
    intro s e p w m i o src r c ws hw hcheck hpos hwd hm hi ho hidx hmoves hsrc hhand hws hmiss
    subst hws hsrc
    exact leads_issued rfl hw hcheck hpos (Run.plan_compact_move hw.op_ hwd hm hi ho hidx hmoves hhand ..) hmiss

end Sys2Proof.Machine
end

section
/-! SUPPORT. O41: the load of an element-wise program and its checks (R337, R359–R363, R381). -/

namespace Sys2Proof.Machine
open Sys2Proof

variable {s : State} {e : Nat} {l rest : List Nat} {r : Run}

theorem lowBits_toNat {w : Nat} (n : Nat) (m : BitVec w) : lowBits n m.toNat = (List.range n).filter m.getLsbD := rfl

theorem mem_lowBits {w n i : Nat} {m : BitVec w} : i ∈ lowBits n m.toNat ↔ i < n ∧ m.getLsbD i = true := by
  rw [lowBits_toNat, List.mem_filter, List.mem_range]

theorem State.AtHand.mono {m : List Nat} (h : s.AtHand e l) (hm : ∀ x ∈ m, x ∈ l) : s.AtHand e m := fun x hx => h x (hm x hx)

@[simp] theorem State.readLines_nil (s : State) (e arg op : Nat) : s.readLines e arg op [] = s := rfl

/-! ### The load and its checks (R359–R363, R381) -/

theorem worseAt_ok {x y : Status × Nat} (hx : x.1 = .ok) (hy : y.1 = .ok) : (worseAt x y).1 = .ok := by
  unfold worseAt
  split
  · exact hx
  · exact hy

/-- R363, R381: what the check of a descriptor's own fields says when it passes. -/
theorem Desc.of_progCheck {d : Desc} (h : d.progCheck = .ok) : d.prog % 64 = 0 ∧ d.args % 64 = 0 ∧ d.count ≤ 2 ^ 38 := by
  have hall := (Status.first_ok_iff _).1 h
  have halign := hall (if d.prog % 64 = 0 ∧ d.args % 64 = 0 ∧ d.count % 64 = 0 then .ok else .alignFault) (by simp)
  have hcount := hall (if d.count ≤ 2 ^ 38 ∧ d.pflags < 2 then .ok else .badDescriptor) (by simp)
  split at halign
  · next ha =>
    split at hcount
    · next hc => exact ⟨ha.1, ha.2.1, hc.1⟩
    · cases hcount
  · cases halign

/-- R359, R381: the image and the arguments of a run are at hand and pass their checks. -/
structure State.Loads (s : State) (e : Nat) (r : Run) (h img args : Bytes) (l rest : List Nat) : Prop where
  run : (s.eng e).run = some r
  on : (s.eng e).onProgram r = true
  fresh : r.prog = none ∧ r.flt = none
  check : r.d.progCheck = .ok
  count : r.d.count ≠ 0
  l_eq : l = linesOf r.d.args 256
  h_eq : h = s.bufData e r.d.prog
  rest_eq : rest = linesOf (r.d.prog + 64) (4 * min 64 (fld h 5 1 + fld h 6 1))
  hand : s.AtHand e (r.d.prog :: l ++ rest)
  img_eq : img = (r.d.prog :: rest).flatMap (s.bufData e)
  args_eq : args = l.flatMap (s.bufData e)
  argsOk : Machine.argsOk args = true
  masks : argsMatch args (BitVec.ofNat 8 (fld h 7 1)) (BitVec.ofNat 8 (fld h 8 1)) (BitVec.ofNat 8 (fld h 9 1)) = true
  image : imageFault r.d.prog img (r.d.pflags.testBit 0) = (.ok, 0)
  pages : r.inq = false → ∀ c, (s.queue r.q).cfg = some c → (s.pageFaults c.asid args r.d.count).1 = .ok

namespace State.Loads

variable {h img args : Bytes} (hl : s.Loads e r h img args l rest)
include hl

theorem checks_ok : (s.progChecks e r).1 = .ok := by
  obtain ⟨hprog, hargs, hcount⟩ := Desc.of_progCheck hl.check
  have hhead : (lacking (s.eng e).sbuf [r.d.prog]) = [] := (hl.hand.mono fun x hx => by simp_all).lacking_eq
  have hblock : lacking (s.eng e).sbuf l = [] := (hl.hand.mono fun x hx => by simp_all).lacking_eq
  have hrest : lacking (s.eng e).sbuf rest = [] := (hl.hand.mono fun x hx => by simp_all).lacking_eq
  have hhdr : [r.d.prog].flatMap (s.bufData e) = h := by rw [List.flatMap_singleton, hl.h_eq]
  refine worseAt_ok (worseAt_ok hl.check ?args) (worseAt_ok ?pages ?image)
  case args =>
    simp only [State.gathered_eq, hprog, hargs, ← hl.l_eq, hhdr, ← hl.args_eq, hhead, hblock, hl.argsOk, hl.masks]
    rfl
  case pages =>
    simp only [State.gathered_eq, hargs, ← hl.l_eq, ← hl.args_eq, hblock, min_eq_right hcount]
    cases hinq : r.inq with
    | true => rfl
    | false =>
      cases hcfg : (s.queue r.q).cfg with
      | none => rfl
      | some c => exact hl.pages hinq c hcfg
  case image =>
    simp only [State.gathered_eq, hprog, hhdr, ← hl.rest_eq, ← hl.img_eq, hhead, hrest, hl.image]
    rfl

/-- R355, R381: the program is loaded. -/
theorem loadProgram_eq :
    s.loadProgram e = s.setEng e { s.eng e with
      sbuf := [], prog0 := s.clk
      run := some { r with
        prog := some { Prog.load r.d img args with rPois := (r.d.prog :: rest ++ l).any (s.bufPois e) }, issued := false } } := by
  obtain ⟨hprog, hargs, -⟩ := Desc.of_progCheck hl.check
  have hchecks := hl.checks_ok
  have hfirst : lacking (s.eng e).sbuf (r.d.prog :: l) = [] :=
    (hl.hand.mono fun x hx => List.mem_append_left rest hx).lacking_eq
  have hrest : lacking (s.eng e).sbuf rest = [] := (hl.hand.mono fun x hx => by simp_all).lacking_eq
  have hhdr : [r.d.prog].flatMap (s.bufData e) = h := by rw [List.flatMap_singleton, hl.h_eq]
  obtain ⟨hnone, hflt⟩ := hl.fresh
  simp only [State.loadProgram, hl.run, hl.on, hnone, hl.check, hl.count, hflt, hprog, hargs, ← hl.l_eq, hfirst, State.readLines_nil,
    State.gathered_eq, hhdr, ← hl.rest_eq, hrest, hchecks, ← hl.img_eq, ← hl.args_eq, if_true, Option.isSome_none, Bool.not_true,
    Bool.or_self, Bool.false_eq_true, if_false, and_false, List.isEmpty_nil, ne_eq, not_true, List.cons_append, List.nil_append]

end State.Loads

end Sys2Proof.Machine
end

section
/-! SUPPORT. O41: the tiles of an element-wise program (R355–R358, R364, R380). -/

namespace Sys2Proof.Machine
open Sys2Proof

variable {s : State} {e : Nat} {r : Run} {p : Prog} {c : QCfg}

/-- A table made from a list of its numbers. -/
theorem tget_map_pair {α : Type} (d : α) (f : Nat → α) (l : List Nat) (i : Nat) :
    tget d (l.map fun k => (k, f k)) i = if i ∈ l then f i else d := by
  induction l with
  | nil => rfl
  | cons k l ih =>
    rw [List.map_cons, tget, ih]
    by_cases hk : k = i
    · subst hk
      rw [if_pos rfl, if_pos List.mem_cons_self]
    · simp only [hk, Ne.symm hk, List.mem_cons, if_false, false_or]

/-- R318: lines that are at hand are not asked for. -/
theorem State.foldl_readLines_atHand (e : Nat) (f : Nat → Nat) (lines : Nat → List Nat) {js : List Nat}
    (h : ∀ j ∈ js, s.AtHand e (lines j)) :
    js.foldl (fun x j => x.readLines e 3 (f j) (lacking (x.eng e).sbuf (lines j))) s = s := by
  refine List.foldlRecOn js _ (motive := fun x => x = s) rfl fun x hx j hj => ?_
  rw [hx, (h j hj).lacking_eq, State.readLines_nil]

/-- The registers at the start of a tile (R357). -/
def State.tileRegs (s : State) (e : Nat) (p : Prog) : Tab (List W32) :=
  (lowBits 8 p.inMask.toNat).map fun i =>
    (i, loadReg (entFmt (argEntry p.args i)) p.lanes ((p.linesAt i).flatMap (s.bufData e)))

/-- R357: the program state at the start of a tile. -/
def State.tileProg (s : State) (e : Nat) (p : Prog) : Prog :=
  { p with
    v := s.tileRegs e p, pc := 0, inTile := true
    tilePois := (lowBits 8 p.inMask.toNat).any fun i => (p.linesAt i).any (s.bufPois e) }

/-- R357: a tile whose masked inputs are at hand starts. -/
theorem State.tileStart_of_atHand (hrun : (s.eng e).run = some r) (hon : (s.eng e).onProgram r = true) (hprog : r.prog = some p)
    (hflt : r.flt = none) (hin : p.inTile = false) (htile : p.tile < p.tiles)
    (hhand : ∀ i ∈ lowBits 8 p.inMask.toNat, s.AtHand e (p.linesAt i)) :
    s.tileStart e = s.setRun e { r with prog := some (s.tileProg e p) } := by
  have hlines := State.foldl_readLines_atHand e (fun i => entFmt (argEntry p.args i)) p.linesAt hhand
  have hlack : (lowBits 8 p.inMask.toNat).any (fun i => !(lacking (s.eng e).sbuf (p.linesAt i)).isEmpty) = false := by
    rw [List.any_eq_false]
    intro i hi
    rw [(hhand i hi).lacking_eq]
    exact Bool.false_ne_true
  simp only [State.tileStart, hrun, hprog, hon, hin, hflt, hlines, hlack, State.gathered_eq, State.tileProg, State.tileRegs,
    Option.isSome_none, decide_eq_false (not_le.2 htile), Bool.not_true, Bool.or_self, Bool.false_eq_true, if_false]

/-- R319, R357: the writes of several outputs, their translations missing. -/
theorem State.foldl_writeLines_miss {f : Nat → Nat} {out : Nat → List (Nat × W64 × Bytes × Bool)} {js : List Nat}
    (h : s.Asks e r c ((js.flatMap out).map (·.1))) :
    ∃ us, s.Requested e (js.foldl (fun x j => x.writeLines e 3 (f j) (out j)) s) us ∧ AreWrites us (js.flatMap out) := by
  induction js generalizing s with
  | nil => exact ⟨[], .refl e s, rfl, fun x hx => absurd hx List.not_mem_nil⟩
  | cons j js ih =>
    rw [List.flatMap_cons, List.map_append] at h
    obtain ⟨us, hsent, hwrites⟩ := State.writeLines_miss 3 (f j) (h.mono fun x hx => List.mem_append_left _ hx)
    obtain ⟨vs, hsent', hwrites'⟩ := ih ((h.requested hsent).mono fun x hx => List.mem_append_right _ hx)
    exact ⟨us ++ vs, hsent.trans hsent', hwrites.append hwrites'⟩

/-- R357: the outputs of a tile: none in pass A. -/
def Prog.outs (p : Prog) : List Nat := if p.passB then lowBits 4 p.outM.toNat else []

/-- R357: the outputs of a tile written, by the run `r`. -/
def State.tileWrites (s : State) (e : Nat) (r : Run) (p : Prog) : State :=
  p.outs.foldl (fun x j => x.writeLines e 3 (entFmt (argEntry p.args (8 + j))) (p.outWrites j s.free))
    (({ s with free := if p.outs.isEmpty then s.free else s.free + 2048 } : State).setRun e r)

/-- R355: the pass goes on. -/
def State.passOn (s : State) (e : Nat) (r : Run) (p : Prog) (clk : Nat) : State :=
  s.setEng e { s.eng e with sbuf := [], prog0 := clk, run := some { r with prog := some p.nextTile, issued := false } }

theorem Issued.passOn {t : State} {ws : List (Nat × W64 × Bytes × Bool)} (h : Issued s t e ws) (r : Run) (p : Prog) (clk : Nat) :
    Issued s (t.passOn e r p clk) e ws := by
  obtain ⟨us, htxns, hws, hus, hout⟩ := h
  exact ⟨us, htxns, hws, hus, by rw [State.passOn, State.setEng_get_eng_same, hout]⟩

section
variable (hrun : (s.eng e).run = some r) (hon : (s.eng e).onProgram r = true) (hprog : r.prog = some p) (hflt : r.flt = none)
  (hissued : r.issued = false) (hin : p.inTile = true) (hpc : p.len ≤ p.pc)
include hrun hon hprog hflt hissued hin hpc

/-- R357: the end of a tile: its outputs are written, and the pass goes on when none waits for an answer. -/
theorem State.tileEnd_eq {r' : Run} (hr' : { r with issued := true } = r') (hwrites : ((s.tileWrites e r' p).eng e).run = some r') :
    s.tileEnd e =
      if ((s.tileWrites e r' p).eng e).out.isEmpty then (s.tileWrites e r' p).passOn e r' p s.clk else s.tileWrites e r' p := by
  have hflt' : r'.flt = none := by rw [← hr']; exact hflt
  simp only [State.tileEnd, hrun]
  rw [hr']
  simp only [hprog, hon, hin, hflt, hissued, decide_eq_false (not_lt.2 hpc), Option.isSome_none, Bool.not_true, Bool.or_self,
    Bool.false_eq_true, or_self, if_false]
  rw [← Prog.outs, ← State.tileWrites]
  simp only [hwrites]
  rw [if_neg (by simp [hflt'])]
  rfl

/-- R355, R380: pass A writes nothing, and moves on at the end of a tile. -/
theorem State.tileEnd_passA (hpass : p.passB = false) (hout : (s.eng e).out = []) :
    s.tileEnd e = (s.setRun e { r with issued := true }).passOn e { r with issued := true } p s.clk := by
  have houts : p.outs = [] := by rw [Prog.outs, hpass]; rfl
  have hwritten : s.tileWrites e { r with issued := true } p = s.setRun e { r with issued := true } := by
    rw [State.tileWrites, houts]
    rfl
  have heng : (s.setRun e { r with issued := true }).eng e = { s.eng e with run := some { r with issued := true } } :=
    State.setEng_get_eng_same ..
  rw [State.tileEnd_eq hrun hon hprog hflt hissued hin hpc rfl (by rw [hwritten, heng]), hwritten, heng, hout, List.isEmpty_nil, if_pos rfl]

end

/-- R319, R357: pass B issues a tile's outputs. -/
theorem State.tileEnd_issues {pt : Nat} {ws : List (Nat × W64 × Bytes × Bool)} (hw : s.Works e 7 r c pt) (hprog : r.prog = some p)
    (hin : p.inTile = true) (hpc : p.len ≤ p.pc) (hpass : p.passB = true)
    (hws : ws = ((List.range 4).filter p.outM.getLsbD).flatMap fun j => p.outWrites j s.free) (hmiss : s.Misses e c ws) :
    Issued s (s.tileEnd e) e ws := by
  have houts : p.outs = (List.range 4).filter p.outM.getLsbD := by rw [Prog.outs, hpass, if_pos rfl, lowBits_toNat]
  obtain ⟨hres, hflt, hissued, -⟩ := hw.going
  have hon : (s.eng e).onProgram r = true := by
    obtain ⟨hhalt, hgate⟩ := hw.clocked
    simp [Engine.onProgram, hw.st, hhalt, hgate, hres, hw.op_]
  have hasks := (hw.asks hmiss).setIssued true (if p.outs.isEmpty then s.free else s.free + 2048)
  rw [← houts] at hws
  rw [hws] at hasks
  obtain ⟨us, hsent, hwrites⟩ := State.foldl_writeLines_miss (f := fun j => entFmt (argEntry p.args (8 + j)))
    (out := fun j => p.outWrites j s.free) hasks
  rw [← hws] at hwrites
  have hissues : Issued s (s.tileWrites e { r with issued := true } p) e ws :=
    issued_of_requested hsent hwrites (State.setEng_get_eng_same ..) hw.idle.1 rfl rfl
  rw [State.tileEnd_eq hw.run hon hprog hflt hissued hin hpc rfl (hsent.run.trans hasks.run)]
  split
  · exact hissues.passOn _ _ _
  · exact hissues

/-- R355, R380: the tile after one that is not pass A's last. -/
theorem Prog.nextTile_of_more (h : p.tile + 1 < p.tiles) :
    p.nextTile = { p with tile := p.tile + 1, pc := 0, inTile := false, v := [], tilePois := false } := if_pos (.inr h)

/-- R355, R380: pass B begins after the last tile of pass A. -/
theorem Prog.nextTile_of_last (hpass : p.passB = false) (h : p.tiles ≤ p.tile + 1) :
    p.nextTile = { p with
      passB := true, tile := 0, pc := 0, inTile := false, v := [], tilePois := false, rr := p.acc, acc := [0, 0, 0, 0]
      rPois := p.rPois || p.accPois.any id, accPois := [false, false, false, false] } :=
  if_neg (by simp [hpass, h])

/-- Settles O41: the load passes its checks (`State.Loads.loadProgram_eq`), a tile's masked inputs are loaded from the lines at hand
(`State.tileStart_of_atHand`), and the end of a tile writes what its pass writes (`State.tileEnd_eq`). -/
theorem programTiles : Obligations.ProgramTiles := by
  unfold Obligations.ProgramTiles
  refine ⟨?load, ?start, ?passA, ?passB⟩
  case load =>
    intro s e r h img args l rest hrun hon hfresh hflt hcheck hcount hl hh hrest hhand himg hargs hok hmasks himage hpages
    have hload : s.Loads e r h img args l rest :=
      ⟨hrun, hon, ⟨hfresh, hflt⟩, hcheck, hcount, hl, hh, hrest, hhand, himg, hargs, hok, hmasks, himage, hpages⟩
    refine leads_of_exec (congrArg Host.Outcome.next hload.loadProgram_eq) ⟨rfl, fun k hk => ?_, ?_⟩
    · rw [State.setEng_get_eng, if_neg hk.symm]
    · rw [State.setEng_get_eng_same]
  case start =>
    intro s e r p hrun hon hprog hflt hin htile hhand
    have hhand' : ∀ i ∈ lowBits 8 p.inMask.toNat, s.AtHand e (p.linesAt i) := fun i hi =>
      hhand i (mem_lowBits.1 hi).1 (mem_lowBits.1 hi).2
    have hstart := State.tileStart_of_atHand hrun hon hprog hflt hin htile hhand'
    refine leads_of_exec (congrArg Host.Outcome.next hstart) ⟨rfl, ⟨?_, fun k hk => ?_⟩, s.tileProg e p, ?_, rfl, fun i hi hmask => ?_, fun i hi => ?_⟩
    · rw [State.setRun, State.setEng_get_eng_same]
    · rw [State.setRun, State.setEng_get_eng, if_neg hk.symm]
    · rw [State.setRun, State.setEng_get_eng_same]
    · exact (tget_map_pair ..).trans (if_pos (mem_lowBits.2 ⟨hi, hmask⟩))
    · refine (tget_map_pair ..).trans (if_neg fun hmem => ?_)
      obtain ⟨hlt, hmask⟩ := mem_lowBits.1 hmem
      exact hi.elim hlt.not_ge fun hoff => Bool.false_ne_true (hoff.symm.trans hmask)
  case passA =>
    intro s e r p hrun hon hprog hflt hissued hin hpc hpass hout
    have hend := State.tileEnd_passA hrun hon hprog hflt hissued hin hpc hpass hout
    refine leads_of_exec (congrArg Host.Outcome.next hend) ⟨rfl, fun k hk => ?_, p.nextTile, ?_, ?_⟩
    · rw [State.passOn, State.setEng_get_eng, if_neg hk.symm, State.setRun, State.setEng_get_eng, if_neg hk.symm]
    · rw [State.passOn, State.setEng_get_eng_same, ← hissued]
    · by_cases hmore : p.tile + 1 < p.tiles
      · rw [Prog.nextTile_of_more hmore]
        exact ⟨rfl, rfl, fun _ => ⟨hpass, rfl, rfl, rfl⟩, fun hlast => absurd hmore hlast.not_gt⟩
      · rw [Prog.nextTile_of_last hpass (not_lt.1 hmore)]
        exact ⟨rfl, rfl, fun h => absurd h hmore, fun _ => ⟨rfl, rfl, rfl, rfl⟩⟩
  case passB =>
    intro s e pt r c p ws hw hprog hin hpc hpass hws hmiss
    exact leads_of_exec rfl (State.tileEnd_issues hw hprog hin hpc hpass hws hmiss)

end Sys2Proof.Machine
end

section
/-! SUPPORT. O42, O43: the lane-wise instructions and the reductions of an element-wise program (R358, R365–R376, R382). -/

namespace Sys2Proof.Machine
open Sys2Proof

variable {s : State} {e op : Nat} {r : Run} {p : Prog}

/-- Setting the run of engine `e` changes nothing else of the engines, whatever the counter of free values becomes. -/
theorem onlyRun_setRun (s : State) (e free : Nat) (r : Run) : OnlyRun e s (({ s with free := free } : State).setRun e r) := by
  refine ⟨?_, fun k hk => ?_⟩
  · rw [State.setRun, State.setEng_get_eng_same]
    rfl
  · rw [State.setRun, State.setEng_get_eng, if_neg hk.symm]
    rfl

theorem State.setRun_run (s : State) (e : Nat) (r : Run) : ((s.setRun e r).eng e).run = some r := by
  rw [State.setRun, State.setEng_get_eng_same]

section Lanes

variable (p) (f : Nat → Nat → Nat → Nat → Nat → Nat)

/-- R358, R366: lane k of D: `f` of fn, of lane k of A, B and C, and of k. -/
def Prog.laneResult (k : Nat) : W32 :=
  BitVec.ofNat 32 (f p.next.fn (p.src p.next.a p.next.sa k) (p.src p.next.b p.next.sb k) (p.src p.next.c p.next.sc k) k)

/-- R358: the program after its next instruction, a lane-wise one. -/
def Prog.afterLanes : Prog :=
  { p with v := tput p.v p.next.d ((List.range 256).map (p.laneResult f)), pc := p.pc + 1 }

theorem Prog.afterLanes_other {x : Nat} (hx : x ≠ p.next.d) : tget [] (p.afterLanes f).v x = tget [] p.v x :=
  tget_tput_other [] p.v _ hx.symm

theorem Prog.afterLanes_lane {k : Nat} (hk : k < 256) : (tget [] (p.afterLanes f).v p.next.d).getD k 0 = p.laneResult f k := by
  rw [Prog.afterLanes, tget_tput_same, List.getD_eq_getElem?_getD, List.getElem?_map, List.getElem?_range hk]
  rfl

end Lanes

theorem State.laneIns_of_atIns (draws : Nat) (f : Nat → Nat → Nat → Nat → Nat → Nat) (h : s.atIns e op = some (r, p)) :
    s.laneIns e op draws f =
      ({ s with free := s.free + draws } : State).setRun e { r with prog := some (p.afterLanes f) } := by
  rw [State.laneIns, h]
  rfl

/-- A command of engine `e` that runs the lane-wise operation `x.1` with the lane function `x.2.2` from state `s`. -/
def RunsLanes (s : State) (e : Nat) (x : Nat × Instr × (Nat → Nat → Nat → Nat → Nat → Nat)) : Prop :=
  ∃ draws, exec x.2.1 s = .next (s.laneIns e x.1 draws x.2.2)

/-- Settles O42: each command runs its operation (`RunsLanes`; only SRND draws), which sets D and pc (`Prog.afterLanes`). -/
theorem laneInstructions : Obligations.LaneInstructions := by
  unfold Obligations.LaneInstructions
  intro s e op i f r p hmem hat
  have hruns : RunsLanes s e (op, i, f) := by
    suffices hall : ∀ x ∈ _, RunsLanes s e x from hall _ hmem
    simp only [List.forall_mem_cons]
    exact ⟨⟨0, rfl⟩, ⟨0, rfl⟩, ⟨0, rfl⟩, ⟨0, rfl⟩, ⟨0, rfl⟩, ⟨0, rfl⟩, ⟨0, rfl⟩, ⟨0, rfl⟩, ⟨0, rfl⟩, ⟨0, rfl⟩, ⟨0, rfl⟩, ⟨0, rfl⟩,
      ⟨0, rfl⟩, ⟨0, rfl⟩, ⟨0, rfl⟩, ⟨0, rfl⟩, ⟨0, rfl⟩, ⟨256, rfl⟩, List.forall_mem_nil _⟩
  obtain ⟨draws, hexec⟩ := hruns
  rw [State.laneIns_of_atIns draws f hat] at hexec
  exact leads_of_exec hexec ⟨rfl, onlyRun_setRun .., p.afterLanes f, State.setRun_run .., rfl,
    fun _ hx => p.afterLanes_other f hx, fun _ hk => p.afterLanes_lane f hk⟩

section Reductions

variable (p) (f : Nat → List Nat → Nat)

/-- R376: the active lanes of A. -/
def Prog.activeLanes : List Nat := (List.range p.lanes).map fun k => p.src p.next.a p.next.sa k

/-- R368, R376: the new value of the accumulator that fn names. -/
def Prog.accResult : W32 :=
  BitVec.ofNat 32 (if p.activeLanes.any fun x => (num x).isNan then fNaN
    else f (p.acc.getD (p.next.fn % 4) 0).toNat p.activeLanes)

/-- R376, R382: the program after its next instruction, a reduction. -/
def Prog.afterAcc : Prog :=
  { p with
    acc := p.acc.set (p.next.fn % 4) (p.accResult f), pc := p.pc + 1
    accPois := if p.tilePois || p.rPois then p.accPois.set (p.next.fn % 4) true else p.accPois }

theorem Prog.afterAcc_acc {n : Nat} (hn : n < p.acc.length) :
    (p.afterAcc f).acc.getD n 0 = if n = p.next.fn % 4 then p.accResult f else p.acc.getD n 0 := by
  rw [Prog.afterAcc, List.getD_eq_getElem?_getD, List.getElem?_set]
  by_cases h : p.next.fn % 4 = n
  · rw [if_pos h, if_pos h.symm, if_pos (h ▸ hn), Option.getD_some]
  · rw [if_neg h, if_neg (Ne.symm h), List.getD_eq_getElem?_getD]

end Reductions

theorem State.accIns_of_atIns (f : Nat → List Nat → Nat) (h : s.atIns e op = some (r, p)) :
    s.accIns e op f = s.setRun e { r with prog := some (p.afterAcc f) } := by
  rw [State.accIns, h]
  rfl

/-- A command of engine `e` that runs the reduction `x.1` with the function `x.2.2` from state `s`. -/
def RunsReduction (s : State) (e : Nat) (x : Nat × Instr × (Nat → List Nat → Nat)) : Prop :=
  exec x.2.1 s = .next (s.accIns e x.1 x.2.2)

/-- Settles O43: each command runs its reduction (`RunsReduction`), which sets one accumulator and pc (`Prog.afterAcc`). -/
theorem reductionInstructions : Obligations.ReductionInstructions := by
  unfold Obligations.ReductionInstructions
  intro s e op i f r p ls hmem hat hlen hls
  have hexec : RunsReduction s e (op, i, f) := by
    suffices hall : ∀ x ∈ _, RunsReduction s e x from hall _ hmem
    simp only [List.forall_mem_cons]
    exact ⟨rfl, rfl, rfl, List.forall_mem_nil _⟩
  rw [RunsReduction, State.accIns_of_atIns f hat] at hexec
  refine leads_of_exec hexec ⟨rfl, onlyRun_setRun s e s.free _, p.afterAcc f, State.setRun_run .., rfl, fun n hn => ?_⟩
  rw [p.afterAcc_acc f (hlen ▸ hn), hls]
  by_cases h : n = p.next.fn % 4
  · rw [if_pos h, if_pos h, h]
    rfl
  · rw [if_neg h, if_neg h]

end Sys2Proof.Machine
end

section
/-! SUPPORT. O60: the order of FP32 codes (R296, R373). A finite code of magnitude `n` has the value of `magVal n`, which in
units of 2^-149 rises strictly with `n`, so that codes compare by sign and magnitude. -/

namespace Sys2Proof.Machine
open Sys2Proof

/-- The value of a magnitude code in units of 2^-149. -/
def magUnits (n : Nat) : Nat := (magVal n).1 * 2 ^ ((magVal n).2 + 149).toNat

theorem magVal_subnormal {n : Nat} (h : n < 2 ^ 23) : magVal n = (n, -149) := if_pos h

theorem magVal_normal {n : Nat} (h : 2 ^ 23 ≤ n) : magVal n = (2 ^ 23 + n % 2 ^ 23, (n / 2 ^ 23 : Int) - 150) :=
  if_neg h.not_gt

theorem magVal_exp_ge (n : Nat) : -149 ≤ (magVal n).2 := by
  obtain h | h := Nat.lt_or_ge n (2 ^ 23)
  · rw [magVal_subnormal h]
  · rw [magVal_normal h]
    simp only
    omega

theorem magVal_mant_eq_zero {n : Nat} : (magVal n).1 = 0 ↔ n = 0 := by
  obtain h | h := Nat.lt_or_ge n (2 ^ 23)
  · rw [magVal_subnormal h]
  · rw [magVal_normal h]
    simp only
    omega

theorem magUnits_subnormal {n : Nat} (h : n < 2 ^ 23) : magUnits n = n := by
  rw [magUnits, magVal_subnormal h]
  exact Nat.mul_one n

/-- A normal code: the fraction `m` of binade `k + 1`. -/
theorem magUnits_normal (k : Nat) {m : Nat} (h : m < 2 ^ 23) : magUnits (2 ^ 23 * (k + 1) + m) = (2 ^ 23 + m) * 2 ^ k := by
  have hmod : (2 ^ 23 * (k + 1) + m) % 2 ^ 23 = m := by omega
  have hexp : (((2 ^ 23 * (k + 1) + m : Nat) : Int) / 2 ^ 23 - 150 + 149).toNat = k := by omega
  rw [magUnits, magVal_normal (by omega), hmod, hexp]

theorem magUnits_strictMono : StrictMono magUnits := by
  refine strictMono_nat_of_lt_succ fun n => ?_
  obtain hsmall | hbig := Nat.lt_or_ge n (2 ^ 23)
  · rw [magUnits_subnormal hsmall]
    obtain hnext | hlast := Nat.lt_or_ge (n + 1) (2 ^ 23)
    · rw [magUnits_subnormal hnext]
      exact Nat.lt_succ_self n
    · have hfirst := magUnits_normal 0 (m := 0) (by decide)
      rw [show n + 1 = 2 ^ 23 * (0 + 1) + 0 by omega, hfirst]
      omega
  · obtain ⟨k, m, hm, rfl⟩ : ∃ k m, m < 2 ^ 23 ∧ n = 2 ^ 23 * (k + 1) + m :=
      ⟨n / 2 ^ 23 - 1, n % 2 ^ 23, by omega, by omega⟩
    rw [magUnits_normal k hm]
    obtain hnext | hlast := Nat.lt_or_ge (m + 1) (2 ^ 23)
    · rw [Nat.add_assoc, magUnits_normal k hnext]
      exact Nat.mul_lt_mul_of_pos_right (by omega) (Nat.two_pow_pos k)
    · have hfirst := magUnits_normal (k + 1) (m := 0) (by decide)
      rw [show 2 ^ 23 * (k + 1) + m + 1 = 2 ^ 23 * (k + 1 + 1) + 0 by omega, hfirst, pow_succ' 2 k, ← Nat.mul_assoc]
      exact Nat.mul_lt_mul_of_pos_right (by omega) (Nat.two_pow_pos k)

/-- Magnitudes in any common unit that is not above theirs compare alike. -/
theorem magLt_eq_decide {m n : Nat} {e f q : Int} (he : q ≤ e) (hf : q ≤ f) :
    magLt m e n f = decide (m * 2 ^ (e - q).toNat < n * 2 ^ (f - q).toNat) := by
  have hsplit (x : Int) (hx : min e f ≤ x) : (x - q).toNat = (x - min e f).toNat + (min e f - q).toNat := by omega
  have hscale (m : Nat) (x : Int) (hx : min e f ≤ x) :
      m * 2 ^ (x - q).toNat = m * 2 ^ (x - min e f).toNat * 2 ^ (min e f - q).toNat := by
    rw [hsplit x hx, pow_add, Nat.mul_assoc]
  rw [hscale m e (min_le_left ..), hscale n f (min_le_right ..)]
  simp only [magLt, Nat.mul_lt_mul_right (Nat.two_pow_pos _)]

theorem magLt_magVal (m n : Nat) : magLt (magVal m).1 (magVal m).2 (magVal n).1 (magVal n).2 = decide (m < n) := by
  rw [magLt_eq_decide (magVal_exp_ge m) (magVal_exp_ge n)]
  exact decide_eq_decide.2 (magUnits_strictMono.lt_iff_lt (a := m) (b := n))

/-- The place of a sign and a magnitude code in the order of values. -/
def signedMag (neg : Bool) (n : Nat) : Int := if neg then -(n : Int) else n

/-- R296: the number of a sign and a magnitude code that is not a NaN's. -/
def magNum (neg : Bool) (n : Nat) : Num :=
  if n = 0x7F800000 then .inf neg else .fin neg (magVal n).1 (magVal n).2

theorem magNum_isNan (neg : Bool) (n : Nat) : (magNum neg n).isNan = false := by
  unfold magNum
  split <;> rfl

section SignedMag

variable (a b : Bool) {m n : Nat}

/-- Against a smaller magnitude a number's own sign decides. -/
theorem signedMag_lt_of_mag_gt (h : n < m) : decide (signedMag a m < signedMag b n) = a := by
  cases a <;> cases b <;> simp [signedMag] <;> omega

/-- Against a larger magnitude the other number's sign decides. -/
theorem signedMag_lt_of_mag_lt (h : m < n) : decide (signedMag a m < signedMag b n) = !b := by
  cases a <;> cases b <;> simp [signedMag] <;> omega

/-- Finite numbers compare by sign and magnitude code, zeros of both signs alike. -/
theorem Num.lt_fin_magVal :
    (Num.fin a (magVal m).1 (magVal m).2).lt (.fin b (magVal n).1 (magVal n).2) = decide (signedMag a m < signedMag b n) := by
  simp only [Num.lt, magVal_mant_eq_zero, magLt_magVal]
  obtain hlt | rfl | hgt := Nat.lt_trichotomy m n
  · rw [signedMag_lt_of_mag_lt a b hlt]
    cases a <;> cases b <;> simp [hlt, hlt.not_gt, Nat.ne_zero_of_lt hlt]
  · obtain rfl | hm := eq_or_ne m 0
    · simp [signedMag]
    · cases a <;> cases b <;> simp [signedMag, hm, Nat.pos_of_ne_zero hm]
  · rw [signedMag_lt_of_mag_gt a b hgt]
    cases a <;> cases b <;> simp [hgt, hgt.not_gt, Nat.ne_zero_of_lt hgt]

/-- R373: so do all numbers that are no NaN: an infinity has the largest magnitude code. -/
theorem Num.lt_magNum (hm : m ≤ 0x7F800000) (hn : n ≤ 0x7F800000) :
    (magNum a m).lt (magNum b n) = decide (signedMag a m < signedMag b n) := by
  by_cases hminf : m = 0x7F800000 <;> by_cases hninf : n = 0x7F800000
  · rw [magNum, magNum, if_pos hminf, if_pos hninf, hminf, hninf]
    cases a <;> cases b <;> rfl
  · rw [magNum, magNum, if_pos hminf, if_neg hninf, signedMag_lt_of_mag_gt a b (hminf ▸ lt_of_le_of_ne hn hninf)]
    rfl
  · rw [magNum, magNum, if_neg hminf, if_pos hninf, signedMag_lt_of_mag_lt a b (hninf ▸ lt_of_le_of_ne hm hminf)]
    rfl
  · rw [magNum, magNum, if_neg hminf, if_neg hninf, Num.lt_fin_magVal]

end SignedMag

/-- R296: the number of an FP32 code. -/
theorem num_eq_magNum (a : W32) :
    num a.toNat = if fpNaN a then .nan else magNum a.msb (a.toNat % 2 ^ 31) := by
  have hneg : a.toNat.testBit 31 = a.msb := (BitVec.msb_eq_getLsbD_last a).symm
  have hmag : a.toNat % 2 ^ 31 < 2 ^ 31 := Nat.mod_lt _ (Nat.two_pow_pos 31)
  simp only [num, Fmt.decode, fFP32, fpNaN, decide_eq_true_eq, Nat.add_one_sub_one, hneg]
  generalize a.toNat % 2 ^ 31 = m at hmag ⊢
  obtain hnan | rfl | hfin := Nat.lt_trichotomy 0x7F800000 m
  · rw [if_pos (by omega), if_neg (by omega), if_pos hnan]
  · rfl
  · rw [if_neg (Nat.lt_succ_iff.1 hfin).not_gt, if_neg hfin.not_gt, magNum, if_neg hfin.ne]
    obtain hsub | hnorm := Nat.lt_or_ge m (2 ^ 23)
    · rw [magVal_subnormal hsub, if_pos (by omega), Nat.mod_eq_of_lt hsub]
      rfl
    · rw [magVal_normal hnorm, if_neg (by omega)]
      congr 1
      simp only [Fmt.qmin]
      omega

/-- R373: codes that are no NaN compare by their places. -/
theorem num_lt_eq_fpPlace_lt {a b : W32} (ha : fpNaN a = false) (hb : fpNaN b = false) :
    (num a.toNat).lt (num b.toNat) = decide (fpPlace a < fpPlace b) := by
  have hle {x : W32} (hx : fpNaN x = false) : x.toNat % 2 ^ 31 ≤ 0x7F800000 := not_lt.1 (of_decide_eq_false hx)
  rw [num_eq_magNum, num_eq_magNum, ha, hb]
  exact Num.lt_magNum _ _ (hle ha) (hle hb)

theorem num_isNan (a : W32) : (num a.toNat).isNan = fpNaN a := by
  rw [num_eq_magNum]
  cases fpNaN a
  · exact magNum_isNan ..
  · rfl

/-- R373: every relation with a NaN operand is false, except NE. -/
theorem relHolds_of_fpNaN (fn : Nat) {a b : W32} (h : fpNaN a = true ∨ fpNaN b = true) :
    relHolds fn a.toNat b.toNat = decide (fn = 1) := by
  rw [relHolds, num_isNan, num_isNan, if_pos ((Bool.or_eq_true ..).mpr h)]
  rfl

/-- R373: the six relations between codes that are no NaN. -/
theorem relHolds_of_not_fpNaN {a b : W32} (ha : fpNaN a = false) (hb : fpNaN b = false) :
    relHolds 0 a.toNat b.toNat = decide (fpPlace a = fpPlace b) ∧ relHolds 1 a.toNat b.toNat = decide (fpPlace a ≠ fpPlace b) ∧
    relHolds 2 a.toNat b.toNat = decide (fpPlace a < fpPlace b) ∧ relHolds 3 a.toNat b.toNat = decide (fpPlace a ≤ fpPlace b) ∧
    relHolds 4 a.toNat b.toNat = decide (fpPlace b < fpPlace a) ∧ relHolds 5 a.toNat b.toNat = decide (fpPlace b ≤ fpPlace a) := by
  simp only [relHolds, num_isNan, ha, hb, num_lt_eq_fpPlace_lt ha hb, num_lt_eq_fpPlace_lt hb ha, Bool.or_self, Bool.false_eq_true,
    if_false]
  obtain hlt | heq | hgt := lt_trichotomy (fpPlace a) (fpPlace b)
  · simp [hlt, hlt.ne, hlt.le, hlt.not_gt, hlt.not_ge]
  · simp [heq]
  · simp [hgt, hgt.ne', hgt.le, hgt.not_gt, hgt.not_ge]

theorem insOk_cmp_reserved {w : W32} (passA : Bool) (hop : (insOf w).op = 0x14) (hfn : 6 ≤ (insOf w).fn) :
    insOk passA w = false := by
  rw [insOk, hop]
  simp [opShape, hfn.not_gt]

/-- Settles O60: a comparison of numbers is one of places (`num_lt_eq_fpPlace_lt`), and `opShape` allows CMP six codes. -/
theorem comparisons : Obligations.Comparisons := by
  unfold Obligations.Comparisons
  exact ⟨fun fn a b _ h => relHolds_of_fpNaN fn h, fun a b ha hb => relHolds_of_not_fpNaN ha hb, fun _ _ _ => rfl,
    fun w passA => insOk_cmp_reserved passA⟩

end Sys2Proof.Machine
end

section
/-! SUPPORT. One step of the machine: the front command, and the clock that passes without one. -/

namespace Sys2Proof.Machine
open Sys2Proof

/-- R106, R497: step 2 of a warm reset, with a descriptor that engine 0 took from its input queue stopped and no transfer of it open. -/
def stoppedState : State :=
  { State.reset with
    pwrgood := true
    phase := .warmFlush
    engines := [(0, { Engine.reset with run := some { Run.reset with inq := true, res := some EndRec.reset } })] }

/-- Settles O1: the statement is the definition of a step. -/
theorem stepRunsFrontCommand : Obligations.StepRunsFrontCommand := fun _ _ _ => rfl

/-- Refutes O2: the clause that makes an idle step of a state without scrubs, replacement and mailbox packets the fabric clock alone leaves out
the descriptors that a warm reset has stopped (R497). In step 2 of a warm reset one of engine 0, with no transfer open, completes in the idle
step, and the engine's run ends; the fabric clock keeps it. -/
theorem not_idleStepIsOneFabricClock : ¬ Obligations.IdleStepIsOneFabricClock := by
  intro h
  obtain ⟨-, -, hclock⟩ := h stoppedState rfl
  obtain ⟨-, -, -, -, hidle, -⟩ := hclock rfl
  have heq : stoppedState.idle = stoppedState.tickFab := hidle rfl rfl rfl
  have hends : (stoppedState.idle.eng 0).run.isSome = false := by decide +kernel
  have hkept : (stoppedState.tickFab.eng 0).run.isSome = true := by decide +kernel
  rw [heq, hkept] at hends
  exact absurd hends (by decide)

end Sys2Proof.Machine
end

section
/-! SUPPORT. The upkeep of a DRAM channel. -/

namespace Sys2Proof.Machine
open Sys2Proof

variable {s : State}

theorem getElem?_modAt_same {α : Type} {l : List α} {i : Nat} {x : α} (f : α → α) (h : l[i]? = some x) : (modAt l i f)[i]? = some (f x) := by
  have hi : i < l.length := (List.getElem?_eq_some_iff.1 h).1
  simp [modAt, h, Nat.min_eq_left hi.le]

theorem getElem?_modAt_other {α : Type} {l : List α} {i j : Nat} (f : α → α) (h : j ≠ i) : (modAt l i f)[j]? = l[j]? := by
  unfold modAt
  cases hi : l[i]? with
  | none => rfl
  | some x =>
    have hlt : i < l.length := (List.getElem?_eq_some_iff.1 hi).1
    have hlen : (l.take i).length = i := by simp [hlt.le]
    rcases Nat.lt_or_gt_of_ne h with hj | hj
    · rw [List.getElem?_append_left (by omega), List.getElem?_take_of_lt hj]
    · obtain ⟨k, rfl⟩ : ∃ k, j = i + 1 + k := ⟨j - (i + 1), by omega⟩
      rw [List.getElem?_append_right (by omega), hlen, show i + 1 + k - i = k + 1 by omega]
      simp

section
variable (c : Chan) (i : Nat) (x : SubCh)

@[simp] theorem Chan.setSub_sub : (c.setSub i x).sub i = x := by by_cases h : i = 0 <;> simp [Chan.setSub, Chan.sub, h]

theorem Chan.setSub_self : c.setSub i (c.sub i) = c := by by_cases h : i = 0 <;> simp [Chan.setSub, Chan.sub, h]

@[simp] theorem Chan.setSub_st : (c.setSub i x).st = c.st := by unfold Chan.setSub; split <;> rfl

@[simp] theorem Chan.setSub_refForced : (c.setSub i x).refForced = c.refForced := by unfold Chan.setSub; split <;> rfl

@[simp] theorem Chan.setSub_alerts : (c.setSub i x).alerts = c.alerts := by unfold Chan.setSub; split <;> rfl

variable {i x} in
theorem Chan.sub_of_setSub {c d : Chan} (ha : d.subA = (c.setSub i x).subA) (hb : d.subB = (c.setSub i x).subB) : d.sub i = x := by
  rw [← c.setSub_sub i x, Chan.sub, ha, hb, Chan.sub]

end

section
variable (u : SubCh) (n : Nat) (loc : Option Nat) (clk : Nat)

@[simp] theorem SubCh.retire_zero : u.retire 0 = u := rfl

/-- Commands that retire leave the queues, the banks and the refreshes alone. -/
theorem SubCh.retire_frame : ∃ r : SubCh, u.retire n = { u with
    alerts := r.alerts, retired := r.retired, retrained := r.retrained, catFails := r.catFails } := by
  unfold SubCh.retire
  split
  · exact ⟨u, rfl⟩
  · exact ⟨{ u with
      alerts := 0
      retired := min (u.retired + n) (2 ^ 24)
      retrained := u.retrained && decide (min (u.retired + n) (2 ^ 24) < 2 ^ 24)
      catFails := if u.retrained && decide (min (u.retired + n) (2 ^ 24) = 2 ^ 24) then 0 else u.catFails }, rfl⟩

@[simp] theorem SubCh.issued_open : (u.issued loc clk).open_ = u.open_ := by
  obtain ⟨r, h⟩ := ({ u with retry := lastN 64 (u.retry ++ [(loc, clk)]) } : SubCh).retire_frame ((u.retry ++ [(loc, clk)]).length - 64)
  simp only [SubCh.issued, h]

@[simp] theorem SubCh.issued_unref : (u.issued loc clk).unref = u.unref := by
  obtain ⟨r, h⟩ := ({ u with retry := lastN 64 (u.retry ++ [(loc, clk)]) } : SubCh).retire_frame ((u.retry ++ [(loc, clk)]).length - 64)
  simp only [SubCh.issued, h]

@[simp] theorem SubCh.issued_refAt : (u.issued loc clk).refAt = u.refAt := by
  obtain ⟨r, h⟩ := ({ u with retry := lastN 64 (u.retry ++ [(loc, clk)]) } : SubCh).retire_frame ((u.retry ++ [(loc, clk)]).length - 64)
  simp only [SubCh.issued, h]

end

/-- A channel none of whose commands has retired has nothing to settle. -/
theorem Chan.settle_of_young {c : Chan} {sub clk : Nat} (h : ∀ x ∈ (c.sub sub).retry, c.young clk x = true) : c.settle sub clk = c := by
  have hl : (c.sub sub).retry.filter (c.young clk) = (c.sub sub).retry := List.filter_eq_self.2 h
  simp only [Chan.settle, hl, Nat.sub_self, SubCh.retire_zero]
  exact c.setSub_self sub

theorem Chan.reissued_nil {c : Chan} {u : SubCh} {clk : Nat} (h : u.retry = []) : (c.reissued u clk).open_ = [] := by
  simp [Chan.reissued, h]

/-- Closed banks stay closed while others are closed. -/
theorem thas_foldl_tdel {α : Type} (l : List Nat) (t : Tab α) (j : Nat) :
    thas (l.foldl tdel t) j = (thas t j && !l.contains j) := by
  induction l generalizing t with
  | nil => simp
  | cons i l ih =>
    rw [List.foldl_cons, ih, thas_tdel]
    by_cases h : i = j
    · simp [h]
    · have h' : ¬ j = i := fun e => h e.symm
      have hb : (i != j) = true := by simpa using h
      simp [h', hb]

theorem State.requestAged_read {ch sub i : Nat} {r : DRead} (hr : ((s.chan ch).sub sub).rq[i]? = some r)
    (hd : r.since + (s.chan ch).memClk 2048 ≤ s.clk) :
    (((s.requestAged ch sub i).chan ch).sub sub).rq[i]? = some { r with aged := true } ∧
    (((s.requestAged ch sub i).chan ch).sub sub).wq = ((s.chan ch).sub sub).wq := by
  have hi : i < ((s.chan ch).sub sub).rq.length := (List.getElem?_eq_some_iff.1 hr).1
  simp [State.requestAged, getElem?_modAt_same _ hr, hd, hi]

/-- R411: what a refresh that is due does to its subchannel, by whether its banks are busy. -/
theorem State.refreshDue_due {ch sub rank b : Nat} (hrun : (s.chan ch).st = .run)
    (hdue : tget 0 ((s.chan ch).sub sub).refAt (4 * rank + b) + (s.chan ch).refi rank ≤ s.clk) {busy : Bool}
    (hb : (((s.chan ch).sub sub).catrain || (refBanks rank b).any (thas ((s.chan ch).sub sub).open_) ||
      (s.queuedLocs ch sub).any fun l => (refBanks rank b).contains (32 * locRank l + locBank l)) = busy) :
    s.refreshDue ch sub rank b = { s with chans := (s.refreshDue ch sub rank b).chans } ∧
    (((s.refreshDue ch sub rank b).chan ch).sub sub).refAt = tput ((s.chan ch).sub sub).refAt (4 * rank + b) s.clk ∧
    (((s.refreshDue ch sub rank b).chan ch).sub sub).unref = if busy
      then tput ((s.chan ch).sub sub).unref (4 * rank + b) (tget 0 ((s.chan ch).sub sub).unref (4 * rank + b) + 1)
      else tdel ((s.chan ch).sub sub).unref (4 * rank + b) := by
  have hno : ¬ ((s.chan ch).st ≠ .run ∨ s.clk < tget 0 ((s.chan ch).sub sub).refAt (4 * rank + b) + (s.chan ch).refi rank) := by
    simp [hrun, hdue]
  simp only [State.refreshDue, if_neg hno, hb]
  refine ⟨rfl, ?_, ?_⟩ <;> cases busy <;> simp

/-- R411: a forced refresh closes the banks and counts. -/
theorem State.refreshForced_sub {ch sub rank b : Nat} (hrun : (s.chan ch).st = .run) (hc : ((s.chan ch).sub sub).catrain = false)
    (hu : 4 ≤ tget 0 ((s.chan ch).sub sub).unref (4 * rank + b)) :
    s.refreshForced ch sub rank b = { s with chans := (s.refreshForced ch sub rank b).chans } ∧
    ((s.refreshForced ch sub rank b).chan ch).sub sub = ({ (s.chan ch).sub sub with
        open_ := (refBanks rank b).foldl tdel ((s.chan ch).sub sub).open_
        unref := tdel ((s.chan ch).sub sub).unref (4 * rank + b) } : SubCh).issued none s.clk ∧
    ((s.refreshForced ch sub rank b).chan ch).refForced = sat (s.chan ch).refForced := by
  rw [State.refreshForced, if_pos ⟨hrun, by simp [hc], hu⟩, State.setChan_get_chan_same]
  exact ⟨rfl, Chan.sub_of_setSub rfl rfl, rfl⟩

/-- R415: an alert that finds no command retired. -/
theorem State.dramAlert_of_young {ch sub : Nat} (hrun : (s.chan ch).st = .run) (hc : ((s.chan ch).sub sub).catrain = false)
    (hy : ∀ x ∈ ((s.chan ch).sub sub).retry, (s.chan ch).young s.clk x = true) :
    s.dramAlert ch sub = { s with chans := (s.dramAlert ch sub).chans } ∧
    ((s.dramAlert ch sub).chan ch).sub sub =
      { (s.chan ch).reissued ((s.chan ch).sub sub) s.clk with alerts := ((s.chan ch).sub sub).alerts + 1 } ∧
    ((s.dramAlert ch sub).chan ch).alerts = sat (s.chan ch).alerts ∧ ((s.dramAlert ch sub).chan ch).retrying = true := by
  rw [State.dramAlert, Chan.settle_of_young hy, if_neg (by simp [hrun, hc]), State.setChan_get_chan_same]
  exact ⟨rfl, Chan.sub_of_setSub rfl rfl, rfl, rfl⟩

/-- R416: retraining starts on subchannel A alone. -/
theorem State.caStart_a {ch : Nat} (hrun : (s.chan ch).st = .run) (hc : (s.chan ch).subA.catrain = false)
    (ha : (s.chan ch).retryLimit ≤ (s.chan ch).subA.alerts) (hr : (s.chan ch).subA.retrained = false)
    (hb : (s.chan ch).subB.alerts < (s.chan ch).retryLimit) : s.caStart ch = s.retrainStarts ch 0 := by
  have hlim : ((s.retrainStarts ch 0).chan ch).retryLimit = (s.chan ch).retryLimit := by
    simp [State.retrainStarts, Chan.retryLimit, Chan.setSub]
  have hsubB : ((s.retrainStarts ch 0).chan ch).sub 1 = (s.chan ch).subB := by simp [State.retrainStarts, Chan.setSub, Chan.sub]
  have h0 : (s.chan ch).sub 0 = (s.chan ch).subA := rfl
  simp [State.caStart, List.foldl_cons, h0, hrun, hc, ha, hr, hlim, hsubB, hb]

/-- A controller that is not held stays out of self-refresh. -/
theorem State.tryHold_of_not_hold {ch : Nat} (h : (s.chan ch).hold = false) : s.tryHold ch = s := by simp [State.tryHold, h]

/-- R415, R416: the end of a retraining of subchannel A. -/
theorem State.caEnd_a {ch : Nat} (ha : (s.chan ch).subA.catrain = true) (hb : (s.chan ch).subB.catrain = false)
    (hh : (s.chan ch).hold = false) : s.caEnd ch true = s.setChan ch ((s.chan ch).setSub 0
      { (s.chan ch).reissued (s.chan ch).subA s.clk with catrain := false, retrained := true, retired := 0 }) := by
  have hsub : (s.chan ch).catSub = 0 := by simp [Chan.catSub, ha, hb]
  have h0 : (s.chan ch).sub 0 = (s.chan ch).subA := rfl
  simp only [State.caEnd, hsub, h0, ha, Bool.not_true, Bool.false_eq_true, if_false, if_true]
  exact State.tryHold_of_not_hold (by simp [Chan.setSub, hh])

/-- Settles O30: each command writes back the channel, with the subchannel's fields as the rule states. -/
theorem dramUpkeep : Obligations.DramUpkeep := by
  unfold Obligations.DramUpkeep
  refine ⟨?aged, ?idle, ?free, ?busy, ?forced, ?mr4, ?alert, ?start, ?done⟩
  case aged =>
    intro s ch sub i r hr hd
    exact ⟨_, rfl, rfl, State.requestAged_read hr hd⟩
  case idle =>
    intro s ch sub rank bank hq hd
    refine ⟨_, rfl, ?_⟩
    rw [State.bankIdle, if_neg (by simp [hq, hd])]
    exact ⟨rfl, by simp [thas_tdel]⟩
  case free =>
    intro s ch sub rank b hrun hc hq ho hd
    obtain ⟨hs, hat, hun⟩ := State.refreshDue_due hrun hd (busy := false) (by simp only [hc, ho, hq]; rfl)
    exact ⟨_, rfl, hs, by simp [hun, tget_tdel], by simp [hat]⟩
  case busy =>
    intro s ch sub rank b hrun ho hd
    obtain ⟨hs, -, hun⟩ := State.refreshDue_due hrun hd (busy := true) (by simp only [ho, Bool.or_true, Bool.true_or])
    exact ⟨_, rfl, hs, by simp [hun]⟩
  case forced =>
    intro s ch sub rank b hrun hc hu
    obtain ⟨hs, hsub, hn⟩ := State.refreshForced_sub (b := b) hrun hc hu
    refine ⟨_, rfl, hs, by simp [hsub, tget_tdel], List.any_eq_false.2 fun k hk => ?_, hn⟩
    simp [hsub, thas_foldl_tdel, hk]
  case mr4 =>
    intro s ch rank d hrun hc h0 h1 hd
    refine ⟨_, rfl, ?_⟩
    rw [if_pos ⟨hrun, by simp [hc], by simp [h0], by simp [h1], hd⟩]
    exact ⟨rfl, by simp⟩
  case alert =>
    intro s ch sub hrun hc hy
    obtain ⟨hs, hsub, hn, hr⟩ := State.dramAlert_of_young hrun hc hy
    exact ⟨_, rfl, hs, hsub, by rw [hsub]; rfl, fun he => by rw [hsub]; exact Chan.reissued_nil he, hn, hr⟩
  case start =>
    intro s ch hrun hc ha hr hb
    refine ⟨_, rfl, ?_⟩
    rw [State.caStart_a hrun hc ha hr hb]
    exact ⟨rfl, by simp [State.retrainStarts, Chan.setSub, Chan.sub], by simp [State.retrainStarts, Chan.setSub, Chan.sub], by simp [State.retrainStarts, Chan.setSub]⟩
  case done =>
    intro s ch ha hb hh
    refine ⟨_, rfl, ?_⟩
    rw [State.caEnd_a ha hb hh]
    exact ⟨rfl, by simp [Chan.setSub], by simp [Chan.setSub]⟩

end Sys2Proof.Machine
end

section
/-! SUPPORT. The scrubbers (R450–R453): a read of a line without errors, and what a record of the log leaves. -/

namespace Sys2Proof.Machine
open Sys2Proof

variable {s : State}

/-- R435: a line that carries no error and no mark decodes as it was stored. -/
theorem dramCheck_clean (stored : Bool) : dramCheck none stored [] = (stored, .good) := by cases stored <;> decide +kernel

theorem locSub_lt (loc : Nat) : locSub loc < 2 := Nat.mod_lt _ (by decide)

/-- R451: a scrubber's read of a line without errors finds nothing to do. -/
theorem State.scrubLine_clean {u loc : Nat} {pa : Option Nat} (h : s.markAt loc = none) : s.scrubLine u loc pa [] = s := by
  simp only [State.scrubLine, List.map_nil, h, dramCheck_clean]

theorem Chan.catrain_sub {c : Chan} (h : c.catrain = false) (i : Nat) : (c.sub i).catrain = false := by
  obtain ⟨ha, hb⟩ := Bool.or_eq_false_iff.1 h
  unfold Chan.sub
  split
  · exact ha
  · exact hb

/-- R450: the scrubber of a channel that is idle reads its next line, which is in order, and moves on within the lap. -/
theorem State.scrubDram_moves {ch r k lpr : Nat} (hready : s.top.ready = true) (hrun : (s.chan ch).st = .run)
    (hcat : (s.chan ch).catrain = false) (hl : lpr = gib * (s.chan ch).dimm.rankGib.toNat / 64)
    (hat : (s.chan ch).scrubAt (s.scrub ch).pos lpr = some (r, k)) (hnext : ((s.chan ch).scrubAt (r * lpr + k + 1) lpr).isSome = true)
    (hidle : ∀ j < 2, ((s.chan ch).sub j).rq = [] ∧ ((s.chan ch).sub j).wq = []) (hmark : ∀ loc, s.markAt loc = none)
    (hdue : ∀ d, (s.scrub ch).due d ((s.chan ch).memClk s.owl.scrubInt.toNat) s.clk = true) :
    ∃ d, s.scrubDram ch [] = s.scrubStep ch d (r * lpr + k + 1) false := by
  obtain ⟨hrq, hwq⟩ := hidle _ (locSub_lt (locKey ch r (64 * k)))
  refine ⟨locSub (locKey ch r (64 * k)), ?_⟩
  have hlast : ((s.chan ch).scrubAt (r * lpr + k + 1) lpr).isNone = false := by
    rw [← Option.not_isSome, hnext, Bool.not_true]
  simp [State.scrubDram, ← hl, hat, hready, hrun, Chan.catrain_sub hcat, hrq, hwq, hdue, hlast, State.scrubLine_clean (hmark _)]

/-- R452: a read that does not end the lap. -/
theorem State.scrubStep_within (u d next : Nat) :
    s.scrubStep u d next false = { s with scrubs := (s.scrubStep u d next false).scrubs } ∧
    ((s.scrubStep u d next false).scrub u).pos = next ∧ ((s.scrubStep u d next false).scrub u).laps = (s.scrub u).laps := by
  refine ⟨rfl, congrArg Scrub.pos (State.setScrub_get_scrub_same ..), ?_⟩
  show ((s.setScrub u _).scrub u).laps = _
  rw [State.setScrub_get_scrub_same]

/-- R550: a record of the log changes nothing but Owl's state. -/
theorem State.logPlain_owl (kind detail : Byte) : s.logPlain kind detail = { s with owl := (s.logPlain kind detail).owl } := by
  unfold State.logPlain State.logEvent
  split <;> rfl

theorem exec_scrubRead_dram {ch : Nat} (h : ch < 32) (l : List (Nat × Byte)) (b : BitVec 80) :
    exec (.scrubRead ch l b) s = .next (s.scrubDram ch l) := if_pos h

/-- R443: a word of the Burrow without an error. -/
theorem State.scrubBurrow_zero (a : Nat) : s.scrubBurrow a 0 = s := by simp [State.scrubBurrow]

theorem exec_scrubRead_burrow (hready : s.top.ready = true) (l : List (Nat × Byte)) (hpos : (s.scrub 32).pos + 1 < 67108864)
    (hdue : (s.scrub 32).due ((s.scrub 32).pos % 4) s.owl.burInt.toNat s.clk = true) :
    exec (.scrubRead 32 l 0) s = .next (s.scrubStep 32 ((s.scrub 32).pos % 4) ((s.scrub 32).pos + 1) false) := by
  have hlap : decide (67108864 ≤ (s.scrub 32).pos + 1) = false := decide_eq_false (Nat.not_le.2 hpos)
  have hgo : 32 = 32 ∧ s.top.ready ∧ (s.scrub 32).due ((s.scrub 32).pos % 4) s.owl.burInt.toNat s.clk := ⟨rfl, hready, hdue⟩
  show execScrubRead 32 l 0 s = _
  rw [execScrubRead, if_neg (Nat.lt_irrefl 32), if_pos hgo, hlap]
  simp only [if_true, State.scrubBurrow_zero]

/-- Settles O32: the reads are steps of the scrubber within its lap, and the two counts are taken as the rule says. -/
theorem scrubbers : Obligations.Scrubbers := by
  unfold Obligations.Scrubbers
  refine ⟨?dram, ?burrow, ?starved, ?lap⟩
  case dram =>
    intro s ch r k lpr b hch hready hrun hcat hl hat hnext hidle hmark hdue
    obtain ⟨d, hstep⟩ := State.scrubDram_moves hready hrun hcat hl hat hnext hidle hmark hdue
    exact leads_of_exec (exec_scrubRead_dram hch [] b) (hstep ▸ State.scrubStep_within ch d _)
  case burrow =>
    intro s l hready hpos hdue
    exact leads_of_exec (exec_scrubRead_burrow hready l hpos hdue) (State.scrubStep_within ..)
  case starved =>
    intro s u hready hst hdue
    refine ⟨_, rfl, ?_⟩
    rw [if_pos ⟨hready, hst, hdue⟩]
    exact ⟨rfl, congrArg Scrub.starved (State.setScrub_get_scrub_same ..)⟩
  case lap =>
    intro s u hlim hno hlate
    refine ⟨_, rfl, ?_⟩
    rw [if_pos ⟨hlim, by simp [hno], hlate⟩, State.logPlain_owl]
    exact ⟨rfl, congrArg Scrub.lapLogged (State.setScrub_get_scrub_same ..)⟩

end Sys2Proof.Machine
end

section
/-! SUPPORT. Keyed writes (R31–R34) of Owl and of a page, at an offset of the block that holds the register; the extension of a partition's
Burrow and its event ring (R396–R400, R454, R457–R459). -/

namespace Sys2Proof.Machine
open Sys2Proof

variable {s : State}

@[simp] theorem State.disarm_get_part (path : Path) (u k : Nat) : (s.disarm path u).part k = s.part k := rfl
@[simp] theorem State.disarm_get_chan (path : Path) (u k : Nat) : (s.disarm path u).chan k = s.chan k := rfl

/-! ### Keyed writes -/

/-- R32–R34: Owl's write of a keyed register that is armed uses up the arming. -/
theorem State.write_owl_keyed {off x : Nat} (v : W32) (hk : s.CanKey .owl off) (h4 : off % 4 = 0) (hb : owlBarred .owl off = false)
    (hu : isUnlock off = false) (hc : s.cell off = some ⟨.keyed, x⟩) :
    s.write .owl off v = (s.disarm .owl (unlockOf off)).effect .owl off v := by
  obtain ⟨hup, harmed⟩ := hk
  rw [State.write_of_pathUp _ _ _ _ hup, show reach .owl off = off from rfl, State.regWrite_keyed v h4 hb hu hc, if_pos harmed]

section
variable {path : Path} {p i : Nat} (hp : p < 32) (hi : i < 0x7000)
include hp hi

theorem owlBarred_page : owlBarred path (pageBase p + i) = false := by
  rw [owlBarred, blockAt_page hp (by omega)]
  simp [Nat.not_le.2 hi]

theorem State.pageReg_keyed {x : Nat} (v : W32) (h4 : i % 4 = 0) (hne : i ≠ 0x100) (h : s.CanPage path p i)
    (hc : s.cell (pageBase p + i) = some ⟨.keyed, x⟩) :
    s.pageReg path p i v = (s.disarm path (unlockOf (pageBase p + i))).pageWrite path p i v := by
  obtain ⟨hup, hpage, harmed⟩ := h
  have hblock := blockAt_page hp (show i < 0x10000 by omega)
  have hun : isUnlock (pageBase p + i) = false := by simp [isUnlock, hblock, unlockAt, hne]
  have h4' : (pageBase p + i) % 4 = 0 := by rw [pageBase]; omega
  rw [State.pageReg, if_pos ⟨hup, hpage⟩, State.regWrite_keyed v h4' (owlBarred_page hp hi) hun hc, if_pos harmed]
  simp only [State.effect, hblock]

theorem State.pageReg_rw {x : Nat} (v : W32) (h4 : i % 4 = 0) (hne : i ≠ 0x100) (hup : s.pathUp path = true)
    (hpage : Path.toPage path p = true) (hc : s.cell (pageBase p + i) = some ⟨.rw, x⟩) :
    s.pageReg path p i v = s.pageWrite path p i v := by
  have hblock := blockAt_page hp (show i < 0x10000 by omega)
  have hun : isUnlock (pageBase p + i) = false := by simp [isUnlock, hblock, unlockAt, hne]
  have h4' : (pageBase p + i) % 4 = 0 := by rw [pageBase]; omega
  rw [State.pageReg, if_pos ⟨hup, hpage⟩, State.regWrite_rw v h4' (owlBarred_page hp hi) hun hc]
  simp only [State.effect, hblock]

end

/-! ### The extension (R396–R400) -/

section
variable {p : Nat} (hp : p < 32)
include hp

theorem blockAt_ext : blockAt (0x701008 + 16 * p) = (.bur, 0x1008 + 16 * p) := by
  rw [blockAt]
  iterate 5 rw [if_neg (by omega)]
  rw [if_pos (by omega)]
  congr 1; omega

theorem ext_place : (0x1008 + 16 * p - 0x1000) / 16 = p ∧ (0x1008 + 16 * p) % 16 = 8 ∧ (0x1008 + 16 * p - 0x1000) % 16 = 8 := by omega

theorem State.cell_ext : s.cell (0x701008 + 16 * p) = some ⟨.keyed, 16 * (s.part p).ext.result.toNat⟩ := by
  simp only [State.cell, blockAt_ext hp]
  interval_cases p <;> rfl

theorem exec_extensionApply (hk : s.CanKey .owl (0x701008 + 16 * p)) :
    exec (.extensionApply p) s = .next ((s.disarm .owl (unlockOf (0x701008 + 16 * p))).extApply p) := by
  have hblock := blockAt_ext hp
  have hb : owlBarred .owl (0x701008 + 16 * p) = false := by rw [owlBarred, hblock]; rfl
  have hu : isUnlock (0x701008 + 16 * p) = false := by simp [isUnlock, hblock, unlockAt]; omega
  obtain ⟨hplace, hmod, -⟩ := ext_place hp
  refine congrArg _ ((State.write_owl_keyed 1 hk (by omega) hb hu (s.cell_ext hp)).trans ?_)
  simp only [State.effect, hblock, State.burWrite, hplace, hmod]
  rfl

end

/-! ### The event ring (R454, R457–R459) -/

section
variable {path : Path} {p : Nat} (hp : p < 32) (v : W32)
include hp

theorem State.cell_evCfg : ∃ x, s.cell (pageBase p + 0x6008) = some ⟨.keyed, x⟩ := by
  simp only [State.cell, blockAt_page hp (show 0x6008 < 0x10000 by decide)]
  exact ⟨_, rfl⟩

theorem State.cell_evCons : ∃ x, s.cell (pageBase p + 0x6010) = some ⟨.rw, x⟩ := by
  simp only [State.cell, blockAt_page hp (show 0x6010 < 0x10000 by decide)]
  exact ⟨_, rfl⟩

theorem exec_eventRingConfig (h : s.CanPage path p 0x6008) :
    exec (.eventRingConfig path p v) s = .next ((s.disarm path (unlockOf (pageBase p + 0x6008))).evCfg p v) := by
  obtain ⟨x, hc⟩ := s.cell_evCfg hp
  exact congrArg _ (State.pageReg_keyed hp (by decide) v (by decide) (by decide) h hc)

theorem exec_eventConsumerWrite (hup : s.pathUp path = true) (hpage : Path.toPage path p = true) :
    exec (.eventConsumerWrite path p v) s = .next (s.evCons p v) := by
  obtain ⟨x, hc⟩ := s.cell_evCons hp
  exact congrArg _ (State.pageReg_rw hp (by decide) v (by decide) (by decide) hup hpage hc)

end

section
variable (r : EvRing) (p : Nat)

@[simp] theorem State.setRing_part_same : (s.setRing p r).part p = { s.part p with ring := r } := State.setPart_get_part_same ..

theorem State.setRing_part_other {k : Nat} (h : k ≠ p) : (s.setRing p r).part k = s.part k := by
  rw [State.setRing, State.setPart_get_part, if_neg (Ne.symm h)]

end

/-- R459: a ring whose size and place pass the checks is turned on there, empty. -/
theorem State.evCfg_on {p n base : Nat} {v : W32} (hn : n = v.toNat % 32) (h4 : 4 ≤ n) (h16 : n ≤ 16)
    (hbase : base = (s.part p).ring.baseLo.toNat + 2 ^ 32 * (s.part p).ring.baseHi.toNat) (hal : base % (32 * 2 ^ n) = 0)
    (hin : s.inOneExtent p base (32 * 2 ^ n) = true) (hsp : s.meetsSpecial p base (32 * 2 ^ n) = false) :
    s.evCfg p v = s.setRing p { (s.part p).ring with on := true, log2 := BitVec.ofNat 5 n, base := base, prod := 0, cons := 0 } := by
  subst hn hbase
  simp only [State.evCfg]
  rw [if_neg (by omega), if_pos ⟨h4, h16, hal, hin, by rw [hsp]; rfl⟩]

/-- R459: a size out of range is refused. -/
theorem State.evCfg_refused {p : Nat} {v : W32} (h0 : 0 < v.toNat % 32) (hr : v.toNat % 32 < 4 ∨ 16 < v.toNat % 32) :
    s.evCfg p v = s.setRing p (s.part p).ring.refuse := by
  simp only [State.evCfg]
  rw [if_neg (by omega), if_neg (by omega)]

/-- R457: a ring that is on refuses a value that lies beyond what it holds. -/
theorem State.evCons_on {p : Nat} {v : W32} (hon : (s.part p).ring.on = true) :
    s.evCons p v = s.setRing p (if 2 ^ (s.part p).ring.log2.toNat < ((s.part p).ring.prod - v).toNat then (s.part p).ring.refuse
      else { (s.part p).ring with cons := v }) := by
  simp only [State.evCons, hon, true_and]
  split <;> rfl

/-- Settles O36: each write reaches its register, whose setting is applied or refused as the checks say. -/
theorem extensionAndEventRing : Obligations.ExtensionAndEventRing := by
  unfold Obligations.ExtensionAndEventRing
  refine ⟨?applied, ?refused, ?on, ?range, ?consumer⟩
  case applied =>
    intro s p hp hk hr
    have hr' : (s.disarm .owl (unlockOf (0x701008 + 16 * p))).extResult p = 1 := hr
    refine leads_of_exec (exec_extensionApply hp hk) ?_
    rw [State.extApply, if_pos hr']
    exact ⟨rfl, by simp [State.setExt], by simp [State.setExt], by simp [State.setExt]⟩
  case refused =>
    intro s p hp hk hr
    have hr' : ¬ (s.disarm .owl (unlockOf (0x701008 + 16 * p))).extResult p = 1 := hr
    refine leads_of_exec (exec_extensionApply hp hk) ?_
    have hpart : ((s.disarm .owl (unlockOf (0x701008 + 16 * p))).extApply p).part p = { s.part p with
        ext := { (s.part p).ext with result := BitVec.ofNat 4 (s.extResult p) } } := by
      rw [State.extApply, if_neg hr']
      exact State.setPart_get_part_same ..
    exact ⟨by rw [State.extApply, if_neg hr']; rfl, by rw [hpart], by rw [hpart], by rw [hpart], by rw [State.extApply, if_neg hr']; rfl⟩
  case on =>
    intro s path p n base v hp hk hn h4 h16 hbase hal hin hsp
    refine leads_of_exec (exec_eventRingConfig hp v hk) ?_
    rw [State.evCfg_on (s := s.disarm ..) hn h4 h16 hbase hal hin hsp]
    refine ⟨rfl, by simp, by simp, ?_, by simp, by simp⟩
    simp only [State.setRing_part_same, BitVec.toNat_ofNat]
    omega
  case range =>
    intro s path p v hp hk h0 hr
    refine leads_of_exec (exec_eventRingConfig hp v hk) ?_
    rw [State.evCfg_refused h0 hr]
    exact ⟨rfl, by simp [EvRing.refuse], by simp [EvRing.refuse], by simp [EvRing.refuse]⟩
  case consumer =>
    intro s path p v hp hup hpage hon
    refine leads_of_exec (exec_eventConsumerWrite hp v hup hpage) ?_
    rw [State.evCons_on hon]
    refine ⟨rfl, fun k hk => State.setRing_part_other _ _ hk, ?_⟩
    split <;> simp [EvRing.refuse]

end Sys2Proof.Machine
end

section
/-! SUPPORT. What every command keeps: the canonical form of the memories, the fuses burnt, and the queue. -/

namespace Sys2Proof.Machine
open Sys2Proof

variable {s₀ s t u : State}

/-! ### What every command keeps -/

theorem FuseS.Kept.refl (a : FuseS) : a.Kept a := ⟨BitVec.and_self, id, id, le_rfl, le_rfl⟩

theorem FuseS.Kept.trans {a b c : FuseS} (h : a.Kept b) (g : b.Kept c) : a.Kept c where
  life := by rw [← h.life, BitVec.and_assoc, g.life]
  secret := g.secret ∘ h.secret
  ones := g.ones ∘ h.ones
  fwCnt := h.fwCnt.trans g.fwCnt
  layCnt := h.layCnt.trans g.layCnt

theorem and_setBit {n : Nat} (v : BitVec n) (i : Nat) : v &&& setBit v i = v := by
  ext j hj
  simpa [setBit] using fun hv => .inl hv

/-- What `Keeps` speaks of. -/
def State.core (s : State) : List Host.Cell × List Host.Cell × FuseS × List Instr := (s.dram, s.scr, s.fuse, s.pending)

/-- From `s` to `t` canonical memories stay canonical, no fuse is unburnt, and the queue of waiting commands is left alone. -/
def Keeps (s t : State) : Prop := KeepsWf s t ∧ s.fuse.Kept t.fuse ∧ t.pending = s.pending

theorem Keeps.refl (s : State) : Keeps s s := ⟨.refl s, .refl _, rfl⟩

theorem Keeps.trans (h : Keeps s t) (g : Keeps t u) : Keeps s u :=
  ⟨h.1.trans g.1, h.2.1.trans g.2.1, g.2.2.trans h.2.2⟩

/-- An update of anything else. -/
theorem Keeps.to (h : Keeps s₀ s) (e : t.core = (s.dram, s.scr, s.fuse, s.pending)) : Keeps s₀ t := by
  obtain ⟨hd, hs, hf, hp⟩ : t.dram = s.dram ∧ t.scr = s.scr ∧ t.fuse = s.fuse ∧ t.pending = s.pending := by simpa [State.core] using e
  exact h.trans ⟨.of_eq hd hs, hf ▸ .refl _, hp⟩

/-- An update of memory. -/
theorem Keeps.mem (h : Keeps s₀ s) (hw : KeepsWf s t) (hf : t.fuse = s.fuse := by rfl) (hp : t.pending = s.pending := by rfl) : Keeps s₀ t :=
  h.trans ⟨hw, hf ▸ .refl _, hp⟩

/-- An update of lines. -/
theorem Keeps.lines (h : Keeps s₀ s) (hl : LineFrame s t) (hw : KeepsWf s t) : Keeps s₀ t :=
  h.mem hw (by rw [hl]) (by rw [hl])

/-- The fuses burnt further. -/
theorem Keeps.fuses {f : FuseS} (h : Keeps s₀ s) (hf : s.fuse.Kept f) : Keeps s₀ { s with fuse := f } := h.trans ⟨.refl s, hf, rfl⟩

theorem Keeps.foldl {α : Type} {f : State → α → State} {l : List α} (h : Keeps s₀ s) (hf : ∀ s a, Keeps s₀ s → Keeps s₀ (f s a)) :
    Keeps s₀ (l.foldl f s) := List.foldlRecOn l f h fun s h a _ => hf s a h

theorem Keeps.foldl_fst {α β : Type} {f : State × β → α → State × β} {l : List α} {x : State × β} (h : Keeps s₀ x.1)
    (hf : ∀ x a, Keeps s₀ x.1 → Keeps s₀ (f x a).1) : Keeps s₀ (l.foldl f x).1 :=
  List.foldlRecOn (motive := fun x : State × β => Keeps s₀ x.1) l f h fun x h a _ => hf x a h

theorem Keeps.ite {p : Prop} {_ : Decidable p} (ht : p → Keeps s₀ t) (hu : ¬p → Keeps s₀ u) : Keeps s₀ (if p then t else u) := by
  split
  · exact ht ‹_›
  · exact hu ‹_›

theorem Keeps.of_fst {α : Type} {x : State × α} {b : α} (e : x = (t, b)) (h : Keeps s₀ x.1) : Keeps s₀ t := by rw [e] at h; exact h

theorem Keeps.of_snd {α : Type} {x : α × State} {b : α} (e : x = (b, t)) (h : Keeps s₀ x.2) : Keeps s₀ t := by rw [e] at h; exact h

end Sys2Proof.Machine
end

section
/-! SUPPORT. What the operations of Machine / Ops keep of memory, fuses and the queue. -/

namespace Sys2Proof.Machine
open Sys2Proof

variable {s₀ s t u : State}

theorem Keeps.setPart {p : Nat} {x : PartS} (h : Keeps s₀ s) : Keeps s₀ (s.setPart p x) := h

theorem Keeps.setPort {k : Nat} {x : Port} (h : Keeps s₀ s) : Keeps s₀ (s.setPort k x) := h

theorem Keeps.setSett {n : Nat} {x : Sett} (h : Keeps s₀ s) : Keeps s₀ (s.setSett n x) := h

theorem Keeps.setEng {e : Nat} {x : Engine} (h : Keeps s₀ s) : Keeps s₀ (s.setEng e x) := h

theorem Keeps.setQueue {q : Nat} {x : Queue} (h : Keeps s₀ s) : Keeps s₀ (s.setQueue q x) := h

theorem Keeps.setChan {c : Nat} {x : Chan} (h : Keeps s₀ s) : Keeps s₀ (s.setChan c x) := h

theorem Keeps.setScrub {u : Nat} {x : Scrub} (h : Keeps s₀ s) : Keeps s₀ (s.setScrub u x) := h

theorem Keeps.restartCadence {ks : List Nat} (h : Keeps s₀ s) : Keeps s₀ (s.restartCadence ks) := h

theorem Keeps.scrubPause {u : Nat} (h : Keeps s₀ s) : Keeps s₀ (s.scrubPause u) := h

theorem Keeps.scrubResume {u : Nat} (h : Keeps s₀ s) : Keeps s₀ (s.scrubResume u) := by
  unfold State.scrubResume
  dsimp only
  split
  · exact h
  · exact h

theorem Keeps.setHport {k : Nat} {x : HPort} (h : Keeps s₀ s) : Keeps s₀ (s.setHport k x) := h

theorem Keeps.setQp {q : Nat} {x : QP} (h : Keeps s₀ s) : Keeps s₀ (s.setQp q x) := h

theorem Keeps.setPqos {p k : Nat} {x : PortQos} (h : Keeps s₀ s) : Keeps s₀ (s.setPqos p k x) := h

theorem Keeps.setRing {p : Nat} {r : EvRing} (h : Keeps s₀ s) : Keeps s₀ (s.setRing p r) := h

theorem Keeps.setDbg {p : Nat} {d : Dbg} (h : Keeps s₀ s) : Keeps s₀ (s.setDbg p d) := h

theorem Keeps.logEvent {kind status detail : Byte} {addr : W64} {part : Byte} (h : Keeps s₀ s) :
    Keeps s₀ (s.logEvent kind status detail addr part) := by
  unfold State.logEvent
  split
  · exact h
  · exact h

theorem Keeps.logPlain {kind detail : Byte} (h : Keeps s₀ s) : Keeps s₀ (s.logPlain kind detail) := h.logEvent

theorem Keeps.writeCfg {g : FlashS → FlashS} (h : Keeps s₀ s) : Keeps s₀ (s.writeCfg g) := h

end Sys2Proof.Machine
end

section
/-! SUPPORT. What the operations of Machine / Store keep of memory, fuses and the queue. -/

namespace Sys2Proof.Machine
open Sys2Proof

variable {s₀ s t u : State}

theorem Keeps.dramStore {loc pa : Nat} {v : LineVal} (h : Keeps s₀ s) : Keeps s₀ (s.dramStore loc pa v) := h.mem (s.dramStore_wf ..)

theorem Keeps.performWrite {ch sub i : Nat} (h : Keeps s₀ s) : Keeps s₀ (s.performWrite ch sub i) :=
  h.lines (s.performWrite_frame ..) (s.performWrite_wf ..)

theorem Keeps.pushWrite {pa : Nat} {v : LineVal} (h : Keeps s₀ s) : Keeps s₀ (s.pushWrite pa v) :=
  h.lines (s.pushWrite_frame ..) (s.pushWrite_wf ..)

theorem Keeps.scrStore {off : Nat} {v : LineVal} (h : Keeps s₀ s) : Keeps s₀ (s.scrStore off v) := h.mem (s.scrStore_wf ..)

theorem Keeps.countVicfull (h : Keeps s₀ s) : Keeps s₀ s.countVicfull := h

theorem Keeps.installAt {pa : Nat} {v : LineVal} {d : Bool} {p : Place} (h : Keeps s₀ s) : Keeps s₀ (s.installAt pa v d p) :=
  h.lines (s.installAt_frame ..) (s.installAt_wf ..)

theorem Keeps.install {pa : Nat} {v : LineVal} {d : Bool} {busy : List Nat} (h : Keeps s₀ s) : Keeps s₀ (s.install pa v d busy) :=
  h.lines (s.install_frame ..) (s.install_wf ..)

theorem Keeps.installWaiting {n : Nat} {busy : List Nat} (h : Keeps s₀ s) : Keeps s₀ (s.installWaiting n busy) := by
  unfold State.installWaiting
  refine h.foldl fun s a h1 => ?_
  split
  · exact h1
  · exact h1
  · exact h1.installAt

theorem Keeps.countCeSram {p : Nat} (h : Keeps s₀ s) : Keeps s₀ (s.countCeSram p) := h

theorem Keeps.storeLine {pa : Nat} {v : LineVal} {busy : List Nat} (h : Keeps s₀ s) : Keeps s₀ (s.storeLine pa v busy) :=
  h.lines (s.storeLine_frame ..) (s.storeLine_wf ..)

theorem Keeps.devWrite {pa : Nat} {bs : Bytes} (h : Keeps s₀ s) : Keeps s₀ (s.devWrite pa bs).1 :=
  h.lines (s.devWrite_frame ..) (s.devWrite_wf ..)

theorem Keeps.touchLine {pa : Nat} (h : Keeps s₀ s) : Keeps s₀ (s.touchLine pa) := by
  unfold State.touchLine
  split
  · exact h
  · split
    · exact h
    · split
      · exact h
      · dsimp only
        split
        · exact .install h
        · exact h

theorem Keeps.ringWrite {p : Nat} {kind status detail : Byte} {addr : Nat} (h : Keeps s₀ s) :
    Keeps s₀ (s.ringWrite p kind status detail addr) := by
  unfold State.ringWrite
  dsimp only
  split
  · exact h.setRing
  · split
    · rename_i s1 e
      have h1 : Keeps s₀ s1 := .of_fst e h.devWrite
      exact h1.setRing
    · rename_i s1 _ _ e
      have h1 : Keeps s₀ s1 := .of_fst e h.devWrite
      exact h1.setRing

theorem Keeps.ringRecord {p : Nat} {kind status detail : Byte} {addr : Nat} (h : Keeps s₀ s) :
    Keeps s₀ (s.ringRecord p kind status detail addr) := h.ringWrite.logEvent

theorem Keeps.countPoison {pa : Nat} (h : Keeps s₀ s) : Keeps s₀ (s.countPoison pa) := by
  unfold State.countPoison
  split
  · exact h
  · exact h

theorem Keeps.poisonRecord {pa : Nat} {cause : Byte} (h : Keeps s₀ s) : Keeps s₀ (s.poisonRecord pa cause) := by
  unfold State.poisonRecord
  split
  · exact h
  · exact h.countPoison.ringRecord

theorem Keeps.sramLost (h : Keeps s₀ s) : Keeps s₀ s.sramLost := h.logPlain

theorem Keeps.settPoison {n : Nat} (h : Keeps s₀ s) : Keeps s₀ (s.settPoison n) := h

theorem Keeps.poisonLine {pa : Nat} (h : Keeps s₀ s) : Keeps s₀ (s.poisonLine pa) :=
  h.lines (s.poisonLine_frame ..) (s.poisonLine_wf ..)

end Sys2Proof.Machine
end

section
/-! SUPPORT. What the operations of Machine / Fabric keep of memory, fuses and the queue. -/

namespace Sys2Proof.Machine
open Sys2Proof

variable {s₀ s t u : State}

theorem Keeps.countStale {k : Nat} (h : Keeps s₀ s) : Keeps s₀ (s.countStale k) := h

theorem Keeps.countUnexpect {k : Nat} (h : Keeps s₀ s) : Keeps s₀ (s.countUnexpect k) := h

theorem Keeps.countDedupHit {k : Nat} (h : Keeps s₀ s) : Keeps s₀ (s.countDedupHit k) := h

theorem Keeps.multicast {g : Nat} {m : Msgs} (h : Keeps s₀ s) : Keeps s₀ (s.multicast g m) := by
  unfold State.multicast
  split
  dsimp only
  refine .foldl h fun s a h1 => ?_
  split
  · exact h1
  · exact h1

theorem Keeps.respond {f : OrigFab} {part : Option Nat} {m : Msgs} (h : Keeps s₀ s) : Keeps s₀ (s.respond f part m) := by
  unfold State.respond
  dsimp only
  split
  · exact h
  · split
    · exact h
    · split
      · exact h
      · exact h

theorem Keeps.setNode {d : Node} {g : NodeG} (h : Keeps s₀ s) : Keeps s₀ (s.setNode d g) := h

theorem Keeps.srcCheck {d : Node} {gen : Byte} (h : Keeps s₀ s) : Keeps s₀ (s.srcCheck d gen).2 := by
  unfold State.srcCheck
  dsimp only
  split
  · exact h
  · split
    · exact h
    · split
      · exact h
      · exact h

theorem Keeps.nodeWordLost {d : Node} (h : Keeps s₀ s) : Keeps s₀ (s.nodeWordLost d) := by
  unfold State.nodeWordLost
  dsimp only
  exact h.foldl fun _ _ h1 => h1

theorem Keeps.dedDrop {src : Node} {gen : Byte} {tag : BitVec 16} (h : Keeps s₀ s) : Keeps s₀ (s.dedDrop src gen tag) := h

theorem Keeps.dedOpen {e : Ded} (h : Keeps s₀ s) (hs : s.dedOpen e = some t) : Keeps s₀ t := by
  simp only [State.dedOpen] at hs
  split at hs
  · exact Option.some.inj hs ▸ h
  · split at hs
    · cases hs
    · exact Option.some.inj hs ▸ h

theorem Keeps.dedDone {f : OrigFab} {ans : Msgs} (h : Keeps s₀ s) : Keeps s₀ (s.dedDone f ans) := h

theorem Keeps.dedBlock {src : Node} {gen : Byte} {tag : BitVec 16} (h : Keeps s₀ s) : Keeps s₀ (s.dedBlock src gen tag) := h

end Sys2Proof.Machine
end

section
/-! SUPPORT. What the operations of Machine / Walk keep of memory, fuses and the queue. -/

namespace Sys2Proof.Machine
open Sys2Proof

variable {s₀ s t u : State}

theorem Keeps.tcInstall {k : OrigKind} {unit sett : Nat} {x : Xl} (h : Keeps s₀ s) : Keeps s₀ (s.tcInstall k unit sett x) := by
  unfold State.tcInstall
  split
  · split
    · exact h
    · exact h
  · exact h

theorem Keeps.countFault {asid : BitVec 16} (h : Keeps s₀ s) : Keeps s₀ (s.countFault asid) := by
  unfold State.countFault
  dsimp only
  split
  · exact h
  · exact .devWrite h

end Sys2Proof.Machine
end

section
/-! SUPPORT. What the operations of Machine / Rings keep of memory, fuses and the queue. -/

namespace Sys2Proof.Machine
open Sys2Proof

variable {s₀ s t u : State}

theorem Keeps.queueError {q reason : Nat} (h : Keeps s₀ s) : Keeps s₀ (s.queueError q reason) := by
  unfold State.queueError
  dsimp only
  split
  · exact h
  · exact h

theorem Keeps.qWriteBack {q off : Nat} {v : W32} (h : Keeps s₀ s) : Keeps s₀ (s.qWriteBack q off v) := by
  unfold State.qWriteBack
  split
  · exact h
  · exact h.devWrite

theorem Keeps.clearEntry {q : Nat} (h : Keeps s₀ s) : Keeps s₀ (s.clearEntry q) := h

theorem Keeps.schedFault {asid : BitVec 16} {e : Status × Bool} (h : Keeps s₀ s) : Keeps s₀ (s.schedFault asid e) := by
  unfold State.schedFault
  split
  · exact h.countFault
  · exact h

end Sys2Proof.Machine
end

section
/-! SUPPORT. What the operations of Machine / Home keep of memory, fuses and the queue. -/

namespace Sys2Proof.Machine
open Sys2Proof

variable {s₀ s t u : State}

theorem Keeps.setTxn {t : Txn} (h : Keeps s₀ s) : Keeps s₀ (s.setTxn t) := h

theorem Keeps.dropTxn {id : Nat} (h : Keeps s₀ s) : Keeps s₀ (s.dropTxn id) := h

theorem Keeps.d1Count {p : Nat} {f : Dbg → Dbg} (h : Keeps s₀ s) : Keeps s₀ (s.d1Count p f) := by
  unfold State.d1Count
  split
  · exact h
  · exact h

theorem Keeps.d1Trace {p : Nat} {ty status : Byte} {asid : BitVec 16} {va : Nat} {port : Byte} (h : Keeps s₀ s) :
    Keeps s₀ (s.d1Trace p ty status asid va port) := by
  unfold State.d1Trace
  split
  · dsimp only
    split
    · split
      · exact h
      · exact h
    · split
      · exact h
      · exact h
  · exact h

theorem Keeps.countRecall {n : Nat} (h : Keeps s₀ s) : Keeps s₀ (s.countRecall n) := h

theorem Keeps.countEpochLost {n : Nat} (h : Keeps s₀ s) : Keeps s₀ (s.countEpochLost n) := h

theorem Keeps.setDirEnt {pa : Nat} {e : DirEnt} (h : Keeps s₀ s) : Keeps s₀ (s.setDirEnt pa e) := by
  unfold State.setDirEnt
  dsimp only
  split
  · exact h
  · exact h

theorem Keeps.snoop1 {t : Txn} {kind : SnpKind} {pa : Nat} {reason : BitVec 4} {dst : Node ⊕ Nat} {owner : Bool} (h : Keeps s₀ s) :
    Keeps s₀ (s.snoop1 t kind pa reason dst owner).1 := by
  cases dst <;> simp only [State.snoop1]
  · split
    · exact h
    · exact h
  · split
    · exact h
    · split
      · exact h.multicast
      · exact h.multicast.setSett

theorem Keeps.snoopAll {r : Txn} {kind : SnpKind} {pa : Nat} {reason : BitVec 4} {owner : Bool} {dst : List (Node ⊕ Nat)} (h : Keeps s₀ s) :
    Keeps s₀ (s.snoopAll r kind pa reason owner dst).1 := by
  induction dst generalizing s with
  | nil => exact h
  | cons x xs ih => exact ih h.snoop1

theorem Keeps.poisonTracked {pa : Nat} {cause : Byte} (h : Keeps s₀ s) : Keeps s₀ (s.poisonTracked pa cause) := by
  unfold State.poisonTracked
  extract_lets +onlyGivenNames s1 s2
  have h1 : Keeps s₀ s1 := h.poisonLine
  have h2 : Keeps s₀ s2 := by
    unfold s2
    split
    · exact h1
    · exact h1.settPoison.poisonRecord
  exact h2.setDirEnt

theorem Keeps.deadOwner {pa : Nat} (h : Keeps s₀ s) : Keeps s₀ (s.deadOwner pa) := by
  unfold State.deadOwner
  split
  · split
    · exact h.poisonTracked
    · exact h
  · exact h

theorem Keeps.dirLost {pa : Nat} (h : Keeps s₀ s) : Keeps s₀ (s.dirLost pa) := by
  unfold State.dirLost
  extract_lets +onlyGivenNames n b s1 t s2
  have h1 : Keeps s₀ s1 := by
    unfold s1
    refine h.foldl fun s a h2 => ?_
    dsimp only
    split
    · exact h2
    · exact h2.poisonLine.poisonRecord
  have h3 : Keeps s₀ s2 := h1.setSett
  exact h3.logEvent

theorem Keeps.dirLookup {t : Txn} {pa : Nat} (h : Keeps s₀ s) : Keeps s₀ (s.dirLookup t pa) := by
  unfold State.dirLookup
  extract_lets +onlyGivenNames n s1 x s2
  have h1 : Keeps s₀ s2 := by
    unfold s2
    split
    · exact h
    · split
      · exact .dirLost h
      · exact .setDirEnt h
  exact h1.deadOwner

theorem Keeps.hostLine {t : Txn} {a : Ans} (h : Keeps s₀ s) : Keeps s₀ (s.hostLine t a) := h

theorem Keeps.engAnswer {t : Txn} {a : Ans} (h : Keeps s₀ s) : Keeps s₀ (s.engAnswer t a) := by
  unfold State.engAnswer
  dsimp only
  split
  · exact h
  · exact h

theorem Keeps.answer {t : Txn} {a : Ans} (h : Keeps s₀ s) : Keeps s₀ (s.answer t a) := by
  have sent (s1 : State) (m : Msgs) (h1 : Keeps s₀ s1) :
      Keeps s₀ (t.copies.foldl (fun s (k, g) => s.respond { t.fab with port := k, gen := g } (some t.part) m) s1) :=
    h1.foldl fun _ _ h => h.respond
  have h1 : Keeps s₀ ((s.dropTxn t.id).d1Trace t.part t.ty.code a.st.code t.asid t.va (BitVec.ofNat 8 t.stop)) := .d1Trace h
  unfold State.answer
  cases t.kind <;> dsimp only
  · split
    · split
      · exact (sent _ _ (.respond (.dedDone h1))).deadOwner
      · exact (sent _ _ (.respond h1)).deadOwner
    · split
      · exact sent _ _ (.respond (.dedDone h1))
      · exact sent _ _ (.respond h1)
  · split
    · exact h1.engAnswer.deadOwner
    · exact h1.engAnswer
  · split
    · exact h1.hostLine.deadOwner
    · exact h1.hostLine
  · split
    · exact h1.deadOwner
    · exact h1

theorem Keeps.handOff {p pa : Nat} {line : Bytes} (h : Keeps s₀ s) : Keeps s₀ (s.handOff p pa line).1 := by
  unfold State.handOff
  dsimp only
  split
  · exact h
  · exact h

theorem Keeps.counterStep {pa : Nat} {l : Bytes} (h : Keeps s₀ s) : Keeps s₀ (s.counterStep pa l).1 := by
  unfold State.counterStep
  split
  · exact h
  · split
    · dsimp only
      split
      · exact h.handOff
      · exact h
    · exact h

theorem Keeps.counterCheck {pa : Nat} (h : Keeps s₀ s) : Keeps s₀ (s.counterCheck pa) := by
  unfold State.counterCheck
  split
  · exact h
  · split
    rename_i s1 _ e
    have h1 : Keeps s₀ s1 := .of_fst e h.counterStep
    split
    · exact h1
    · exact h1.storeLine

theorem Keeps.watchLine {pa : Nat} {old new : Bytes} (h : Keeps s₀ s) : Keeps s₀ (s.watchLine pa old new) := by
  unfold State.watchLine
  split
  · exact h
  · split
    · exact h
    · exact h

theorem Keeps.watchLines {olds : List (Nat × Bytes)} (h : Keeps s₀ s) : Keeps s₀ (s.watchLines olds) := by
  unfold State.watchLines
  refine h.foldl fun s a h1 => ?_
  split
  exact h1.watchLine

theorem Keeps.writeStored {l : Leaf} {base va : Nat} {bs : Bytes} {whole pois : Bool} (h : Keeps s₀ s) :
    Keeps s₀ (s.writeStored l base va bs whole pois) := by
  unfold State.writeStored
  dsimp only
  refine h.foldl fun s a h1 => ?_
  split
  · exact h1
  · refine Keeps.storeLine ?_
    split
    · exact h1.countPoison
    · exact h1

theorem Keeps.takeData {l : Leaf} {base va : Nat} {data : Bytes} {pois fire : Bool} (h : Keeps s₀ s) :
    Keeps s₀ (s.takeData l base va data pois fire) := by
  unfold State.takeData
  extract_lets +onlyGivenNames old olds bs s1
  have h1 : Keeps s₀ s1 := .writeStored h
  refine Keeps.watchLines ?_
  split
  · exact h1.foldl fun _ _ h2 => h2.counterCheck
  · exact h1

theorem Keeps.takeLine {l : Leaf} {pa : Nat} {data : Bytes} {pois fire : Bool} (h : Keeps s₀ s) :
    Keeps s₀ (s.takeLine l pa data pois fire) := h.takeData

theorem Keeps.startHold {pa : Nat} (h : Keeps s₀ s) : Keeps s₀ (s.startHold pa) := by
  unfold State.startHold
  dsimp only
  split
  · exact h
  · exact h

theorem Keeps.dirFinish {t : Txn} {pa : Nat} (h : Keeps s₀ s) : Keeps s₀ (s.dirFinish t pa).1 := by
  unfold State.dirFinish
  extract_lets +onlyGivenNames e k n unc
  have h1 (s : State) (c : ℕ) (h1 : Keeps s₀ s) : Keeps s₀ (unc s c) := h1.foldl fun _ _ h2 => h2
  split
  · split
    · exact h
    · split
      · exact h.setDirEnt.startHold
      · split
        · exact h.setDirEnt
        · exact h
      · split
        · exact h.startHold
        · dsimp only
          exact h1 _ _ h.setDirEnt
      · exact h
  · split
    · exact h
    · exact h.setDirEnt.startHold
  · split
    · exact h
    · dsimp only
      exact h.setDirEnt.startHold
  · split
    · split
      · exact h
      · split
        · exact h1 _ _ h.setDirEnt
        · split
          · exact h.setDirEnt
          · exact h1 _ _ h.setDirEnt
    · exact h
  · exact h.setDirEnt

theorem Keeps.performWr {t : Txn} (h : Keeps s₀ s) : Keeps s₀ (s.performWr t).1 := by
  unfold State.performWr
  split
  dsimp only
  exact .writeStored h

theorem Keeps.landWr {t : Txn} (h : Keeps s₀ s) : Keeps s₀ (s.landWr t).1 := by
  unfold State.landWr
  dsimp only
  exact (h.performWr.foldl fun _ _ h1 => h1.counterCheck).watchLines

theorem Keeps.perform {t : Txn} (h : Keeps s₀ s) : Keeps s₀ (s.perform t) := by
  unfold State.perform
  dsimp only
  split
  · refine Keeps.answer ?_
    split
    · exact h.dirFinish
    · exact h
  · split
    · refine Keeps.answer ?_
      refine Keeps.watchLine ?_
      refine Keeps.counterCheck ?_
      split
      · split
        · exact h.dirFinish
        · exact h.dirFinish.storeLine
      · split
        · exact h
        · exact h.storeLine
    · refine Keeps.answer ?_
      refine Keeps.counterCheck ?_
      split
      · split
        · refine Keeps.poisonRecord ?_
          split
          · exact h.dirFinish
          · exact h.dirFinish.storeLine
        · split
          · exact h.dirFinish
          · exact h.dirFinish.storeLine
      · split
        · refine Keeps.poisonRecord ?_
          split
          · exact h
          · exact h.storeLine
        · split
          · exact h
          · exact h.storeLine
    · refine Keeps.answer ?_
      refine Keeps.landWr ?_
      split
      · exact h.dirFinish
      · exact h

theorem Keeps.lineNoise {pa : Nat} {err : BitVec 80} (h : Keeps s₀ s) : Keeps s₀ (s.lineNoise pa err) := by
  have free : Keeps s₀ { s with free := s.free + 1 } := h
  have scr {off : Nat} {w v : LineVal} {oc : SCheck} :
      Keeps s₀ (if w = v ∨ oc = .uncorrectable then s else ({ s with free := s.free + 1 } : State).scrStore off w) := by
    split
    · exact h
    · exact free.scrStore
  unfold State.lineNoise
  split
  · exact h
  · split
    · exact h
    · dsimp only
      split
      · exact scr
      · split
        · exact scr.countCeSram
        · exact scr
      · exact .logEvent (.poisonRecord (.scrStore scr))
    · split
      · exact h
      · dsimp only
        have put {n : Nat} {x : Sett} {p : Prop} {_ : Decidable p} :
            Keeps s₀ (if p then s else ({ s with free := s.free + 1 } : State).setSett n x) := by split <;> exact h
        split
        · exact put
        · split
          · exact put
          · split
            · split
              · exact put.countCeSram
              · exact put
            · exact put
        · split
          · exact .logEvent (.poisonRecord put)
          · exact .logEvent put

theorem Keeps.touchLines {t : Txn} (h : Keeps s₀ s) : Keeps s₀ (s.touchLines t) := by
  unfold State.touchLines
  refine h.foldl fun s a h1 => ?_
  split
  · exact h1
  · split
    · exact h1
    · dsimp only
      split
      · exact .install h1
      · exact h1

theorem Keeps.pushRead {id pa : Nat} (h : Keeps s₀ s) : Keeps s₀ (s.pushRead id pa) := by
  unfold State.pushRead
  split
  · exact h
  · exact h

theorem Keeps.toMemory {t : Txn} (h : Keeps s₀ s) : Keeps s₀ (s.toMemory t) := by
  unfold State.toMemory
  extract_lets +onlyGivenNames pa n s1 x s2
  have h1 : Keeps s₀ s1 := by
    unfold s1
    split
    · exact h.pushWrite
    · exact h
  have h2 : Keeps s₀ s2 := h1.setSett
  split
  · exact h2
  · extract_lets +onlyGivenNames ch c op s3
    have h3 : Keeps s₀ s3 := h2.setChan
    exact h3.setTxn

theorem Keeps.dataStage {t : Txn} (h : Keeps s₀ s) : Keeps s₀ (s.dataStage t) := by
  unfold State.dataStage
  dsimp only
  split
  · exact .answer h
  · split
    · exact .toMemory h
    · split
      · exact .perform (.touchLines (.lineNoise h))
      · exact .setTxn (.foldl (.touchLines (.lineNoise h)) fun _ _ h1 => h1.pushRead)

theorem Keeps.pubAnswer {t : Txn} {st : Status} {ver : Option W32} (h : Keeps s₀ s) : Keeps s₀ (s.pubAnswer t st ver) := by
  unfold State.pubAnswer
  refine Keeps.answer ?_
  split
  · exact h.countFault
  · exact h

theorem Keeps.completePoisoned {t : Txn} (h : Keeps s₀ s) : Keeps s₀ (s.completePoisoned t) := by
  unfold State.completePoisoned
  split
  · split
    exact h.answer
  · split
    exact h.answer
  · split
    exact h.answer
  · split
    rename_i s1 _ e
    have h1 : Keeps s₀ s1 := .of_fst e h.landWr
    exact h1.answer
  · split
    rename_i s1 _ e
    have h2 : Keeps s₀ s1 := .of_fst e h.landWr
    exact h2.answer
  · exact h.pubAnswer
  · exact h.answer

theorem Keeps.closeSnoop {tag : BitVec 16} (h : Keeps s₀ s) : Keeps s₀ (s.closeSnoop tag) := h

theorem Keeps.park {t : Txn} (h : Keeps s₀ s) : Keeps s₀ (s.park t) := by
  unfold State.park
  split
  · exact h
  · split
    · exact h
    · dsimp only
      split
      · exact .d1Count h
      · exact h

theorem Keeps.tookTurn {t : Txn} {lines : List Nat} (h : Keeps s₀ s) : Keeps s₀ (s.tookTurn t lines) := by
  unfold State.tookTurn
  dsimp only
  split
  · exact h
  · exact h

theorem Keeps.handHeld {pa : Nat} (h : Keeps s₀ s) : Keeps s₀ (s.handHeld pa) := by
  unfold State.handHeld
  split
  · exact h
  · dsimp only
    split
    · split
      · exact h
      · split
        · exact .storeLine h
        · exact .storeLine (.handOff h)
    · exact h

theorem Keeps.clearDraining {pa : Nat} (h : Keeps s₀ s) : Keeps s₀ (s.clearDraining pa) := by
  unfold State.clearDraining
  split
  · exact h.storeLine
  · exact h

theorem Keeps.timeoutSnoop {tag : BitVec 16} {death : Bool} {c : Nat} (h : Keeps s₀ s) : Keeps s₀ (s.timeoutSnoop tag death c) := by
  unfold State.timeoutSnoop
  dsimp only
  split
  · exact h
  · split
    · refine Keeps.poisonTracked ?_
      refine .foldl h fun s a h1 => ?_
      split
      · split
        · exact .d1Count h1
        · exact h1
      · exact h1
    · split
      · refine Keeps.completePoisoned ?_
        refine Keeps.poisonTracked ?_
        refine .foldl h fun s a h2 => ?_
        split
        · split
          · exact .d1Count h2
          · exact h2
        · exact h2
      · refine Keeps.poisonTracked ?_
        refine .foldl h fun s a h3 => ?_
        split
        · split
          · exact .d1Count h3
          · exact h3
        · exact h3

theorem Keeps.recallLine {id line : Nat} (h : Keeps s₀ s) : Keeps s₀ (s.recallLine id line) := by
  unfold State.recallLine
  split
  · split
    · exact h
    · exact h.setDirEnt
  · exact h

theorem Keeps.unanswered {die : State → Node → State} {tags : List (BitVec 16)}
    (h : Keeps s₀ s) (hdie : ∀ s x1, Keeps s₀ s → Keeps s₀ (die s x1)) :
    Keeps s₀ (s.unanswered die tags) := by
  unfold State.unanswered
  extract_lets +onlyGivenNames snp xs s1
  have h1 : Keeps s₀ s1 := h.foldl fun _ _ h2 => h2.timeoutSnoop.recallLine
  exact h1.foldl hdie

theorem Keeps.startDrain {region : Bool} {target init queue : Nat} (h : Keeps s₀ s) : Keeps s₀ (s.startDrain region target init queue) := h

theorem Keeps.publishFlip {t : Txn} {da : Nat} {d : Bytes} {pa : Nat} (h : Keeps s₀ s) : Keeps s₀ (s.publishFlip t da d pa) := by
  unfold State.publishFlip
  extract_lets +onlyGivenNames nd s1 s2 note s3
  have h1 : Keeps s₀ s1 := h.storeLine
  have h2 : Keeps s₀ s2 := h1.answer
  have h3 : Keeps s₀ s3 := by
    unfold s3
    split
    · exact h2.multicast
    · exact h2
  exact h3.startDrain

theorem Keeps.reserveSharer {pa : Nat} {o : Node} (h : Keeps s₀ s) : Keeps s₀ (s.reserveSharer pa o) := by
  unfold State.reserveSharer
  split
  · exact h
  · exact h.setDirEnt

theorem Keeps.reserveOwner {kind : SnpKind} {pa : Nat} {dst : List (Node ⊕ Nat)} (h : Keeps s₀ s) :
    Keeps s₀ (s.reserveOwner kind pa dst) := by
  unfold State.reserveOwner
  split
  · exact h.reserveSharer
  · exact h

theorem Keeps.recordThen {t : Txn} (h : Keeps s₀ s) : Keeps s₀ (s.recordThen t) := by
  unfold State.recordThen
  dsimp only
  split
  · exact h
  · split
    · split
      · rename_i s1 e
        have h1 : Keeps s₀ s1 := .of_fst e h.landWr
        exact h1.qWriteBack
      · rename_i s1 _ _ e
        have h1 : Keeps s₀ s1 := .of_fst e h.landWr
        exact h1.queueError
    · exact h.queueError

theorem Keeps.setFire {pa : Nat} {st : Byte} (h : Keeps s₀ s) : Keeps s₀ (s.setFire pa st) := by
  unfold State.setFire
  split
  · split
    · exact h.storeLine
    · exact h
  · exact h

theorem Keeps.devThen {t : Txn} (h : Keeps s₀ s) : Keeps s₀ (s.devThen t) := by
  unfold State.devThen
  dsimp only
  refine Keeps.deadOwner ?_
  split
  · exact .handHeld h
  · split
    · exact .clearDraining h
    · split
      · exact .recordThen h
      · split
        · split
          · exact .counterCheck h
          · exact h
        · split
          · exact .setFire h
          · exact h

theorem Keeps.devServe {k : State → Txn → State} {die : State → Node → State} {t : Txn}
    (h : Keeps s₀ s) (hk : ∀ s x1, Keeps s₀ s → Keeps s₀ (k s x1)) (hdie : ∀ s x1, Keeps s₀ s → Keeps s₀ (die s x1)) :
    Keeps s₀ (s.devServe k die t) := by
  unfold State.devServe
  extract_lets +onlyGivenNames pa n done
  have h1 (s : State) (t : Txn) (h1 : Keeps s₀ s) : Keeps s₀ (done s t) := hk _ _ h1.dirFinish
  split
  · exact hk _ _ h
  · split
    · exact h.park
    · extract_lets +onlyGivenNames s
      have h2 : Keeps s₀ s := .dirLookup (.tookTurn h)
      split
      · exact h1 _ _ h2
      · split
        · exact h2.park
        · dsimp only
          split
          · exact h2.reserveOwner.setTxn.snoopAll.unanswered hdie
          · split
            · exact h1 _ _ (h2.reserveOwner.setTxn.snoopAll.unanswered hdie)
            · exact h2.reserveOwner.setTxn.snoopAll.unanswered hdie

theorem Keeps.writeRecordWith {die : State → Node → State} {q : Nat} {e : EndRec} {d : Desc} {engine ctr : Byte}
    (h : Keeps s₀ s) (hdie : ∀ s x1, Keeps s₀ s → Keeps s₀ (die s x1)) :
    Keeps s₀ (s.writeRecordWith die q e d engine ctr) := by
  unfold State.writeRecordWith
  dsimp only
  split
  · exact h
  · split
    · exact h
    · split
      · exact h.schedFault.queueError
      · split
        · exact .devServe h (fun _ _ h1 => h1.devThen) hdie
        · exact .recordThen h

theorem Keeps.endStartedWith {die : State → Node → State} {q : Nat} {e : EndRec} {d : Desc} {engine ctr : Byte}
    (h : Keeps s₀ s) (hdie : ∀ s x1, Keeps s₀ s → Keeps s₀ (die s x1)) :
    Keeps s₀ (s.endStartedWith die q e d engine ctr) := by
  unfold State.endStartedWith
  extract_lets +onlyGivenNames s1 x
  have h1 : Keeps s₀ s1 := h.writeRecordWith hdie
  exact h1.setQueue

theorem Keeps.addOne {t : Txn} (h : Keeps s₀ s) : Keeps s₀ (s.addOne t).1 := by
  unfold State.addOne
  dsimp only
  split
  · refine Keeps.watchLine ?_
    refine Keeps.counterCheck ?_
    split
    · exact h
    · exact h.storeLine
  · exact h
  · exact h

theorem Keeps.devThenWith {die : State → Node → State} {t : Txn} (h : Keeps s₀ s) (hdie : ∀ s x1, Keeps s₀ s → Keeps s₀ (die s x1)) :
    Keeps s₀ (s.devThenWith die t) := by
  unfold State.devThenWith
  split
  · split
    rename_i s1 _ e
    have h1 : Keeps s₀ s1 := .of_fst e (.addOne h)
    dsimp only
    split
    · exact h1
    · exact .endStartedWith h1 hdie
  · exact h.devThen

theorem Keeps.finishDescWith {die : State → Node → State} {q : Nat} {e : EndRec} {d : Desc} {engine : Byte}
    (h : Keeps s₀ s) (hdie : ∀ s x1, Keeps s₀ s → Keeps s₀ (die s x1)) :
    Keeps s₀ (s.finishDescWith die q e d engine) := by
  unfold State.finishDescWith
  extract_lets +onlyGivenNames none_ x
  have h1 (s : State) (st : Status) (h1 : Keeps s₀ s) : Keeps s₀ (none_ s st) := h1.endStartedWith hdie
  split
  · dsimp only
    split
    · exact h1 _ _ h
    · split
      · exact h1 _ _ h.schedFault
      · split
        · exact .devServe h (fun _ _ h2 => h2.devThenWith hdie) hdie
        · exact h1 _ _ h.addOne
  · exact h1 _ _ h

theorem Keeps.devAccessWith {die : State → Node → State} {pa : Nat} {change : Bool} {cont : BitVec 24}
    (h : Keeps s₀ s) (hdie : ∀ s x1, Keeps s₀ s → Keeps s₀ (die s x1)) :
    Keeps s₀ (s.devAccessWith die pa change cont) := by
  unfold State.devAccessWith
  split
  · exact h
  · dsimp only
    exact .devServe h (fun _ _ h1 => h1.devThen) hdie

theorem Keeps.servePublish {die : State → Node → State} {t : Txn} (h : Keeps s₀ s) (hdie : ∀ s x1, Keeps s₀ s → Keeps s₀ (die s x1)) :
    Keeps s₀ (s.servePublish die t) := by
  unfold State.servePublish
  split
  · exact h.answer
  · extract_lets +onlyGivenNames early n k s1 src t1 e free
    have h1 : Keeps s₀ s1 := .dirLookup h.setTxn
    clear_value s1 t1 e
    split
    · split
      · exact h1.pubAnswer
      · split
        · exact h1.pubAnswer
        · exact h1.park.devAccessWith hdie
    · extract_lets +onlyGivenNames v pa st ver clear change
      have hclear (x : State) (hx : Keeps s₀ x) : Keeps s₀ (clear x) := by
        unfold clear
        split
        · exact hx.setDirEnt
        · exact hx
      have hchange (x : State) (hx : Keeps s₀ x) : Keeps s₀ (change x) := by
        unfold change
        split
        · exact (hclear x hx).publishFlip
        · exact (hclear x hx).storeLine.pubAnswer
      clear_value v st clear change
      split
      · exact h1.pubAnswer
      · split
        · exact h1.pubAnswer
        · split
          · extract_lets +onlyGivenNames hs
            split
            · exact hchange s1 h1
            · split
              · exact h1.pubAnswer
              · split
                · exact h1.park
                · extract_lets +onlyGivenNames t2
                  split
                  rename_i s2 _ hsnp
                  have h2 : Keeps s₀ s2 := .of_fst hsnp h1.setTxn.snoopAll
                  split
                  · exact hchange s2 h2
                  · exact h2.unanswered hdie
          · exact h1.pubAnswer

theorem Keeps.afterSnoops {die : State → Node → State} {t : Txn} (h : Keeps s₀ s) (hdie : ∀ s x1, Keeps s₀ s → Keeps s₀ (die s x1)) :
    Keeps s₀ (s.afterSnoops die t) := by
  unfold State.afterSnoops
  split
  · exact h.setDirEnt.servePublish hdie
  · exact h.dataStage

theorem Keeps.recallEntry {r : Txn} {n b : Nat} (h : Keeps s₀ s) : Keeps s₀ (s.recallEntry r n b).1 := by
  unfold State.recallEntry
  extract_lets s0 v
  have h1 : Keeps s₀ s0 := h.countRecall.foldl fun _ _ h => h.deadOwner
  clear_value s0 v
  refine Keeps.foldl_fst (x := (s0, [])) h1 fun (acc : State × List (BitVec 16)) k (h2 : Keeps s₀ acc.1) => ?_
  dsimp only
  split
  · exact h2.snoopAll
  · exact h2.snoopAll.recallLine

theorem Keeps.trackedStage {die : State → Node → State} {t : Txn} (h : Keeps s₀ s) (hdie : ∀ s x1, Keeps s₀ s → Keeps s₀ (die s x1)) :
    Keeps s₀ (s.trackedStage die t) := by
  unfold State.trackedStage
  extract_lets +onlyGivenNames pa n s1 src t1 e space
  have h1 : Keeps s₀ s1 := h.dirLookup
  clear_value s1 t1 e space
  split
  · exact h1.park
  · extract_lets +onlyGivenNames v
    split
    · exact h1.answer
    · split
      · exact h1.park
      · split
        rename_i s2 _ hrec
        have hfree : Keeps s₀ { s1 with free := s1.free + 1 } := h1
        have h2 : Keeps s₀ s2 := .of_fst hrec hfree.setTxn.recallEntry
        extract_lets +onlyGivenNames s3
        have h3 : Keeps s₀ s3 := h2.unanswered hdie
        clear_value s3
        split
        · exact h3
        · split
          · exact h3.dataStage
          · exact h3
  · extract_lets +onlyGivenNames t2
    split
    · exact h1.dataStage
    · split
      · exact h1.answer
      · split
        · exact h1.park
        · extract_lets +onlyGivenNames t3
          split
          rename_i s2 _ hsnp
          have h2 : Keeps s₀ s2 := .of_fst hsnp (.snoopAll (.setTxn h1.reserveOwner))
          extract_lets +onlyGivenNames s3
          have h3 : Keeps s₀ s3 := h2.unanswered hdie
          clear_value s3
          split
          · exact h3
          · split
            · exact h3.afterSnoops hdie
            · exact h3

theorem Keeps.serveWb {t : Txn} (h : Keeps s₀ s) : Keeps s₀ (s.serveWb t) := by
  unfold State.serveWb
  dsimp only
  split
  · exact h.answer
  · split
    · exact h.dataStage
    · exact h.answer
  · split
    · exact h.dirLookup.countEpochLost.answer
    · split
      · split
        · split
          · exact h.dirLookup.setDirEnt.takeData.answer
          · exact h.dirLookup.setDirEnt.answer
        · exact h.dirLookup.answer
      · refine Keeps.answer ?_
        split
        · exact h.dirLookup.setDirEnt
        · exact h.dirLookup
      · exact h.dirLookup.answer

theorem Keeps.serveOne {die : State → Node → State} {t : Txn} (h : Keeps s₀ s) (hdie : ∀ s x1, Keeps s₀ s → Keeps s₀ (die s x1)) :
    Keeps s₀ (s.serveOne die t) := by
  unfold State.serveOne
  split
  · split
    · dsimp only
      split
      · exact .park h
      · exact .servePublish (.tookTurn h) hdie
    · exact .servePublish h hdie
  · extract_lets +onlyGivenNames lines t s adm raw at_ xl st s
    have h1 : Keeps s₀ s := by
      unfold s
      split
      · exact h
      · exact .countFault h
    have h2 : Keeps s₀ s := by
      unfold s
      split
      · exact h
      · exact .countFault h
    split
    · split
      · exact h2.answer
      · exact h2.serveWb
    · split
      · exact h2.answer
      · split
        · exact h2.serveWb
        · split
          · exact h2.park
          · split
            · extract_lets +onlyGivenNames s1
              have h3 : Keeps s₀ s1 := by
                unfold s1
                split
                · exact h2.d1Count
                · exact h2
              exact h3.park
            · extract_lets +onlyGivenNames s
              have h4 : Keeps s₀ s := h2.tookTurn
              split
              · split
                · exact h4.park
                · exact h4.countVicfull.park
              · exact h4.park
              · split
                · exact h4.trackedStage hdie
                · exact h4.dataStage

theorem Keeps.tryParked {die : State → Node → State} {t : Txn} (h : Keeps s₀ s) (hdie : ∀ s x1, Keeps s₀ s → Keeps s₀ (die s x1)) :
    Keeps s₀ (s.tryParked die t) := by
  unfold State.tryParked
  split
  · exact h
  · split
    · exact h
    · split
      · exact h.devServe (fun _ _ h1 => h1.devThenWith hdie) hdie
      · exact h.serveOne hdie
      · split
        · exact h.serveOne hdie
        · split
          · exact h.serveOne hdie
          · exact h

theorem Keeps.serveWith {die : State → Node → State} {t : Txn} (h : Keeps s₀ s) (hdie : ∀ s x1, Keeps s₀ s → Keeps s₀ (die s x1)) :
    Keeps s₀ (s.serveWith die t) := by
  unfold State.serveWith
  split
  · exact h.serveOne hdie
  · exact .serveOne (.foldl h fun _ _ h1 => h1.tryParked hdie) hdie

theorem Keeps.snoopsDoneWith {die : State → Node → State} {n id : Nat} (h : Keeps s₀ s) (hdie : ∀ s x1, Keeps s₀ s → Keeps s₀ (die s x1)) :
    Keeps s₀ (s.snoopsDoneWith die n id) := by
  unfold State.snoopsDoneWith
  split
  · exact h
  · split
    · exact h
    · split
      · split
        · exact h.dirFinish.devThenWith hdie
        · exact h.afterSnoops hdie
      · split
        · exact h
        · split
          · exact h.dataStage
          · exact h

theorem Keeps.snoopAnswerWith {die : State → Node → State} {tag : BitVec 16} {src : Node} {data : Option (Bytes × Bool)}
    (h : Keeps s₀ s) (hdie : ∀ s x1, Keeps s₀ s → Keeps s₀ (die s x1)) :
    Keeps s₀ (s.snoopAnswerWith die tag src data) := by
  unfold State.snoopAnswerWith
  dsimp only
  split
  · exact h
  · split
    · split
      · split
        · exact .devAccessWith (.snoopsDoneWith (.recallLine h) hdie) hdie
        · exact .snoopsDoneWith (.recallLine h) hdie
      · split
        · split
          · split
            · exact .devAccessWith (.snoopsDoneWith (.recallLine h) hdie) hdie
            · exact .snoopsDoneWith (.recallLine h) hdie
          · split
            · exact (h.takeLine.closeSnoop.recallLine.snoopsDoneWith hdie).devAccessWith hdie
            · exact h.takeLine.closeSnoop.recallLine.snoopsDoneWith hdie
        · split
          · exact (h.takeLine.closeSnoop.recallLine.snoopsDoneWith hdie).devAccessWith hdie
          · exact h.takeLine.closeSnoop.recallLine.snoopsDoneWith hdie
    · refine Keeps.setSett ?_
      split
      · exact h
      · split
        · split
          · exact h
          · exact h.takeLine
        · exact h.takeLine

theorem Keeps.deathAt {die : State → Node → State} {d : Node} {n : Nat} (h : Keeps s₀ s) (hdie : ∀ s x1, Keeps s₀ s → Keeps s₀ (die s x1)) :
    Keeps s₀ (s.deathAt die d n) := by
  unfold State.deathAt
  dsimp only
  refine .foldl h fun s a h1 => ?_
  split
  · exact h1.timeoutSnoop.recallLine.snoopsDoneWith hdie
  · exact h1.snoopAnswerWith hdie

theorem Keeps.deathFuel {f : Nat} {d : Node} (h : Keeps s₀ s) : Keeps s₀ (State.deathFuel f s d) := by
  induction f generalizing s d with
  | zero => exact h
  | succ f ih =>
    unfold State.deathFuel
    split
    · exact h
    · exact h.setNode.foldl fun _ _ h => h.deathAt fun _ _ h => ih h

theorem Keeps.death {d : Node} (h : Keeps s₀ s) : Keeps s₀ (s.death d) := h.deathFuel

theorem Keeps.devAccess {pa : Nat} {change : Bool} {cont : BitVec 24} (h : Keeps s₀ s) :
    Keeps s₀ (s.devAccess pa change cont) := h.devAccessWith fun _ _ h1 => h1.death

theorem Keeps.writeRecord {q : Nat} {e : EndRec} {d : Desc} {engine ctr : Byte} (h : Keeps s₀ s) :
    Keeps s₀ (s.writeRecord q e d engine ctr) := h.writeRecordWith fun _ _ h1 => h1.death

theorem Keeps.endStarted {q : Nat} {e : EndRec} {d : Desc} {engine ctr : Byte} (h : Keeps s₀ s) :
    Keeps s₀ (s.endStarted q e d engine ctr) := h.endStartedWith fun _ _ h1 => h1.death

theorem Keeps.finishDesc {q : Nat} {e : EndRec} {d : Desc} {engine : Byte} (h : Keeps s₀ s) :
    Keeps s₀ (s.finishDesc q e d engine) := h.finishDescWith fun _ _ h1 => h1.death

theorem Keeps.schedTimeout {t : Txn} (h : Keeps s₀ s) : Keeps s₀ (s.schedTimeout t) := by
  unfold State.schedTimeout
  dsimp only
  split
  · split
    · exact h
    · exact .endStarted h
  · exact .queueError h

theorem Keeps.flushRecords (h : Keeps s₀ s) : Keeps s₀ s.flushRecords := by
  unfold State.flushRecords
  extract_lets +onlyGivenNames now
  have h1 (a : BitVec 24) (s : State) (h1 : Keeps s₀ s) : Keeps s₀ (now a s) := h1.foldl fun _ _ h2 => h2.devThenWith fun _ _ h3 => h3.death
  exact h1 _ _ (h1 _ _ h)

theorem Keeps.serve {t : Txn} (h : Keeps s₀ s) : Keeps s₀ (s.serve t) := h.serveWith fun _ _ h1 => h1.death

theorem Keeps.snoopsDone {n id : Nat} (h : Keeps s₀ s) : Keeps s₀ (s.snoopsDone n id) := h.snoopsDoneWith fun _ _ h1 => h1.death

theorem Keeps.snoopAnswer {tag : BitVec 16} {src : Node} {data : Option (Bytes × Bool)} (h : Keeps s₀ s) :
    Keeps s₀ (s.snoopAnswer tag src data) := h.snoopAnswerWith fun _ _ h1 => h1.death

theorem Keeps.translate {t : Txn} (h : Keeps s₀ s) : Keeps s₀ (s.translate t) := by
  unfold State.translate
  split
  · exact h.tcInstall.serve
  · dsimp only
    split
    · exact h
    · exact h

theorem Keeps.take {t : Txn} (h : Keeps s₀ s) : Keeps s₀ (s.take t) := by
  unfold State.take
  split
  · exact h.translate
  · exact h.serve

theorem Keeps.admitRing {n : Nat} (h : Keeps s₀ s) : Keeps s₀ (s.admitRing n) := by
  unfold State.admitRing
  refine h.foldl fun s a h1 => ?_
  split
  · exact h1
  · dsimp only
    split
    · exact h1
    · split
      · exact .devServe h1 (fun _ _ h2 => h2.devThenWith fun _ _ h3 => h3.death) fun _ _ h4 => h4.death
      · exact .take h1

theorem Keeps.request {t : Txn} (h : Keeps s₀ s) : Keeps s₀ (s.request t) := by
  unfold State.request
  extract_lets +onlyGivenNames n wbk t1 s1
  have h1 : Keeps s₀ s1 := .admitRing (.d1Count h)
  split
  · exact h1.take
  · exact h1

theorem Keeps.failTranslation {t : Txn} {st : Status} (h : Keeps s₀ s) : Keeps s₀ (s.failTranslation t st) := by
  unfold State.failTranslation
  extract_lets +onlyGivenNames s1 st0 st1
  have h1 : Keeps s₀ s1 := h.countFault
  split
  · exact h1.serve
  · exact h1.answer

theorem Keeps.retry {id : Nat} (h : Keeps s₀ s) : Keeps s₀ (s.retry id) := by
  unfold State.retry
  split
  · exact h
  · split
    · exact h
    · split
      · exact h.devServe (fun _ _ h1 => h1.devThenWith fun _ _ h2 => h2.death) fun _ _ h3 => h3.death
      · exact h.serve
      · exact h.take

end Sys2Proof.Machine
end

section
/-! SUPPORT. What the operations of Machine / Ledger keep of memory, fuses and the queue. -/

namespace Sys2Proof.Machine
open Sys2Proof

variable {s₀ s t u : State}

theorem Keeps.ledgerAdd {ty : BitVec 16} {body : Bytes} (h : Keeps s₀ s) : Keeps s₀ (s.ledgerAdd ty body) := by
  unfold State.ledgerAdd
  extract_lets +onlyGivenNames low f s1 b
  have full : Keeps s₀ { s with flash := { s.flash with ledFull := true } } := h
  have h1 : Keeps s₀ s1 := by
    unfold s1
    split
    · exact full.logPlain
    · exact h
  clear_value s1
  split
  · exact h1
  · exact h1.to rfl

end Sys2Proof.Machine
end

section
/-! SUPPORT. What the operations of Machine / Traffic keep of memory, fuses and the queue. -/

namespace Sys2Proof.Machine
open Sys2Proof

variable {s₀ s t u : State}

theorem Keeps.police {p k b arr : Nat} {resend : Bool} (h : Keeps s₀ s) : Keeps s₀ (s.police p k b arr resend).2 := by
  unfold State.police
  split
  · exact h
  · dsimp only
    exact h

theorem Keeps.refillOne {p k : Nat} (h : Keeps s₀ s) : Keeps s₀ (s.refillOne p k) := by
  unfold State.refillOne
  dsimp only
  exact h

theorem Keeps.eachPq {f : State → Nat → Nat → State} (h : Keeps s₀ s) (hf : ∀ s x1 x2, Keeps s₀ s → Keeps s₀ (f s x1 x2)) :
    Keeps s₀ (s.eachPq f) := h.foldl fun _ _ h1 => h1.foldl fun _ _ h2 => hf _ _ _ h2

theorem Keeps.fillBuckets {p k : Nat} (h : Keeps s₀ s) : Keeps s₀ (s.fillBuckets p k) := by
  unfold State.fillBuckets
  dsimp only
  exact h

theorem Keeps.loadPq {p k : Nat} (h : Keeps s₀ s) : Keeps s₀ (s.loadPq p k) := by
  unfold State.loadPq
  dsimp only
  exact .fillBuckets h

theorem Keeps.paceData {k : Nat} {e : EgMsg} {n : Nat} (h : Keeps s₀ s) : Keeps s₀ (s.paceData k e n) := by
  unfold State.paceData
  split
  · exact h
  · exact h

theorem Keeps.giveQuanta {k w : Nat} {visits : List (Nat × Nat)} (h : Keeps s₀ s) : Keeps s₀ (s.giveQuanta k w visits) := by
  unfold State.giveQuanta
  extract_lets +onlyGivenNames s1
  have h1 : Keeps s₀ s1 := by
    unfold s1
    refine h.foldl fun s a h2 => ?_
    split
    split
    · exact h2
    · exact h2
  refine Keeps.to ?_ rfl
  refine h.foldl fun s a h3 => ?_
  split
  split
  · exact h3
  · exact h3

theorem Keeps.egressDepart {k p : Nat} (h : Keeps s₀ s) : Keeps s₀ (s.egressDepart k p) := by
  unfold State.egressDepart
  dsimp only
  split
  · exact h
  · split
    · exact h
    · split
      · exact h
      · split
        · split
          · exact h
          · exact h
        · split
          · exact h
          · split
            · exact h
            · split
              · exact h.giveQuanta.setPqos.setHport.paceData
              · exact h.giveQuanta.setPqos.setPort

theorem Keeps.qosApply {p k : Nat} (h : Keeps s₀ s) : Keeps s₀ (s.qosApply p k) := by
  unfold State.qosApply
  dsimp only
  split
  · exact h
  · exact h

end Sys2Proof.Machine
end

section
/-! SUPPORT. What the operations of Machine / Dram keep of memory, fuses and the queue. -/

namespace Sys2Proof.Machine
open Sys2Proof

variable {s₀ s t u : State}

theorem Keeps.countCorrected {loc : Nat} {pa : Option Nat} {e : List (Nat × Nat)} {dev : Option Nat} (h : Keeps s₀ s) :
    Keeps s₀ (s.countCorrected loc pa e dev) := by
  unfold State.countCorrected
  dsimp only
  split
  · exact h
  · split
    · exact h
    · exact h

theorem Keeps.dramLost {loc pa : Nat} {e : List (Nat × Nat)} {cause : Byte} (h : Keeps s₀ s) : Keeps s₀ (s.dramLost loc pa e cause).1 := by
  unfold State.dramLost
  dsimp only
  exact h.dramStore.poisonRecord.logEvent

theorem Keeps.dramRead {loc pa : Nat} {errs : List (Nat × Byte)} {cause : Byte} (h : Keeps s₀ s) :
    Keeps s₀ (s.dramRead loc pa errs cause).1 := by
  unfold State.dramRead
  dsimp only
  split
  · exact h.dramLost
  · split
    · exact h.countCorrected
    · exact h

theorem Keeps.readDone {id : Nat} {errs : List (Nat × Byte)} (h : Keeps s₀ s) : Keeps s₀ (s.readDone id errs) := by
  unfold State.readDone
  split
  · exact h
  · split
    · exact h
    · split
      · exact h
      · split
        · exact .answer h
        · extract_lets +onlyGivenNames _ s1 s2
          have h1 : Keeps s₀ s2 := by
            unfold s2
            split
            · exact h
            · split
              · exact .install h
              · split
                rename_i s2 _ e
                have h2 : Keeps s₀ s2 := .of_fst e (.dramRead h)
                exact h2.install
          split
          · exact h1.perform
          · exact h1

theorem Keeps.withdraw {id : Nat} (h : Keeps s₀ s) : Keeps s₀ (s.withdraw id) := h

theorem Keeps.wakeSett {n : Nat} (h : Keeps s₀ s) : Keeps s₀ (s.wakeSett n) := by
  unfold State.wakeSett
  extract_lets +onlyGivenNames s1
  have h1 : Keeps s₀ s1 := h.installWaiting
  exact h1.foldl fun _ _ h2 => h2.retry

theorem Keeps.victimQueued {n i : Nat} (h : Keeps s₀ s) : Keeps s₀ (s.victimQueued n i) := by
  unfold State.victimQueued
  dsimp only
  split
  · exact h
  · split
    · exact h
    · split
      · exact h
      · split
        · exact .wakeSett h.setSett
        · split
          · exact h
          · exact .wakeSett (.to h.pushWrite rfl)

theorem Keeps.writePerformed {ch sub i : Nat} (h : Keeps s₀ s) : Keeps s₀ (s.writePerformed ch sub i) := by
  unfold State.writePerformed
  dsimp only
  split
  · exact h
  · split
    · exact h
    · exact h.performWrite.setChan

theorem Keeps.drainWrites {ch sub n : Nat} (h : Keeps s₀ s) : Keeps s₀ (s.drainWrites ch sub n) := by
  induction n generalizing s with
  | zero => exact h
  | succ n ih =>
    unfold State.drainWrites
    split
    · exact h
    · exact ih h.performWrite

theorem Keeps.rmwOp {pa : Nat} {v : LineVal} {id : Nat} (h : Keeps s₀ s) : Keeps s₀ (s.rmwOp pa v id).1 := by
  unfold State.rmwOp
  split
  · exact h
  · split
    · split
      split
      rename_i s1 _ e
      have h1 : Keeps s₀ s1 := .of_fst e h.counterStep
      exact h1.watchLine.answer
    · split
      extract_lets +onlyGivenNames s1
      have h2 : Keeps s₀ s1 := by
        unfold s1
        split
        · exact h.poisonRecord
        · exact h
      split
      rename_i s1 _ e
      have h3 : Keeps s₀ s1 := .of_fst e h2.counterStep
      exact h3.answer

theorem Keeps.rmwRun {line : Nat} {errs : List (Nat × Byte)} (h : Keeps s₀ s) : Keeps s₀ (s.rmwRun line errs) := by
  unfold State.rmwRun
  extract_lets +onlyGivenNames pa
  split
  · exact h
  · extract_lets +onlyGivenNames ch c ops
    split
    · exact h
    · extract_lets +onlyGivenNames s1 all
      have h1 : Keeps s₀ s1 := h
      have hall (x : State) (st : Status) (hx : Keeps s₀ x) : Keeps s₀ (all x st) := by
        refine hx.foldl fun s o hs => ?_
        split
        · exact hs
        · exact hs.answer
      clear_value s1 all
      split
      · exact hall _ _ h1
      · split
        rename_i s2 v e
        have h2 : Keeps s₀ s2 := by
          refine .of_fst e ?_
          split
          · exact h1
          · exact h1.setChan.dramRead
        clear e
        split
        · exact hall _ _ h2
        · have h3 := Keeps.foldl_fst (x := (s2, v)) (f := fun a o => a.1.rmwOp pa a.2 o.txn) (l := ops) h2 fun _ _ hx => hx.rmwOp
          split
          rename_i s3 v3 e
          exact (Keeps.of_fst e h3).pushWrite

theorem Keeps.rmwBatch {line : Nat} {errs : List (Nat × Byte)} (h : Keeps s₀ s) : Keeps s₀ (s.rmwBatch line errs) := by
  unfold State.rmwBatch
  split
  · exact h
  · split
    · exact h
    · exact h.rmwRun

theorem Keeps.bankIdle {ch sub rank bank : Nat} (h : Keeps s₀ s) : Keeps s₀ (s.bankIdle ch sub rank bank) := by
  unfold State.bankIdle
  dsimp only
  split
  · split
    · exact h
    · exact h
  · split
    · exact h
    · exact h

theorem Keeps.refreshDue {ch sub rank b : Nat} (h : Keeps s₀ s) : Keeps s₀ (s.refreshDue ch sub rank b) := by
  unfold State.refreshDue
  dsimp only
  split
  · exact h
  · exact h

theorem Keeps.refreshForced {ch sub rank b : Nat} (h : Keeps s₀ s) : Keeps s₀ (s.refreshForced ch sub rank b) := by
  unfold State.refreshForced
  dsimp only
  split
  · exact h
  · exact h

theorem Keeps.dramAlert {ch sub : Nat} (h : Keeps s₀ s) : Keeps s₀ (s.dramAlert ch sub) := by
  unfold State.dramAlert
  dsimp only
  split
  · exact h
  · exact h

theorem Keeps.channelFailed {ch : Nat} (h : Keeps s₀ s) : Keeps s₀ (s.channelFailed ch) := by
  unfold State.channelFailed
  extract_lets +onlyGivenNames c ids gone s1 gone' s2 s3 s4 s5
  have h2 : Keeps s₀ s2 := h
  clear_value s2
  have h3 : Keeps s₀ s3 := by
    refine h2.foldl fun s i hs => ?_
    split
    · exact hs
    · exact hs.withdraw.answer
  clear_value s3
  have h5 : Keeps s₀ s5 := by
    unfold s5
    split
    · exact h3.ledgerAdd.logEvent
    · exact h3.ledgerAdd
  exact h5.foldl fun _ _ hs => hs.ringRecord

theorem Keeps.retrainFailed {ch sub : Nat} (h : Keeps s₀ s) : Keeps s₀ (s.retrainFailed ch sub).1 := by
  unfold State.retrainFailed
  extract_lets c u s1
  have h1 : Keeps s₀ s1 := h
  clear_value s1
  split <;> dsimp only
  · exact h1.channelFailed
  · exact h1

theorem Keeps.retrainStarts {ch sub : Nat} (h : Keeps s₀ s) : Keeps s₀ (s.retrainStarts ch sub) := h

theorem Keeps.caStart {ch : Nat} (h : Keeps s₀ s) : Keeps s₀ (s.caStart ch) := by
  unfold State.caStart
  refine h.foldl fun s a h1 => ?_
  dsimp only
  split
  · split
    · split
      · exact h1.retrainFailed
      · exact h1.retrainFailed.retrainStarts
    · exact h1
  · exact h1

theorem Keeps.drainRmw {ch n : Nat} (h : Keeps s₀ s) : Keeps s₀ (s.drainRmw ch n) := by
  induction n generalizing s with
  | zero => exact h.drainWrites.drainWrites
  | succ n ih =>
    unfold State.drainRmw
    split
    · exact h.drainWrites.drainWrites
    · exact ih h.drainWrites.drainWrites.rmwRun

theorem Keeps.drainChan {ch : Nat} (h : Keeps s₀ s) : Keeps s₀ (s.drainChan ch) := by
  unfold State.drainChan
  extract_lets +onlyGivenNames s1 c
  have h1 : Keeps s₀ s1 := h.drainRmw
  exact h1.setChan

theorem Keeps.tryHold {ch : Nat} (h : Keeps s₀ s) : Keeps s₀ (s.tryHold ch) := by
  unfold State.tryHold
  dsimp only
  split
  · exact h.drainChan.setChan.scrubPause
  · exact h

theorem Keeps.drcHold {ch : Nat} {v : Bool} (h : Keeps s₀ s) : Keeps s₀ (s.drcHold ch v) := by
  unfold State.drcHold
  dsimp only
  split
  · exact .tryHold h
  · split
    · exact .scrubResume h
    · exact h

theorem Keeps.caEnd {ch : Nat} {ok : Bool} (h : Keeps s₀ s) : Keeps s₀ (s.caEnd ch ok) := by
  unfold State.caEnd
  dsimp only
  split
  · exact h
  · split
    · exact .tryHold h
    · split
      · exact h.retrainFailed
      · exact h.retrainFailed.retrainStarts

theorem Keeps.drcTiming {ch r : Nat} {v : W32} (h : Keeps s₀ s) : Keeps s₀ (s.drcTiming ch r v) := by
  unfold State.drcTiming
  dsimp only
  split
  · exact h
  · exact h

theorem Keeps.startMigration {ch rank : Nat} {auto_ : Bool} (h : Keeps s₀ s) : Keeps s₀ (s.startMigration ch rank auto_) := by
  unfold State.startMigration
  dsimp only
  split
  · exact h
  · split
    · exact .logPlain h
    · exact h

theorem Keeps.ceLimit {ch rank : Nat} (h : Keeps s₀ s) : Keeps s₀ (s.ceLimit ch rank) := by
  unfold State.ceLimit
  dsimp only
  split
  · exact .startMigration h
  · exact h

theorem Keeps.deviceMark {ch rank sub dev : Nat} {byOwl : Bool} (h : Keeps s₀ s) : Keeps s₀ (s.deviceMark ch rank sub dev byOwl) := by
  unfold State.deviceMark
  dsimp only
  split
  · split
    · split
      · exact h
      · exact .logPlain h
    · split
      · exact .startMigration (.logPlain (.ledgerAdd h))
      · exact .logPlain (.ledgerAdd h)
  · exact h

theorem Keeps.copyDram {a b n : Nat} {pa : Nat → Option Nat} (h : Keeps s₀ s) : Keeps s₀ (s.copyDram a b n pa) := h.mem (s.copyDram_wf ..)

theorem Keeps.chunkLost {ch q : Nat} (h : Keeps s₀ s) : Keeps s₀ (s.chunkLost ch q) := by
  unfold State.chunkLost
  dsimp only
  split
  · exact .logEvent h
  · exact .logEvent (.poisonRecord (.dramStore h))

theorem Keeps.migrationEnds {ch f : Nat} (h : Keeps s₀ s) : Keeps s₀ (s.migrationEnds ch f) := by
  unfold State.migrationEnds
  dsimp only
  exact .ledgerAdd h

theorem Keeps.chunkLine {ch f l : Nat} {errs : List (Nat × Byte)} (h : Keeps s₀ s) : Keeps s₀ (s.chunkLine ch f l errs) := by
  unfold State.chunkLine
  dsimp only
  split
  · exact h.chunkLost
  · exact h.countCorrected
  · exact h

theorem Keeps.chunkDone {ch : Nat} {errs : List (Nat × List (Nat × Byte))} {writeFail : Bool} (h : Keeps s₀ s) :
    Keeps s₀ (s.chunkDone ch errs writeFail) := by
  unfold State.chunkDone
  dsimp only
  split
  · exact h
  · split
    · exact h
    · split
      · exact .logPlain h
      · refine Keeps.tryHold ?_
        split
        · exact (h.copyDram.setChan.foldl fun _ _ h1 => h1.chunkLine).migrationEnds
        · exact h.copyDram.setChan.foldl fun _ _ h2 => h2.chunkLine

theorem Keeps.scrubStep {u d next : Nat} {lap : Bool} (h : Keeps s₀ s) : Keeps s₀ (s.scrubStep u d next lap) := by
  unfold State.scrubStep
  dsimp only
  split
  · exact h
  · exact h

theorem Keeps.performWritesOf {loc n : Nat} (h : Keeps s₀ s) : Keeps s₀ (s.performWritesOf loc n) := by
  induction n generalizing s with
  | zero => exact h
  | succ n ih =>
    unfold State.performWritesOf
    split
    · exact h
    · exact ih h.performWrite

theorem Keeps.scrubLine {u loc : Nat} {pa : Option Nat} {errs : List (Nat × Byte)} (h : Keeps s₀ s) :
    Keeps s₀ (s.scrubLine u loc pa errs) := by
  unfold State.scrubLine
  dsimp only
  split
  · exact h
  · exact h
  · exact .countCorrected h
  · split
    · exact .logEvent h
    · split
      · split
        · exact .logEvent (.performWritesOf h)
        · exact .setScrub (.dramStore (.setSett (.logEvent (.performWritesOf h))))
      · exact .dramLost h

theorem Keeps.scrubDram {ch : Nat} {errs : List (Nat × Byte)} (h : Keeps s₀ s) : Keeps s₀ (s.scrubDram ch errs) := by
  unfold State.scrubDram
  dsimp only
  split
  · exact h
  · split
    · exact h
    · exact h.scrubLine.scrubStep

theorem Keeps.rereadQueue {q : Nat} (h : Keeps s₀ s) : Keeps s₀ (s.rereadQueue q) := by
  unfold State.rereadQueue
  dsimp only
  split
  · split
    · exact .clearEntry (.touchLine h)
    · exact h.queueError
  · exact h

theorem Keeps.scrubBurrow {a : Nat} {err : BitVec 80} (h : Keeps s₀ s) : Keeps s₀ (s.scrubBurrow a err) := by
  unfold State.scrubBurrow
  extract_lets +onlyGivenNames l mb x corr bad oc tally lineTally
  have hcorr : Keeps s₀ (corr s) := h
  have hbad : Keeps s₀ (bad s) := h
  clear_value oc mb l
  have htally : Keeps s₀ (tally s) := by
    unfold tally
    split
    · exact h
    · exact hcorr
    · exact hbad
  have hline (pa : Nat) : Keeps s₀ (lineTally s pa) := by
    unfold lineTally
    split
    · exact h
    · exact h
    · exact hcorr
    · exact hbad
  clear_value corr bad tally lineTally
  split
  · exact h
  · split
    · extract_lets sl n o
      split
      · split
        · exact hbad.dirLost
        · exact htally
      · exact htally
    · split
      · extract_lets sl o n r
        split
        · exact (hline _).lineNoise
        · exact htally
      · split
        · extract_lets o
          split
          · extract_lets pa
            exact (hline pa).lineNoise
          · exact htally
        · extract_lets o
          split
          · exact htally
          · split
            · split
              · exact (hbad.dedBlock).sramLost
              · exact hbad
            · split
              · exact .sramLost (hbad.to rfl)
              · split
                · exact hbad.nodeWordLost.sramLost
                · split
                  · exact hbad.rereadQueue.sramLost
                  · exact hbad.sramLost

end Sys2Proof.Machine
end

section
/-! SUPPORT. What the operations of Machine / BurrowMem keep of memory, fuses and the queue. -/

namespace Sys2Proof.Machine
open Sys2Proof

variable {s₀ s t u : State}

theorem Keeps.rawRead {raw : Tab Byte} {a n : Nat} (h : Keeps s₀ s) : Keeps s₀ (s.rawRead raw a n).2 := by
  unfold State.rawRead
  split
  rename_i _ s1 e
  have h1 : Keeps s₀ s1 := .of_snd e h
  exact h1

theorem Keeps.burPeek {a n : Nat} (h : Keeps s₀ s) : Keeps s₀ (s.burPeek a n).2 := by
  unfold State.burPeek
  dsimp only
  exact h.rawRead

theorem Keeps.burWrite32 {a o : Nat} {bs : Bytes} (h : Keeps s₀ s) : Keeps s₀ (s.burWrite32 a o bs) := by
  unfold State.burWrite32
  split
  · exact h.mem ⟨id, cputs_wf _ _ _⟩
  · exact h.setDirEnt
  · exact h
  · refine h.foldl fun s i h => ?_
    dsimp only
    split
    · exact h
    · split
      · exact h
      · exact h
  · exact h

theorem Keeps.burPoke {a : Nat} {bs : Bytes} (h : Keeps s₀ s) : Keeps s₀ (s.burPoke a bs) := by
  unfold State.burPoke
  extract_lets +onlyGivenNames b s1
  have h1 : Keeps s₀ s1 := by
    unfold s1
    refine h.foldl fun s a h2 => ?_
    dsimp only
    exact h2.burWrite32
  refine Keeps.to ?_ rfl
  refine h.foldl fun s a h3 => ?_
  dsimp only
  exact h3.burWrite32

theorem Keeps.tableLine {o : Nat} (h : Keeps s₀ s) : Keeps s₀ (s.tableLine o).2 := by
  unfold State.tableLine
  split
  · exact h
  · exact h.burPeek

theorem Keeps.tableAccess {t : Txn} {o : Nat} (h : Keeps s₀ s) : Keeps s₀ (s.tableAccess t o).1 := by
  unfold State.tableAccess
  split
  rename_i _ s1 e
  have h1 : Keeps s₀ s1 := .of_snd e h.tableLine
  extract_lets +onlyGivenNames put
  have h2 (s : State) (new : Bytes) (h2 : Keeps s₀ s) : Keeps s₀ (put s new) := by
    unfold put
    split
    · exact h2
    · exact h2.burPoke
  split
  · exact h1
  · split
    · split
      exact h2 _ _ h1
    · split
      exact h2 _ _ h1
    · dsimp only
      exact h2 _ _ h1

end Sys2Proof.Machine
end

section
/-! SUPPORT. What the operations of Machine / Layout keep of memory, fuses and the queue. -/

namespace Sys2Proof.Machine
open Sys2Proof

variable {s₀ s t u : State}

theorem Keeps.layoutRejected {e : LayErr} (h : Keeps s₀ s) : Keeps s₀ (s.layoutRejected e) := h.logEvent

theorem Keeps.loadTraffic {p : Nat} (h : Keeps s₀ s) : Keeps s₀ (s.loadTraffic p) := h.foldl fun _ _ h1 => h1.loadPq

theorem Keeps.enforce {l : Layout} (h : Keeps s₀ s) : Keeps s₀ (s.enforce l) := by
  unfold State.enforce
  extract_lets +onlyGivenNames s1 s2
  have h1 : Keeps s₀ s2 := .foldl h fun _ _ h2 => h2.loadTraffic
  refine h1.foldl fun s a h3 => ?_
  dsimp only
  split
  · exact h3
  · split
    · exact h3
    · exact h3

theorem Keeps.enforceSection {p : Nat} {c : PartSec} (h : Keeps s₀ s) : Keeps s₀ (s.enforceSection p c) := by
  unfold State.enforceSection
  dsimp only
  exact .loadTraffic h

end Sys2Proof.Machine
end

section
/-! SUPPORT. What the operations of Machine / Messages keep of memory, fuses and the queue. -/

namespace Sys2Proof.Machine
open Sys2Proof

variable {s₀ s t u : State}

theorem Keeps.genCheck {ty : BitVec 6} {m : Msg} {gen : BitVec 80} (h : Keeps s₀ s) : Keeps s₀ (s.genCheck ty m gen).2 := by
  unfold State.genCheck
  extract_lets +onlyGivenNames s
  have h1 : Keeps s₀ s := by
    unfold s
    split
    · exact h.nodeWordLost.sramLost
    · exact h
  split
  · exact h1.srcCheck
  · split
    · exact h1
    · exact h1

theorem Keeps.d1Refused {k p : Nat} {ty : Byte} {m : Msg} {st : Status} (h : Keeps s₀ s) :
    Keeps s₀ (s.d1Refused k p ty m st) := h.d1Count.d1Trace

theorem Keeps.receive {k : Nat} {ty : BitVec 6} {m : Msg} {gen : BitVec 80} {act : State → State}
    (h : Keeps s₀ s) (hact : ∀ s, Keeps s₀ s → Keeps s₀ (act s)) :
    Keeps s₀ (s.receive k ty m gen act) := by
  unfold State.receive
  dsimp only
  split
  · exact h
  · split
    · exact h
    · split
      · split
        · split
          · refine Keeps.respond ?_
            split
            · exact .genCheck h
            · exact .d1Refused (.genCheck h)
          · exact .genCheck h
        · exact h
      · split
        · exact h
        · split
          · exact h
          · split
            · exact .countStale (.genCheck h)
            · split
              · exact .countUnexpect (.genCheck h)
              · split
                · exact .countUnexpect (.genCheck h)
                · exact hact _ (.genCheck h)

theorem Keeps.countIf {asid : BitVec 16} {st : Status} (h : Keeps s₀ s) : Keeps s₀ (s.countIf asid st) := by
  unfold State.countIf
  split
  · exact h.countFault
  · exact h

theorem Keeps.dedEnter {m : Msg} {ty : ReqTy} {p : Nat} (h : Keeps s₀ s) (hs : s.dedEnter m ty p = some t) : Keeps s₀ t :=
  h.dedOpen (s := s.dedDrop m.src m.srcGen m.tag) hs

theorem Keeps.addCopy {d : Ded} {k : Nat} (h : Keeps s₀ s) : Keeps s₀ (s.addCopy d k) := h

theorem Keeps.refuse {k : Nat} {ty : ReqTy} {m : Msg} {p : Nat} {st : Status} (h : Keeps s₀ s) :
    Keeps s₀ (s.refuse k ty m p st) := h.countIf.d1Refused.respond

theorem Keeps.dedRefuse {k : Nat} {m : Msg} {p : Nat} {ty : ReqTy} {early : Status} (h : Keeps s₀ s) :
    Keeps s₀ (s.dedRefuse k m p ty early) := by
  unfold State.dedRefuse
  dsimp only
  refine Keeps.refuse ?_
  split
  · exact h
  · exact h

theorem Keeps.enter {k : Nat} {ty : ReqTy} {m : Msg} {n : Noise} {p : Nat} {early : Status} (h : Keeps s₀ s) :
    Keeps s₀ (s.enter k ty m n p early) := by
  unfold State.enter
  extract_lets +onlyGivenNames f a go
  have hgo (x : State) (hx : Keeps s₀ x) : Keeps s₀ (go x) := by
    unfold go
    split
    · exact hx.countIf.request
    · extract_lets s1
      have h1 : Keeps s₀ s1 := hx.countIf.d1Refused
      clear_value s1
      split
      · exact h1.dedDone.respond
      · exact h1.respond
  clear_value go
  split
  · exact hgo s h
  · split
    · exact h.countDedupHit.respond
    · split
      · exact h.countDedupHit.addCopy
      · exact h.respond
    · exact h.dedRefuse
    · split
      · exact h.respond
      · exact h.dedRefuse
    · split
      · exact h.dedDrop.dedRefuse
      · rename_i s1 e
        exact hgo s1 (h.dedEnter e)

theorem Keeps.dedNoise {m : Msg} {err : BitVec 80} (h : Keeps s₀ s) : Keeps s₀ (s.dedNoise m err) := by
  unfold State.dedNoise
  split
  · exact .sramLost h
  · exact h

theorem Keeps.reqIn {k : Nat} {ty : ReqTy} {m : Msg} {n : Noise} (h : Keeps s₀ s) : Keeps s₀ (s.reqIn k ty m n) := by
  unfold State.reqIn
  dsimp only
  split
  · exact h.countIf.respond
  · split
    · split
      · refine Keeps.enter ?_
        refine Keeps.police ?_
        split
        · exact h.dedNoise
        · exact h
      · split
        · split
          · exact h.dedNoise.refuse
          · split
            · exact h.dedNoise.police.refuse
            · exact h.dedNoise.police.enter
        · split
          · exact h.refuse
          · split
            · exact h.police.refuse
            · exact h.police.enter
    · split
      · refine Keeps.enter ?_
        refine Keeps.police ?_
        split
        · exact h.dedNoise
        · exact h
      · split
        · split
          · exact h.dedNoise.refuse
          · split
            · exact h.dedNoise.police.refuse
            · exact h.dedNoise.police.enter
        · split
          · exact h.refuse
          · split
            · exact h.police.refuse
            · exact h.police.enter
    · split
      · refine Keeps.enter ?_
        refine Keeps.police ?_
        split
        · exact h.dedNoise
        · exact h
      · split
        · split
          · exact h.dedNoise.refuse
          · split
            · exact h.dedNoise.police.refuse
            · exact h.dedNoise.police.enter
        · split
          · exact h.refuse
          · split
            · exact h.police.refuse
            · exact h.police.enter
    · split
      · refine Keeps.enter ?_
        refine Keeps.police ?_
        split
        · exact h.dedNoise
        · exact h
      · split
        · split
          · exact h.dedNoise.refuse
          · split
            · exact h.dedNoise.police.refuse
            · exact h.dedNoise.police.enter
        · split
          · exact h.refuse
          · split
            · exact h.police.refuse
            · exact h.police.enter

theorem Keeps.wbIn {k : Nat} {ty : ReqTy} {m : Msg} {n : Noise} (h : Keeps s₀ s) : Keeps s₀ (s.wbIn k ty m n) := by
  unfold State.wbIn
  dsimp only
  split
  · split
    · exact h.respond
    · split
      · exact h.respond
      · exact h.countFault.respond
  · split
    · split
      · exact h.dedNoise.enter
      · split
        · refine Keeps.respond ?_
          split
          · exact h.dedNoise.countEpochLost
          · exact h.dedNoise
        · split
          · exact h.dedNoise.to rfl
          · exact h.dedNoise.enter
    · split
      · exact h.dedNoise.enter
      · split
        · refine Keeps.respond ?_
          split
          · exact h.dedNoise.countEpochLost
          · exact h.dedNoise
        · split
          · exact h.dedNoise.to rfl
          · exact h.dedNoise.enter
    · split
      · exact h.dedNoise.enter
      · split
        · refine Keeps.respond ?_
          split
          · exact h.dedNoise.countEpochLost
          · exact h.dedNoise
        · split
          · exact h.dedNoise.to rfl
          · exact h.dedNoise.enter
    · split
      · exact h.dedNoise.enter
      · split
        · refine Keeps.respond ?_
          split
          · exact h.dedNoise.countEpochLost
          · exact h.dedNoise
        · split
          · exact h.dedNoise.to rfl
          · exact h.dedNoise.enter

theorem Keeps.sweepLines {n : Nat} {d : Node} (h : Keeps s₀ s) : Keeps s₀ (s.sweepLines n d) := by
  unfold State.sweepLines
  extract_lets +onlyGivenNames busy s1 t
  have h1 : Keeps s₀ s1 := by
    unfold s1
    refine h.foldl fun s a h2 => ?_
    split
    refine h2.foldl fun s a h3 => ?_
    dsimp only
    split
    · exact h3.poisonTracked
    · exact h3
  exact h1.setSett

end Sys2Proof.Machine
end

section
/-! SUPPORT. What the operations of Machine / Link keep of memory, fuses and the queue. -/

namespace Sys2Proof.Machine
open Sys2Proof

variable {s₀ s t u : State}

theorem Keeps.sendLcbs {k : Nat} {ls : List Nat} {ty : Byte} (h : Keeps s₀ s) : Keeps s₀ (s.sendLcbs k ls ty) := h

theorem Keeps.lcbIn {k l : Nat} {blk : BitVec 272} {ty : Byte} {act : State → Nat → State}
    (h : Keeps s₀ s) (hact : ∀ s x1, Keeps s₀ s → Keeps s₀ (act s x1)) :
    Keeps s₀ (s.lcbIn k l blk ty act) := by
  unfold State.lcbIn
  dsimp only
  split
  · exact h
  · split
    · exact h
    · split
      · refine hact _ _ ?_
        split
        · split
          · split
            · exact h
            · exact h
          · split
            · exact h
            · exact h
        · split
          · split
            · exact h
            · exact h
          · split
            · exact h
            · exact h
      · split
        · split
          · split
            · exact h
            · exact h
          · split
            · exact h
            · exact h
        · split
          · split
            · exact h
            · exact h
          · split
            · exact h
            · exact h

theorem Keeps.requeue {e : EgMsg} (h : Keeps s₀ s) : Keeps s₀ (s.requeue e) := by
  unfold State.requeue
  dsimp only
  split
  · exact h
  · split
    · exact h
    · split
      · exact h
      · split
        · split
          · exact h
          · exact .snoopsDone (.unanswered h fun _ _ h1 => h1.death)
        · exact h

theorem Keeps.goDown {k : Nat} {reason : Byte} (h : Keeps s₀ s) : Keeps s₀ (s.goDown k reason) := by
  unfold State.goDown
  dsimp only
  split
  · exact h
  · refine .foldl ?_ fun _ _ h3 => h3.requeue
    refine .foldl ?_ fun _ _ h2 => h2.requeue
    refine .foldl h fun s a h1 => ?_
    split
    · exact h1
    · exact h1

theorem Keeps.startTrain {k : Nat} (h : Keeps s₀ s) : Keeps s₀ (s.startTrain k) := by
  unfold State.startTrain
  dsimp only
  split
  · exact .goDown h
  · exact h

theorem Keeps.tryTrain {k : Nat} (h : Keeps s₀ s) : Keeps s₀ (s.tryTrain k) := by
  unfold State.tryTrain
  dsimp only
  split
  · exact h.startTrain
  · exact h

theorem Keeps.retrain {k : Nat} (h : Keeps s₀ s) : Keeps s₀ (s.retrain k) := by
  unfold State.retrain
  dsimp only
  split
  · exact h
  · split
    · exact h.goDown
    · split
      · exact .goDown h
      · exact h

theorem Keeps.laneMargins {k : Nat} (h : Keeps s₀ s) : Keeps s₀ (s.laneMargins k) := by
  unfold State.laneMargins
  dsimp only
  split
  · exact h
  · exact .ledgerAdd h

theorem Keeps.dropFailed {k : Nat} (h : Keeps s₀ s) : Keeps s₀ (s.dropFailed k) := by
  unfold State.dropFailed
  dsimp only
  split
  · split
    · exact h.goDown
    · exact h
  · exact h

theorem Keeps.linkActive {k : Nat} (h : Keeps s₀ s) : Keeps s₀ (s.linkActive k) := by
  unfold State.linkActive
  dsimp only
  exact .dropFailed (.laneMargins h)

theorem Keeps.unitHdr {k : Nat} {p : Port} (h : Keeps s₀ s) : Keeps s₀ (s.unitHdr k p) := by
  unfold State.unitHdr
  dsimp only
  split
  · exact .dropFailed h
  · exact h

theorem Keeps.unitTaken {k : Nat} {p : Port} (h : Keeps s₀ s) : Keeps s₀ (s.unitTaken k p) := by
  unfold State.unitTaken
  extract_lets +onlyGivenNames s1
  have h1 : Keeps s₀ s1 := h.unitHdr
  split
  · exact h1.setPort
  · exact h1

theorem Keeps.seqIn {k : Nat} {u : FlowUnit} {ty : Nat} {act : State → State} (h : Keeps s₀ s) (hact : ∀ s, Keeps s₀ s → Keeps s₀ (act s)) :
    Keeps s₀ (s.seqIn k u ty act) := by
  unfold State.seqIn
  split
  · exact h
  · dsimp only
    split
    · exact h
    · split
      · exact h
      · split
        · exact h.unitTaken
        · split
          · exact .setPort (hact _ h.unitHdr)
          · exact hact _ h.unitHdr

theorem Keeps.plainIn {k : Nat} {u : FlowUnit} {ty : Nat} {act : Port → Port} (h : Keeps s₀ s) : Keeps s₀ (s.plainIn k u ty act) := by
  unfold State.plainIn
  split
  · exact h
  · dsimp only
    split
    · exact h
    · exact h.unitTaken

theorem Keeps.planReq {k : Nat} {id : Byte} {m : W32} (h : Keeps s₀ s) : Keeps s₀ (s.planReq k id m) := by
  unfold State.planReq
  dsimp only
  split
  · exact h
  · split
    · split
      · exact .dropFailed h
      · exact h
    · exact h

theorem Keeps.planAcc {k : Nat} {id : Byte} (h : Keeps s₀ s) : Keeps s₀ (s.planAcc k id) := by
  unfold State.planAcc
  dsimp only
  split
  · exact h
  · split
    · exact h
    · exact h

theorem Keeps.planRej {k : Nat} {id reason : Byte} (h : Keeps s₀ s) : Keeps s₀ (s.planRej k id reason) := by
  unfold State.planRej
  dsimp only
  split
  · exact h
  · split
    · exact h
    · exact .dropFailed h

theorem Keeps.planAccepted {k : Nat} {id : Byte} {m : W32} (h : Keeps s₀ s) : Keeps s₀ (s.planAccepted k id m) := by
  unfold State.planAccepted
  dsimp only
  split
  · exact .dropFailed h
  · exact h

theorem Keeps.excludeLane {k l : Nat} (h : Keeps s₀ s) : Keeps s₀ (s.excludeLane k l) := by
  unfold State.excludeLane
  dsimp only
  split
  · exact h
  · exact h

theorem Keeps.checkFour {k : Nat} (h : Keeps s₀ s) : Keeps s₀ (s.checkFour k) := by
  unfold State.checkFour
  dsimp only
  split
  · exact h.goDown
  · exact h

theorem Keeps.phase1Check {k : Nat} (h : Keeps s₀ s) : Keeps s₀ (s.phase1Check k) := by
  unfold State.phase1Check
  dsimp only
  split
  · exact h
  · split
    · split
      · split
        · exact .sendLcbs (.checkFour h)
        · exact .checkFour h
      · split
        · exact .sendLcbs (.checkFour h)
        · exact .checkFour h
    · split
      · split
        · exact .sendLcbs (.checkFour h)
        · exact .checkFour h
      · split
        · exact .sendLcbs (.checkFour h)
        · exact .checkFour h

theorem Keeps.takeProp {k : Nat} {m : W32} (h : Keeps s₀ s) : Keeps s₀ (s.takeProp k m) := by
  unfold State.takeProp
  dsimp only
  split
  · exact h
  · split
    · exact h
    · exact h

theorem Keeps.phase2Check {k : Nat} (h : Keeps s₀ s) : Keeps s₀ (s.phase2Check k) := by
  unfold State.phase2Check
  dsimp only
  split
  · exact h
  · split
    · exact h.goDown
    · exact h.takeProp

theorem Keeps.phase3Check {k : Nat} (h : Keeps s₀ s) : Keeps s₀ (s.phase3Check k) := by
  unfold State.phase3Check
  dsimp only
  split
  · exact h
  · exact h.takeProp

theorem Keeps.cutMask {k : Nat} {m : W32} (h : Keeps s₀ s) : Keeps s₀ (s.cutMask k m) := by
  unfold State.cutMask
  dsimp only
  split
  · exact h.goDown
  · split
    · exact h
    · exact .takeProp h

theorem Keeps.lostLane {k : Nat} (h : Keeps s₀ s) : Keeps s₀ (s.lostLane k) := by
  unfold State.lostLane
  extract_lets +onlyGivenNames s1 p
  have h1 : Keeps s₀ s1 := h.checkFour
  split
  · exact h1
  · split
    · exact h1.phase1Check
    · exact h1.phase2Check
    · split
      · exact h1.goDown
      · exact h1.takeProp
    · exact h1.cutMask
    · exact h1

theorem Keeps.lnkEnable {k : Nat} {v : Bool} (h : Keeps s₀ s) : Keeps s₀ (s.lnkEnable k v) := by
  unfold State.lnkEnable
  dsimp only
  split
  · split
    · exact h
    · exact h
  · exact h.goDown.setPort

theorem Keeps.lnkAutoUp {k : Nat} {v : Bool} (h : Keeps s₀ s) : Keeps s₀ (s.lnkAutoUp k v) := .tryTrain h

theorem Keeps.lnkAutoDrop {k : Nat} {v : Bool} (h : Keeps s₀ s) : Keeps s₀ (s.lnkAutoDrop k v) := by
  unfold State.lnkAutoDrop
  dsimp only
  split
  · exact .dropFailed h
  · exact h

theorem Keeps.lnkTakeDown {k : Nat} (h : Keeps s₀ s) : Keeps s₀ (s.lnkTakeDown k) := h.goDown

theorem Keeps.lnkRetrain {k : Nat} (h : Keeps s₀ s) : Keeps s₀ (s.lnkRetrain k) := by
  unfold State.lnkRetrain
  extract_lets +onlyGivenNames s1
  have h1 : Keeps s₀ s1 := h.retrain
  split
  · exact h1.setPort
  · exact h1

theorem Keeps.lnkPlanGo {k : Nat} (h : Keeps s₀ s) : Keeps s₀ (s.lnkPlanGo k) := h

theorem Keeps.lnkLanePower {k l : Nat} {v : Bool} (h : Keeps s₀ s) : Keeps s₀ (s.lnkLanePower k l v) := by
  unfold State.lnkLanePower
  dsimp only
  split
  · exact .lostLane h
  · split
    · exact h
    · exact h

theorem Keeps.lnkClearFail {k l : Nat} (h : Keeps s₀ s) : Keeps s₀ (s.lnkClearFail k l) := by
  unfold State.lnkClearFail
  dsimp only
  split
  · exact h
  · exact h

end Sys2Proof.Machine
end

section
/-! SUPPORT. What the operations of Machine / Records keep of memory, fuses and the queue. -/

namespace Sys2Proof.Machine
open Sys2Proof

variable {s₀ s t u : State}

theorem Keeps.endUnstarted {q : Nat} {st : Status} {d : Desc} (h : Keeps s₀ s) : Keeps s₀ (s.endUnstarted q st d) := h.writeRecord

theorem Keeps.endHandOver {q : Nat} {st : Status} {chain : Nat} (h : Keeps s₀ s) : Keeps s₀ (s.endHandOver q st chain) := h.writeRecord

theorem Keeps.giveBack {q : Nat} {d : Desc} (h : Keeps s₀ s) : Keeps s₀ (s.giveBack q d) := h

theorem Keeps.unstageQueue {q : Nat} (h : Keeps s₀ s) : Keeps s₀ (s.unstageQueue q) := by
  unfold State.unstageQueue
  refine h.foldl fun s a h1 => ?_
  split
  split
  · exact h1
  · split
    · exact h1
    · exact h1

theorem Keeps.cancelFetched {q : Nat} {st : Status} (h : Keeps s₀ s) : Keeps s₀ (s.cancelFetched q st) := by
  unfold State.cancelFetched
  extract_lets +onlyGivenNames s x s1 s2 s3
  have h1 : Keeps s₀ s := h.unstageQueue
  have h2 : Keeps s₀ s1 := h1.setQueue
  have h3 : Keeps s₀ s2 := h2.foldl fun _ _ h4 => h4.endUnstarted
  have h5 : Keeps s₀ s3 := h3.foldl fun _ _ h6 => h6.endHandOver
  exact h5.foldl fun _ _ h7 => h7.endUnstarted

theorem Keeps.inqRecord {e : Nat} {r : EndRec} {d : Desc} (h : Keeps s₀ s) : Keeps s₀ (s.inqRecord e r d) := h

theorem Keeps.countEnd {e : Nat} {st : Status} (h : Keeps s₀ s) : Keeps s₀ (s.countEnd e st) := h

theorem Keeps.loseDescriptors {e : Nat} (h : Keeps s₀ s) : Keeps s₀ (s.loseDescriptors e) := by
  unfold State.loseDescriptors
  extract_lets +onlyGivenNames x s0 s1
  have h1 : Keeps s₀ s1 := by
    unfold s1
    split
    · exact h
    · exact h
  split
  · exact h1
  · dsimp only
    split
    · exact h1.inqRecord.countEnd
    · split
      · split
        · exact h1.endStarted.countEnd
        · split
          · exact h1.giveBack
          · exact h1.endStarted.countEnd
      · split
        · split
          · exact h1.endStarted.countEnd
          · split
            · exact h1.giveBack
            · exact h1.endStarted.countEnd
        · split
          · exact h1.endStarted.countEnd
          · split
            · exact h1.giveBack
            · exact h1.endStarted.countEnd

theorem Keeps.stopEnds {e : Nat} (h : Keeps s₀ s) : Keeps s₀ (s.stopEnds e) := by
  unfold State.stopEnds
  dsimp only
  split
  · exact h
  · split
    · exact h
    · split
      · exact h
      · refine Keeps.countEnd ?_
        split
        · exact h
        · exact .endStarted h

end Sys2Proof.Machine
end

section
/-! SUPPORT. What the operations of Machine / Invalidate keep of memory, fuses and the queue. -/

namespace Sys2Proof.Machine
open Sys2Proof

variable {s₀ s t u : State}

theorem Keeps.invReceive {u : InvUnit} {id : Nat} (h : Keeps s₀ s) : Keeps s₀ (s.invReceive u id) := by
  unfold State.invReceive
  split
  · exact h
  · split
    · exact h
    · dsimp only
      split
      · exact h
      · exact h
      · split
        · exact h
        · exact h
      · split
        · exact h
        · exact h

theorem Keeps.undrain {region : BitVec 24} (h : Keeps s₀ s) : Keeps s₀ (s.undrain region) := by
  unfold State.undrain
  split
  · exact h
  · split
    · exact h
    · split
      · exact h
      · exact h.devAccess

theorem Keeps.drainEnds {d : Drain} (h : Keeps s₀ s) : Keeps s₀ (s.drainEnds d) := by
  unfold State.drainEnds
  dsimp only
  split
  · split
    · exact h
    · exact .finishDesc h
  · exact h
  · exact .undrain h

theorem Keeps.drainCheck {id : Nat} (h : Keeps s₀ s) : Keeps s₀ (s.drainCheck id) := by
  unfold State.drainCheck
  split
  · exact h
  · split
    · exact h.drainEnds
    · exact h

theorem Keeps.drainChecks (h : Keeps s₀ s) : Keeps s₀ s.drainChecks := h.foldl fun _ _ h1 => h1.drainCheck

theorem Keeps.drainReport {u : InvUnit} {id : Nat} (h : Keeps s₀ s) : Keeps s₀ (s.drainReport u id) := by
  unfold State.drainReport
  split
  · exact h
  · split
    · exact .drainChecks h
    · exact h

theorem Keeps.engineDrained {e : Nat} (h : Keeps s₀ s) : Keeps s₀ (s.engineDrained e) := by
  unfold State.engineDrained
  dsimp only
  exact .drainChecks h

theorem Keeps.regionDrained {region : BitVec 24} (h : Keeps s₀ s) : Keeps s₀ (s.regionDrained region) := by
  unfold State.regionDrained
  split
  · exact h
  · split
    · exact h.drainEnds.drainChecks
    · exact h

theorem Keeps.owlInvalidate {region : Bool} {target : BitVec 24} (h : Keeps s₀ s) : Keeps s₀ (s.owlInvalidate region target) := by
  unfold State.owlInvalidate
  split
  · exact h
  · exact h

end Sys2Proof.Machine
end

section
/-! SUPPORT. What the operations of Machine / Recovery keep of memory, fuses and the queue. -/

namespace Sys2Proof.Machine
open Sys2Proof

variable {s₀ s t u : State}

theorem Keeps.engineReset {e : Nat} (h : Keeps s₀ s) : Keeps s₀ (s.engineReset e) := by
  unfold State.engineReset
  dsimp only
  split
  · exact h
  · exact h

theorem Keeps.enginePurge {sett e : Nat} (h : Keeps s₀ s) : Keeps s₀ (s.enginePurge sett e) := by
  unfold State.enginePurge
  dsimp only
  split
  · exact h
  · exact h

theorem Keeps.fenceEnds {e : Nat} (h : Keeps s₀ s) : Keeps s₀ (s.fenceEnds e) := by
  unfold State.fenceEnds
  extract_lets +onlyGivenNames x s1 top s2 s3
  have h2 : Keeps s₀ s2 := h
  clear_value s2
  refine Keeps.drainChecks ?_
  unfold s3
  split
  · exact h2.logEvent
  · exact h2.ringRecord

theorem Keeps.resetSettles {e : Nat} (h : Keeps s₀ s) : Keeps s₀ (s.resetSettles e) := by
  unfold State.resetSettles
  extract_lets +onlyGivenNames s1 x s2
  have h2 : Keeps s₀ s2 := h.loseDescriptors.setEng.engineDrained
  clear_value s2
  split
  · exact h2.fenceEnds
  · exact h2

theorem Keeps.purgeReport {sett e : Nat} (h : Keeps s₀ s) : Keeps s₀ (s.purgeReport sett e) := by
  unfold State.purgeReport
  dsimp only
  split
  · exact h
  · split
    · exact .resetSettles h
    · exact h

theorem Keeps.engineResetDone {e : Nat} (h : Keeps s₀ s) : Keeps s₀ (s.engineResetDone e) := by
  unfold State.engineResetDone
  dsimp only
  split
  · exact h
  · exact h

theorem Keeps.engineFence {e : Nat} (h : Keeps s₀ s) : Keeps s₀ (s.engineFence e) := by
  unfold State.engineFence
  extract_lets +onlyGivenNames s1 x
  have h1 : Keeps s₀ s1 := h.engineReset
  split
  · exact h1
  · extract_lets +onlyGivenNames s2
    have h2 : Keeps s₀ s2 := h1.setEng
    split
    · exact h2.fenceEnds
    · exact h2

theorem Keeps.drainTimeout {id : Nat} (h : Keeps s₀ s) : Keeps s₀ (s.drainTimeout id) := by
  unfold State.drainTimeout
  split
  · exact h
  · split
    · exact h
    · extract_lets +onlyGivenNames s1 s2
      have h1 : Keeps s₀ s2 := by
        unfold s2
        refine .foldl h fun s a h2 => ?_
        split
        · exact h2
        · exact h2.engineFence
      exact h1.drainChecks

theorem Keeps.settLost {n : Nat} {cause : Byte} (h : Keeps s₀ s) : Keeps s₀ (s.settLost n cause) := by
  unfold State.settLost
  extract_lets +onlyGivenNames t s1 mine s2 s3
  have h1 : Keeps s₀ s2 := by
    unfold s2
    refine .foldl h fun s a h2 => ?_
    split
    · exact h2
    · split
      · exact h2.devThenWith fun _ _ h3 => h3.death
      · exact h2.answer
  have h4 : Keeps s₀ s3 := by
    unfold s3
    refine Keeps.to ?_ rfl
    refine .foldl h fun s a h5 => ?_
    split
    · exact h5
    · split
      · exact h5.devThenWith fun _ _ h6 => h6.death
      · exact h5.answer
  exact h4.logPlain.ledgerAdd.drainChecks

theorem Keeps.settBad {n : Nat} {cause : Byte} (h : Keeps s₀ s) : Keeps s₀ (s.settBad n cause) := by
  unfold State.settBad
  dsimp only
  split
  · exact .logPlain h
  · exact h
  · exact h.settLost

theorem Keeps.attemptFails {n : Nat} {cause : Option Byte} (h : Keeps s₀ s) : Keeps s₀ (s.attemptFails n cause) := by
  unfold State.attemptFails
  dsimp only
  exact .logPlain h

theorem Keeps.standbyFail {n : Nat} {copyPath : Bool} (h : Keeps s₀ s) : Keeps s₀ (s.standbyFail n copyPath) := by
  unfold State.standbyFail
  dsimp only
  split
  · refine Keeps.setSett ?_
    split
    · exact h
    · exact h
  · exact h.attemptFails
  · exact h

theorem Keeps.selfTestEnd {n : Nat} {pass : Bool} (h : Keeps s₀ s) : Keeps s₀ (s.selfTestEnd n pass) := by
  unfold State.selfTestEnd
  dsimp only
  split
  · split
    · exact h
    · exact h.attemptFails.ledgerAdd
  · split
    · exact h.attemptFails
    · exact h

theorem Keeps.paircmdFailover {n : Nat} (h : Keeps s₀ s) : Keeps s₀ (s.paircmdFailover n) := by
  unfold State.paircmdFailover
  split
  · exact h.settBad
  · exact h

theorem Keeps.paircmdResync {n : Nat} (h : Keeps s₀ s) : Keeps s₀ (s.paircmdResync n) := by
  unfold State.paircmdResync
  dsimp only
  split
  · exact h
  · exact h

end Sys2Proof.Machine
end

section
/-! SUPPORT. What the operations of Machine / Translation keep of memory, fuses and the queue. -/

namespace Sys2Proof.Machine
open Sys2Proof

variable {s₀ s t u : State}

theorem Keeps.dropWalk {asid : BitVec 16} {page : Nat} (h : Keeps s₀ s) : Keeps s₀ (s.dropWalk asid page) := h

theorem Keeps.keepContext {asid : BitVec 16} {va : Nat} (h : Keeps s₀ s) : Keeps s₀ (s.keepContext asid va) := by
  unfold State.keepContext
  split
  · exact h
  · split
    · exact h
    · split
      · exact h
      · dsimp only
        split
        · exact h
        · exact h

theorem Keeps.walkDone {asid : BitVec 16} {page : Nat} (h : Keeps s₀ s) : Keeps s₀ (s.walkDone asid page) := by
  unfold State.walkDone
  split
  · exact h
  · extract_lets +onlyGivenNames x s1
    have h1 : Keeps s₀ s1 := h
    clear_value s1
    split
    · exact h
    · split
      · exact h.devAccess
      · split
        · exact h1.to rfl
        · extract_lets +onlyGivenNames s2 ids
          have h2 : Keeps s₀ s2 := h1.dropWalk.foldl fun _ _ h => h.touchLine
          clear_value s2
          split
          · refine h2.foldl fun s i hs => ?_
            split
            · exact hs
            · exact hs.failTranslation
          · extract_lets +onlyGivenNames s3 x s4
            have h3 : Keeps s₀ s3 := h2.keepContext
            clear_value s3
            have h4 : Keeps s₀ s4 := h3.to rfl
            clear_value s4
            refine h4.foldl fun s i hs => ?_
            split
            · exact hs
            · exact hs.tcInstall.serve

theorem Keeps.walkExpired {asid : BitVec 16} {page : Nat} (h : Keeps s₀ s) : Keeps s₀ (s.walkExpired asid page) := by
  unfold State.walkExpired
  split
  · exact h
  · split
    · dsimp only
      refine .foldl h fun s a h1 => ?_
      split
      · exact h1
      · exact h1.failTranslation
    · exact h

end Sys2Proof.Machine
end

section
/-! SUPPORT. What the operations of Machine / Queues keep of memory, fuses and the queue. -/

namespace Sys2Proof.Machine
open Sys2Proof

variable {s₀ s t u : State}

theorem Keeps.topUp {q : Nat} (h : Keeps s₀ s) : Keeps s₀ (s.topUp q) := h

theorem Keeps.readProducer {q : Nat} (h : Keeps s₀ s) : Keeps s₀ (s.readProducer q) := by
  unfold State.readProducer
  dsimp only
  split
  · exact h
  · split
    · split
      · split
        · exact .queueError h
        · split
          · exact .queueError h
          · exact h
      · exact .queueError h
    · exact h

theorem Keeps.queueCheckIn {q p : Nat} (h : Keeps s₀ s) : Keeps s₀ (s.queueCheckIn q p) := by
  unfold State.queueCheckIn
  split
  · exact h.queueError
  · split
    · dsimp only
      split
      · exact h.queueError
      · exact .readProducer h
    · exact h.queueError

theorem Keeps.queueEnable {p o : Nat} (h : Keeps s₀ s) : Keeps s₀ (s.queueEnable p o) := by
  unfold State.queueEnable
  split
  · exact h
  · dsimp only
    split
    · exact h
    · split
      · exact h
      · exact .queueCheckIn h

theorem Keeps.queueDisable {p o : Nat} (h : Keeps s₀ s) : Keeps s₀ (s.queueDisable p o) := by
  unfold State.queueDisable
  split
  · exact h
  · dsimp only
    split
    · exact h
    · exact .cancelFetched h

theorem Keeps.queueReset {p o : Nat} (h : Keeps s₀ s) : Keeps s₀ (s.queueReset p o) := by
  unfold State.queueReset
  split
  · exact h
  · dsimp only
    split
    · exact h
    · split
      · exact h
      · split
        · exact .qWriteBack h
        · exact h

theorem Keeps.fetched {q : Nat} (h : Keeps s₀ s) : Keeps s₀ (s.fetched q) := by
  unfold State.fetched
  dsimp only
  split
  · split
    · exact h
    · split
      · exact .queueError (.schedFault h)
      · exact h.devAccess
      · exact .qWriteBack h
  · exact h

theorem Keeps.handArrives {q : Nat} (h : Keeps s₀ s) : Keeps s₀ (s.handArrives q) := by
  unfold State.handArrives
  dsimp only
  split
  · exact h
  · split
    · exact h
    · split
      · split
        · exact .devAccess h
        · exact h
      · split
        · split
          · exact .devAccess h
          · exact h
        · split
          · exact .devAccess h
          · exact h

theorem Keeps.startNext {e q : Nat} {d : Desc} (h : Keeps s₀ s) : Keeps s₀ (s.startNext e q d) := by
  unfold State.startNext
  split
  · exact h
  · split
    · exact h
    · exact h

theorem Keeps.place1 {p q : Nat} {d : Desc} (h : Keeps s₀ s) : Keeps s₀ (s.place1 p q d).1 := by
  unfold State.place1
  dsimp only
  split
  · split
    · split
      · exact .endStarted h
      · split
        · split
          · exact h
          · exact h
        · split
          · exact .startNext h
          · split
            · exact h
            · exact h
    · split
      · exact .endStarted h
      · split
        · split
          · exact h
          · exact h
        · split
          · exact .startNext h
          · split
            · exact h
            · exact h
  · split
    · split
      · exact .endStarted h
      · split
        · split
          · exact h
          · exact h
        · split
          · exact .startNext h
          · split
            · exact h
            · exact h
    · split
      · exact .endStarted h
      · split
        · split
          · exact h
          · exact h
        · split
          · exact .startNext h
          · split
            · exact h
            · exact h

theorem Keeps.dispatch {q : Nat} (h : Keeps s₀ s) : Keeps s₀ (s.dispatch q) := by
  unfold State.dispatch
  split
  · exact h
  · extract_lets +onlyGivenNames k
    split
    · exact h
    · extract_lets +onlyGivenNames x
      split
      · extract_lets +onlyGivenNames s1 pass adv
        have h1 : Keeps s₀ s1 := h
        have hpass (y : State) (hy : Keeps s₀ y) : Keeps s₀ (pass y) := hy
        have hadv (r : State × Bool) (hr : Keeps s₀ r.1) : Keeps s₀ (adv r) := by
          refine hpass _ ?_
          split
          · exact hr
          · exact h
        clear_value s1 pass adv
        split
        · exact (hadv _ h1.place1).topUp
        · exact hadv _ h1.place1
        · split
          · exact h1.schedFault.queueError
          · exact hpass _ h.devAccess
          · extract_lets +onlyGivenNames d y s2 r
            have h2 : Keeps s₀ s2 := h1
            clear_value s2
            have hr : Keeps s₀ r.1 := h2.place1
            clear_value r
            split
            · exact hadv r hr
            · exact hpass _ h2.setQueue
      · exact h

theorem Keeps.nopDone {q : Nat} (h : Keeps s₀ s) : Keeps s₀ (s.nopDone q) := by
  unfold State.nopDone
  dsimp only
  split
  · exact h
  · split
    · exact .finishDesc h
    · exact h

theorem Keeps.barrierDone {q : Nat} (h : Keeps s₀ s) : Keeps s₀ (s.barrierDone q) := by
  unfold State.barrierDone
  dsimp only
  split
  · exact h
  · split
    · exact .finishDesc h
    · exact h

theorem Keeps.fenceStart {q : Nat} (h : Keeps s₀ s) : Keeps s₀ (s.fenceStart q) := by
  unfold State.fenceStart
  dsimp only
  split
  · exact h
  · split
    · split
      · split
        · exact .endStarted h
        · exact h
      · split
        · exact .endStarted h
        · exact h
    · exact h

end Sys2Proof.Machine
end

section
/-! SUPPORT. What the operations of Machine / Engines keep of memory, fuses and the queue. -/

namespace Sys2Proof.Machine
open Sys2Proof

variable {s₀ s t u : State}

theorem Keeps.deliver {e : Nat} {a : Answer} {noise : Bool} (h : Keeps s₀ s) : Keeps s₀ (s.deliver e a noise) := by
  unfold State.deliver
  dsimp only
  split
  · exact h
  · split
    · exact h
    · split
      · exact h
      · exact h

theorem Keeps.absorb {e n : Nat} (h : Keeps s₀ s) : Keeps s₀ (s.absorb e n) := by
  induction n generalizing s with
  | zero => exact h
  | succ n ih =>
    unfold State.absorb
    split
    · exact h
    · exact ih h.setEng.deliver

theorem Keeps.sbufNoise {e : Nat} {err : BitVec 80} (h : Keeps s₀ s) : Keeps s₀ (s.sbufNoise e err).1 := by
  unfold State.sbufNoise
  split
  · exact h
  · split
    · exact h
    · exact h
  · exact h.sramLost

theorem Keeps.transferAnswer {e : Nat} {err : BitVec 80} (h : Keeps s₀ s) : Keeps s₀ (s.transferAnswer e err) := by
  unfold State.transferAnswer
  split
  · exact h
  · dsimp only
    refine Keeps.deliver ?_
    split
    · exact h
    · exact .sbufNoise h

theorem Keeps.engFault {e : Nat} {st : Status} {va : Nat} (h : Keeps s₀ s) : Keeps s₀ (s.engFault e st va) := by
  unfold State.engFault
  dsimp only
  split
  · exact h
  · split
    · exact h
    · exact h

theorem Keeps.physRequest {t : Txn} (h : Keeps s₀ s) : Keeps s₀ (s.physRequest t) := by
  unfold State.physRequest
  dsimp only
  split
  · split
    · exact h.engFault
    · exact .engAnswer (h.tableAccess.to rfl)
  · exact h.engFault
  · exact .serve h

theorem Keeps.issue {e : Nat} {ty : ReqTy} {va : Nat} {data : Bytes} {mask : W64} {pois : Bool} {arg op : Nat} (h : Keeps s₀ s) :
    Keeps s₀ (s.issue e ty va data mask pois arg op) := by
  unfold State.issue
  dsimp only
  split
  · exact h
  · split
    · split
      · exact .setEng (.physRequest h)
      · exact .physRequest h
    · split
      · split
        · exact h.countFault.engFault
        · exact .request h
      · exact h.engFault

theorem Keeps.setRun {e : Nat} {r : Run} (h : Keeps s₀ s) : Keeps s₀ (s.setRun e r) := h

theorem Keeps.endRun {e : Nat} {st : Status} {va : Nat} (h : Keeps s₀ s) : Keeps s₀ (s.endRun e st va) := by
  unfold State.endRun
  split
  · exact h
  · exact h

theorem Keeps.endEarly {e : Nat} {st : Status} {va : Nat} (h : Keeps s₀ s) : Keeps s₀ (s.endEarly e st va) := by
  unfold State.endEarly
  split
  · exact h
  · exact h

theorem Keeps.readLines {e arg op : Nat} {l : List Nat} (h : Keeps s₀ s) : Keeps s₀ (s.readLines e arg op l) := by
  refine h.foldl fun s a hs => ?_
  split
  · exact hs
  · exact hs.issue.absorb

theorem Keeps.writeLines {e arg op : Nat} {l : List (Nat × W64 × Bytes × Bool)} (h : Keeps s₀ s) : Keeps s₀ (s.writeLines e arg op l) := by
  refine h.foldl fun s x hs => ?_
  split
  split
  · exact hs
  · exact hs.issue.absorb

theorem Keeps.runUnit_reads {e : Nat} {order : List Nat} {arg op n : Nat} (h : Keeps s₀ s) :
    Keeps s₀ (State.runUnit.reads e order arg op n s) := by
  induction n generalizing s with
  | zero => exact h
  | succ n ih =>
    unfold State.runUnit.reads
    split
    · exact h
    · split
      · exact h
      · split
        · extract_lets s1
          have h1 : Keeps s₀ s1 := h.readLines
          clear_value s1
          split
          · exact ih h1
          · exact h1
        · exact h

theorem Keeps.runUnit {e : Nat} {order : List Nat} (h : Keeps s₀ s) : Keeps s₀ (s.runUnit e order).1 := by
  unfold State.runUnit
  split
  · exact h
  · split
    extract_lets issueNow s1
    have hissue (x : State) (hx : Keeps s₀ x) : Keeps s₀ (issueNow x) := by
      unfold issueNow
      split
      · exact hx
      · split
        · exact .writeLines (hx.to rfl)
        · exact hx
    have h1 : Keeps s₀ s1 := by
      unfold s1
      split
      · exact h
      · exact hissue _ (.runUnit_reads h)
    clear_value s1
    split
    · exact h1
    · split
      · exact h1
      · split
        · exact h1.endEarly
        · exact h1
        · split
          · exact h1.setEng
          · exact h1

theorem Keeps.runUnits {e : Nat} {order : List Nat} {n : Nat} (h : Keeps s₀ s) : Keeps s₀ (s.runUnits e order n) := by
  induction n generalizing s with
  | zero => exact h
  | succ n ih =>
    unfold State.runUnits
    split
    rename_i s1 more hu
    have h1 : Keeps s₀ s1 := .of_fst hu h.runUnit
    split
    · exact ih h1
    · exact h1

theorem Keeps.runDesc {e op : Nat} {order : List Nat} (h : Keeps s₀ s) : Keeps s₀ (s.runDesc e op order) := by
  unfold State.runDesc
  extract_lets +onlyGivenNames x
  split
  · exact h
  · split
    · exact h
    · extract_lets +onlyGivenNames early
      split
      · exact h.endEarly
      · extract_lets s1
        have h1 : Keeps s₀ s1 := h.runUnits
        clear_value s1
        split
        · exact h1
        · split
          · exact h1
          · split
            · split
              · exact h1.endRun
              · exact h1
            · split
              · exact h1.endRun
              · exact h1

theorem Keeps.nextOn {e : Nat} (h : Keeps s₀ s) : Keeps s₀ (s.nextOn e) := by
  unfold State.nextOn
  dsimp only
  split
  · exact h
  · split
    · exact h
    · split
      · split
        · exact .topUp (.startNext h)
        · exact h
      · split
        · exact .topUp (.startNext h)
        · exact h

theorem Keeps.inqStart {e : Nat} (h : Keeps s₀ s) : Keeps s₀ (s.inqStart e) := by
  unfold State.inqStart
  dsimp only
  split
  · exact h
  · split
    · exact h
    · split
      · exact .nextOn h
      · split
        · exact .nextOn h
        · exact h

end Sys2Proof.Machine
end

section
/-! SUPPORT. What the operations of Machine / Programs keep of memory, fuses and the queue. -/

namespace Sys2Proof.Machine
open Sys2Proof

variable {s₀ s t u : State}

theorem Keeps.faultEnds {e : Nat} {extra : Status × Nat} (h : Keeps s₀ s) : Keeps s₀ (s.faultEnds e extra) := by
  unfold State.faultEnds
  split
  · exact h
  · split
    · exact h
    · split
      · split
        split
        · exact h.endEarly
        · exact h.endRun
      · exact h

theorem Keeps.loadProgram {e : Nat} (h : Keeps s₀ s) : Keeps s₀ (s.loadProgram e) := by
  unfold State.loadProgram
  split
  · exact h
  · split
    · exact h
    · split
      · exact h.endEarly
      · extract_lets +onlyGivenNames d first s1 sb1
        have h1 : Keeps s₀ s1 := by
          unfold s1
          split
          · exact h
          · exact h.readLines
        split
        · exact h1.faultEnds
        · extract_lets +onlyGivenNames h rest s2 sb2
          have h2 : Keeps s₀ s2 := h1.readLines
          split
          · exact h2.faultEnds
          · split
            · exact h2
            · dsimp only
              split
              · exact h2.endEarly
              · exact h2.setEng

theorem Keeps.tileStart {e : Nat} (h : Keeps s₀ s) : Keeps s₀ (s.tileStart e) := by
  unfold State.tileStart
  split
  · exact h
  · split
    · exact h
    · split
      · exact h
      · split
        · exact h.faultEnds
        · extract_lets +onlyGivenNames ins s1 sb
          have h1 : Keeps s₀ s1 := h.foldl fun _ _ h2 => h2.readLines
          split
          · exact h1.faultEnds
          · split
            · exact h1
            · dsimp only
              exact h1.setRun

theorem Keeps.tileEnd {e : Nat} (h : Keeps s₀ s) : Keeps s₀ (s.tileEnd e) := by
  unfold State.tileEnd
  split
  · exact h
  · split
    · exact h
    · split
      · exact h
      · extract_lets +onlyGivenNames outs s2 s1
        have h2 : Keeps s₀ s2 := h
        clear_value s2
        have h1 : Keeps s₀ s1 := by
          unfold s1
          split
          · exact h
          · exact h2.foldl fun _ _ h => h.writeLines
        clear_value s1
        split
        · exact h1
        · split
          · exact h1.faultEnds
          · split
            · exact h1.setEng
            · exact h1

theorem Keeps.laneIns {e op draws : Nat} {f : Nat → Nat → Nat → Nat → Nat → Nat} (h : Keeps s₀ s) : Keeps s₀ (s.laneIns e op draws f) := by
  unfold State.laneIns
  split
  · exact h
  · exact h

theorem Keeps.accIns {e op : Nat} {f : Nat → List Nat → Nat} (h : Keeps s₀ s) : Keeps s₀ (s.accIns e op f) := by
  unfold State.accIns
  split
  · exact h
  · exact h

theorem Keeps.progEnds {e : Nat} (h : Keeps s₀ s) : Keeps s₀ (s.progEnds e) := by
  unfold State.progEnds
  split
  · exact h
  · split
    · exact h
    · split
      · exact h
      · extract_lets +onlyGivenNames s1
        have h1 : Keeps s₀ s1 := by
          unfold s1
          split
          · exact h
          · exact .writeLines h
        split
        · exact h1
        · split
          · exact h1.faultEnds
          · split
            · exact h1.endRun
            · exact h1

theorem Keeps.descComplete {e : Nat} (h : Keeps s₀ s) : Keeps s₀ (s.descComplete e) := by
  unfold State.descComplete
  extract_lets +onlyGivenNames s1
  have h1 : Keeps s₀ s1 := h.progEnds
  split
  · exact h1
  · split
    · exact h1
    · split
      · exact h1.stopEnds
      · split
        · exact h1
        · extract_lets +onlyGivenNames s2
          have h2 : Keeps s₀ s2 := by
            unfold s2
            split
            · exact h1.inqRecord
            · exact h1.finishDesc
          exact h2.countEnd.nextOn

end Sys2Proof.Machine
end

section
/-! SUPPORT. What the operations of Machine / Partitions keep of memory, fuses and the queue. -/

namespace Sys2Proof.Machine
open Sys2Proof

variable {s₀ s t u : State}

theorem Keeps.toRun {p : Nat} (h : Keeps s₀ s) : Keeps s₀ (s.toRun p) := by
  unfold State.toRun
  extract_lets +onlyGivenNames _ s1 s2 mine
  have h1 : Keeps s₀ s2 := .foldl h fun _ _ h2 => h2.readProducer
  exact h1.foldl fun _ _ h3 => h3.devAccess

theorem Keeps.setHolds {p : Nat} {op0 tenant : Bool} (h : Keeps s₀ s) : Keeps s₀ (s.setHolds p op0 tenant) := by
  unfold State.setHolds
  dsimp only
  split
  · exact h
  · split
    · exact .toRun h
    · exact h

theorem Keeps.unscrubbed {p : Nat} (h : Keeps s₀ s) : Keeps s₀ (s.unscrubbed p) := by
  unfold State.unscrubbed
  dsimp only
  split
  · exact h.toRun
  · exact h

theorem Keeps.opHold {p : Nat} {v : Bool} (h : Keeps s₀ s) : Keeps s₀ (s.opHold p v) := h.setHolds

theorem Keeps.unstage {p : Nat} (h : Keeps s₀ s) : Keeps s₀ (s.unstage p) := by
  unfold State.unstage
  refine h.foldl fun s a h1 => ?_
  split
  split
  · exact h1
  · exact h1

theorem Keeps.quiesce {p : Nat} (h : Keeps s₀ s) : Keeps s₀ (s.quiesce p) := by
  unfold State.quiesce
  split
  · extract_lets +onlyGivenNames s1
    have h1 : Keeps s₀ s1 := h.unstage
    exact h1.setPart
  · exact h

theorem Keeps.partReset {p : Nat} (h : Keeps s₀ s) : Keeps s₀ (s.partReset p) := by
  unfold State.partReset
  dsimp only
  split
  · exact h.ringRecord
  · split
    · split
      · exact h.ringRecord
      · exact .foldl (.foldl h fun _ _ h1 => h1.queueDisable) fun _ _ h2 => h2.engineReset
    · split
      · exact h.ringRecord
      · exact .foldl (.foldl h fun _ _ h3 => h3.queueDisable) fun _ _ h4 => h4.engineReset

theorem Keeps.resetChan {ch : Nat} (h : Keeps s₀ s) : Keeps s₀ (s.resetChan ch) := h.drainChan.setChan

theorem Keeps.dropAsids {p : Nat} (h : Keeps s₀ s) : Keeps s₀ (s.dropAsids p) := h

theorem Keeps.zeroScratch {p : Nat} (h : Keeps s₀ s) : Keeps s₀ (s.zeroScratch p) := h.mem (s.zeroScratch_wf ..)

theorem Keeps.partResetDone {p : Nat} (h : Keeps s₀ s) : Keeps s₀ (s.partResetDone p) := by
  unfold State.partResetDone
  split
  · exact h
  · split
    · exact h
    · extract_lets +onlyGivenNames s1 chs s2 s3 x s4
      have h1 : Keeps s₀ s1 := h.zeroScratch
      have h2 : Keeps s₀ s2 := (h1.foldl fun _ _ h3 => h3.resetChan).dropAsids
      have h4 : Keeps s₀ s3 := h2.foldl fun _ _ h5 => h5.queueReset
      have h6 : Keeps s₀ s4 := h4.setPart
      split
      · exact h6
      · exact h6.toRun

theorem Keeps.extApply {p : Nat} (h : Keeps s₀ s) : Keeps s₀ (s.extApply p) := by
  unfold State.extApply
  dsimp only
  split
  · exact h
  · exact h

theorem Keeps.evCfg {p : Nat} {v : W32} (h : Keeps s₀ s) : Keeps s₀ (s.evCfg p v) := by
  unfold State.evCfg
  dsimp only
  split
  · exact h
  · split
    · exact h
    · exact h

theorem Keeps.evCons {p : Nat} {v : W32} (h : Keeps s₀ s) : Keeps s₀ (s.evCons p v) := by
  unfold State.evCons
  dsimp only
  split
  · exact h
  · exact h

end Sys2Proof.Machine
end

section
/-! SUPPORT. What the operations of Machine / Session keep of memory, fuses and the queue. -/

namespace Sys2Proof.Machine
open Sys2Proof

variable {s₀ s t u : State}

theorem Keeps.setSess {i : Nat} {x : Sess} (h : Keeps s₀ s) : Keeps s₀ (s.setSess i x) := h

theorem Keeps.reply {sess : Nat} {code : BitVec 16} {tag : W32} {st : Status} {body : Bytes} (h : Keeps s₀ s) :
    Keeps s₀ (s.reply sess code tag st body) := by
  unfold State.reply
  split
  · exact h
  · dsimp only
    split
    · exact h
    · split
      · exact h
      · exact h

theorem Keeps.dropKey {slot : Nat} (h : Keeps s₀ s) : Keeps s₀ (s.dropKey slot) := h

theorem Keeps.loadSlots {l : Layout} (h : Keeps s₀ s) : Keeps s₀ (s.loadSlots l) := by
  unfold State.loadSlots
  dsimp only
  split
  · exact h
  · exact .foldl h fun _ _ h1 => h1

theorem Keeps.replaceSection {p : Nat} {c : PartSec} (h : Keeps s₀ s) : Keeps s₀ (s.replaceSection p c) := by
  unfold State.replaceSection
  extract_lets +onlyGivenNames s2 x
  have h1 : Keeps s₀ s2 := h.enforceSection
  split
  · exact h1.setPart.setHolds
  · exact h1

theorem Keeps.clearConsent {p : Nat} (h : Keeps s₀ s) : Keeps s₀ (s.clearConsent p) := h

theorem Keeps.newTenant {p : Nat} (h : Keeps s₀ s) : Keeps s₀ (s.newTenant p) := by
  unfold State.newTenant
  dsimp only
  exact .foldl h fun _ _ h1 => h1

theorem Keeps.loaded {r : Repl} (h : Keeps s₀ s) : Keeps s₀ (s.loaded r) := by
  unfold State.loaded
  extract_lets +onlyGivenNames s0 s1
  have h1 : Keeps s₀ s0 := by
    unfold s0
    split
    · exact h
    · exact h.newTenant
  have h2 : Keeps s₀ s1 := h1.replaceSection
  exact h2.reply

theorem Keeps.scrubEnd (h : Keeps s₀ s) : Keeps s₀ s.scrubEnd := by
  unfold State.scrubEnd
  split
  · exact h
  · extract_lets +onlyGivenNames _ s1 s2
    have h1 : Keeps s₀ s1 := .loadSlots h
    have h2 : Keeps s₀ s2 := by
      unfold s2
      split
      · exact h1
      · exact h1.loaded
    exact h2.foldl fun _ _ h3 => h3.unscrubbed

theorem Keeps.afterLoad {code : BitVec 16} (h : Keeps s₀ s) : Keeps s₀ (s.afterLoad code) := by
  unfold State.afterLoad
  split
  · exact h.scrubEnd
  · exact h

theorem Keeps.command {sess : Nat} {code : BitVec 16} {tag : W32} {act : State → State}
    (h : Keeps s₀ s) (hact : ∀ s, Keeps s₀ s → Keeps s₀ (act s)) :
    Keeps s₀ (s.command sess code tag act) := by
  unfold State.command
  split
  · exact h
  · extract_lets +onlyGivenNames _ s1
    have h1 : Keeps s₀ s1 := .afterLoad h
    split
    · exact h1.reply
    · exact hact _ h1

theorem Keeps.dropSession {i : Nat} (h : Keeps s₀ s) : Keeps s₀ (s.dropSession i) := by
  unfold State.dropSession
  split
  · exact .logPlain h
  · exact h

theorem Keeps.mgtSettle (h : Keeps s₀ s) : Keeps s₀ s.mgtSettle := by
  unfold State.mgtSettle
  split
  · split
    · exact h
    · exact h
  · exact h

theorem Keeps.closeAll (h : Keeps s₀ s) : Keeps s₀ s.closeAll := (h.foldl fun _ _ h1 => h1.dropSession).mgtSettle

theorem Keeps.flushLog (h : Keeps s₀ s) : Keeps s₀ s.flushLog := h

end Sys2Proof.Machine
end

section
/-! SUPPORT. What the operations of Machine / Power keep of memory, fuses and the queue. -/

namespace Sys2Proof.Machine
open Sys2Proof

variable {s₀ s t u : State}

theorem Keeps.allHeld (h : Keeps s₀ s) : Keeps s₀ s.allHeld := h.mem s.allHeld_wf

theorem Keeps.readFuses (h : Keeps s₀ s) : Keeps s₀ s.readFuses := h

theorem Keeps.strapPorts (h : Keeps s₀ s) : Keeps s₀ s.strapPorts := by
  unfold State.strapPorts
  dsimp only
  exact h.foldl fun _ _ h1 => h1

theorem Keeps.testEngine {e : Nat} {pass : Bool} (h : Keeps s₀ s) : Keeps s₀ (s.testEngine e pass) := by
  unfold State.testEngine
  dsimp only
  split
  · exact h
  · exact .ledgerAdd h

theorem Keeps.coldTests {out : BitVec 96} (h : Keeps s₀ s) : Keeps s₀ (s.coldTests out) := by
  unfold State.coldTests
  split
  · exact h
  · split
    rename_i _ s1 e
    have h1 : Keeps s₀ s1 := .of_snd e h
    extract_lets +onlyGivenNames s2
    have h2 : Keeps s₀ s2 := h1.foldl fun _ _ h3 => h3.testEngine
    exact h2.foldl fun _ _ h4 => h4

theorem Keeps.startTraining (h : Keeps s₀ s) : Keeps s₀ s.startTraining := by
  unfold State.startTraining
  extract_lets sp s1
  have h1 : Keeps s₀ s1 := by
    unfold s1
    refine Keeps.foldl h fun _ _ hs => ?_
    exact hs.setChan
  clear_value s1
  exact h1.to rfl

theorem Keeps.owlFirst {boot : OwlBoot} (h : Keeps s₀ s) : Keeps s₀ (s.owlFirst boot) := by
  unfold State.owlFirst
  split
  rename_i spd s' hs'
  have h' : Keeps s₀ s' := by
    refine .of_snd hs' ?_
    split <;> exact h
  clear hs'
  extract_lets +onlyGivenNames made s0 _ _ _ s1 s2 s3 s4 s5
  have hfuse : s'.fuse.Kept { s'.fuse with secret := s'.fuse.secret || s'.life == 0 } :=
    { FuseS.Kept.refl s'.fuse with secret := fun hb => by simp [hb] }
  have h1 : Keeps s₀ s1 := (h'.fuses hfuse).to rfl
  clear_value s1
  have h2 : Keeps s₀ s2 := by
    unfold s2
    split
    · exact h1
    · exact h1.logPlain
  clear_value s2
  have h3 : Keeps s₀ s3 := by
    unfold s3
    split
    · exact h2
    · exact h2.logPlain
  clear_value s3
  have h4 : Keeps s₀ s4 := h3.foldl fun _ _ h => h.layoutRejected
  clear_value s4
  have h5 : Keeps s₀ s5 := by
    unfold s5
    split
    · exact h4.loadSlots
    · exact h4
  exact h5.startTraining

theorem Keeps.trained {ch : Nat} {d0 : Dimm} (h : Keeps s₀ s) : Keeps s₀ (s.trained ch d0) := by
  unfold State.trained
  extract_lets +onlyGivenNames c d
  split
  · exact h
  · extract_lets +onlyGivenNames sp ok none_ d1 bad spare c1 s1 s2
    have h2 : Keeps s₀ s2 := h.setChan.tryHold.foldl fun _ _ h => h.ledgerAdd
    clear_value s2
    split
    · exact h2
    · exact h2.to rfl

theorem Keeps.sectionFailed {e : LayErr} (h : Keeps s₀ s) : Keeps s₀ (s.sectionFailed e) := by
  unfold State.sectionFailed
  extract_lets +onlyGivenNames s1
  have h1 : Keeps s₀ s1 := h.layoutRejected
  split
  · exact h1
  · dsimp only
    exact h1.setPart

theorem Keeps.sectionPassed {p : Nat} (h : Keeps s₀ s) : Keeps s₀ (s.sectionPassed p) := by
  unfold State.sectionPassed
  dsimp only
  split
  · exact h
  · exact h

theorem Keeps.takeLayout {l : Layout} {bad : List LayErr} (h : Keeps s₀ s) : Keeps s₀ (s.takeLayout l bad) := by
  unfold State.takeLayout
  extract_lets +onlyGivenNames s1 s2 q s3
  have h2 : Keeps s₀ s2 := by
    unfold s2
    exact h.enforce.foldl fun _ _ h => h.setChan
  clear_value s2
  have h3 : Keeps s₀ s3 := h2.to rfl
  clear_value s3
  exact (h3.foldl fun _ _ h => h.sectionPassed).foldl fun _ _ h => h.sectionFailed

theorem Keeps.bringIn {img : Option Bytes} {l : Layout} {bad : List LayErr} (h : Keeps s₀ s) : Keeps s₀ (s.bringIn img l bad) := by
  unfold State.bringIn
  extract_lets +onlyGivenNames s1 s2 top owl s3
  have h1 : Keeps s₀ s1 := by
    unfold s1
    refine h.foldl fun s c hs => ?_
    split
    · exact hs.setChan
    · exact hs
  have h2 : Keeps s₀ s2 := h1.loadSlots.takeLayout
  clear_value s2
  have h3 : Keeps s₀ s3 := h2.to rfl
  exact h3.foldl fun _ _ h => h.tryTrain

theorem Keeps.giveUp (h : Keeps s₀ s) : Keeps s₀ s.giveUp := h

theorem Keeps.imageDelivered {img : Bytes} {sess : Nat} {tag : W32} (h : Keeps s₀ s) : Keeps s₀ (s.imageDelivered img sess tag) := by
  unfold State.imageDelivered
  split
  · exact h.bringIn.reply
  · dsimp only
    exact .reply (.layoutRejected h)

theorem Keeps.tryBuiltin (h : Keeps s₀ s) : Keeps s₀ s.tryBuiltin := by
  unfold State.tryBuiltin
  dsimp only
  split
  · split
    · exact h
    · split
      · exact h.bringIn
      · exact .layoutRejected h
  · exact h

theorem Keeps.tryImages {n : Nat} (h : Keeps s₀ s) : Keeps s₀ (State.tryImages n s) := by
  -- What the images are has no part in it, and their checks must not be evaluated.
  delta State.tryImages State.tryImages._f
  generalize State.firstFormed = firstFormed
  induction n generalizing s with
  | zero => exact h.tryBuiltin
  | succ n ih =>
    dsimp only at ih ⊢
    split
    · exact h.tryBuiltin
    · split
      · exact h.bringIn
      · have h2 (l : List LayErr) {e : LayErr} : Keeps s₀ (l.foldl State.layoutRejected (s.layoutRejected e).giveUp) :=
          Keeps.foldl h.layoutRejected.giveUp fun _ _ h => h.layoutRejected
        exact .ite (fun _ => (h2 _).startTraining) fun _ => ih (h2 _)

theorem Keeps.contentChecks (h : Keeps s₀ s) : Keeps s₀ s.contentChecks := by
  unfold State.contentChecks
  split
  · exact h.imageDelivered
  · exact h.tryImages

theorem Keeps.fillAll {keep : Nat → Bool} (h : Keeps s₀ s) : Keeps s₀ (s.fillAll keep) := h.mem (s.fillAll_wf ..)

theorem Keeps.announce (h : Keeps s₀ s) : Keeps s₀ s.announce := h.foldl fun _ _ h1 => h1

theorem Keeps.epochNotes {warm : Bool} (h : Keeps s₀ s) : Keeps s₀ (s.epochNotes warm) := by
  unfold State.epochNotes
  refine h.foldl fun s a h1 => ?_
  dsimp only
  exact h1.multicast

theorem Keeps.recheckQueues (h : Keeps s₀ s) : Keeps s₀ s.recheckQueues := by
  unfold State.recheckQueues
  refine h.foldl fun s a h1 => ?_
  split
  · exact h1
  · exact h1.queueCheckIn

theorem Keeps.restartScrubs (h : Keeps s₀ s) : Keeps s₀ s.restartScrubs := h.foldl fun _ _ h1 => h1

theorem Keeps.wipeAdvance (h : Keeps s₀ s) : Keeps s₀ s.wipeAdvance := by
  unfold State.wipeAdvance
  split
  · extract_lets +onlyGivenNames l sec s1 s2 fl owl s3
    have h1 : Keeps s₀ s1 := h.to rfl
    have h2 : Keeps s₀ s2 := by
      unfold s2
      exact h1.foldl fun _ _ h => h.clearConsent
    clear_value s2
    have h3 : Keeps s₀ s3 := h2.to rfl
    exact (h3.foldl fun _ _ h => h.loadTraffic).loadSlots
  · exact h

theorem Keeps.startWipe (h : Keeps s₀ s) : Keeps s₀ s.startWipe := by
  unfold State.startWipe
  dsimp only
  exact .wipeAdvance (.foldl h fun _ _ h1 => h1.opHold)

theorem Keeps.handKept (h : Keeps s₀ s) : Keeps s₀ s.handKept := by
  unfold State.handKept
  dsimp only
  exact h.foldl fun _ _ h1 => h1.toRun

theorem Keeps.stopEngine {e : Nat} (h : Keeps s₀ s) : Keeps s₀ (s.stopEngine e) := by
  unfold State.stopEngine
  extract_lets +onlyGivenNames x lost s0 s1 s2
  have h1 : Keeps s₀ s2 := by
    unfold s2
    split
    · exact h
    · exact h
  exact h1.stopEnds

theorem Keeps.stopQueue {q : Nat} (h : Keeps s₀ s) : Keeps s₀ (s.stopQueue q) := by
  unfold State.stopQueue
  extract_lets +onlyGivenNames x s1 s2 y s3
  have h1 : Keeps s₀ s1 := by
    unfold s1
    split
    · exact h
    · exact .endStarted h
  have h2 : Keeps s₀ s2 := h1.cancelFetched
  have h3 : Keeps s₀ s3 := by
    unfold s3
    refine h2.foldl fun s a h4 => ?_
    split
    exact h4.endHandOver
  exact h3.setQueue

theorem Keeps.abandonLoad (h : Keeps s₀ s) : Keeps s₀ s.abandonLoad := by
  unfold State.abandonLoad
  split
  · exact h
  · exact .reply h

theorem Keeps.warmStep1 {tries : Nat} (h : Keeps s₀ s) : Keeps s₀ (s.warmStep1 tries) := by
  unfold State.warmStep1
  extract_lets s1 s2 s3 s4
  have h1 : Keeps s₀ s1 := h.flushRecords.foldl fun _ _ h => h.stopEngine
  have h2 : Keeps s₀ s2 := (h1.foldl fun _ _ h => h.stopQueue).flushRecords
  have h3 : Keeps s₀ s3 := by
    refine h2.foldl fun s x hs => ?_
    split
    split
    · exact hs.setPart
    · exact hs
  have h4 : Keeps s₀ s4 := h3.abandonLoad
  clear_value s4
  exact h4.to rfl

theorem Keeps.flushLine {e : Nat × CLine} (h : Keeps s₀ s) : Keeps s₀ (s.flushLine e) := by
  unfold State.flushLine
  split
  · split
    · exact h.dramStore
    · exact h
  · exact h

theorem Keeps.flushAll (h : Keeps s₀ s) : Keeps s₀ s.flushAll := by
  unfold State.flushAll
  extract_lets +onlyGivenNames s1
  have h1 : Keeps s₀ s1 := by
    unfold s1
    refine h.foldl fun s a h2 => ?_
    extract_lets +onlyGivenNames s1
    have h3 : Keeps s₀ s1 := h2.flushLine
    split
    · exact h2.flushLine.to rfl
    · exact h3
  exact h1.foldl fun _ _ h4 => h4.flushLine

theorem Keeps.selfRefresh {ch : Nat} (h : Keeps s₀ s) : Keeps s₀ (s.selfRefresh ch) := by
  unfold State.selfRefresh
  split
  · extract_lets +onlyGivenNames s1
    have h1 : Keeps s₀ s1 := h.drainChan
    exact h1.setChan.scrubPause
  · exact h

theorem Keeps.partCore {p : Nat} (h : Keeps s₀ s) : Keeps s₀ (s.partCore p) := by
  unfold State.partCore
  dsimp only
  exact .foldl h fun _ _ h1 => h1

theorem Keeps.coreReset (h : Keeps s₀ s) : Keeps s₀ s.coreReset := by
  unfold State.coreReset
  dsimp only
  exact .foldl h fun _ _ h1 => h1.partCore

theorem Keeps.zeroPool {base count : Nat} (h : Keeps s₀ s) : Keeps s₀ (s.zeroPool base count) := h.mem (s.zeroPool_wf ..)

theorem Keeps.reload (h : Keeps s₀ s) : Keeps s₀ s.reload := by
  unfold State.reload
  extract_lets +onlyGivenNames again
  have h1 (s : State) (h1 : Keeps s₀ s) : Keeps s₀ (again s) := h1
  split
  · refine h1 _ ?_
    split
    · exact h
    · exact h.layoutRejected
  · dsimp only
    split
    · exact .layoutRejected h
    · split
      · exact h1 _ h
      · refine Keeps.to ?_ rfl
        refine .foldl ?_ fun s a h4 => ?_
        · refine Keeps.to ?_ rfl
          refine .foldl ?_ fun _ _ h3 => h3
          refine .foldl (.takeLayout h) fun s a h2 => ?_
          split
          exact h2.zeroPool
        · dsimp only
          split
          · exact h4
          · exact .logEvent h4

theorem Keeps.stopsEnd (h : Keeps s₀ s) : Keeps s₀ s.stopsEnd := by
  unfold State.stopsEnd
  split
  · exact h.foldl fun _ _ h1 => h1.stopEnds
  · exact h

theorem Keeps.warmHold (h : Keeps s₀ s) : Keeps s₀ s.warmHold := by
  unfold State.warmHold
  extract_lets +onlyGivenNames s1 s2 s3 s4 s5 s6
  have h1 : Keeps s₀ s1 := h.flushRecords
  have h2 : Keeps s₀ s2 := by
    unfold s2
    exact h1.foldl fun _ _ h => h.drainChan
  have h3 : Keeps s₀ s3 := h2.flushAll
  have h4 : Keeps s₀ s4 := by
    unfold s4
    refine Keeps.foldl h3 fun s c hs => ?_
    exact hs.setChan.selfRefresh
  have h6 : Keeps s₀ s6 := h4.coreReset.writeCfg
  have h7 : Keeps s₀ s6.reload := h6.reload
  clear_value s6
  generalize s6.reload = s7 at h7
  exact h7.to rfl

theorem Keeps.warmExit (h : Keeps s₀ s) : Keeps s₀ s.warmExit := by
  unfold State.warmExit
  extract_lets +onlyGivenNames s1 s2
  have h1 : Keeps s₀ s1 := h.mem ⟨id, fun _ => rfl⟩
  have h2 : Keeps s₀ s2 := h1.writeCfg
  clear_value s2
  refine h2.foldl fun s p hs => ?_
  refine Keeps.foldl hs fun s i hs => ?_
  split
  · exact hs
  · split
    · exact hs
    · extract_lets v
      split
      · exact hs.dramStore
      · exact hs

theorem Keeps.warmFails (h : Keeps s₀ s) : Keeps s₀ s.warmFails := by
  unfold State.warmFails
  extract_lets +onlyGivenNames s1
  have h1 : Keeps s₀ s1 := h.logEvent
  split
  · exact h1.warmStep1
  · exact h.logEvent.to rfl

theorem Keeps.selfTests {tests : BitVec 96} (h : Keeps s₀ s) : Keeps s₀ (s.selfTests tests) := by
  unfold State.selfTests
  extract_lets +onlyGivenNames s1
  have h1 : Keeps s₀ s1 := h.foldl fun _ _ h2 => h2.testEngine
  refine h1.foldl fun s a h3 => ?_
  dsimp only
  split
  · exact h3
  · exact h3

end Sys2Proof.Machine
end

section
/-! SUPPORT. What the operations of Machine / PowerStates keep of memory, fuses and the queue. -/

namespace Sys2Proof.Machine
open Sys2Proof

variable {s₀ s t u : State}

theorem Keeps.gateEngines {v : Bool} (h : Keeps s₀ s) : Keeps s₀ (s.gateEngines v) := by
  unfold State.gateEngines
  refine h.foldl fun s a h1 => ?_
  dsimp only
  split
  · exact h1
  · exact h1

theorem Keeps.narrowPorts (h : Keeps s₀ s) : Keeps s₀ s.narrowPorts := by
  unfold State.narrowPorts
  refine h.foldl fun s a h1 => ?_
  dsimp only
  split
  · exact h1
  · exact h1

theorem Keeps.lanesOff (h : Keeps s₀ s) : Keeps s₀ s.lanesOff := by
  unfold State.lanesOff
  refine h.foldl fun s a h1 => ?_
  split
  · exact h1
  · exact h1.foldl fun _ _ h2 => h2.lnkLanePower

theorem Keeps.lanesOn (h : Keeps s₀ s) : Keeps s₀ s.lanesOn := by
  unfold State.lanesOn
  refine h.foldl fun s a h1 => ?_
  split
  · exact h1
  · exact h1.foldl fun _ _ h2 => h2.lnkLanePower

theorem Keeps.widenPorts (h : Keeps s₀ s) : Keeps s₀ s.widenPorts := by
  unfold State.widenPorts
  refine h.foldl fun s a h1 => ?_
  dsimp only
  split
  · exact h1
  · split
    · exact h1
    · exact h1

theorem Keeps.wakeDram (h : Keeps s₀ s) : Keeps s₀ s.wakeDram := by
  unfold State.wakeDram
  dsimp only
  exact .foldl h fun _ _ h1 => h1.scrubResume

theorem Keeps.dropSegments {ch : Nat} (h : Keeps s₀ s) : Keeps s₀ (s.dropSegments ch) := by
  unfold State.dropSegments
  extract_lets +onlyGivenNames c n
  refine Keeps.foldl h fun s i hs => ?_
  split
  · exact hs
  · exact hs.mem ⟨czero_wf _ _ _, id⟩

theorem Keeps.sweepSett {n : Nat} (h : Keeps s₀ s) : Keeps s₀ (s.sweepSett n) := by
  unfold State.sweepSett
  dsimp only
  split
  · exact h
  · split
    · refine Keeps.dropTxn ?_
      refine .foldl h fun s a h1 => ?_
      split
      · exact h1.recallEntry.unanswered fun _ _ h2 => h2.death
      · exact h1
    · refine .foldl h fun s a h3 => ?_
      split
      · exact h3.recallEntry.unanswered fun _ _ h4 => h4.death
      · exact h3

theorem Keeps.powerReply {st : Status} (h : Keeps s₀ s) : Keeps s₀ (s.powerReply st) := by
  unfold State.powerReply
  dsimp only
  exact .reply h

theorem Keeps.powerBegin {target : PwrState} (h : Keeps s₀ s) : Keeps s₀ (s.powerBegin target) := h

theorem Keeps.gated (h : Keeps s₀ s) : Keeps s₀ s.gated := by
  unfold State.gated
  extract_lets +onlyGivenNames s1
  have h1 : Keeps s₀ s1 := h.gateEngines
  clear_value s1
  exact .powerReply (h1.to rfl)

theorem Keeps.powerAdvance (h : Keeps s₀ s) : Keeps s₀ s.powerAdvance := by
  unfold State.powerAdvance
  extract_lets +onlyGivenNames o
  split
  · extract_lets +onlyGivenNames s1
    have h1 : Keeps s₀ s1 := h.gateEngines
    have h2 : Keeps s₀ s1.narrowPorts := h1.narrowPorts
    clear_value s1
    split
    · exact h1
    · split
      · generalize s1.narrowPorts = s2 at h2
        exact h2.to rfl
      · refine Keeps.foldl ?_ fun _ _ h => h.sweepSett
        exact h1.to rfl
  · exact h

theorem Keeps.holdAll (h : Keeps s₀ s) : Keeps s₀ s.holdAll := by
  unfold State.holdAll
  extract_lets +onlyGivenNames ps s1
  have h1 : Keeps s₀ s1 := h.foldl fun _ _ h2 => h2.opHold
  exact (h.foldl fun _ _ h3 => h3.opHold).to rfl

theorem Keeps.releaseHolds (h : Keeps s₀ s) : Keeps s₀ s.releaseHolds := by
  unfold State.releaseHolds
  extract_lets +onlyGivenNames s1
  have h1 : Keeps s₀ s1 := h.foldl fun _ _ h2 => h2.opHold
  exact (h.foldl fun _ _ h3 => h3.opHold).to rfl

theorem Keeps.enterState {target : PwrState} (h : Keeps s₀ s) : Keeps s₀ (s.enterState target) := by
  unfold State.enterState
  dsimp only
  split
  · split
    · exact h
    · exact .gated h
  · exact .powerAdvance (.holdAll h)
  · exact .powerAdvance (.holdAll h)
  · exact .powerReply h
  · exact .powerReply h

theorem Keeps.takeHeldWbk (h : Keeps s₀ s) : Keeps s₀ s.takeHeldWbk := by
  unfold State.takeHeldWbk
  dsimp only
  exact .foldl h fun _ _ h1 => h1.wbIn

theorem Keeps.leaveState {target : PwrState} (h : Keeps s₀ s) : Keeps s₀ (s.leaveState target) := by
  unfold State.leaveState
  extract_lets +onlyGivenNames s1
  have h1 : Keeps s₀ s1 := h.powerBegin
  clear_value s1
  split
  · extract_lets +onlyGivenNames s2 x s3
    have h2 : Keeps s₀ s2 := h1.gateEngines
    clear_value s2
    have h3 : Keeps s₀ s3 := h2.to rfl
    clear_value s3
    split
    · exact h3.powerReply
    · exact h3.enterState
  · exact h1.takeHeldWbk.wakeDram.lanesOn
  · exact h1.wakeDram.lanesOn

theorem Keeps.powerOff (h : Keeps s₀ s) : Keeps s₀ s.powerOff := by
  unfold State.powerOff
  extract_lets +onlyGivenNames s1 x s2
  have h1 : Keeps s₀ s1 := h.flushLog
  clear_value s1
  have h2 : Keeps s₀ s2 := .reply (h1.to rfl)
  clear_value s2
  exact h2.to rfl

theorem Keeps.powerState {sess : Nat} {tag : W32} {target : PwrState} (h : Keeps s₀ s) : Keeps s₀ (s.powerState sess tag target) := by
  unfold State.powerState
  refine h.command fun s h1 => ?_
  dsimp only
  split
  · exact h1.reply
  · split
    · exact h1.reply
    · split
      · exact .powerOff h1
      · split
        · exact .enterState h1
        · exact .leaveState h1

theorem Keeps.abandonEntry (h : Keeps s₀ s) : Keeps s₀ s.abandonEntry := by
  unfold State.abandonEntry
  extract_lets +onlyGivenNames s1 s2
  have h2 : Keeps s₀ s2 := h.powerReply.releaseHolds.gateEngines.wakeDram
  clear_value s2
  exact h2.to rfl

theorem Keeps.startWarm (h : Keeps s₀ s) : Keeps s₀ s.startWarm := h.warmStep1.takeHeldWbk

theorem Keeps.warmRequest (h : Keeps s₀ s) : Keeps s₀ s.warmRequest := by
  unfold State.warmRequest
  refine .ite (fun _ => h) fun _ => .ite (fun _ => h) fun _ => .ite (fun _ => h.startWarm) fun _ => .ite (fun _ => h.logPlain) fun _ =>
    .ite (fun _ => h.to rfl) fun _ => .ite (fun _ => .ite (fun _ => h.abandonEntry.startWarm) fun _ => h.startWarm) fun _ => .ite (fun _ => ?_)
    fun _ => ?_
  · extract_lets +onlyGivenNames s1 s2
    have h1 : Keeps s₀ s1 := .ite (fun _ => h.powerReply) fun _ => h
    have h2 : Keeps s₀ s2 := h1.gateEngines
    clear_value s2
    exact .startWarm (h2.to rfl)
  · extract_lets +onlyGivenNames x s1
    have h1 : Keeps s₀ s1 := h
    clear_value s1
    refine .ite (fun _ => h1) fun _ => ?_
    exact .leaveState (h1.to rfl)

theorem Keeps.exitEnds (h : Keeps s₀ s) : Keeps s₀ s.exitEnds := by
  unfold State.exitEnds
  extract_lets +onlyGivenNames s1 x s2
  have h1 : Keeps s₀ s1 := h.gateEngines
  clear_value s1
  have h2 : Keeps s₀ s2 := .releaseHolds (h1.to rfl)
  clear_value s2
  split
  · exact .startWarm (.powerReply (h2.to rfl))
  · split
    · exact h2.powerReply
    · exact h2.enterState

theorem Keeps.entryEnds (h : Keeps s₀ s) : Keeps s₀ s.entryEnds := by
  unfold State.entryEnds
  extract_lets +onlyGivenNames s1 s2
  have h1 : Keeps s₀ s1 := by
    unfold s1
    exact h.lanesOff.foldl fun _ _ h => h.selfRefresh
  clear_value s1
  have h2 : Keeps s₀ s2 := by
    unfold s2
    split
    · exact h1.to rfl
    · exact h1
  clear_value s2
  exact .powerReply (h2.to rfl)

theorem Keeps.powerReached (h : Keeps s₀ s) : Keeps s₀ s.powerReached := by
  unfold State.powerReached
  extract_lets +onlyGivenNames o
  split
  · exact h
  · split
    · split
      · split
        · exact h
        · exact h.gated
      · split
        · exact h.powerAdvance
        · split
          · exact h.entryEnds
          · exact h
      · split
        · exact h.powerAdvance
        · split
          · exact h.entryEnds
          · exact h
      · exact h
    · split
      · split
        · exact h
        · extract_lets +onlyGivenNames s1
          have h1 : Keeps s₀ s1 := h.widenPorts
          clear_value s1
          split
          · exact h1.to rfl
          · exact h1.exitEnds
      · split
        · exact h
        · exact h.exitEnds

theorem Keeps.sweepEnds (h : Keeps s₀ s) : Keeps s₀ s.sweepEnds := by
  unfold State.sweepEnds
  extract_lets +onlyGivenNames o
  split
  · exact h
  · extract_lets +onlyGivenNames s1
    have h1 : Keeps s₀ s1 := by
      unfold s1
      exact h.foldl fun _ _ h => h.sweepSett
    clear_value s1
    split
    · exact h1
    · split
      · exact h1
      · extract_lets +onlyGivenNames s2 s3 s4
        have h2 : Keeps s₀ s2 := by
          unfold s2
          refine Keeps.flushAll ?_
          exact h1.foldl fun _ _ h => h.drainChan
        clear_value s2
        have h3 : Keeps s₀ s3 := h2.to rfl
        clear_value s3
        have h4 : Keeps s₀ s4 := by
          unfold s4
          refine Keeps.foldl h3 fun s c hs => ?_
          exact hs.selfRefresh.dropSegments
        have h5 : Keeps s₀ s4.narrowPorts := h4.narrowPorts
        clear_value s4
        generalize s4.narrowPorts = s5 at h5
        exact h5.to rfl

end Sys2Proof.Machine
end

section
/-! SUPPORT. What the operations of Machine / Security keep of memory, fuses and the queue. -/

namespace Sys2Proof.Machine
open Sys2Proof

variable {s₀ s t u : State}

theorem Keeps.tokenInstall {p : Nat} (h : Keeps s₀ s) : Keeps s₀ (s.tokenInstall p) := by
  unfold State.tokenInstall
  dsimp only
  split
  · exact h
  · exact h

theorem Keeps.tokenRevoke {p : Nat} (h : Keeps s₀ s) : Keeps s₀ (s.tokenRevoke p) := h

theorem Keeps.burn {i : Nat} (h : Keeps s₀ s) : Keeps s₀ (s.burn i) := by
  have hfuse : s.fuse.Kept { s.fuse with life := setBit s.fuse.life i } := { FuseS.Kept.refl s.fuse with life := and_setBit _ _ }
  exact (h.fuses hfuse).to rfl

theorem Keeps.d2Opens (h : Keeps s₀ s) : Keeps s₀ s.d2Opens := .foldl h fun _ _ h1 => h1

theorem Keeps.changeLife {b : Bytes} (h : Keeps s₀ s) : Keeps s₀ (s.changeLife b) := by
  unfold State.changeLife
  extract_lets +onlyGivenNames old t bit s1 s2 s3
  have h2 : Keeps s₀ s2 := h.burn.ledgerAdd
  clear_value s2
  have h3 : Keeps s₀ s3 := by
    unfold s3
    split
    · exact h2.writeCfg
    · exact h2
  clear_value s3
  split
  · exact h3.startWipe
  · split
    · have hfuse : s3.fuse.Kept { s3.fuse with ones := true } := { FuseS.Kept.refl s3.fuse with ones := fun _ => rfl }
      exact (h3.fuses hfuse).to rfl
    · exact h3

theorem Keeps.carryOut {b : Bytes} (h : Keeps s₀ s) : Keeps s₀ (s.carryOut b) := by
  unfold State.carryOut
  extract_lets +onlyGivenNames s1
  have h1 : Keeps s₀ s1 := h.logPlain
  split
  · extract_lets +onlyGivenNames s2
    have h2 : Keeps s₀ s2 := by
      unfold s2
      split
      · exact h1.writeCfg
      · exact h1
    split
    · exact h2.d2Opens
    · exact h2
  · exact h1.changeLife

theorem Keeps.lifecycle {sess : Nat} {tag : W32} {b : Bytes} (h : Keeps s₀ s) : Keeps s₀ (s.lifecycle sess tag b) := by
  unfold State.lifecycle
  extract_lets +onlyGivenNames held s0
  have h1 : Keeps s₀ s0 := by
    unfold s0
    split
    · exact h
    · exact h
  refine h1.command fun s h2 => ?_
  dsimp only
  split
  · exact h2.carryOut.reply
  · exact .reply h2

theorem Keeps.zeroCopies (h : Keeps s₀ s) : Keeps s₀ s.zeroCopies := h

theorem Keeps.wipeEnds (h : Keeps s₀ s) : Keeps s₀ s.wipeEnds := by
  unfold State.wipeEnds
  split
  · extract_lets +onlyGivenNames keep s1 b s2 fl sec s3
    have h1 : Keeps s₀ s1 := h.fillAll.zeroCopies
    have h2 : Keeps s₀ s2 := h1.ledgerAdd
    clear_value s2
    have h3 : Keeps s₀ s3 := h2.to rfl
    clear_value s3
    split
    · exact .warmRequest (h3.to rfl)
    · exact h3
  · exact h

/-- The state of an SPDM answer is that of its message, but for the nonce drawn. -/
def OnlyDraws (s : State) (r : Spdm × Bytes × State) : Prop := ∃ n, r.2.2 = { s with free := n }

theorem OnlyDraws.ite {a b : Spdm × Bytes × State} {p : Prop} {_ : Decidable p} (ha : OnlyDraws s a) (hb : OnlyDraws s b) :
    OnlyDraws s (if p then a else b) := iteInduction (fun _ => ha) fun _ => hb

theorem State.spdmAnswer_draws (who : Option Nat) (x : Spdm) (m : Bytes) : OnlyDraws s (s.spdmAnswer who x m) := by
  have same (y : Spdm) (r : Bytes) : OnlyDraws s (y, r, s) := ⟨s.free, rfl⟩
  have drawn (y : Spdm) (r : Bytes) : OnlyDraws s (y, r, (s.drawBits 256).2) := ⟨s.free + 1, rfl⟩
  unfold State.spdmAnswer
  extract_lets +onlyGivenNames code known err need
  have herr (c : Byte) : OnlyDraws s (err c) := same ..
  clear_value err need
  refine .ite (herr 5) (.ite (herr 7) (.ite (same ..) (.ite (herr _) (.ite (herr _) (.ite (same ..) (.ite (same ..) (.ite (same ..)
    (.ite (.ite (herr _) (same ..)) ?_))))))))
  exact .ite (.ite (herr _) (drawn ..)) (.ite (herr _) (.ite (.ite (herr _) (drawn ..)) (drawn ..)))

theorem Keeps.spdmCommand {sess : Nat} {tag : W32} {m : Bytes} (h : Keeps s₀ s) : Keeps s₀ (s.spdmCommand sess tag m) := by
  unfold State.spdmCommand
  refine h.command fun s hs => ?_
  split
  · exact hs.reply
  · split
    · exact hs.reply
    · split
      · exact hs.reply
      · split
        rename_i x r s1 e
        obtain ⟨n, hn⟩ := s.spdmAnswer_draws none (s.sess sess).spdm m
        rw [e] at hn
        have h1 : Keeps s₀ s1 := by
          rw [show s1 = _ from hn]
          exact hs.to rfl
        exact h1.setSess.reply

theorem Keeps.spdmDrop {p : Nat} (h : Keeps s₀ s) : Keeps s₀ (s.spdmDrop p) := h

theorem Keeps.spdmPacket {p : Nat} {ws : List FWord} (h : Keeps s₀ s) : Keeps s₀ (s.spdmPacket p ws) := by
  unfold State.spdmPacket
  extract_lets +onlyGivenNames bs n m
  split
  · exact h.spdmDrop
  · extract_lets +onlyGivenNames d
    split
    rename_i x r s1 e
    obtain ⟨n, hn⟩ := s.spdmAnswer_draws (some p) d.spdm m
    rw [e] at hn
    have h1 : Keeps s₀ s1 := by
      rw [show s1 = _ from hn]
      exact h.to rfl
    extract_lets +onlyGivenNames out
    split
    · exact h.spdmDrop
    · exact h1.setDbg

end Sys2Proof.Machine
end

section
/-! SUPPORT. What the operations of Machine / HostPort keep of memory, fuses and the queue. -/

namespace Sys2Proof.Machine
open Sys2Proof

variable {s₀ s t u : State}

theorem Keeps.dropPackets {q : Nat → Bool} (h : Keeps s₀ s) : Keeps s₀ (s.dropPackets q) := by
  unfold State.dropPackets
  dsimp only
  exact .foldl h fun _ _ h1 => h1.admitRing

theorem Keeps.qpWrite {q j : Nat} {v : W32} (h : Keeps s₀ s) : Keeps s₀ (s.qpWrite q j v) := by
  unfold State.qpWrite
  dsimp only
  split
  · exact h
  · split
    · exact h
    · split
      · exact h
      · split
        · exact h
        · exact .dropPackets h

theorem Keeps.rkeyWrite {i j : Nat} {v : W32} (h : Keeps s₀ s) : Keeps s₀ (s.rkeyWrite i j v) := by
  unfold State.rkeyWrite
  dsimp only
  split
  · exact h
  · split
    · exact h
    · exact h

theorem Keeps.dropHostEntries {p : Nat} (h : Keeps s₀ s) : Keeps s₀ (s.dropHostEntries p) := by
  unfold State.dropHostEntries
  dsimp only
  exact .dropPackets h

end Sys2Proof.Machine
end

section
/-! SUPPORT. What the operations of Machine / Registers keep of memory, fuses and the queue. -/

namespace Sys2Proof.Machine
open Sys2Proof

variable {s₀ s t u : State}

theorem Keeps.pageW1c {p i : Nat} {v b : W32} (h : Keeps s₀ s) : Keeps s₀ (s.pageW1c p i v b) := by
  unfold State.pageW1c
  dsimp only
  split
  · exact h
  · exact h

theorem Keeps.w1cWrite {off : Nat} {v sets : W32} (h : Keeps s₀ s) : Keeps s₀ (s.w1cWrite off v sets) := by
  unfold State.w1cWrite
  split
  · exact h
  · exact h
  · exact h
  · exact h
  · exact h
  · exact h
  · exact h
  · exact h
  · exact h
  · exact h
  · exact h
  · exact h.pageW1c
  · exact h

theorem Keeps.setFifo {f : FifoId} {x : Fifo} (h : Keeps s₀ s) : Keeps s₀ (s.setFifo f x) := by
  unfold State.setFifo
  split
  · exact h
  · exact h
  · exact h

theorem Keeps.fifoErr {f : FifoId} (h : Keeps s₀ s) : Keeps s₀ (s.fifoErr f) := by
  unfold State.fifoErr
  split
  · exact h
  · exact h
  · exact h

theorem Keeps.fifoPop {f : FifoId} (h : Keeps s₀ s) : Keeps s₀ (s.fifoPop f) := by
  unfold State.fifoPop
  split
  · exact h.fifoErr
  · exact h.setFifo

theorem Keeps.fifoDrop {f : FifoId} (h : Keeps s₀ s) : Keeps s₀ (s.fifoDrop f) := by
  unfold State.fifoDrop
  dsimp only
  split
  · exact h.setFifo
  · exact h.setFifo

theorem Keeps.fifoPush {f : FifoId} {w : FWord} (h : Keeps s₀ s) : Keeps s₀ (s.fifoPush f w) := by
  unfold State.fifoPush
  dsimp only
  split
  · exact h.setFifo
  · split
    · exact h.setFifo.fifoErr
    · split
      · exact h.fifoErr
      · exact h.setFifo

theorem Keeps.spdmPush {p : Nat} {w : FWord} (h : Keeps s₀ s) : Keeps s₀ (s.spdmPush p w) := by
  unfold State.spdmPush
  extract_lets +onlyGivenNames s1
  have h1 : Keeps s₀ s1 := h.fifoPush
  split
  · exact h1
  · exact h1.setFifo.spdmPacket

theorem Keeps.pathPush {f : FifoId} {w : FWord} (h : Keeps s₀ s) : Keeps s₀ (s.pathPush f w) := by
  unfold State.pathPush
  split
  · exact h.fifoErr
  · exact h.spdmPush
  · exact h.fifoPush

theorem Keeps.fifoWrite {f : FifoId} {i : Nat} {v : W32} (h : Keeps s₀ s) : Keeps s₀ (s.fifoWrite f i v) := by
  unfold State.fifoWrite
  split
  · split
    · exact h.fifoPop
    · split
      · exact h.fifoDrop
      · exact h
  · split
    · exact h.pathPush
    · split
      · exact h.pathPush
      · exact h

theorem Keeps.lnkCmd {k : Nat} {v : W32} (h : Keeps s₀ s) : Keeps s₀ (s.lnkCmd k v) := by
  unfold State.lnkCmd
  extract_lets +onlyGivenNames st s1 s2
  have h1 : Keeps s₀ s1 := by
    unfold s1
    split
    · exact h.lnkTakeDown
    · exact h
  have h2 : Keeps s₀ s2 := by
    unfold s2
    split
    · exact h1.lnkRetrain
    · exact h1
  split
  · exact h2.lnkPlanGo
  · exact h2

theorem Keeps.lnkCtrl {k : Nat} {v : W32} (h : Keeps s₀ s) : Keeps s₀ (s.lnkCtrl k v) := by
  unfold State.lnkCtrl
  extract_lets +onlyGivenNames s1
  have h1 : Keeps s₀ s1 := by
    unfold s1
    split
    · exact h
    · exact h.lnkEnable
  exact h1.lnkAutoUp.lnkAutoDrop

theorem Keeps.laneWrite {k l : Nat} {v : W32} (h : Keeps s₀ s) : Keeps s₀ (s.laneWrite k l v) := by
  unfold State.laneWrite
  extract_lets +onlyGivenNames s1
  have h1 : Keeps s₀ s1 := by
    unfold s1
    split
    · exact h
    · exact h.lnkLanePower
  split
  · exact h1.lnkClearFail
  · exact h1

theorem Keeps.lnkWrite {k i : Nat} {v : W32} (h : Keeps s₀ s) : Keeps s₀ (s.lnkWrite k i v) := by
  unfold State.lnkWrite
  dsimp only
  split
  · exact h.lnkCtrl
  · exact h.lnkCmd
  · exact h
  · exact h
  · exact h
  · exact h
  · exact h
  · exact h
  · split
    · exact h.laneWrite
    · exact h

theorem Keeps.settWrite {m i : Nat} {v : W32} (h : Keeps s₀ s) : Keeps s₀ (s.settWrite m i v) := by
  unfold State.settWrite
  dsimp only
  split
  · exact h
  · exact h
  · split
    · refine Keeps.paircmdResync ?_
      split
      · exact h.paircmdFailover
      · exact h
    · split
      · exact h.paircmdFailover
      · exact h
  · exact h

theorem Keeps.foxCtrl {e : Nat} (h : Keeps s₀ s) : Keeps s₀ (s.foxCtrl e) := by
  unfold State.foxCtrl
  extract_lets +onlyGivenNames s1
  have h1 : Keeps s₀ s1 := h.engineReset
  split
  · exact h1.setEng
  · exact h1

theorem Keeps.foxWrite {e i : Nat} {v : W32} (h : Keeps s₀ s) : Keeps s₀ (s.foxWrite e i v) := by
  unfold State.foxWrite
  split
  · split
    · exact h.foxCtrl
    · exact h
  · split
    · exact h.fifoWrite
    · exact h

theorem Keeps.xltWrite {i : Nat} {v : W32} (h : Keeps s₀ s) : Keeps s₀ (s.xltWrite i v) := by
  unfold State.xltWrite
  dsimp only
  split
  · exact h
  · split
    · exact h
    · split
      · exact h.owlInvalidate
      · exact h

theorem Keeps.burWrite {i : Nat} {v : W32} (h : Keeps s₀ s) : Keeps s₀ (s.burWrite i v) := by
  unfold State.burWrite
  dsimp only
  split
  · exact h
  · exact h
  · split
    · exact h.extApply
    · exact h
  · exact h

theorem Keeps.drcWrite {ch i : Nat} {v : W32} (h : Keeps s₀ s) : Keeps s₀ (s.drcWrite ch i v) := by
  unfold State.drcWrite
  dsimp only
  split
  · split
    · exact h
    · exact h.drcHold
  · exact h.drcTiming
  · exact h.drcTiming
  · exact h.drcTiming
  · exact h.drcTiming
  · exact h
  · exact h
  · exact h
  · split
    · exact .startMigration h
    · exact h
  · split
    · exact h
    · exact h
  · exact h

theorem Keeps.qosWrite {i : Nat} {v : W32} (h : Keeps s₀ s) : Keeps s₀ (s.qosWrite i v) := by
  unfold State.qosWrite
  dsimp only
  split
  · split
    · exact h.qosApply
    · exact h
  · exact h

theorem Keeps.hportWrite {k i : Nat} {v : W32} (h : Keeps s₀ s) : Keeps s₀ (s.hportWrite k i v) := by
  unfold State.hportWrite
  dsimp only
  split
  · exact h
  · exact h
  · exact h
  · exact h
  · exact h
  · exact h
  · exact h
  · exact h
  · exact h
  · exact h
  · exact h
  · exact h

theorem Keeps.hstWrite {i : Nat} {v : W32} (h : Keeps s₀ s) : Keeps s₀ (s.hstWrite i v) := by
  unfold State.hstWrite
  split
  · exact h.hportWrite
  · split
    · exact h.qpWrite
    · exact h.rkeyWrite

theorem Keeps.qenWrite {p k : Nat} {v : W32} (h : Keeps s₀ s) : Keeps s₀ (s.qenWrite p k v) := by
  unfold State.qenWrite
  refine h.foldl fun s a h1 => ?_
  split
  · exact h1
  · split
    · exact h1
    · split
      · exact h1.queueEnable
      · exact h1.queueDisable

theorem Keeps.dbgCtrl {p : Nat} {v : W32} (h : Keeps s₀ s) : Keeps s₀ (s.dbgCtrl p v) := by
  unfold State.dbgCtrl
  extract_lets +onlyGivenNames s1 s2
  have h1 : Keeps s₀ s1 := by
    unfold s1
    split
    · exact h
    · exact h
  have h2 : Keeps s₀ s2 := by
    unfold s2
    split
    · exact h1.tokenInstall
    · exact h1
  split
  · exact h2.tokenRevoke
  · exact h2

theorem Keeps.dbgWrite {p i : Nat} {v : W32} (h : Keeps s₀ s) : Keeps s₀ (s.dbgWrite p i v) := by
  unfold State.dbgWrite
  dsimp only
  split
  · exact h.dbgCtrl
  · split
    · exact h
    · split
      · exact h
      · exact h.fifoWrite

theorem Keeps.partCtrl {path : Path} {p : Nat} {v : W32} (h : Keeps s₀ s) : Keeps s₀ (s.partCtrl path p v) := h.setHolds

theorem Keeps.qResetWrite {p : Nat} {v : W32} (h : Keeps s₀ s) : Keeps s₀ (s.qResetWrite p v) := by
  unfold State.qResetWrite
  dsimp only
  split
  · exact .queueReset h
  · exact h

theorem Keeps.pageWrite {path : Path} {p i : Nat} {v : W32} (h : Keeps s₀ s) : Keeps s₀ (s.pageWrite path p i v) := by
  unfold State.pageWrite
  dsimp only
  split
  · exact h.partCtrl
  · split
    · split
      · exact h.partReset
      · exact h
    · split
      · exact h.qenWrite
      · split
        · exact h.qResetWrite
        · split
          · exact h
          · split
            · exact h
            · split
              · exact h
              · split
                · exact h.evCfg
                · split
                  · exact h.evCons
                  · split
                    · exact h.dbgWrite
                    · exact h

theorem Keeps.effect {path : Path} {off : Nat} {v : W32} (h : Keeps s₀ s) : Keeps s₀ (s.effect path off v) := by
  unfold State.effect
  split
  · exact h
  · exact h.lnkWrite
  · exact h.settWrite
  · exact h.foxWrite
  · exact h.xltWrite
  · exact h.burWrite
  · exact h.drcWrite
  · exact h.qosWrite
  · exact h.hstWrite
  · exact h.fifoWrite
  · exact h
  · exact h.pageWrite
  · exact h

theorem Keeps.unlockReg {path : Path} {u : Nat} {v : W32} (h : Keeps s₀ s) : Keeps s₀ (s.unlockReg path u v) := by
  unfold State.unlockReg
  dsimp only
  split
  · exact h
  · exact h

theorem Keeps.regWrite {path : Path} {off : Nat} {v : W32} (h : Keeps s₀ s) : Keeps s₀ (s.regWrite path off v) := by
  unfold State.regWrite
  split
  · exact h
  · split
    · exact h.unlockReg
    · split
      · exact h
      · split
        · exact h
        · exact h.effect
        · exact h.w1cWrite
        · split
          · exact .effect h
          · exact h

theorem Keeps.regWrites {path : Path} {off : Nat} {ws : List W32} (h : Keeps s₀ s) : Keeps s₀ (s.regWrites path off ws) := by
  induction ws generalizing s off with
  | nil => exact h
  | cons v ws ih => exact ih h.regWrite

theorem Keeps.write {path : Path} {off : Nat} {v : W32} (h : Keeps s₀ s) : Keeps s₀ (s.write path off v) := by
  unfold State.write
  split
  · exact h.regWrite
  · exact h

theorem Keeps.pageReg {path : Path} {p i : Nat} {v : W32} (h : Keeps s₀ s) : Keeps s₀ (s.pageReg path p i v) := by
  unfold State.pageReg
  split
  · exact h.regWrite
  · exact h

theorem Keeps.vote {f : RwtField} (h : Keeps s₀ s) : Keeps s₀ (s.vote f) := by
  unfold State.vote
  dsimp only
  split
  · split
    · exact h
    · exact h
  · split
    · exact h
    · exact .logPlain h

theorem Keeps.fifoReg {path : Path} {f : FifoId} {i : Nat} {v : W32} (h : Keeps s₀ s) : Keeps s₀ (s.fifoReg path f i v) := by
  unfold State.fifoReg
  split
  · exact h.regWrite
  · exact h

theorem Keeps.qenBit {path : Path} {p o : Nat} {v : Bool} (h : Keeps s₀ s) : Keeps s₀ (s.qenBit path p o v) := by
  unfold State.qenBit
  dsimp only
  exact h.pageReg

theorem Keeps.qpStateWrite {q v : Nat} (h : Keeps s₀ s) : Keeps s₀ (s.qpStateWrite q v) := h.write

end Sys2Proof.Machine
end

section
/-! SUPPORT. What the operations of Machine / Owl keep of memory, fuses and the queue. -/

namespace Sys2Proof.Machine
open Sys2Proof

variable {s₀ s t u : State}

theorem Keeps.fixed {sess : Nat} {code : BitVec 16} {tag : W32} {body : Bytes} {n : Nat} {ok : Bool} {act : State → State}
    (h : Keeps s₀ s) (hact : ∀ s, Keeps s₀ s → Keeps s₀ (act s)) :
    Keeps s₀ (s.fixed sess code tag body n ok act) := by
  unfold State.fixed
  refine h.command fun s h1 => ?_
  split
  · exact hact _ h1
  · exact h1.reply

theorem Keeps.chunk {sess : Nat} {code : BitVec 16} {tag : W32} {body : Bytes} (h : Keeps s₀ s) :
    Keeps s₀ (s.chunk sess code tag body) := by
  unfold State.chunk
  refine h.command fun s h1 => ?_
  split
  · exact .reply h1
  · exact .reply h1
  · exact h1.reply

theorem Keeps.lastChunk {sess : Nat} {code : BitVec 16} {tag : W32} {body : Bytes} {act : Bytes → State → State}
    (h : Keeps s₀ s) (hact : ∀ x0 s, Keeps s₀ s → Keeps s₀ (act x0 s)) :
    Keeps s₀ (s.lastChunk sess code tag body act) := by
  unfold State.lastChunk
  refine h.command fun s h1 => ?_
  dsimp only
  split
  · exact hact _ _ h1
  · exact .reply h1

theorem Keeps.info {sess : Nat} {tag : W32} {body : Bytes} (h : Keeps s₀ s) :
    Keeps s₀ (s.info sess tag body) := h.fixed fun _ h1 => h1.reply

theorem Keeps.regReadCmd {sess : Nat} {tag : W32} {body : Bytes} (h : Keeps s₀ s) : Keeps s₀ (s.regReadCmd sess tag body) := by
  unfold State.regReadCmd
  dsimp only
  refine h.fixed fun s h1 => ?_
  split
  · exact h1.reply
  · exact h1.reply

theorem Keeps.regWriteAll {keyed : Bool} {off : Nat} {ws : List W32} (h : Keeps s₀ s) : Keeps s₀ (s.regWriteAll keyed off ws) := by
  unfold State.regWriteAll
  extract_lets s1
  have h1 : Keeps s₀ s1 := by
    unfold s1
    split
    · exact h.unlockReg
    · exact h
  exact h1.regWrites

theorem Keeps.regWriteCmd {sess : Nat} {tag : W32} {keyed : Bool} {body : Bytes} (h : Keeps s₀ s) :
    Keeps s₀ (s.regWriteCmd sess tag keyed body) := by
  unfold State.regWriteCmd
  dsimp only
  refine h.fixed fun s h1 => ?_
  split
  · exact h1.reply
  · exact h1.regWriteAll.reply

theorem Keeps.eventRead {sess : Nat} {tag : W32} {body : Bytes} (h : Keeps s₀ s) : Keeps s₀ (s.eventRead sess tag body) := by
  unfold State.eventRead
  dsimp only
  exact h.fixed fun _ h1 => h1.reply

theorem Keeps.ledgerRead {sess : Nat} {tag : W32} {body : Bytes} (h : Keeps s₀ s) : Keeps s₀ (s.ledgerRead sess tag body) := by
  unfold State.ledgerRead
  dsimp only
  exact h.fixed fun _ h1 => h1.reply

theorem Keeps.scrubStatus {sess : Nat} {tag : W32} {body : Bytes} (h : Keeps s₀ s) :
    Keeps s₀ (s.scrubStatus sess tag body) := h.fixed fun _ h1 => h1.reply

theorem Keeps.scrubConfig {sess : Nat} {tag : W32} {body : Bytes} (h : Keeps s₀ s) : Keeps s₀ (s.scrubConfig sess tag body) := by
  unfold State.scrubConfig
  dsimp only
  exact h.fixed fun _ h1 => .reply h1

theorem Keeps.scrubTenant {p : Nat} (h : Keeps s₀ s) : Keeps s₀ (s.scrubTenant p) := by
  unfold State.scrubTenant
  dsimp only
  split
  · exact h
  · exact .dropHostEntries (.dropKey (.foldl (.zeroScratch h) fun _ _ h1 => h1.zeroPool))

theorem Keeps.layoutLoad {sess : Nat} {tag : W32} {sec : Bytes} (h : Keeps s₀ s) : Keeps s₀ (s.layoutLoad sess tag sec) := by
  unfold State.layoutLoad
  dsimp only
  split
  · split
    · split
      · split
        · split
          · exact h.loaded
          · exact h.scrubTenant.to rfl
        · exact h.reply
      · split
        · split
          · exact h.loaded
          · exact h.scrubTenant.to rfl
        · exact h.reply
    · split
      · split
        · split
          · exact h.loaded
          · exact h.scrubTenant.to rfl
        · exact h.reply
      · split
        · split
          · exact h.loaded
          · exact h.scrubTenant.to rfl
        · exact h.reply
  · refine Keeps.reply ?_
    split
    · split
      · split
        · exact h.layoutRejected
        · exact h
      · split
        · exact h.layoutRejected
        · exact h
    · split
      · split
        · exact h.layoutRejected
        · exact h
      · split
        · exact h.layoutRejected
        · exact h

theorem Keeps.deliverImage {sess : Nat} {tag : W32} {img : Bytes} (h : Keeps s₀ s) : Keeps s₀ (s.deliverImage sess tag img) := by
  unfold State.deliverImage
  split
  · dsimp only
    exact .startTraining h
  · exact h.imageDelivered

theorem Keeps.layoutStage {sess : Nat} {tag : W32} {img : Bytes} (h : Keeps s₀ s) : Keeps s₀ (s.layoutStage sess tag img) := by
  unfold State.layoutStage
  split
  · exact h.layoutRejected.reply
  · split
    · exact h.deliverImage
    · split
      · exact .reply h
      · exact h.reply

theorem Keeps.layoutFlash {sess : Nat} {tag : W32} {img : Bytes} (h : Keeps s₀ s) : Keeps s₀ (s.layoutFlash sess tag img) := by
  unfold State.layoutFlash
  split
  · exact h.layoutRejected.reply
  · exact .reply h

theorem Keeps.fwEntry {bankB : Bool} {v : Nat} (h : Keeps s₀ s) : Keeps s₀ (s.fwEntry bankB v) := h.ledgerAdd

theorem Keeps.advance {layout : Bool} (h : Keeps s₀ s) : Keeps s₀ (s.advance layout) := by
  unfold State.advance
  extract_lets +onlyGivenNames f f1
  have hfuse : s.fuse.Kept f1 := by
    unfold f1
    split
    · exact { FuseS.Kept.refl s.fuse with layCnt := le_max_left _ _ }
    · exact { FuseS.Kept.refl s.fuse with fwCnt := le_max_left _ _ }
  exact (h.fuses hfuse).fwEntry

theorem Keeps.rollbackAdvance {sess : Nat} {tag : W32} {body : Bytes} (h : Keeps s₀ s) : Keeps s₀ (s.rollbackAdvance sess tag body) := by
  unfold State.rollbackAdvance
  dsimp only
  exact h.fixed fun _ h1 => h1.advance.reply

theorem Keeps.keyInstall {sess : Nat} {tag : W32} {b : Bytes} (h : Keeps s₀ s) : Keeps s₀ (s.keyInstall sess tag b) := by
  unfold State.keyInstall
  refine h.fixed fun s h1 => ?_
  extract_lets +onlyGivenNames st i ks s1
  have h2 : Keeps s₀ s1 := by
    unfold s1
    split
    · exact h1
    · exact h1
  exact h2.reply

theorem Keeps.fwWrite {sess : Nat} {tag : W32} {img : Bytes} (h : Keeps s₀ s) : Keeps s₀ (s.fwWrite sess tag img) := by
  unfold State.fwWrite
  dsimp only
  split
  · exact .reply (.fwEntry (.logPlain h))
  · exact h.reply

theorem Keeps.fwSelect {sess : Nat} {tag : W32} {body : Bytes} (h : Keeps s₀ s) : Keeps s₀ (s.fwSelect sess tag body) := by
  unfold State.fwSelect
  dsimp only
  refine h.fixed fun s h1 => ?_
  split
  · exact h1.reply
  · exact .reply (.logPlain h1)

theorem Keeps.restartOwl (h : Keeps s₀ s) : Keeps s₀ s.restartOwl := by
  unfold State.restartOwl
  extract_lets +onlyGivenNames s1
  have h1 : Keeps s₀ s1 := h.logPlain.closeAll
  exact h.logPlain.closeAll.to rfl

theorem Keeps.owlRestart {sess : Nat} {tag : W32} {body : Bytes} (h : Keeps s₀ s) : Keeps s₀ (s.owlRestart sess tag body) := by
  unfold State.owlRestart
  refine h.fixed fun s h1 => ?_
  split
  · exact h1.reply
  · exact h1.reply.restartOwl

theorem Keeps.warmResetCmd {sess : Nat} {tag : W32} {body : Bytes} (h : Keeps s₀ s) :
    Keeps s₀ (s.warmResetCmd sess tag body) := h.fixed fun _ h1 => h1.reply.warmRequest

end Sys2Proof.Machine
end

section
/-! SUPPORT. What the operations of Machine / Debug keep of memory, fuses and the queue. -/

namespace Sys2Proof.Machine
open Sys2Proof

variable {s₀ s t u : State}

theorem Keeps.debugRead {sess : Nat} {tag : W32} {body : Bytes} (h : Keeps s₀ s) : Keeps s₀ (s.debugRead sess tag body) := by
  unfold State.debugRead
  dsimp only
  refine h.fixed fun s h1 => ?_
  split
  · exact h1.reply
  · exact h1.reply

theorem Keeps.setHalt {cls i : Nat} {v : Bool} (h : Keeps s₀ s) : Keeps s₀ (s.setHalt cls i v) := by
  unfold State.setHalt
  split
  · exact h
  · split
    · exact h
    · split
      · exact h
      · exact h

theorem Keeps.retryParked (h : Keeps s₀ s) : Keeps s₀ s.retryParked := h.foldl fun _ _ h1 => h1.retry

theorem Keeps.putChanLine {ch a : Nat} {bs : Bytes} (h : Keeps s₀ s) : Keeps s₀ (s.putChanLine ch a bs) := by
  unfold State.putChanLine
  split
  · exact h
  · exact h.mem ⟨cputs_wf _ _ _, id⟩

theorem Keeps.unitRead {cls i a n : Nat} (h : Keeps s₀ s) : Keeps s₀ (s.unitRead cls i a n).2 := by
  unfold State.unitRead
  split
  · dsimp only
    split
    · exact h.rawRead
    · exact h
  · split
    · split
      · exact h
      · exact h.rawRead
    · split
      · exact h
      · exact h.burPeek

theorem Keeps.unitWrite {cls i a : Nat} {bs : Bytes} (h : Keeps s₀ s) : Keeps s₀ (s.unitWrite cls i a bs) := by
  unfold State.unitWrite
  split
  · exact h
  · split
    · exact h
    · split
      · exact h.foldl fun _ _ h1 => h1.putChanLine
      · exact h.burPoke

theorem Keeps.debugHalt {sess op : Nat} {tag : W32} {b : Bytes} {act : Nat → Nat → Nat → Nat → State → State}
    (h : Keeps s₀ s) (hact : ∀ x0 x1 x2 x3 s, Keeps s₀ s → Keeps s₀ (act x0 x1 x2 x3 s)) :
    Keeps s₀ (s.debugHalt sess op tag b act) := by
  unfold State.debugHalt
  refine h.command fun s h1 => ?_
  split
  · exact h1.reply
  · split
    · exact h1.reply
    · exact hact _ _ _ _ _ h1

theorem Keeps.haltUnit {sess : Nat} {tag : W32} {b : Bytes} (h : Keeps s₀ s) :
    Keeps s₀ (s.haltUnit sess tag b) := h.debugHalt fun _ _ _ _ _ h1 => h1.setHalt.reply

theorem Keeps.resumeUnit {sess : Nat} {tag : W32} {b : Bytes} (h : Keeps s₀ s) :
    Keeps s₀ (s.resumeUnit sess tag b) := h.debugHalt fun _ _ _ _ _ h1 => h1.setHalt.retryParked.reply

theorem Keeps.readUnit {sess : Nat} {tag : W32} {b : Bytes} (h : Keeps s₀ s) : Keeps s₀ (s.readUnit sess tag b) := by
  unfold State.readUnit
  refine h.debugHalt fun x0 x1 x2 x3 s h1 => ?_
  split
  rename_i _ s1 e
  have h2 : Keeps s₀ s1 := .of_snd e h1.unitRead
  exact h2.reply

theorem Keeps.writeUnit {sess : Nat} {tag : W32} {b : Bytes} (h : Keeps s₀ s) :
    Keeps s₀ (s.writeUnit sess tag b) := h.debugHalt fun _ _ _ _ _ h1 => h1.unitWrite.reply

end Sys2Proof.Machine
end

section
/-! SUPPORT. What the operations of Machine / Board keep of memory, fuses and the queue. -/

namespace Sys2Proof.Machine
open Sys2Proof

variable {s₀ s t u : State}

theorem Keeps.pmbus {sess : Nat} {tag : W32} {b : Bytes} {reply : Option Bytes} (h : Keeps s₀ s) : Keeps s₀ (s.pmbus sess tag b reply) := by
  unfold State.pmbus
  refine h.command fun s h1 => ?_
  split
  · exact h1.reply
  · dsimp only
    split
    · exact .reply h1
    · exact .reply h1

theorem Keeps.readPout {i pout : Nat} (h : Keeps s₀ s) : Keeps s₀ (s.readPout i pout) := by
  unfold State.readPout
  split
  · exact h
  · exact h

theorem Keeps.readStatus {i : Nat} {status : BitVec 16} (h : Keeps s₀ s) : Keeps s₀ (s.readStatus i status) := by
  unfold State.readStatus
  split
  · dsimp only
    split
    · exact h
    · exact .logPlain h
  · exact h

theorem Keeps.capUpdate (h : Keeps s₀ s) : Keeps s₀ s.capUpdate := by
  unfold State.capUpdate
  dsimp only
  split
  · exact h
  · split
    · exact .logPlain h
    · exact .logPlain h

theorem Keeps.powerCap {sess : Nat} {tag : W32} {body : Bytes} (h : Keeps s₀ s) : Keeps s₀ (s.powerCap sess tag body) := by
  unfold State.powerCap
  dsimp only
  exact h.fixed fun _ h1 => .reply h1

theorem Keeps.ledgerSummary (h : Keeps s₀ s) : Keeps s₀ s.ledgerSummary := by
  unfold State.ledgerSummary
  extract_lets +onlyGivenNames s1 n
  have h1 : Keeps s₀ s1 := h.ledgerAdd
  split
  · exact h.ledgerAdd.to rfl
  · exact .foldl (h.ledgerAdd.to rfl) fun _ _ h2 => h2.ledgerAdd

theorem Keeps.smSend {b : Bytes} (h : Keeps s₀ s) : Keeps s₀ (s.smSend b) := by
  unfold State.smSend
  split
  · exact h
  · exact h

theorem Keeps.mgtConfig {sess : Nat} {tag : W32} {body : Bytes} (h : Keeps s₀ s) :
    Keeps s₀ (s.mgtConfig sess tag body) := h.fixed fun _ h1 => .mgtSettle (.reply h1)

theorem Keeps.dhcpIn {f : Frame} (h : Keeps s₀ s) : Keeps s₀ (s.dhcpIn f) := by
  unfold State.dhcpIn
  dsimp only
  split
  · exact h
  · split
    · exact h
    · exact h
    · exact h
    · exact h

theorem Keeps.raIn {f : Frame} (h : Keeps s₀ s) : Keeps s₀ (s.raIn f) := by
  unfold State.raIn
  split
  · exact h
  · split
    · exact h
    · exact h

theorem Keeps.pwrMsg {tag : W32} {b : Bytes} (h : Keeps s₀ s) : Keeps s₀ (s.pwrMsg tag b) := by
  unfold State.pwrMsg
  split
  · exact h.powerState
  · exact h.command fun _ h1 => h1.reply

theorem Keeps.pmMsg {tag : W32} {b : Bytes} (h : Keeps s₀ s) : Keeps s₀ (s.pmMsg tag b) := by
  unfold State.pmMsg
  split
  rename_i _ s1 e
  have h1 : Keeps s₀ s1 := .of_snd e h
  split
  rename_i _ s2 e
  have h2 : Keeps s₀ s2 := .of_snd e h1
  exact h2.pmbus

theorem Keeps.haltMsg {tag : W32} {b : Bytes} (h : Keeps s₀ s) : Keeps s₀ (s.haltMsg tag b) := by
  unfold State.haltMsg
  split
  · exact h.haltUnit
  · exact h.resumeUnit
  · exact h.readUnit
  · exact h.writeUnit
  · exact h.command fun _ h1 => h1.reply

theorem Keeps.mboxMsg {code : BitVec 16} {flags : Nat} {tag : W32} {b : Bytes} (h : Keeps s₀ s) :
    Keeps s₀ (s.mboxMsg code flags tag b) := by
  unfold State.mboxMsg
  dsimp only
  split
  · exact h.chunk
  · split
    · exact h.info
    · exact h.regReadCmd
    · exact h.regWriteCmd
    · exact h.eventRead
    · exact h.ledgerRead
    · exact h.scrubStatus
    · exact h.scrubConfig
    · exact h.lastChunk fun _ _ h1 => h1.layoutLoad
    · exact h.lastChunk fun _ _ h2 => h2.layoutStage
    · exact h.lastChunk fun _ _ h3 => h3.layoutFlash
    · exact h.rollbackAdvance
    · exact h.keyInstall
    · exact h.lastChunk fun _ _ h4 => h4.fwWrite
    · exact h.fwSelect
    · exact h.owlRestart
    · exact h.warmResetCmd
    · exact h.pwrMsg
    · exact h.powerCap
    · exact h.lifecycle
    · exact h.spdmCommand
    · exact h.debugRead
    · exact h.haltMsg
    · exact h.pmMsg
    · exact h.mgtConfig
    · exact h.command fun _ h5 => h5.reply

theorem Keeps.mboxPacket {ws : List FWord} (h : Keeps s₀ s) : Keeps s₀ (s.mboxPacket ws) := by
  unfold State.mboxPacket
  dsimp only
  split
  · exact h.command fun _ h1 => h1.reply
  · split
    · exact h.fifoErr
    · exact h.mboxMsg

theorem Keeps.mboxRun {n : Nat} (h : Keeps s₀ s) : Keeps s₀ (State.mboxRun n s) := by
  induction n generalizing s with
  | zero => exact h
  | succ n ih =>
    unfold State.mboxRun
    split
    · exact h
    · split
      · exact h
      · exact ih (.mboxPacket (h.to rfl))

end Sys2Proof.Machine
end

section
/-! SUPPORT. What the operations of Machine / Host keep of memory, fuses and the queue. -/

namespace Sys2Proof.Machine
open Sys2Proof

variable {s₀ s t u : State}

theorem Keeps.rxDrop {k : Nat} (h : Keeps s₀ s) : Keeps s₀ (s.rxDrop k) := h

theorem Keeps.icrcDrop {k : Nat} (h : Keeps s₀ s) : Keeps s₀ (s.icrcDrop k) := h

theorem Keeps.answerFrame {k : Nat} {f : Frame} {kind : Nat} {group ok : Bool} (h : Keeps s₀ s) :
    Keeps s₀ (s.answerFrame k f kind group ok) := by
  unfold State.answerFrame
  dsimp only
  split
  · exact h
  · split
    · exact h
    · exact h

theorem Keeps.pfcCheck {k : Nat} (h : Keeps s₀ s) : Keeps s₀ (s.pfcCheck k) := by
  unfold State.pfcCheck
  dsimp only
  split
  · exact h
  · exact h

theorem Keeps.emit {k q : Nat} {mac : BitVec 48} {prio : BitVec 3} {kind ext : Nat} {psn : BitVec 24} {syn : Byte} {data : Bytes}
    (h : Keeps s₀ s) :
    Keeps s₀ (s.emit k q mac prio kind ext psn syn data) := h

theorem Keeps.sendCnp {k q : Nat} {pk : Packet} (h : Keeps s₀ s) : Keeps s₀ (s.sendCnp k q pk) := by
  unfold State.sendCnp
  dsimp only
  split
  · exact h
  · exact h

theorem Keeps.flushAck {q : Nat} (h : Keeps s₀ s) : Keeps s₀ (s.flushAck q) := by
  unfold State.flushAck
  dsimp only
  split
  · exact h
  · exact h

theorem Keeps.nak {q : Nat} {p : Pend} {st : Status} (h : Keeps s₀ s) : Keeps s₀ (s.nak q p st) := by
  unfold State.nak
  extract_lets +onlyGivenNames s1 x y s2
  have h1 : Keeps s₀ s1 := h.flushAck.emit
  clear_value s1
  have h2 : Keeps s₀ s2 := h1.setQp
  clear_value s2
  exact h2.to rfl

theorem Keeps.readResponse {q : Nat} {p : Pend} (h : Keeps s₀ s) : Keeps s₀ (s.readResponse q p) := by
  unfold State.readResponse
  dsimp only
  exact h.foldl fun _ _ h1 => h1

theorem Keeps.atomicAck {k q : Nat} {mac : BitVec 48} {prio : BitVec 3} {psn : BitVec 24} {v : W64} (h : Keeps s₀ s) :
    Keeps s₀ (s.atomicAck k q mac prio psn v) := h

theorem Keeps.seqError {k q : Nat} {mac : BitVec 48} {prio : BitVec 3} (h : Keeps s₀ s) : Keeps s₀ (s.seqError k q mac prio) := by
  unfold State.seqError
  dsimp only
  split
  · exact h
  · exact h

theorem Keeps.retire {q : Nat} {p : Pend} {rest : List Pend} (h : Keeps s₀ s) : Keeps s₀ (s.retire q p rest) := by
  unfold State.retire
  dsimp only
  split
  · split
    · exact h
    · split
      · exact h
      · exact .seqError (.flushAck h)
  · split
    · exact h.nak
    · split
      · exact h
      · split
        · exact .readResponse (.flushAck h)
        · exact .atomicAck (.flushAck h)

theorem Keeps.modPend {q i : Nat} {f : Pend → Pend} (h : Keeps s₀ s) : Keeps s₀ (s.modPend q i f) := h

theorem Keeps.pageAccess {q i : Nat} {p : Pend} (h : Keeps s₀ s) : Keeps s₀ (s.pageAccess q i p) := by
  unfold State.pageAccess
  extract_lets +onlyGivenNames path off n
  split
  · exact h.modPend.regWrites
  · exact h.modPend

theorem Keeps.issueLine {q i : Nat} {p : Pend} {l : Pend1} (h : Keeps s₀ s) : Keeps s₀ (s.issueLine q i p l) := by
  unfold State.issueLine
  dsimp only
  split
  · exact .request h
  · refine Keeps.modPend ?_
    split
    · exact h.countFault
    · exact h

theorem Keeps.issuePend {q i : Nat} {p : Pend} (h : Keeps s₀ s) : Keeps s₀ (s.issuePend q i p) := by
  unfold State.issuePend
  split
  · exact h.pageAccess
  · exact .foldl h fun _ _ h1 => h1.issueLine

theorem Keeps.hostPump {n q : Nat} (h : Keeps s₀ s) : Keeps s₀ (State.hostPump n q s) := by
  induction n generalizing s with
  | zero => exact h
  | succ n ih =>
    unfold State.hostPump
    split
    · exact h
    · split
      · exact ih h.retire
      · split
        · exact h
        · exact ih h.issuePend

theorem Keeps.pump {q : Nat} (h : Keeps s₀ s) : Keeps s₀ (s.pump q) := h.hostPump

theorem Keeps.packet {k : Nat} {pk : Packet} {win : QP → Bool} {act : Nat → State → State} (h : Keeps s₀ s)
    (hact : ∀ q s, Keeps s₀ s → Keeps s₀ (act q s)) : Keeps s₀ (s.packet k pk win act) := by
  unfold State.packet
  extract_lets +onlyGivenNames hp f
  split
  · exact h
  · split
    · exact h.rxDrop
    · split
      · exact h
      · split
        · exact h.rxDrop
        · split
          · exact h.icrcDrop
          · split
            · exact h.icrcDrop
            · extract_lets +onlyGivenNames p fenced
              split
              rename_i c s1 e
              have h1 : Keeps s₀ s1 := by
                refine .of_snd e ?_
                split
                · exact h
                · exact h.police
              clear e
              split
              · exact h1
              · split
                · exact h1.icrcDrop
                · extract_lets +onlyGivenNames s2
                  have h2 : Keeps s₀ s2 := by
                    unfold s2
                    split
                    · exact h1.sendCnp
                    · exact h1
                  clear_value s2
                  split
                  · exact h2
                  · exact (hact _ s2 h2).pfcCheck

theorem Keeps.accept {q : Nat} {x : QP} {p : Pend} {n : Nat} (h : Keeps s₀ s) : Keeps s₀ (s.accept q x p n) := .pump h

theorem Keeps.dupWrite {k q : Nat} {pk : Packet} (h : Keeps s₀ s) : Keeps s₀ (s.dupWrite k q pk) := by
  unfold State.dupWrite
  dsimp only
  split
  · exact h
  · exact h

theorem Keeps.hostWrite {k pos : Nat} {pk : Packet} (h : Keeps s₀ s) : Keeps s₀ (s.hostWrite k pos pk) := by
  unfold State.hostWrite
  dsimp only
  refine h.packet fun x0 s h1 => ?_
  split
  · exact h1.accept
  · exact h1.seqError
  · exact h1.dupWrite

theorem Keeps.hostRead {k : Nat} {pk : Packet} (h : Keeps s₀ s) : Keeps s₀ (s.hostRead k pk) := by
  unfold State.hostRead
  refine h.packet fun x0 s h1 => ?_
  dsimp only
  split
  · exact h1.accept
  · exact h1.seqError
  · exact .pump h1

theorem Keeps.dupAtomic {k q kind : Nat} {pk : Packet} (h : Keeps s₀ s) : Keeps s₀ (s.dupAtomic k q kind pk) := by
  unfold State.dupAtomic
  dsimp only
  split
  · exact h
  · split
    · exact h
    · exact .pump h

theorem Keeps.hostAtomic {k kind : Nat} {pk : Packet} (h : Keeps s₀ s) : Keeps s₀ (s.hostAtomic k kind pk) := by
  unfold State.hostAtomic
  refine h.packet fun x0 s h1 => ?_
  dsimp only
  split
  · exact h1.accept
  · exact h1.seqError
  · exact h1.dupAtomic

theorem Keeps.hostBadOp {k : Nat} {pk : Packet} (h : Keeps s₀ s) : Keeps s₀ (s.hostBadOp k pk) := by
  unfold State.hostBadOp
  refine h.packet fun x0 s h1 => ?_
  dsimp only
  split
  · exact h1.accept
  · exact h1.seqError
  · exact h1

end Sys2Proof.Machine
end

section
/-! SUPPORT. What the operations of Machine / Tick keep of memory, fuses and the queue. -/

namespace Sys2Proof.Machine
open Sys2Proof

variable {s₀ s t u : State}

theorem Keeps.tickFab (h : Keeps s₀ s) : Keeps s₀ s.tickFab := by
  unfold State.tickFab
  split
  · exact h
  · exact h

theorem Keeps.idle (h : Keeps s₀ s) : Keeps s₀ s.idle := by
  unfold State.idle
  extract_lets +onlyGivenNames s1
  have h1 : Keeps s₀ s1 := h.tickFab
  clear_value s1
  split
  · extract_lets +onlyGivenNames s2
    have h2 : Keeps s₀ s2 := by
      unfold s2
      split
      · exact h1.scrubEnd.stopsEnd
      · exact h1.stopsEnd
    exact h2.mboxRun
  · exact h1

end Sys2Proof.Machine
end

section
/-! SUPPORT. Every command completes, and keeps what `Keeps` says. -/

namespace Sys2Proof.Machine
open Sys2Proof

/-- The outcome of a command at `s`: a next state, which keeps what every command keeps. -/
def Completes (s : State) (o : Host.Outcome State Fault Refusal) : Prop := ∃ t, o = .next t ∧ Keeps s t

theorem Completes.next {s t : State} (h : Keeps s t) : Completes s (.next t) := ⟨t, rfl, h⟩

theorem execPwrgoodRise_completes (straps : Straps) (wrstN : Bool) (s : State) : Completes s (execPwrgoodRise straps wrstN s) := by
  have h := Keeps.refl s
  unfold execPwrgoodRise
  split
  · exact .next h
  · extract_lets +onlyGivenNames t
    have h1 : Keeps s t := h.allHeld.readFuses
    exact .next (.coldTests (.strapPorts (h1.to rfl)))

theorem execClockLoss_completes (refStopped : Bool) (s : State) : Completes s (execClockLoss refStopped s) := by
  have h := Keeps.refl s
  unfold execClockLoss
  split
  · extract_lets +onlyGivenNames t
    have h1 : Keeps s t := h.allHeld.readFuses
    exact .next (.coldTests (.strapPorts (h1.to rfl)))
  · exact .next h

theorem execOwlUp_completes (boot : OwlBoot) (s : State) : Completes s (execOwlUp boot s) := by
  have h := Keeps.refl s
  unfold execOwlUp
  dsimp only
  split
  · split
    · exact .next (.restartCadence (.owlFirst h))
    · split
      · exact .next h
      · exact .next h
  · exact .next h

theorem execBankBootFail_completes (bankB : Bool) (s : State) : Completes s (execBankBootFail bankB s) := by
  have h := Keeps.refl s
  unfold execBankBootFail
  split
  · dsimp only
    exact .next (.logPlain h)
  · exact .next h

theorem execWrstNFall_completes (ns : Nat) (s : State) : Completes s (execWrstNFall ns s) := by
  have h := Keeps.refl s
  unfold execWrstNFall
  split
  · exact .next (.warmRequest h)
  · exact .next h

theorem execWarmZeroFillDone_completes (ok : Bool) (tests : BitVec 96) (s : State) : Completes s (execWarmZeroFillDone ok tests s) := by
  have h := Keeps.refl s
  unfold execWarmZeroFillDone
  split
  · split
    · have h1 := h.selfTests (tests := tests)
      generalize s.selfTests tests = t at h1 ⊢
      exact .next (h1.to rfl)
    · exact .next h.warmFails
  · exact .next h

theorem execUnlockLapse_completes (path : Path) (off : Nat) (s : State) : Completes s (execUnlockLapse path off s) := by
  have h := Keeps.refl s
  exact .next h

theorem execW1cClear_completes (path : Path) (off : Nat) (v sets : W32) (s : State) : Completes s (execW1cClear path off v sets s) := by
  have h := Keeps.refl s
  unfold execW1cClear
  dsimp only
  split
  · split
    · exact .next h.write
    · split
      · exact .next h.w1cWrite
      · exact .next h.write
  · exact .next h

theorem execRwtRevote_completes (upsets : List Upset) (s : State) : Completes s (execRwtRevote upsets s) := by
  have h := Keeps.refl s
  unfold execRwtRevote
  refine .next ?_
  split
  · exact .foldl (.foldl h fun _ _ h1 => h1) fun _ _ h2 => h2.vote
  · exact h

theorem execRwtRewrite_completes (f : RwtField) (s : State) : Completes s (execRwtRewrite f s) := by
  have h := Keeps.refl s
  unfold execRwtRewrite
  refine .next ?_
  split
  · exact h
  · exact h

theorem execPartDraining10ms_completes (p : Nat) (s : State) : Completes s (execPartDraining10ms p s) := by
  have h := Keeps.refl s
  unfold execPartDraining10ms
  dsimp only
  split
  · exact .next (.logEvent h)
  · exact .next h

theorem execPartDraining100ms_completes (p : Nat) (s : State) : Completes s (execPartDraining100ms p s) := by
  have h := Keeps.refl s
  unfold execPartDraining100ms
  dsimp only
  split
  · exact .next (.logEvent (.foldl h fun _ _ h1 => h1.engineReset))
  · exact .next h

theorem execDownHoldoffEnd_completes (port : Nat) (s : State) : Completes s (execDownHoldoffEnd port s) := by
  have h := Keeps.refl s
  unfold execDownHoldoffEnd
  dsimp only
  split
  · exact .next (.tryTrain h)
  · exact .next h

theorem execTsId_completes (port lane : Nat) (blk : BitVec 272) (s : State) : Completes s (execTsId port lane blk s) := by
  have h := Keeps.refl s
  unfold execTsId
  refine .next ?_
  refine h.lcbIn fun s x1 h1 => ?_
  dsimp only
  split
  · exact h1
  · split
    · exact h1
    · split
      · exact h1.excludeLane.lostLane
      · exact .phase1Check h1

theorem execTsEq_completes (port lane : Nat) (blk : BitVec 272) (s : State) : Completes s (execTsEq port lane blk s) := by
  have h := Keeps.refl s
  unfold execTsEq
  refine .next ?_
  refine h.lcbIn fun s x1 h1 => ?_
  dsimp only
  split
  · exact h1.goDown
  · split
    · exact h1
    · split
      · split
        · exact h1
        · split
          · split
            · exact h1
            · exact h1
          · exact .phase2Check h1
      · split
        · exact h1
        · exact h1

theorem execTsDone_completes (port lane : Nat) (blk : BitVec 272) (skew : Nat) (margin : BitVec 16) (s : State) : Completes s (execTsDone port lane blk skew margin s) := by
  have h := Keeps.refl s
  unfold execTsDone
  refine .next ?_
  refine h.lcbIn fun s x1 h1 => ?_
  dsimp only
  split
  · split
    · exact h1
    · split
      · exact h1
      · exact h1
  · split
    · exact h1
    · split
      · exact h1
      · split
        · exact .phase3Check h1
        · exact .lostLane (.excludeLane h1)

theorem execTsGo_completes (port lane : Nat) (blk : BitVec 272) (s : State) : Completes s (execTsGo port lane blk s) := by
  have h := Keeps.refl s
  unfold execTsGo
  refine .next ?_
  refine h.lcbIn fun s x1 h1 => ?_
  dsimp only
  split
  · exact h1.goDown
  · split
    · exact h1
    · split
      · exact .cutMask h1
      · split
        · split
          · exact .linkActive h1
          · exact h1
        · exact h1

theorem execRetrainLcb_completes (port lane : Nat) (blk : BitVec 272) (s : State) : Completes s (execRetrainLcb port lane blk s) := by
  have h := Keeps.refl s
  unfold execRetrainLcb
  refine .next ?_
  refine h.lcbIn fun s x1 h1 => ?_
  split
  · exact h1.retrain
  · exact h1

theorem execDownLcb_completes (port lane : Nat) (blk : BitVec 272) (s : State) : Completes s (execDownLcb port lane blk s) := by
  have h := Keeps.refl s
  unfold execDownLcb
  refine .next ?_
  refine h.lcbIn fun s x1 h1 => ?_
  dsimp only
  split
  · exact h1.goDown
  · exact h1

theorem execLaneTrainLcb_completes (port lane : Nat) (blk : BitVec 272) (s : State) : Completes s (execLaneTrainLcb port lane blk s) := by
  have h := Keeps.refl s
  unfold execLaneTrainLcb
  refine .next ?_
  refine h.lcbIn fun s x1 h1 => ?_
  dsimp only
  split
  · exact h1
  · split
    · exact h1
    · refine Keeps.sendLcbs ?_
      split
      · exact h1
      · exact h1

theorem execTrainTimeout_completes (port : Nat) (s : State) : Completes s (execTrainTimeout port s) := by
  have h := Keeps.refl s
  unfold execTrainTimeout
  split
  · exact .next h.goDown
  · exact .next h

theorem execRetrainTimeout_completes (port : Nat) (s : State) : Completes s (execRetrainTimeout port s) := by
  have h := Keeps.refl s
  unfold execRetrainTimeout
  split
  · exact .next h.goDown
  · exact .next h

theorem execRetrainComplete_completes (port : Nat) (s : State) : Completes s (execRetrainComplete port s) := by
  have h := Keeps.refl s
  unfold execRetrainComplete
  dsimp only
  split
  · exact .next (.dropFailed (.laneMargins h))
  · exact .next h

theorem execLaneLockLoss_completes (port lane : Nat) (s : State) : Completes s (execLaneLockLoss port lane s) := by
  have h := Keeps.refl s
  unfold execLaneLockLoss
  split
  · exact .next h.retrain
  · exact .next h

theorem execPlanLockLoss_completes (port : Nat) (s : State) : Completes s (execPlanLockLoss port s) := by
  have h := Keeps.refl s
  unfold execPlanLockLoss
  split
  · exact .next h.goDown
  · exact .next h

theorem execLaneFail_completes (port lane : Nat) (s : State) : Completes s (execLaneFail port lane s) := by
  have h := Keeps.refl s
  unfold execLaneFail
  dsimp only
  split
  · exact .next h
  · split
    · split
      · exact .next (.dropFailed h)
      · exact .next h
    · exact .next (.lostLane h)

theorem execPlanUnitReq_completes (port : Nat) (u : FlowUnit) (s : State) : Completes s (execPlanUnitReq port u s) := by
  have h := Keeps.refl s
  unfold execPlanUnitReq
  refine .next ?_
  refine h.seqIn fun s h1 => ?_
  split
  split
  · exact h1.planReq
  · exact h1

theorem execPlanUnitAcc_completes (port : Nat) (u : FlowUnit) (s : State) : Completes s (execPlanUnitAcc port u s) := by
  have h := Keeps.refl s
  unfold execPlanUnitAcc
  refine .next ?_
  refine h.seqIn fun s h1 => ?_
  split
  split
  · exact h1.planAcc
  · exact h1

theorem execPlanUnitRej_completes (port : Nat) (u : FlowUnit) (s : State) : Completes s (execPlanUnitRej port u s) := by
  have h := Keeps.refl s
  unfold execPlanUnitRej
  refine .next ?_
  refine h.seqIn fun s h1 => ?_
  split
  split
  · exact h1.planRej
  · exact h1

theorem execPlanUnitGo_completes (port : Nat) (u : FlowUnit) (s : State) : Completes s (execPlanUnitGo port u s) := by
  have h := Keeps.refl s
  unfold execPlanUnitGo
  refine .next ?_
  refine h.seqIn fun s h1 => ?_
  split
  split
  · exact h1.planAccepted
  · exact h1

theorem execReplayTimer_completes (port : Nat) (s : State) : Completes s (execReplayTimer port s) := by
  have h := Keeps.refl s
  unfold execReplayTimer
  dsimp only
  split
  · exact .next h
  · exact .next h

theorem execSameLimitReached_completes (port : Nat) (s : State) : Completes s (execSameLimitReached port s) := by
  have h := Keeps.refl s
  unfold execSameLimitReached
  split
  · exact .next h.retrain
  · exact .next h

theorem execWinLimitReached_completes (port : Nat) (s : State) : Completes s (execWinLimitReached port s) := by
  have h := Keeps.refl s
  unfold execWinLimitReached
  dsimp only
  split
  · exact .next h.retrain
  · exact .next h

theorem execRetrainLimitReached_completes (port : Nat) (s : State) : Completes s (execRetrainLimitReached port s) := by
  have h := Keeps.refl s
  unfold execRetrainLimitReached
  split
  · exact .next h.goDown
  · exact .next h

theorem execFmNodeDown_completes (port : Nat) (m : Msg) (s : State) : Completes s (execFmNodeDown port m s) := by
  have h := Keeps.refl s
  unfold execFmNodeDown
  refine .next ?_
  refine h.receive fun s h1 => ?_
  dsimp only
  split
  · exact h1.death
  · exact h1

theorem execUnexpectedMessage_completes (port : Nat) (ty : BitVec 6) (m : Msg) (s : State) : Completes s (execUnexpectedMessage port ty m s) := by
  have h := Keeps.refl s
  unfold execUnexpectedMessage
  refine .next ?_
  split
  · exact h
  · exact h.receive fun _ h1 => h1

theorem execRequestWake_completes (sett : Nat) (line : Nat) (s : State) : Completes s (execRequestWake sett line s) := by
  have h := Keeps.refl s
  unfold execRequestWake
  extract_lets +onlyGivenNames s1 parked mine
  have h1 : Keeps s s1 := h.installWaiting
  exact .next ((h1.foldl fun _ _ h2 => h2.retry).admitRing)

theorem execMinHoldEnd_completes (sett : Nat) (line : Nat) (s : State) : Completes s (execMinHoldEnd sett line s) := by
  have h := Keeps.refl s
  exact .next h

theorem execRequestStarved_completes (sett : Nat) (id : Nat) (s : State) : Completes s (execRequestStarved sett id s) := by
  have h := Keeps.refl s
  unfold execRequestStarved
  split
  · exact .next h
  · split
    · exact .next h
    · exact .next h

theorem execStarveCount_completes (sett : Nat) (id : Nat) (s : State) : Completes s (execStarveCount sett id s) := by
  have h := Keeps.refl s
  unfold execStarveCount
  split
  · exact .next h
  · split
    · exact .next h
    · exact .next h

theorem execParkTimeout_completes (sett : Nat) (id : Nat) (s : State) : Completes s (execParkTimeout sett id s) := by
  have h := Keeps.refl s
  unfold execParkTimeout
  split
  · exact .next h
  · split
    · dsimp only
      refine .next (Keeps.admitRing ?_)
      split
      · exact .schedTimeout h
      · exact .answer h
    · exact .next h

theorem execSnoopTimeout_completes (tag : BitVec 16) (s : State) : Completes s (execSnoopTimeout tag s) := by
  have h := Keeps.refl s
  unfold execSnoopTimeout
  dsimp only
  split
  · exact .next h
  · split
    · exact .next (h.timeoutSnoop.recallLine.snoopsDone.foldl fun _ _ h1 => h1.death)
    · exact .next h

theorem execDeathSweepEnd_completes (sett : Nat) (s : State) : Completes s (execDeathSweepEnd sett s) := by
  have h := Keeps.refl s
  unfold execDeathSweepEnd
  split
  · exact .next h
  · split
    · exact .next h
    · extract_lets +onlyGivenNames s1 t
      have h1 : Keeps s s1 := h.sweepLines
      exact .next h1.setSett

theorem execDedupEntryExpiry_completes (src : Node) (gen : Byte) (tag : BitVec 16) (s : State) : Completes s (execDedupEntryExpiry src gen tag s) := by
  have h := Keeps.refl s
  unfold execDedupEntryExpiry
  split
  · exact .next h
  · split
    · exact .next h
    · exact .next h

theorem execDedupBlockEnd_completes (src : Node) (gen : Byte) (tag : BitVec 16) (s : State) : Completes s (execDedupBlockEnd src gen tag s) := by
  have h := Keeps.refl s
  unfold execDedupBlockEnd
  split
  · exact .next h
  · split
    · exact .next h
    · exact .next h

theorem execNodeGenBlockEnd_completes (w : Nat) (s : State) : Completes s (execNodeGenBlockEnd w s) := by
  have h := Keeps.refl s
  unfold execNodeGenBlockEnd
  refine .next ?_
  refine h.foldl fun s a h1 => ?_
  dsimp only
  split
  · exact h1
  · exact h1

theorem execDramAccessWithdrawn_completes (id : Nat) (s : State) : Completes s (execDramAccessWithdrawn id s) := by
  have h := Keeps.refl s
  unfold execDramAccessWithdrawn
  split
  · exact .next h
  · split
    · exact .next h
    · split
      · exact .next (.answer h)
      · exact .next h

theorem execMr4Poll_completes (ch rank : Nat) (doubled : Bool) (s : State) : Completes s (execMr4Poll ch rank doubled s) := by
  have h := Keeps.refl s
  unfold execMr4Poll
  dsimp only
  split
  · exact .next h
  · exact .next h

theorem execScrubRead_completes (unit : Nat) (errs : List (Nat × Byte)) (sram : BitVec 80) (s : State) : Completes s (execScrubRead unit errs sram s) := by
  have h := Keeps.refl s
  unfold execScrubRead
  split
  · exact .next h.scrubDram
  · dsimp only
    split
    · refine .next (Keeps.scrubStep ?_)
      refine Keeps.scrubBurrow ?_
      split
      · exact h
      · exact h
    · exact .next h

theorem execScrubStarvedInterval_completes (unit : Nat) (s : State) : Completes s (execScrubStarvedInterval unit s) := by
  have h := Keeps.refl s
  unfold execScrubStarvedInterval
  dsimp only
  split
  · exact .next h
  · exact .next h

theorem execScrubLapLimit_completes (unit : Nat) (s : State) : Completes s (execScrubLapLimit unit s) := by
  have h := Keeps.refl s
  unfold execScrubLapLimit
  dsimp only
  split
  · exact .next (.logPlain h)
  · exact .next h

theorem execQueueWake_completes (q : Nat) (s : State) : Completes s (execQueueWake q s) := by
  have h := Keeps.refl s
  unfold execQueueWake
  refine .next ?_
  split
  · exact h.readProducer
  · exact h

theorem execEngineHang_completes (e : Nat) (s : State) : Completes s (execEngineHang e s) := by
  have h := Keeps.refl s
  unfold execEngineHang
  dsimp only
  split
  · exact .next (.engineReset h)
  · exact .next h

theorem execEngineResetTimeout_completes (e : Nat) (s : State) : Completes s (execEngineResetTimeout e s) := by
  have h := Keeps.refl s
  unfold execEngineResetTimeout
  dsimp only
  split
  · exact .next (.engineFence h)
  · exact .next h

theorem execSettResyncDone_completes (sett : Nat) (s : State) : Completes s (execSettResyncDone sett s) := by
  have h := Keeps.refl s
  unfold execSettResyncDone
  dsimp only
  split
  · exact .next h
  · exact .next h

theorem execSettResyncTimeout_completes (sett : Nat) (s : State) : Completes s (execSettResyncTimeout sett s) := by
  have h := Keeps.refl s
  unfold execSettResyncTimeout
  dsimp only
  split
  · exact .next h.attemptFails
  · exact .next h

theorem execTokenLapse_completes (p : Nat) (s : State) : Completes s (execTokenLapse p s) := by
  have h := Keeps.refl s
  unfold execTokenLapse
  split
  · exact .next h
  · split
    · exact .next h
    · exact .next h

theorem execTlsHandshake_completes (paramsOk : TlsOffer) (chain : Nat) (rootDigest : Bytes) (s : State) : Completes s (execTlsHandshake paramsOk chain rootDigest s) := by
  have h := Keeps.refl s
  unfold execTlsHandshake
  split
  · exact .next h
  · split
    · split
      · exact .next (.logPlain h)
      · exact .next (.logPlain h)
    · exact .next (.logPlain h)

theorem execSessionIdleTimeout_completes (sess : Nat) (s : State) : Completes s (execSessionIdleTimeout sess s) := by
  have h := Keeps.refl s
  unfold execSessionIdleTimeout
  refine .next ?_
  split
  · exact h.dropSession.mgtSettle
  · exact h

theorem execMgtFrame_completes (k : MgtKind) (f : Frame) (tcpPort : BitVec 16) (s : State) : Completes s (execMgtFrame k f tcpPort s) := by
  have h := Keeps.refl s
  unfold execMgtFrame
  dsimp only
  split
  · exact .next h
  · split
    · split
      · exact .next h
      · exact .next h
    · split
      · exact .next h
      · exact .next h
    · split
      · exact .next h
      · exact .next h
    · split
      · exact .next h
      · exact .next h
    · split
      · exact .next h.dhcpIn
      · exact .next h
    · split
      · exact .next h.raIn
      · exact .next h
    · exact .next h

theorem execSensorSample_completes (temps : List Int) (mv : List Nat) (s : State) : Completes s (execSensorSample temps mv s) := by
  have h := Keeps.refl s
  unfold execSensorSample
  split
  · exact .next h
  · exact .next h

theorem execRegulatorPoll_completes (i : Nat) (pout : Nat) (status : BitVec 16) (s : State) : Completes s (execRegulatorPoll i pout status s) := by
  have h := Keeps.refl s
  unfold execRegulatorPoll
  split
  · exact .next h
  · exact .next h.readPout.readStatus

theorem execHostLinkUp_completes (k : Nat) (s : State) : Completes s (execHostLinkUp k s) := by
  have h := Keeps.refl s
  unfold execHostLinkUp
  dsimp only
  split
  · exact .next h
  · exact .next h

theorem execPfcFrame_completes (k : Nat) (quanta : List (Option (BitVec 16))) (s : State) : Completes s (execPfcFrame k quanta s) := by
  have h := Keeps.refl s
  unfold execPfcFrame
  dsimp only
  split
  · exact .next h
  · exact .next h

theorem execTestAccessPortInstruction_completes (ir : TapInstr) (s : State) : Completes s (execTestAccessPortInstruction ir s) := by
  have h := Keeps.refl s
  unfold execTestAccessPortInstruction
  split
  · exact .next h
  · split
    · exact .next h
    · exact .next h
    · extract_lets +onlyGivenNames s1
      have h1 : Keeps s s1 := .fifoPush h
      exact .next h1.mboxRun
    · exact .next h

theorem execPfcXon_completes (k : Nat) (s : State) : Completes s (execPfcXon k s) := by
  have h := Keeps.refl s
  unfold execPfcXon
  dsimp only
  split
  · exact .next h
  · exact .next h

theorem execPfcPauseExpiry_completes (k : Nat) (prio : Nat) (s : State) : Completes s (execPfcPauseExpiry k prio s) := by
  have h := Keeps.refl s
  unfold execPfcPauseExpiry
  dsimp only
  split
  · exact .next h
  · exact .next h

theorem execCnpRateRecovery_completes (q : Nat) (s : State) : Completes s (execCnpRateRecovery q s) := by
  have h := Keeps.refl s
  unfold execCnpRateRecovery
  dsimp only
  split
  · exact .next h
  · exact .next h

theorem execPwrgoodFall_completes (s : State) : Completes s (execPwrgoodFall s) := by
  have h := Keeps.refl s
  unfold execPwrgoodFall
  refine .next ?_
  split
  · exact h.allHeld.to rfl
  · exact h

theorem execPllLock_completes (s : State) : Completes s (execPllLock s) := by
  have h := Keeps.refl s
  unfold execPllLock
  split
  · exact .next h
  · exact .next h

theorem execLayoutOk_completes (s : State) : Completes s (execLayoutOk s) := by
  have h := Keeps.refl s
  unfold execLayoutOk
  refine .next ?_
  split
  · exact h.contentChecks
  · exact h

theorem execFillDone_completes (s : State) : Completes s (execFillDone s) := by
  have h := Keeps.refl s
  unfold execFillDone
  split
  · extract_lets +onlyGivenNames s1
    have h1 : Keeps s s1 := h.fillAll
    exact .next (h1.to rfl)
  · exact .next h

theorem execReadyRise_completes (s : State) : Completes s (execReadyRise s) := by
  have h := Keeps.refl s
  unfold execReadyRise
  dsimp only
  split
  · split
    · split
      · split
        · exact .next (.startWipe (.handKept (.recheckQueues (.restartScrubs (.epochNotes (.announce h))))))
        · exact .next (.handKept (.recheckQueues (.restartScrubs (.epochNotes (.announce h)))))
      · split
        · exact .next (.startWipe (.handKept (.recheckQueues (.restartScrubs (.epochNotes (.announce h))))))
        · exact .next (.handKept (.recheckQueues (.restartScrubs (.epochNotes (.announce h)))))
    · split
      · split
        · exact .next (.startWipe (.restartScrubs (.epochNotes (.announce h))))
        · exact .next (.restartScrubs (.epochNotes (.announce h)))
      · split
        · exact .next (.startWipe (.restartScrubs (.epochNotes (.announce h))))
        · exact .next (.restartScrubs (.epochNotes (.announce h)))
  · exact .next h

theorem execWarmFlushDone_completes (s : State) : Completes s (execWarmFlushDone s) := by
  have h := Keeps.refl s
  unfold execWarmFlushDone
  extract_lets +onlyGivenNames s1
  have h1 : Keeps s s1 := h.stopsEnd
  split
  · exact .next h1.warmHold
  · exact .next h1

theorem execWarmFlushTimeout_completes (s : State) : Completes s (execWarmFlushTimeout s) := by
  have h := Keeps.refl s
  unfold execWarmFlushTimeout
  split
  · extract_lets +onlyGivenNames s1 bad
    have h1 : Keeps s s1 := .stopsEnd h
    exact .next ((h1.foldl fun _ _ h2 => h2.channelFailed.logEvent).warmHold)
  · exact .next h

theorem execWarmSelfRefreshExit_completes (s : State) : Completes s (execWarmSelfRefreshExit s) := by
  have h := Keeps.refl s
  unfold execWarmSelfRefreshExit
  split
  · exact .next h.warmExit
  · exact .next h

theorem execWarmResetTimeout_completes (s : State) : Completes s (execWarmResetTimeout s) := by
  have h := Keeps.refl s
  unfold execWarmResetTimeout
  split
  · exact .next h.warmFails
  · exact .next h

theorem execThermtrip_completes (s : State) : Completes s (execThermtrip s) := by
  have h := Keeps.refl s
  unfold execThermtrip
  split
  · exact .next (h.allHeld.to rfl)
  · exact .next h

theorem execPolicerRefill_completes (s : State) : Completes s (execPolicerRefill s) := by
  have h := Keeps.refl s
  unfold execPolicerRefill
  refine .next ?_
  split
  · exact .eachPq h fun _ _ _ h1 => h1.refillOne
  · exact h

theorem execQueueDepthSample_completes (s : State) : Completes s (execQueueDepthSample s) := by
  have h := Keeps.refl s
  unfold execQueueDepthSample
  refine .next ?_
  split
  · exact .eachPq h fun _ _ _ h1 => h1
  · exact h

theorem execGateSlotStart_completes (s : State) : Completes s (execGateSlotStart s) := by
  have h := Keeps.refl s
  unfold execGateSlotStart
  split
  · exact .next h
  · dsimp only
    exact .next (.foldl h fun _ _ h1 => h1.retry)

theorem execGateSlotCutoff_completes (s : State) : Completes s (execGateSlotCutoff s) := by
  have h := Keeps.refl s
  unfold execGateSlotCutoff
  split
  · exact .next h
  · exact .next h

theorem execGateEntryTimeout_completes (s : State) : Completes s (execGateEntryTimeout s) := by
  have h := Keeps.refl s
  unfold execGateEntryTimeout
  dsimp only
  split
  · exact .next h.powerReply
  · exact .next h

theorem execPowerCapUpdate_completes (s : State) : Completes s (execPowerCapUpdate s) := by
  have h := Keeps.refl s
  unfold execPowerCapUpdate
  refine .next ?_
  split
  · exact .capUpdate h
  · exact h

theorem execEventLogFlush_completes (s : State) : Completes s (execEventLogFlush s) := by
  have h := Keeps.refl s
  unfold execEventLogFlush
  refine .next ?_
  split
  · exact h
  · exact h

theorem execLedgerSummary_completes (s : State) : Completes s (execLedgerSummary s) := by
  have h := Keeps.refl s
  unfold execLedgerSummary
  refine .next ?_
  split
  · exact .ledgerSummary h
  · exact h

theorem execSmbusStale_completes (s : State) : Completes s (execSmbusStale s) := by
  have h := Keeps.refl s
  unfold execSmbusStale
  refine .next ?_
  split
  · exact h
  · exact h

theorem exec_completes (c : Instr) (s : State) : Completes s (exec c s) := by
  have h := Keeps.refl s
  cases c with
  | pwrgoodRise _ _ => exact execPwrgoodRise_completes _ _ s
  | clockLoss _ => exact execClockLoss_completes _ s
  | owlUp _ => exact execOwlUp_completes _ s
  | bankBootFail _ => exact execBankBootFail_completes _ s
  | channelTrainingEnd _ _ => exact .next h.trained
  | wrstNFall _ => exact execWrstNFall_completes _ s
  | warmZeroFillDone _ _ => exact execWarmZeroFillDone_completes _ _ s
  | registerWrite _ _ _ => exact .next h.write
  | unlockWrite _ _ _ => exact .next h.write
  | unlockLapse _ _ => exact execUnlockLapse_completes _ _ s
  | w1cClear _ _ _ _ => exact execW1cClear_completes _ _ _ _ s
  | rwtRevote _ => exact execRwtRevote_completes _ s
  | rwtRewrite _ => exact execRwtRewrite_completes _ s
  | fifoPop _ _ => exact .next h.fifoReg
  | fifoDrop _ _ => exact .next h.fifoReg
  | fifoPush _ _ _ => exact .next h.fifoReg
  | fifoPushEop _ _ _ => exact .next h.fifoReg
  | inqDescriptorStart _ => exact .next h.inqStart
  | partOpHold _ _ _ => exact .next h.pageReg
  | partTenantHold _ _ _ => exact .next h.pageReg
  | partitionQuiesced _ => exact .next h.quiesce.powerAdvance.wipeAdvance
  | partDraining10ms _ => exact execPartDraining10ms_completes _ s
  | partDraining100ms _ => exact execPartDraining100ms_completes _ s
  | partReset _ _ => exact .next h.pageReg
  | partitionResetDone _ => exact .next h.partResetDone
  | lnkEnable _ _ => exact .next h.write
  | lnkAutoUp _ => exact .next h.write
  | takeDown _ => exact .next h.write
  | lnkCmdRetrain _ => exact .next h.write
  | planGo _ => exact .next h.write
  | lanePower _ _ _ => exact .next h.write
  | laneClearFail _ _ => exact .next h.write
  | downHoldoffEnd _ => exact execDownHoldoffEnd_completes _ s
  | tsId _ _ _ => exact execTsId_completes _ _ _ s
  | tsEq _ _ _ => exact execTsEq_completes _ _ _ s
  | tsDone _ _ _ _ _ => exact execTsDone_completes _ _ _ _ _ s
  | tsGo _ _ _ => exact execTsGo_completes _ _ _ s
  | retrainLcb _ _ _ => exact execRetrainLcb_completes _ _ _ s
  | downLcb _ _ _ => exact execDownLcb_completes _ _ _ s
  | standbyLcb _ _ _ => exact .next (h.lcbIn fun _ _ h1 => h1)
  | laneTrainLcb _ _ _ => exact execLaneTrainLcb_completes _ _ _ s
  | trainTimeout _ => exact execTrainTimeout_completes _ s
  | retrainTimeout _ => exact execRetrainTimeout_completes _ s
  | retrainComplete _ => exact execRetrainComplete_completes _ s
  | laneLockLoss _ _ => exact execLaneLockLoss_completes _ _ s
  | planLockLoss _ => exact execPlanLockLoss_completes _ s
  | laneFail _ _ => exact execLaneFail_completes _ _ s
  | dataUnit _ _ => exact .next (h.seqIn fun _ h1 => h1)
  | idleUnit _ _ => exact .next h.plainIn
  | replayUnit _ _ => exact .next h.plainIn
  | planUnitReq _ _ => exact execPlanUnitReq_completes _ _ s
  | planUnitAcc _ _ => exact execPlanUnitAcc_completes _ _ s
  | planUnitRej _ _ => exact execPlanUnitRej_completes _ _ s
  | planUnitGo _ _ => exact execPlanUnitGo_completes _ _ s
  | replayTimer _ => exact execReplayTimer_completes _ s
  | sameLimitReached _ => exact execSameLimitReached_completes _ s
  | winLimitReached _ => exact execWinLimitReached_completes _ s
  | retrainLimitReached _ => exact execRetrainLimitReached_completes _ s
  | rdShared _ _ _ => exact .next (h.receive fun _ h1 => h1.reqIn)
  | rdOwn _ _ _ => exact .next (h.receive fun _ h1 => h1.reqIn)
  | upgrade _ _ _ => exact .next (h.receive fun _ h1 => h1.reqIn)
  | rdOnce _ _ _ => exact .next (h.receive fun _ h1 => h1.reqIn)
  | wrLine _ _ _ => exact .next (h.receive fun _ h1 => h1.reqIn)
  | wrPart _ _ _ => exact .next (h.receive fun _ h1 => h1.reqIn)
  | atomic _ _ _ => exact .next (h.receive fun _ h1 => h1.reqIn)
  | accWr _ _ _ => exact .next (h.receive fun _ h1 => h1.reqIn)
  | publish _ _ _ => exact .next (h.receive fun _ h1 => h1.reqIn)
  | wbDirty _ _ _ => exact .next (h.receive fun _ h1 => h1.wbIn)
  | wbClean _ _ _ => exact .next (h.receive fun _ h1 => h1.wbIn)
  | snpAck _ _ => exact .next (h.receive fun _ h1 => h1.snoopAnswer)
  | snpData _ _ => exact .next (h.receive fun _ h1 => h1.snoopAnswer)
  | fmNodeDown _ _ => exact execFmNodeDown_completes _ _ s
  | fmNodeUp _ _ => exact .next (h.receive fun _ h1 => h1)
  | fmEcho _ _ => exact .next (h.receive fun _ h1 => h1)
  | fmEchoRsp _ _ => exact .next (h.receive fun _ h1 => h1)
  | unexpectedMessage _ _ _ => exact execUnexpectedMessage_completes _ _ _ s
  | requestWake _ _ => exact execRequestWake_completes _ _ s
  | minHoldEnd _ _ => exact execMinHoldEnd_completes _ _ s
  | requestStarved _ _ => exact execRequestStarved_completes _ _ s
  | starveCount _ _ => exact execStarveCount_completes _ _ s
  | parkTimeout _ _ => exact execParkTimeout_completes _ _ s
  | snoopTimeout _ => exact execSnoopTimeout_completes _ s
  | deathSweepEnd _ => exact execDeathSweepEnd_completes _ s
  | dedupEntryExpiry _ _ _ => exact execDedupEntryExpiry_completes _ _ _ s
  | dedupBlockEnd _ _ _ => exact execDedupBlockEnd_completes _ _ _ s
  | nodeGenBlockEnd _ => exact execNodeGenBlockEnd_completes _ s
  | dramReadComplete _ _ => exact .next h.readDone
  | dramAccessWithdrawn _ => exact execDramAccessWithdrawn_completes _ s
  | victimQueued _ _ => exact .next h.victimQueued
  | rmwBatchDone _ _ => exact .next h.rmwBatch
  | requestAged _ _ _ => exact .next h
  | bankIdlePrecharge _ _ _ _ => exact .next h.bankIdle
  | refreshDue _ _ _ _ => exact .next h.refreshDue
  | refreshForced _ _ _ _ => exact .next h.refreshForced
  | mr4Poll _ _ _ => exact execMr4Poll_completes _ _ _ s
  | dramAlert _ _ => exact .next h.dramAlert
  | caRetrainStart _ => exact .next h.caStart
  | caRetrainEnd _ _ => exact .next h.caEnd
  | drcHold _ _ => exact .next h.write
  | drcTimingWrite _ _ _ => exact .next h.write
  | spareCmdGo _ _ => exact .next h.write
  | ceLimitReached _ _ => exact .next h.ceLimit
  | deviceMark _ _ _ _ _ => exact .next h.deviceMark
  | migrationChunkDone _ _ _ => exact .next h.chunkDone
  | scrubRead _ _ _ => exact execScrubRead_completes _ _ _ s
  | scrubStarvedInterval _ => exact execScrubStarvedInterval_completes _ s
  | scrubLapLimit _ => exact execScrubLapLimit_completes _ s
  | regionDrainComplete _ => exact .next h.regionDrained
  | walkComplete _ _ => exact .next h.walkDone
  | walkTimeout _ _ => exact .next h.walkExpired
  | invalidationReceive _ _ => exact .next h.invReceive
  | overflowSweepEnd _ => exact .next h.drainReport
  | drainReport _ _ => exact .next h.drainReport
  | invalidationDrainTimeout _ => exact .next h.drainTimeout
  | xltInvAsid _ => exact .next h.write
  | xltInvRegion _ => exact .next h.write
  | queueEnable _ _ _ => exact .next h.qenBit
  | queueDisable _ _ _ => exact .next h.qenBit
  | queueReset _ _ _ => exact .next h.pageReg
  | queueWake _ => exact execQueueWake_completes _ s
  | descriptorFetched _ => exact .next h.fetched
  | handOver _ => exact .next h.handArrives
  | descriptorDispatch _ => exact .next h.dispatch
  | nop _ => exact .next h.nopDone
  | copy _ => exact .next h.runDesc
  | fill _ => exact .next h.runDesc
  | convert _ => exact .next h.runDesc
  | gather _ => exact .next h.runDesc
  | scatter _ => exact .next h.runDesc
  | reduce _ _ => exact .next h.runDesc
  | program _ => exact .next h.loadProgram
  | digest _ => exact .next h.runDesc
  | compact _ => exact .next h.runDesc
  | fenceBarrier _ => exact .next h.barrierDone
  | fenceInvalidate _ => exact .next h.fenceStart
  | engineTransferAnswer _ _ => exact .next h.transferAnswer
  | tileStart _ => exact .next h.tileStart
  | tileEnd _ => exact .next h.tileEnd
  | add _ => exact .next h.laneIns
  | sub _ => exact .next h.laneIns
  | mul _ => exact .next h.laneIns
  | fma _ => exact .next h.laneIns
  | div _ => exact .next h.laneIns
  | rsqrt _ => exact .next h.laneIns
  | sqrt _ => exact .next h.laneIns
  | exp2 _ => exact .next h.laneIns
  | log2 _ => exact .next h.laneIns
  | min _ => exact .next h.laneIns
  | max _ => exact .next h.laneIns
  | abs _ => exact .next h.laneIns
  | sign _ => exact .next h.laneIns
  | cmp _ => exact .next h.laneIns
  | sel _ => exact .next h.laneIns
  | clamp _ => exact .next h.laneIns
  | cvt _ => exact .next h.laneIns
  | srnd _ => exact .next h.laneIns
  | rsum _ => exact .next h.accIns
  | rssq _ => exact .next h.accIns
  | rmaxa _ => exact .next h.accIns
  | descriptorComplete _ => exact .next h.descComplete
  | engineHang _ => exact execEngineHang_completes _ s
  | engineCheckerFault _ => exact .next h.engineReset
  | foxReset _ => exact .next h.write
  | enginePurge _ _ => exact .next h.enginePurge
  | purgeReport _ _ => exact .next h.purgeReport
  | engineResetDone _ => exact .next h.engineResetDone
  | engineResetTimeout _ => exact execEngineResetTimeout_completes _ s
  | extensionApply _ => exact .next h.write
  | eventRingConfig _ _ _ => exact .next h.pageReg
  | eventConsumerWrite _ _ _ => exact .next h.pageReg
  | egressDepart _ _ => exact .next h.egressDepart
  | maxclrDepth _ _ _ => exact .next h.pageReg
  | maxclrDelay _ _ _ => exact .next h.pageReg
  | qosApply _ _ => exact .next h.write
  | settBadCycle _ _ => exact .next h.settBad
  | settCopyWatchdog _ => exact .next h.settBad
  | settStandbyFail _ _ => exact .next h.standbyFail
  | settSelfTestEnd _ _ => exact .next h.selfTestEnd
  | settResyncDone _ => exact execSettResyncDone_completes _ s
  | settResyncTimeout _ => exact execSettResyncTimeout_completes _ s
  | settPaircmdFailover _ => exact .next h.write
  | settPaircmdResync _ => exact .next h.write
  | consentKeySet _ _ => exact .next h.pageReg
  | tokenInstall _ _ => exact .next h.pageReg
  | tokenRevoke _ _ => exact .next h.pageReg
  | tokenLapse _ => exact execTokenLapse_completes _ s
  | d1Request _ => exact .next h.write
  | tlsHandshake _ _ _ => exact execTlsHandshake_completes _ _ _ s
  | sessionClose _ => exact .next h.dropSession.mgtSettle
  | sessionIdleTimeout _ => exact execSessionIdleTimeout_completes _ s
  | mgtFrame _ _ _ => exact execMgtFrame_completes _ _ _ s
  | commandChunk _ _ _ _ => exact .next h.chunk
  | unknownCommand _ _ _ => exact .next (h.command fun _ h1 => h1.reply)
  | info _ _ _ => exact .next h.info
  | regRead _ _ _ => exact .next h.regReadCmd
  | regWrite _ _ _ _ => exact .next h.regWriteCmd
  | eventRead _ _ _ => exact .next h.eventRead
  | ledgerRead _ _ _ => exact .next h.ledgerRead
  | scrubStatus _ _ _ => exact .next h.scrubStatus
  | scrubConfig _ _ _ => exact .next h.scrubConfig
  | layoutLoad _ _ _ => exact .next (h.lastChunk fun _ _ h1 => h1.layoutLoad)
  | layoutStage _ _ _ => exact .next (h.lastChunk fun _ _ h1 => h1.layoutStage)
  | layoutFlash _ _ _ => exact .next (h.lastChunk fun _ _ h1 => h1.layoutFlash)
  | rollbackAdvance _ _ _ => exact .next h.rollbackAdvance
  | keyInstall _ _ _ => exact .next h.keyInstall
  | fwWrite _ _ _ => exact .next (h.lastChunk fun _ _ h1 => h1.fwWrite)
  | fwSelect _ _ _ => exact .next h.fwSelect
  | owlRestart _ _ _ => exact .next h.owlRestart
  | warmReset _ _ _ => exact .next h.warmResetCmd
  | powerStateRun _ _ => exact .next h.powerState
  | powerStateGate _ _ => exact .next h.powerState
  | powerStateDrowse _ _ => exact .next h.powerState
  | powerStateHibernate _ _ => exact .next h.powerState
  | powerStateOff _ _ => exact .next h.powerState
  | powerCap _ _ _ => exact .next h.powerCap
  | lifecycle _ _ _ => exact .next h.lifecycle
  | spdm _ _ _ => exact .next h.spdmCommand
  | debugRead _ _ _ => exact .next h.debugRead
  | debugHaltHalt _ _ _ => exact .next h.haltUnit
  | debugHaltResume _ _ _ => exact .next h.resumeUnit
  | debugHaltRead _ _ _ => exact .next h.readUnit
  | debugHaltWrite _ _ _ => exact .next h.writeUnit
  | pmbus _ _ _ _ => exact .next h.pmbus
  | mgtConfig _ _ _ => exact .next h.mgtConfig
  | sensorSample _ _ => exact execSensorSample_completes _ _ s
  | regulatorPoll _ _ _ => exact execRegulatorPoll_completes _ _ _ s
  | smbusRead _ => exact .next h.smSend
  | smbusWrite _ _ => exact .next h.smSend
  | hostPortEnable _ _ => exact .next h.write
  | hostLinkUp _ => exact execHostLinkUp_completes _ s
  | hostLinkDown _ => exact .next h
  | arpRequest _ _ => exact .next h.answerFrame
  | neighbourSolicitation _ _ => exact .next h.answerFrame
  | echoRequest _ _ => exact .next h.answerFrame
  | pfcFrame _ _ => exact execPfcFrame_completes _ _ s
  | rdmaWriteFirst _ _ => exact .next h.hostWrite
  | rdmaWriteMiddle _ _ => exact .next h.hostWrite
  | rdmaWriteLast _ _ => exact .next h.hostWrite
  | rdmaWriteOnly _ _ => exact .next h.hostWrite
  | rdmaReadRequest _ _ => exact .next h.hostRead
  | compareSwap _ _ => exact .next h.hostAtomic
  | fetchAdd _ _ => exact .next h.hostAtomic
  | hostAck _ => exact .next h.pump.flushAck
  | dramWritePerformed _ _ _ => exact .next h.writePerformed
  | testAccessPortInstruction _ => exact execTestAccessPortInstruction_completes _ s
  | pfcXon _ => exact execPfcXon_completes _ s
  | pfcPauseExpiry _ _ => exact execPfcPauseExpiry_completes _ _ s
  | cnpReceive _ _ => exact .next (h.packet fun _ _ h1 => h1)
  | cnpRateRecovery _ => exact execCnpRateRecovery_completes _ s
  | unsupportedOpcode _ _ => exact .next h.hostBadOp
  | qpReady _ => exact .next h.qpStateWrite
  | qpReset _ => exact .next h.qpStateWrite
  | pwrgoodFall => exact execPwrgoodFall_completes s
  | pllLock => exact execPllLock_completes s
  | layoutOk => exact execLayoutOk_completes s
  | fillDone => exact execFillDone_completes s
  | readyRise => exact execReadyRise_completes s
  | warmFlushDone => exact execWarmFlushDone_completes s
  | warmFlushTimeout => exact execWarmFlushTimeout_completes s
  | warmSelfRefreshExit => exact execWarmSelfRefreshExit_completes s
  | warmResetTimeout => exact execWarmResetTimeout_completes s
  | thermtrip => exact execThermtrip_completes s
  | policerRefill => exact execPolicerRefill_completes s
  | queueDepthSample => exact execQueueDepthSample_completes s
  | gateSlotStart => exact execGateSlotStart_completes s
  | gateSlotCutoff => exact execGateSlotCutoff_completes s
  | powerStateReached => exact .next h.powerReached
  | gateEntryTimeout => exact execGateEntryTimeout_completes s
  | hibernateSweepEnd => exact .next h.sweepEnds
  | wipeComplete => exact .next h.wipeEnds
  | powerCapUpdate => exact execPowerCapUpdate_completes s
  | eventLogFlush => exact execEventLogFlush_completes s
  | ledgerSummary => exact execLedgerSummary_completes s
  | smbusStale => exact execSmbusStale_completes s

theorem Keeps.of_exec {c : Instr} {s t : State} (h : exec c s = .next t) : Keeps s t := by
  obtain ⟨u, hu, hk⟩ := exec_completes c s
  obtain rfl : t = u := by simpa [h] using hu
  exact hk

/-- A step keeps the memories' form and the fuses, with no command waiting and with one. -/
theorem step_keeps {s t : State} (h : step s = .next t) : KeepsWf s t ∧ s.fuse.Kept t.fuse := by
  cases hp : s.pending with
  | nil =>
    obtain rfl : s.idle = t := by simpa [step, hp] using h
    obtain ⟨hw, hf, -⟩ := (Keeps.refl s).idle
    exact ⟨hw, hf⟩
  | cons c rest =>
    obtain ⟨hw, hf, -⟩ := Keeps.of_exec (by simpa [step, hp] using h : exec c (s.withPending rest) = .next t)
    exact ⟨hw, hf⟩

/-- Settles O4: each command's outcome is a next state. -/
theorem everyCommandCompletes : Obligations.EveryCommandCompletes := fun c s => by
  obtain ⟨t, ht, -⟩ := exec_completes c s
  exact ⟨t, ht⟩

/-- Settles O3: every state operation leaves the queue as it is. -/
theorem commandsLeaveTheQueue : Obligations.CommandsLeaveTheQueue := fun _ _ _ h => by
  obtain ⟨-, -, hp⟩ := Keeps.of_exec h
  exact hp

/-- Settles O6: every write of memory keeps the canonical form, and every step is made of such writes and of updates elsewhere. -/
theorem stepKeepsMemoryCanonical : Obligations.StepKeepsMemoryCanonical := fun _ _ hw h => by
  obtain ⟨⟨hd, hs⟩, -⟩ := step_keeps h
  simp only [State.memWf, Bool.and_eq_true] at hw ⊢
  exact ⟨hs hw.1, hd hw.2⟩

/-- Settles O7: every burning of fuses keeps what is burnt, and nothing else writes them. -/
theorem stepNeverUnburnsFuses : Obligations.StepNeverUnburnsFuses := fun _ _ h => by
  obtain ⟨-, hf⟩ := step_keeps h
  exact hf

end Sys2Proof.Machine
end

section
/-! SUPPORT. The reset of an engine while a warm reset runs. -/

namespace Sys2Proof.Machine
open Sys2Proof

/-- A warm reset in its flush, which has stopped every engine already (R497). -/
def State.warmFlushing : State := { State.reset with phase := .warmFlush }

/-- Refutes O44: a checker's fault while a warm reset runs resets no engine, since the warm reset has stopped them all
(R488, R497), and the statement does not ask that none runs. -/
theorem not_engineRecovery : ¬ Obligations.EngineRecovery := by
  unfold Obligations.EngineRecovery
  rintro ⟨-, checker, -⟩
  obtain ⟨t, ht, -, hst, -⟩ := checker .warmFlushing 0 (by decide) (by decide)
  have ht' : State.warmFlushing.engineReset 0 = t := by injection ht
  rw [State.engineReset_of_inWarm rfl] at ht'
  rw [← ht'] at hst
  exact absurd hst (by decide)

end Sys2Proof.Machine
end

section
/-! SUPPORT. The reset of a queue pair that has a line on its way. -/

namespace Sys2Proof.Machine
open Sys2Proof

/-- Owl runs and has armed the host block, queue pair 0 is READY, and one of its lines is asked of the pool and not started. -/
def State.lineAsked : State :=
  { State.reset with
    owl := { State.reset.owl with st := .run }
    arms := [⟨unlockOf 0xB10000, false, 0⟩]
    hst := { State.reset.hst with qps := [(0, QP.reset.put 0 [1])] }
    txns := [{ kind := .host, unit := 0, phase := .walk }] }

/-- Refutes O55: the reset of a READY queue pair drops its lines that have not been started (R564), so that not only the armings and the
host block change. -/
theorem not_hostRequests : ¬ Obligations.HostRequests := by
  unfold Obligations.HostRequests
  rintro ⟨-, -, -, -, -, -, -, -, -, -, -, -, -, -, reset⟩
  obtain ⟨t, ht, hframe, -⟩ := reset .lineAsked 0 (by decide) ⟨by decide +kernel, by decide +kernel⟩
  have ht' : State.lineAsked.qpStateWrite 0 0 = t := by injection ht
  have hkept : t.txns.length = 1 := by rw [hframe]; rfl
  have hdropped : (State.lineAsked.qpStateWrite 0 0).txns.length = 0 := by decide +kernel
  rw [ht', hkept] at hdropped
  exact absurd hdropped (by decide)

end Sys2Proof.Machine
end

section
/-! SUPPORT. The pair of a sett (R490–R494, R502): the outcomes of its units' failures, tests and copies. -/

namespace Sys2Proof.Machine
open Sys2Proof

variable {s : State} {n : Nat}

/-! ### The units of a pair -/

@[simp] theorem Sett.unitSt_setUnit_same (t : Sett) (i : Bool) (x : UnitState) : (t.setUnit i x).unitSt i = x := by
  cases i <;> rfl

/-- The state of a unit depends on the units' fields alone. -/
theorem Sett.unitSt_congr {t u : Sett} (h0 : t.unit0 = u.unit0) (h1 : t.unit1 = u.unit1) (i : Bool) : t.unitSt i = u.unitSt i := by
  rw [Sett.unitSt, Sett.unitSt, h0, h1]

@[simp] theorem Sett.setUnit_act1 (t : Sett) (i : Bool) (x : UnitState) : (t.setUnit i x).act1 = t.act1 := by cases i <;> rfl

/-! ### What changes one sett -/

theorem OnlySett.of_setts {t : State} {x : Sett} (h : t.setts = tput s.setts n x) : OnlySett n s t := fun m hm => by
  rw [State.sett, h]
  exact (State.setSett_get_sett ..).trans (if_neg hm.symm)

theorem State.sett_of_setts {t : State} {x : Sett} (h : t.setts = tput s.setts n x) : t.sett n = x := by
  rw [State.sett, h]
  exact State.setSett_get_sett_same ..

/-- A sett changed and the change logged. -/
theorem State.setSett_logPlain (x : Sett) (k d : Byte) {t : State} (ht : t = (s.setSett n x).logPlain k d) :
    t = { s with setts := t.setts, owl := t.owl } ∧ OnlySett n s t ∧ t.sett n = x := by
  rw [State.logPlain_owl] at ht
  subst ht
  exact ⟨rfl, .of_setts rfl, State.sett_of_setts rfl⟩

/-! ### Failover and loss (R491, R494) -/

/-- R491: the pair after its active unit has failed over. -/
def Sett.failedOver (t : Sett) (cause : Byte) : Sett :=
  { (t.setUnit t.act1 .failed).setUnit (!t.act1) .active with
    pair := .single, act1 := !t.act1, cause := cause, tries := 0, failovers := sat t.failovers, foev := setBit t.foev 0
    cmdFailover := false }

theorem State.settBad_of_pair (cause : Byte) (h : (s.sett n).pair = .pair) :
    s.settBad n cause = (s.setSett n ((s.sett n).failedOver cause)).logPlain 0x1A 1 := by
  simp only [State.settBad, h]
  rfl

theorem State.settBad_of_single (cause : Byte) (h : (s.sett n).pair = .single) : s.settBad n cause = s.settLost n cause := by
  simp only [State.settBad, h]

theorem State.drainChecks_of_nil (h : s.xlt.drains = []) : s.drainChecks = s := by simp [State.drainChecks, h]

/-- R494: a pair with no request open at it is lost while no invalidation drains: its own state, Owl's log and the ledger
change, and no request is withdrawn from a channel. -/
theorem State.settLost_idle (cause : Byte) (hidle : ∀ u ∈ s.txns, u.sett ≠ n) (hdrains : s.xlt.drains = []) :
    ∃ x : Sett, (s.settLost n cause).setts = tput s.setts n x ∧ (s.settLost n cause).txns = s.txns ∧ x.pair = .lost ∧
      x.losses = sat (s.sett n).losses := by
  have hmine : (s.txns.filter fun u => u.sett == n) = [] := by simpa using hidle
  simp only [State.settLost, State.setSett_txns, hmine, List.map_nil, List.foldl_nil]
  generalize hu : State.ledgerAdd _ _ _ = u
  have hframe := (State.ledgerAdd_logged ..).frame.symm.trans hu |>.symm
  rw [State.logPlain_owl] at hframe
  rw [State.drainChecks_of_nil (by rw [hframe]; exact hdrains)]
  exact ⟨_, by rw [hframe]; rfl, by rw [hframe], rfl, rfl⟩

/-! ### The standby, its test and its copy (R492, R493) -/

/-- R493: the pair after a failed attempt to resynchronise. -/
def Sett.attemptFailed (t : Sett) (cause : Option Byte) : Sett :=
  { t.setUnit (!t.act1) .failed with
    pair := .single, tries := t.tries + 1, cause := cause.getD t.cause, resyncFails := sat t.resyncFails, foev := setBit t.foev 1
    cmdResync := false }

theorem State.attemptFails_of_not_lost (cause : Option Byte) (h : (s.sett n).pair ≠ .lost) :
    s.attemptFails n cause = (s.setSett n ((s.sett n).attemptFailed cause)).logPlain 0x1A 2 := by
  simp only [State.attemptFails, if_neg h]
  rfl

theorem State.standbyFail_copyPath (h : (s.sett n).pair = .pair) :
    s.standbyFail n true =
      s.setSett n { (s.sett n).setUnit (!(s.sett n).act1) .failed with pair := .single, cause := 5, tries := 0 } := by
  simp only [State.standbyFail, h, if_true]

section
variable (hsingle : (s.sett n).pair = .single) (hfailed : (s.sett n).unitSt (!(s.sett n).act1) = .failed) (htries : (s.sett n).tries < 3)
include hsingle hfailed htries

theorem State.selfTestEnd_pass : s.selfTestEnd n true =
    s.setSett n { (s.sett n).setUnit (!(s.sett n).act1) .resync with pair := .resync, rsSince := s.clk } := by
  rw [State.selfTestEnd, if_pos ⟨hsingle, hfailed, .inl htries⟩, if_pos rfl]

theorem State.selfTestEnd_fail :
    s.selfTestEnd n false = (s.attemptFails n (some 7)).ledgerAdd 9 (ledgerNums [n, 0x493]) := by
  rw [State.selfTestEnd, if_pos ⟨hsingle, hfailed, .inl htries⟩, if_neg Bool.false_ne_true]

end

/-! ### The command register (R502) -/

section
variable (hn : n < 16)
include hn

theorem blockAt_paircmd : blockAt (0x20002C + 0x10000 * n) = (.sett n, 0x2C) := by
  rw [blockAt]
  iterate 2 rw [if_neg (by omega)]
  rw [if_pos (by omega)]
  congr 2 <;> omega

/-- R31–R34: a keyed write of SETT_PAIRCMD. -/
theorem State.write_paircmd (v : W32) (hk : s.CanKey .owl (0x20002C + 0x10000 * n)) :
    s.write .owl (0x20002C + 0x10000 * n) v = (s.disarm .owl (unlockOf (0x20002C + 0x10000 * n))).settWrite n 0x2C v := by
  have hblock := blockAt_paircmd hn
  have hb : owlBarred .owl (0x20002C + 0x10000 * n) = false := by rw [owlBarred, hblock]; rfl
  have hu : isUnlock (0x20002C + 0x10000 * n) = false := by rw [isUnlock, hblock]; rfl
  have hc : ∃ x, s.cell (0x20002C + 0x10000 * n) = some ⟨.keyed, x⟩ := by
    rw [State.cell, hblock]
    exact ⟨_, rfl⟩
  obtain ⟨x, hc⟩ := hc
  rw [State.write_owl_keyed v hk (by omega) hb hu hc, State.effect, hblock]

theorem exec_settPaircmdFailover (hk : s.CanKey .owl (0x20002C + 0x10000 * n)) :
    exec (.settPaircmdFailover n) s = .next ((s.disarm .owl (unlockOf (0x20002C + 0x10000 * n))).paircmdFailover n) :=
  congrArg _ (State.write_paircmd hn 1 hk)

theorem exec_settPaircmdResync (hk : s.CanKey .owl (0x20002C + 0x10000 * n)) :
    exec (.settPaircmdResync n) s = .next ((s.disarm .owl (unlockOf (0x20002C + 0x10000 * n))).paircmdResync n) :=
  congrArg _ (State.write_paircmd hn 2 hk)

end

/-- Settles O45: each command's outcome is a change of the sett's own state, most with a record of the event log. -/
theorem settPairs : Obligations.SettPairs := by
  unfold Obligations.SettPairs
  refine ⟨?bad, ?lost, ?watchdog, ?standby, ?pass, ?fail, ?done, ?timeout, ?failover, ?resync⟩
  case bad =>
    intro s n cause hp
    obtain ⟨hf, honly, hx⟩ := State.setSett_logPlain _ _ _ (State.settBad_of_pair cause hp)
    exact leads_of_exec rfl ⟨hf, honly, by rw [hx]; rfl, by rw [hx]; rfl, by rw [hx]; rfl, by rw [hx]; rfl⟩
  case lost =>
    intro s n cause hp hidle hdrains
    obtain ⟨x, hsetts, htxns, hpair, hlosses⟩ := State.settLost_idle cause hidle hdrains
    refine leads_of_exec (congrArg Host.Outcome.next (State.settBad_of_single cause hp)) ⟨?_, ?_, htxns, .of_setts hsetts⟩
    · rw [State.sett_of_setts hsetts, hpair]
    · rw [State.sett_of_setts hsetts, hlosses]
  case watchdog =>
    intro s n hp
    obtain ⟨hf, honly, hx⟩ := State.setSett_logPlain _ _ _ (State.settBad_of_pair 3 hp)
    exact leads_of_exec rfl ⟨hf, honly, by rw [hx]; rfl, by rw [hx]; rfl, by rw [hx]; rfl⟩
  case standby =>
    intro s n hp
    refine leads_of_exec (congrArg Host.Outcome.next (State.standbyFail_copyPath hp)) ⟨rfl, .of_setts rfl, ?_⟩
    rw [State.setSett_get_sett_same]
    refine ⟨rfl, Sett.setUnit_act1 .., ?_, rfl⟩
    exact (Sett.unitSt_congr rfl rfl _).trans (Sett.unitSt_setUnit_same ..)
  case pass =>
    intro s n hp hfailed htries
    refine leads_of_exec (congrArg Host.Outcome.next (State.selfTestEnd_pass hp hfailed htries)) ⟨rfl, .of_setts rfl, ?_⟩
    rw [State.setSett_get_sett_same]
    exact ⟨rfl, (Sett.unitSt_congr rfl rfl _).trans (Sett.unitSt_setUnit_same ..)⟩
  case fail =>
    intro s n hp hfailed htries
    have hl : (s.sett n).pair ≠ .lost := by simp [hp]
    obtain ⟨hf, -, -⟩ := State.setSett_logPlain _ _ _ (State.attemptFails_of_not_lost (some 7) hl)
    have hsetts : (s.selfTestEnd n false).setts = tput s.setts n ((s.sett n).attemptFailed (some 7)) := by
      rw [State.selfTestEnd_fail hp hfailed htries, (State.ledgerAdd_logged ..).frame, State.attemptFails_of_not_lost _ hl, State.logPlain_owl]
      rfl
    refine leads_of_exec rfl ⟨?_, ?_, ?_, ?_, .of_setts hsetts⟩
    all_goals rw [State.sett_of_setts hsetts]; rfl
  case done =>
    intro s n hp
    refine leads_of_exec (if_pos hp) ⟨rfl, .of_setts rfl, ?_⟩
    rw [State.setSett_get_sett_same]
    exact ⟨rfl, rfl, (Sett.unitSt_congr rfl rfl _).trans (Sett.unitSt_setUnit_same ..)⟩
  case timeout =>
    intro s n hp ht
    have hl : (s.sett n).pair ≠ .lost := by simp [hp]
    obtain ⟨hf, honly, hx⟩ := State.setSett_logPlain _ _ _ (State.attemptFails_of_not_lost none hl)
    exact leads_of_exec (if_pos ⟨hp, ht⟩) ⟨hf, honly, by rw [hx]; rfl, by rw [hx]; rfl, by rw [hx]; rfl⟩
  case failover =>
    intro s n hn hk hp
    have hp' : ((s.disarm .owl (unlockOf (0x20002C + 0x10000 * n))).sett n).pair = .pair := hp
    obtain ⟨hf, honly, hx⟩ := State.setSett_logPlain _ _ _ (State.settBad_of_pair 6 hp')
    refine leads_of_exec ((exec_settPaircmdFailover hn hk).trans (congrArg Host.Outcome.next (if_pos hp'))) ⟨?_, honly, ?_⟩
    · rw [hf]; rfl
    · rw [hx]; exact ⟨rfl, rfl, rfl⟩
  case resync =>
    intro s n hn hk hu
    have hu' : ((s.disarm .owl (unlockOf (0x20002C + 0x10000 * n))).sett n).unit0 = .failed ∨
      ((s.disarm .owl (unlockOf (0x20002C + 0x10000 * n))).sett n).unit1 = .failed := hu
    refine leads_of_exec ((exec_settPaircmdResync hn hk).trans (congrArg Host.Outcome.next (if_pos hu'))) ⟨rfl, .of_setts rfl, ?_⟩
    rw [State.setSett_get_sett_same]
    exact ⟨rfl, rfl⟩

end Sys2Proof.Machine
end

section
/-! SUPPORT. The tenant's consent (R522–R525): the write of PART_DBG_CTRL, and what the key and the token become. -/

namespace Sys2Proof.Machine
open Sys2Proof

variable {s : State} {p : Nat}

@[simp] theorem State.setDbg_get_dbg_same (d : Dbg) : ((s.setDbg p d).part p).dbg = d := by
  rw [State.setDbg_eq, State.setPart_get_part_same]

theorem State.setDbg_get_part_other (d : Dbg) {k : Nat} (h : k ≠ p) : (s.setDbg p d).part k = s.part k := by
  rw [State.setDbg_eq, State.setPart_get_part, if_neg (Ne.symm h)]

section
variable (hp : p < 32)
include hp

theorem blockAt_dbgCtrl : blockAt (pageBase p + 0x7004) = (.page p, 0x7004) := blockAt_page hp (by decide)

theorem State.cell_dbgCtrl : s.cell (pageBase p + 0x7004) = some ⟨.keyed, 0⟩ := by
  simp only [State.cell, blockAt_dbgCtrl hp]; rfl

/-- R522, R31–R34: a tenant's armed write of PART_DBG_CTRL. -/
theorem State.pageReg_dbgCtrl (v : W32) (h : s.CanPage (.host p) p 0x7004) :
    s.pageReg (.host p) p 0x7004 v = (s.disarm (.host p) (unlockOf (pageBase p + 0x7004))).dbgCtrl p v := by
  obtain ⟨hup, hpage, harmed⟩ := h
  have hblock := blockAt_dbgCtrl hp
  have hb : owlBarred (.host p) (pageBase p + 0x7004) = false := rfl
  have hu : isUnlock (pageBase p + 0x7004) = false := by rw [isUnlock, hblock]; rfl
  have h4 : (pageBase p + 0x7004) % 4 = 0 := by rw [pageBase]; omega
  rw [State.pageReg, if_pos ⟨hup, hpage⟩, State.regWrite_keyed v h4 hb hu (State.cell_dbgCtrl hp), if_pos harmed, State.effect, hblock]
  rfl

/-- R522: Owl's write of it is ignored. -/
theorem State.pageReg_owl_dbgCtrl (v : W32) : s.pageReg .owl p 0x7004 v = s := by
  have hb : owlBarred .owl (pageBase p + 0x7004) = true := by rw [owlBarred, blockAt_dbgCtrl hp]; rfl
  unfold State.pageReg
  split
  · exact if_pos (.inr hb)
  · rfl

theorem exec_consentKeySet (h : s.CanPage (.host p) p 0x7004) :
    exec (.consentKeySet (.host p) p) s = .next ((s.disarm (.host p) (unlockOf (pageBase p + 0x7004))).keySet p) :=
  congrArg Host.Outcome.next (State.pageReg_dbgCtrl hp 1 h)

theorem exec_tokenInstall (h : s.CanPage (.host p) p 0x7004) :
    exec (.tokenInstall (.host p) p) s = .next ((s.disarm (.host p) (unlockOf (pageBase p + 0x7004))).tokenInstall p) :=
  congrArg Host.Outcome.next (State.pageReg_dbgCtrl hp 2 h)

theorem exec_tokenRevoke (h : s.CanPage (.host p) p 0x7004) :
    exec (.tokenRevoke (.host p) p) s = .next ((s.disarm (.host p) (unlockOf (pageBase p + 0x7004))).tokenRevoke p) :=
  congrArg Host.Outcome.next (State.pageReg_dbgCtrl hp 4 h)

end

/-- R524: Owl's armed write of SEC_D1REQ. -/
theorem exec_d1Request (v : W32) (h : s.CanKey .owl 0xD00024) :
    exec (.d1Request v) s = .next { s.disarm .owl (unlockOf 0xD00024) with sec := { s.sec with d1req := v } } :=
  congrArg Host.Outcome.next
    (State.write_owl_keyed (x := s.sec.d1req.toNat) v h (by decide) (by decide) (by decide) rfl)

/-- R523: a token that passes its checks is installed, whether or not one was in force before. -/
theorem State.tokenInstall_ok (h : s.tokenResult p = 1) : ∃ d : Dbg,
    s.tokenInstall p = s.setDbg p d ∧ d.result = 1 ∧
      d.token = some ⟨BitVec.ofNat 3 (fld (s.part p).dbg.tokenBytes 9 1), fld (s.part p).dbg.tokenBytes 10 1,
        fld (s.part p).dbg.tokenBytes 32 8⟩ :=
  ⟨_, if_pos h, rfl, rfl⟩

/-- R523, R529: a token that fails is refused and counted, and the one in force stays. -/
theorem State.tokenInstall_refused (h : s.tokenResult p ≠ 1) : ((s.tokenInstall p).part p).dbg = { (s.part p).dbg with
    result := BitVec.ofNat 3 (s.tokenResult p), tokRefused := sat (s.part p).dbg.tokRefused, evstat := setBit (s.part p).dbg.evstat 0 } := by
  rw [State.tokenInstall, if_neg h]
  exact State.setDbg_get_dbg_same _

theorem State.tokenRevoke_dbg : ((s.tokenRevoke p).part p).dbg = (s.part p).dbg.dropToken := State.setDbg_get_dbg_same _

/-- Settles O47: each write reaches PART_DBG_CTRL or SEC_D1REQ, and changes the partition's consent, or Owl's request, alone. -/
theorem consent : Obligations.Consent := by
  unfold Obligations.Consent
  refine ⟨?key, ?installed, ?refused, ?revoked, ?barred, ?lapse, ?request⟩
  case key =>
    intro s p k hp hk hkey
    subst hkey
    refine leads_of_exec (exec_consentKeySet hp hk) ⟨rfl, ?_, ?_, fun j hj => State.setDbg_get_part_other _ hj⟩
    all_goals exact congrArg _ (State.setDbg_get_dbg_same _)
  case installed =>
    intro s p b hp hk hr hb
    subst hb
    obtain ⟨d, hd, hresult, htoken⟩ := State.tokenInstall_ok (s := s.disarm (.host p) (unlockOf (pageBase p + 0x7004))) hr
    refine leads_of_exec (exec_tokenInstall hp hk) ?_
    rw [hd]
    exact ⟨rfl, by rw [State.setDbg_get_dbg_same, hresult], by rw [State.setDbg_get_dbg_same, htoken]; rfl⟩
  case refused =>
    intro s p hp hk hr
    have hr' : ¬ (s.disarm (.host p) (unlockOf (pageBase p + 0x7004))).tokenResult p = 1 := hr
    refine leads_of_exec (exec_tokenInstall hp hk) ?_
    rw [State.tokenInstall_refused hr']
    refine ⟨?_, rfl, rfl, rfl, ?_⟩
    all_goals rw [State.tokenInstall, if_neg hr']; rfl
  case revoked =>
    intro s p hp hk
    refine leads_of_exec (exec_tokenRevoke hp hk) ?_
    rw [State.tokenRevoke_dbg]
    exact ⟨rfl, rfl, rfl⟩
  case barred =>
    intro s p hp
    exact leads_of_exec rfl (State.pageReg_owl_dbgCtrl hp 1)
  case lapse =>
    intro s p x hx hlapsed
    have hexec : exec (.tokenLapse p) s = .next (s.tokenRevoke p) := by
      show execTokenLapse p s = _
      rw [execTokenLapse, hx]
      exact congrArg Host.Outcome.next (if_pos hlapsed)
    refine leads_of_exec hexec ?_
    rw [State.tokenRevoke_dbg]
    exact ⟨rfl, rfl, rfl⟩
  case request =>
    intro s v hk
    exact leads_of_exec (exec_d1Request v hk) rfl

end Sys2Proof.Machine
end

section
/-! SUPPORT. Owl's commands of a fixed length (R536, R539), and those that read (R453, R540, R541). -/

namespace Sys2Proof.Machine
open Sys2Proof

/-! ### Fields of a body -/

theorem fld_toLe_append (n v : Nat) (b : Bytes) : fld (toLe n v ++ b) 0 n = v % 256 ^ n := by
  rw [fld_append_left (by simp)]
  exact fld_append_toLe [] n v

theorem fld_append_right (a b : Bytes) (i n : Nat) : fld (a ++ b) (a.length + i) n = fld b i n := by
  rw [fld, fld, slice, slice, List.drop_append, List.drop_of_length_le (Nat.le_add_right ..), List.nil_append, Nat.add_sub_cancel_left]

/-- A word of a body is read back. -/
theorem word_append (a : Bytes) (v : W32) : BitVec.ofNat 32 (fld (a ++ toLe 4 v.toNat) a.length 4) = v := by
  rw [fld_append_toLe, show 256 ^ 4 = 2 ^ 32 by rfl, Nat.mod_eq_of_lt v.isLt, BitVec.ofNat_toNat, BitVec.setWidth_eq]

theorem word_first (v : W32) (b : Bytes) : BitVec.ofNat 32 (fld (toLe 4 v.toNat ++ b) 0 4) = v := by
  rw [fld_toLe_append, show 256 ^ 4 = 2 ^ 32 by rfl, Nat.mod_eq_of_lt v.isLt, BitVec.ofNat_toNat, BitVec.setWidth_eq]

/-! ### A command of a fixed length -/

section
variable {s : State} {sess : Nat} {code : BitVec 16} {tag : W32} {body : Bytes} {n : Nat} {ok : Bool} {act : State → State}

theorem State.heard_sessOpen (h : s.Hears sess) : (s.heard sess).sessOpen sess = true := State.sessOpen_setSess _ h.1

theorem State.fixed_hears (h : s.Hears sess) (hlen : body.length = n) (hok : ok = true) :
    s.fixed sess code tag body n ok act = act (s.heard sess) :=
  (State.command_hears s _ _ _ h).trans (if_pos ⟨hlen, hok⟩)

theorem State.fixed_hears_bad (h : s.Hears sess) (hbad : ¬(body.length = n ∧ ok = true)) :
    s.fixed sess code tag body n ok act = (s.heard sess).reply sess code tag .badDescriptor [] :=
  (State.command_hears s _ _ _ h).trans (if_neg hbad)

end

/-- What a command that ends in a reply leads to: the reply goes out, and changes Owl's part alone. -/
theorem leads_reply {c : Instr} {s u : State} {sess : Nat} {code : BitVec 16} {tag : W32} {st : Status} {body : Bytes}
    (hexec : exec c s = .next (u.reply sess code tag st body)) (hreplies : u.owl.replies = s.owl.replies)
    (hopen : u.sessOpen sess = true) :
    Leads c s fun t => t = u.reply sess code tag st body ∧ t = { u with owl := t.owl } ∧ Replied s t sess code tag st body :=
  leads_of_exec hexec ⟨rfl, State.reply_frame .., by rw [Replied, State.reply_replies _ _ _ _ _ _ hopen, hreplies]⟩

/-- The commonest case: the command is heard and answered at once. -/
theorem leads_heard_reply {c : Instr} {s : State} {sess : Nat} {code : BitVec 16} {tag : W32} {st : Status} {body : Bytes}
    (h : s.Hears sess) (hexec : exec c s = .next ((s.heard sess).reply sess code tag st body)) :
    Leads c s fun t => t = { s with owl := t.owl } ∧ Replied s t sess code tag st body := by
  obtain ⟨t, ht, -, hframe, hreply⟩ := leads_reply hexec rfl (State.heard_sessOpen h)
  exact ⟨t, ht, hframe, hreply⟩

/-! ### The commands -/

section
variable {s : State} {sess : Nat} {tag : W32} {body : Bytes} (h : s.Hears sess)
include h

theorem exec_info_bad (b : Byte) (bs : Bytes) :
    exec (.info sess tag (b :: bs)) s = .next ((s.heard sess).reply sess cInfo tag .badDescriptor []) :=
  congrArg Host.Outcome.next (State.fixed_hears_bad h (by simp))

theorem exec_regRead_ok {off n : Nat} (hoff : fld body 0 4 = off) (hn : fld body 4 4 = n) (hlen : body.length = 8)
    (hrange : rangeOk off n = true) (hlate : s.lateBlock off n = false) :
    exec (.regRead sess tag body) s = .next ((s.heard sess).reply sess cRegRead tag .ok
      (((s.heard sess).regReads .owl off n).flatMap fun w => toLe 4 w.toNat)) := by
  subst hoff hn
  have hlate' : (s.heard sess).lateBlock (fld body 0 4) (fld body 4 4) = false := hlate
  exact congrArg Host.Outcome.next ((State.fixed_hears h hlen hrange).trans (if_neg (by simp [hlate'])))

end

/-- R537: a keyed write of the scratch register: its block is armed first, and the arming is used up. -/
theorem State.regWriteAll_scratch (s : State) (v : W32) : s.regWriteAll true 0x64 [v] =
    { s with arms := (s.regWriteAll true 0x64 [v]).arms, top := { s.top with scratch := v } } := by
  have harmed : (s.unlockReg .owl 0x50 Config.unlockKey).armed .owl (unlockOf 0x64) = true := by
    rw [State.armed_unlockReg_key]; rfl
  have hcell : (s.unlockReg .owl 0x50 Config.unlockKey).cell 0x64 =
      some ⟨.keyed, (s.unlockReg .owl 0x50 Config.unlockKey).top.scratch.toNat⟩ := rfl
  have hwrite : s.regWriteAll true 0x64 [v] =
      ((s.unlockReg .owl 0x50 Config.unlockKey).disarm .owl (unlockOf 0x64)).effect .owl 0x64 v :=
    (State.regWrite_keyed v rfl rfl rfl hcell).trans (if_pos harmed)
  rw [hwrite, State.unlockReg_key]
  rfl

/-- The body of a REG_WRITE of the scratch register. -/
def scratchBody (v : W32) : Bytes := toLe 4 0x64 ++ toLe 4 1 ++ toLe 4 v.toNat

theorem fld_scratchBody (v : W32) :
    fld (scratchBody v) 0 4 = 0x64 ∧ fld (scratchBody v) 4 4 = 1 ∧ BitVec.ofNat 32 (fld (scratchBody v) 8 4) = v :=
  ⟨rfl, rfl, word_append (toLe 4 0x64 ++ toLe 4 1) v⟩

theorem exec_regWrite_scratch {s : State} {sess : Nat} (h : s.Hears sess) (tag v : W32) :
    exec (.regWrite sess tag true (scratchBody v)) s =
      .next (((s.heard sess).regWriteAll true 0x64 [v]).reply sess cRegWrite tag .ok []) := by
  obtain ⟨hoff, hn, hv⟩ := fld_scratchBody v
  have hlate : ¬ (s.heard sess).lateBlock 0x64 1 = true := by
    simp [State.lateBlock, show (blockAt 0x64).1 = .top from rfl]
  have hact : s.regWriteCmd sess tag true (scratchBody v) =
      ((s.heard sess).regWriteAll true 0x64 [v]).reply sess cRegWrite tag .ok [] := by
    unfold State.regWriteCmd
    rw [hoff, hn]
    dsimp only
    have hlen : (scratchBody v).length = 8 + 4 * 1 := rfl
    have hrange : rangeOk 0x64 1 = true := rfl
    rw [State.fixed_hears h hlen hrange, if_neg hlate]
    simp only [List.range_one, List.map_cons, List.map_nil, Nat.mul_zero, Nat.add_zero, hv]
  exact congrArg Host.Outcome.next hact

/-! ### Logs and settings -/

theorem ringStart_kept {first last : W32} {n : Nat} (h : (last - first).toNat ≤ n) :
    ringStart first last n = (n - (last - first).toNat, first, false) := if_pos h

/-- The body of an EVENT_READ. -/
def eventBody (first : W32) (m : Nat) : Bytes := toLe 4 first.toNat ++ toLe 2 m ++ [0, 0]

theorem fld_eventBody {m : Nat} (hm : m ≤ 4096) (first : W32) :
    BitVec.ofNat 32 (fld (eventBody first m) 0 4) = first ∧ fld (eventBody first m) 4 2 = m ∧ fld (eventBody first m) 6 2 = 0 := by
  refine ⟨?_, ?_, ?_⟩
  · rw [eventBody, List.append_assoc]; exact word_first ..
  · rw [eventBody, fld_append_left (by simp)]
    exact (fld_append_toLe (toLe 4 first.toNat) 2 m).trans (Nat.mod_eq_of_lt (by omega))
  · exact (fld_append_right (toLe 4 first.toNat ++ toLe 2 m) [0, 0] 0 2).trans rfl

/-- R540: what an EVENT_READ that starts among the records kept is answered. -/
def State.eventAnswer (s : State) (sess m : Nat) (first : W32) : Bytes :=
  let out := (s.flash.log.drop (s.flash.log.length - (s.flash.logSeq - first).toNat)).take (min m ((replyMax sess - 8) / 32))
  toLe 4 first.toNat ++ toLe 2 out.length ++ [0, 0] ++ out.zipIdx.flatMap fun (r, i) => logBytes (first + BitVec.ofNat 32 i).toNat r

theorem exec_eventRead_kept {s : State} {sess m : Nat} (h : s.Hears sess) (tag first : W32) (h1 : 1 ≤ m) (hm : m ≤ 4096)
    (hkept : (s.flash.logSeq - first).toNat ≤ s.flash.log.length) :
    exec (.eventRead sess tag (eventBody first m)) s =
      .next ((s.heard sess).reply sess cEventRead tag .ok (s.eventAnswer sess m first)) := by
  obtain ⟨hfirst, hcount, hzero⟩ := fld_eventBody hm first
  have hkept' : ((s.heard sess).flash.logSeq - first).toNat ≤ (s.heard sess).flash.log.length := hkept
  have hact : s.eventRead sess tag (eventBody first m) = (s.heard sess).reply sess cEventRead tag .ok (s.eventAnswer sess m first) := by
    unfold State.eventRead
    rw [hcount, hzero, State.fixed_hears h (by simp [eventBody]) (by simp [h1, hm]), hfirst, ringStart_kept hkept']
    rfl
  exact congrArg Host.Outcome.next hact

/-- R540: what a LEDGER_READ is answered. -/
def State.ledgerAnswer (s : State) (sess m first : Nat) : Bytes :=
  let out := fitting (min m (replyMax sess - 8)) (s.flash.ledger.drop first)
  toLe 4 out.length ++ toLe 4 (first + out.length) ++ out.flatMap (·.bytes)

theorem exec_ledgerRead_ok {s : State} {sess m first : Nat} (h : s.Hears sess) (tag : W32) (h1 : 4096 ≤ m) (hm : m ≤ bodyMax - 8)
    (hfirst : first < 2 ^ 32) :
    exec (.ledgerRead sess tag (toLe 4 first ++ toLe 4 m)) s =
      .next ((s.heard sess).reply sess cLedgerRead tag .ok (s.ledgerAnswer sess m first)) := by
  have hbody : m < 2 ^ 32 := Nat.lt_of_le_of_lt hm (by decide)
  have hf : fld (toLe 4 first ++ toLe 4 m) 0 4 = first := (fld_toLe_append ..).trans (Nat.mod_eq_of_lt hfirst)
  have hc : fld (toLe 4 first ++ toLe 4 m) 4 4 = m := (fld_append_toLe (toLe 4 first) 4 m).trans (Nat.mod_eq_of_lt hbody)
  have hcmd : s.ledgerRead sess tag (toLe 4 first ++ toLe 4 m) =
      (s.heard sess).reply sess cLedgerRead tag .ok (s.ledgerAnswer sess m first) := by
    unfold State.ledgerRead
    rw [hf, hc]
    exact State.fixed_hears h (by simp) (by simp [h1, hm])
  exact congrArg Host.Outcome.next hcmd

/-- The body of a SCRUB_CONFIG. -/
def scrubBody (d b : Nat) (lim : W32) : Bytes := toLe 2 d ++ toLe 2 b ++ toLe 4 lim.toNat

theorem fld_scrubBody {d b : Nat} (hd : d < 65536) (hb : b < 65536) (lim : W32) :
    fld (scrubBody d b lim) 0 2 = d ∧ fld (scrubBody d b lim) 2 2 = b ∧ BitVec.ofNat 32 (fld (scrubBody d b lim) 4 4) = lim := by
  refine ⟨?_, ?_, ?_⟩
  · rw [scrubBody, List.append_assoc]; exact (fld_toLe_append ..).trans (Nat.mod_eq_of_lt hd)
  · rw [scrubBody, fld_append_left (by simp)]
    exact (fld_append_toLe (toLe 2 d) 2 b).trans (Nat.mod_eq_of_lt hb)
  · exact word_append (toLe 2 d ++ toLe 2 b) lim

/-- R453: the settings of the scrubbers. -/
def State.scrubSet (s : State) (d b : Nat) (lim : W32) : State :=
  { s with owl := { s.owl with scrubInt := BitVec.ofNat 16 d, burInt := BitVec.ofNat 16 b, lapLimit := lim } }

section
variable {s : State} {sess d b : Nat} (h : s.Hears sess) (hd : d < 65536) (hb : b < 65536) (tag lim : W32)
include h hd hb

theorem exec_scrubConfig_ok (hd8 : 8 ≤ d) (hd4096 : d ≤ 4096) (hb4 : 4 ≤ b) (hb4096 : b ≤ 4096) :
    exec (.scrubConfig sess tag (scrubBody d b lim)) s =
      .next (((s.heard sess).scrubSet d b lim).reply sess cScrubConfig tag .ok []) := by
  obtain ⟨hfd, hfb, hfl⟩ := fld_scrubBody hd hb lim
  have hcmd : s.scrubConfig sess tag (scrubBody d b lim) = ((s.heard sess).scrubSet d b lim).reply sess cScrubConfig tag .ok [] := by
    unfold State.scrubConfig
    rw [hfd, hfb, State.fixed_hears h (by simp [scrubBody]) (by simp [*]), hfl]
    rfl
  exact congrArg Host.Outcome.next hcmd

theorem exec_scrubConfig_bad (hbad : d < 8 ∨ b < 4) :
    exec (.scrubConfig sess tag (scrubBody d b lim)) s = .next ((s.heard sess).reply sess cScrubConfig tag .badDescriptor []) := by
  obtain ⟨hfd, hfb, -⟩ := fld_scrubBody hd hb lim
  have hcmd : s.scrubConfig sess tag (scrubBody d b lim) = (s.heard sess).reply sess cScrubConfig tag .badDescriptor [] := by
    unfold State.scrubConfig
    rw [hfd, hfb, State.fixed_hears_bad h (by simp; omega)]
  exact congrArg Host.Outcome.next hcmd

end

/-- Settles O49: each command is heard, and what it reads does not rest on the session's idle time. -/
theorem owlReads : Obligations.OwlReads := by
  unfold Obligations.OwlReads
  refine ⟨?info, ?infoBad, ?regRead, ?regWrite, ?events, ?ledger, ?scrubs, ?config, ?configBad⟩
  case info =>
    intro s sess tag h
    exact leads_heard_reply h (congrArg Host.Outcome.next (State.info_hears s tag h))
  case infoBad =>
    intro s sess tag b bs h
    exact leads_heard_reply h (exec_info_bad h b bs)
  case regRead =>
    intro s u sess tag off n h hrange hlate hu
    subst hu
    have hbounds : off < 2 ^ 32 ∧ n < 2 ^ 32 := by
      simp only [rangeOk, Bool.and_eq_true, decide_eq_true_eq] at hrange
      omega
    refine leads_heard_reply h (exec_regRead_ok h ?_ ?_ (by simp) hrange hlate)
    · exact (fld_toLe_append ..).trans (Nat.mod_eq_of_lt hbounds.1)
    · exact (fld_append_toLe (toLe 4 off) 4 n).trans (Nat.mod_eq_of_lt hbounds.2)
  case regWrite =>
    intro s sess tag v h
    have hwrite := (s.heard sess).regWriteAll_scratch v
    obtain ⟨t, ht, -, hframe, hreply⟩ := leads_reply (s := s) (exec_regWrite_scratch h tag v) (by rw [hwrite]; rfl)
      (by rw [hwrite]; exact State.heard_sessOpen h)
    have harms : t.arms = ((s.heard sess).regWriteAll true 0x64 [v]).arms := (congrArg State.arms hframe :)
    exact ⟨t, ht, by rw [hframe, hwrite]; rfl, hreply⟩
  case events =>
    intro s sess m tag first out h hm1 hm hkept hout
    subst hout
    exact leads_heard_reply h (exec_eventRead_kept h tag first hm1 hm hkept)
  case ledger =>
    intro s sess m first tag out h hm1 hm hfirst hout
    subst hout
    exact leads_heard_reply h (exec_ledgerRead_ok h tag hm1 hm hfirst)
  case scrubs =>
    intro s sess tag h
    exact leads_heard_reply h (congrArg Host.Outcome.next (State.fixed_hears h rfl rfl))
  case config =>
    intro s sess d b tag lim h hd8 hd4096 hb4 hb4096
    obtain ⟨t, ht, hu, hframe, hreply⟩ := leads_reply (s := s)
      (exec_scrubConfig_ok h (by omega) (by omega) tag lim hd8 hd4096 hb4 hb4096) rfl (State.heard_sessOpen h)
    refine ⟨t, ht, hframe, hreply, ?_, ?_, ?_⟩
    all_goals rw [hu, State.reply_owl]; rfl
  case configBad =>
    intro s sess d b tag lim h hbad hd hb
    obtain ⟨t, ht, hu, hframe, hreply⟩ := leads_reply (s := s) (exec_scrubConfig_bad h hd hb tag lim hbad) rfl (State.heard_sessOpen h)
    refine ⟨t, ht, hframe, hreply, ?_, ?_, ?_⟩
    all_goals rw [hu, State.reply_owl]; rfl

end Sys2Proof.Machine
end

section
/-! SUPPORT. Sessions on MGT (R533–R537, R539): handshakes, the ends of sessions, frames of the management port, and chunks. -/

namespace Sys2Proof.Machine
open Sys2Proof

variable {s : State}

/-! ### Records while Owl runs -/

/-- While Owl runs every record is queued. -/
theorem State.logPlain_run (k d : Byte) (h : s.owl.st = .run) : s.logPlain k d = { s with owl := { s.owl with
    evq := s.owl.evq ++ [⟨k, 0, d, s.owl.lostPend, 0, s.top.tick, s.flash.bootcnt, 0xFF⟩], lostPend := false } } :=
  if_neg fun hr => by simp [h] at hr

theorem State.mgtUp_run (h : s.mgtUp = true) : s.owl.st = .run := by
  simp only [State.mgtUp, Bool.and_eq_true, decide_eq_true_eq] at h
  exact h.1

/-! ### Sessions open -/

theorem State.freeSession_some {i : Nat} (h : s.freeSession = some i) : i < 4 ∧ thas s.owl.sessions i = false := by
  have hi : i ∈ List.range 4 := List.mem_of_find?_eq_some h
  have hfree := List.find?_some h
  exact ⟨List.mem_range.1 hi, by simpa using hfree⟩

theorem State.sessOpen_session {i : Nat} (hi : i < 4) : s.sessOpen i = thas s.owl.sessions i :=
  if_neg (Nat.ne_of_lt hi)

section
variable {o : TlsOffer} {n : Nat} {d : Bytes} (hup : s.mgtUp = true)
include hup

/-- R534, R535: an offer and a chain that pass open the lowest session that is not open. -/
theorem exec_tlsHandshake_opens {i : Nat} (hfree : s.freeSession = some i) (ho : tlsOk o = true) (h1 : 1 ≤ n) (h4 : n ≤ 4)
    (hd : s.chainOk d = true) : exec (.tlsHandshake o n d) s =
      .next (((s.tlsSend .chain s.certs).setSess i { Sess.reset with lastCmd := s.clk }).logPlain 0x1F 1) := by
  show execTlsHandshake o n d s = _
  simp only [execTlsHandshake, hup, Bool.not_true, Bool.false_eq_true, if_false, hfree]
  exact if_pos ⟨ho, h1, h4, hd⟩

theorem exec_tlsHandshake_refused (hbad : s.freeSession = none ∨ tlsOk o = false ∨ n = 0 ∨ 4 < n ∨ s.chainOk d = false) :
    exec (.tlsHandshake o n d) s = .next ((s.tlsSend .alert []).logPlain 0x1F 2) := by
  show execTlsHandshake o n d s = _
  simp only [execTlsHandshake, hup, Bool.not_true, Bool.false_eq_true, if_false]
  split
  · next i hfree =>
    refine if_neg fun ⟨ho, h1, h4, hd⟩ => ?_
    rcases hbad with hbad | hbad | hbad | hbad | hbad
    · simp [hfree] at hbad
    · simp [ho] at hbad
    · omega
    · omega
    · simp [hd] at hbad
  · rfl

end

/-! ### Sessions close -/

/-- R535: the end of an open session, recorded. -/
theorem State.dropSession_open {i : Nat} (hi : i < 4) (hopen : s.sessOpen i = true) : s.dropSession i =
    ({ s with owl := { s.owl with sessions := tdel s.owl.sessions i }.orphan i } : State).logPlain 0x1F 3 :=
  if_pos ⟨State.sessOpen_session hi ▸ hopen, hi⟩

/-- What the end of an open session leaves. -/
structure Dropped (i : Nat) (s t : State) : Prop where
  frame : t = { s with owl := t.owl }
  sessions : t.owl.sessions = tdel s.owl.sessions i
  mgtNew : t.owl.mgtNew = s.owl.mgtNew

theorem State.dropSession_dropped {i : Nat} (hi : i < 4) (hopen : s.sessOpen i = true) : Dropped i s (s.dropSession i) := by
  rw [State.dropSession_open hi hopen]
  generalize hu : ({ s with owl := { s.owl with sessions := tdel s.owl.sessions i }.orphan i } : State) = u
  have hadmin := u.logEvent_admin 0x1F 0 3 0 0xFF
  refine ⟨?_, (congrArg (·.owl.sessions) hadmin :).trans (by rw [← hu]; rfl), (congrArg (·.owl.mgtNew) hadmin :).trans (by rw [← hu]; rfl)⟩
  rw [State.logPlain_owl, ← hu]

section
variable {i : Nat} {t : State} (hi : i < 4) (h : Dropped i s t)
include hi h

theorem Dropped.sessOpen_same : t.sessOpen i = false := by
  rw [State.sessOpen_session hi, h.sessions, thas_tdel]; simp

omit hi in
theorem Dropped.sessOpen_other {j : Nat} (hj : j ≠ i) : t.sessOpen j = s.sessOpen j := by
  have hd2 : t.sec.d2 = s.sec.d2 := congrArg (·.sec.d2) h.frame
  rw [State.sessOpen, State.sessOpen, h.sessions, thas_tdel, hd2, bne_iff_ne.2 hj.symm, Bool.true_and]

end

theorem State.mgtSettle_none (h : s.owl.mgtNew = none) : s.mgtSettle = s := by simp only [State.mgtSettle, h]

/-- R537: with every session closed the settings that wait take effect. -/
theorem State.mgtSettle_closed {m : Bytes} (h : s.owl.mgtNew = some m) (hclosed : ∀ j < 4, s.sessOpen j = false) : s.mgtSettle =
    { s with owl := { s.owl with mgt := m, mgtNew := none, lease := none, slaac := none }, flash := { s.flash with mgt := m } } := by
  have hnone : (s.owl.sessions.filter fun e => decide (e.1 < mboxSess)) = [] := by
    refine List.filter_eq_nil_iff.2 fun e he hlt => ?_
    have hlt' : e.1 < 4 := of_decide_eq_true hlt
    have hthas : thas s.owl.sessions e.1 = true := List.any_eq_true.2 ⟨e, he, by simp⟩
    rw [← State.sessOpen_session hlt', hclosed _ hlt'] at hthas
    exact absurd hthas (by decide)
  simp only [State.mgtSettle, h, hnone, List.isEmpty_nil, if_true]

/-- R535: the end of an open session while no settings wait. -/
theorem State.dropSession_settled {i : Nat} (hi : i < 4) (hopen : s.sessOpen i = true) (hmgt : s.owl.mgtNew = none) :
    Dropped i s (s.dropSession i).mgtSettle := by
  have h := State.dropSession_dropped hi hopen
  rwa [State.mgtSettle_none (h.mgtNew.trans hmgt)]

theorem leads_dropped {c : Instr} {i : Nat} {t : State} (hi : i < 4) (h : Dropped i s t) (hexec : exec c s = .next t) :
    Leads c s fun t => t = { s with owl := t.owl } ∧ t.sessOpen i = false ∧ ∀ j, j ≠ i → t.sessOpen j = s.sessOpen j :=
  leads_of_exec hexec ⟨h.frame, h.sessOpen_same hi, fun _ hj => h.sessOpen_other hj⟩

/-- R535, R537: the last session's end lets the waiting settings take effect. -/
theorem State.dropSession_last {i : Nat} {m : Bytes} (hi : i < 4) (hopen : s.sessOpen i = true) (hmgt : s.owl.mgtNew = some m)
    (hothers : ∀ j < 4, j ≠ i → s.sessOpen j = false) :
    let t := (s.dropSession i).mgtSettle
    t.owl.mgt = m ∧ t.owl.mgtNew = none ∧ t.sessOpen i = false := by
  have h := State.dropSession_dropped hi hopen
  have hclosed (j : Nat) (hj : j < 4) : (s.dropSession i).sessOpen j = false := by
    by_cases hji : j = i
    · rw [hji, h.sessOpen_same hi]
    · rw [h.sessOpen_other hji, hothers j hj hji]
  rw [State.mgtSettle_closed (h.mgtNew.trans hmgt) hclosed]
  exact ⟨rfl, rfl, hclosed i hi⟩

/-! ### Frames of the management port -/

section
variable {f : Frame} {port : BitVec 16} (hup : s.mgtUp = true) (hfcs : f.fcsOk = true) (hmine : s.mgtMine f = true)
  (hmac : f.dstMac = s.mgtMac)
include hup hfcs hmine hmac

/-- R533: what Owl answers with the addresses exchanged: ARP for IPv4, NDP for IPv6, and echoes. -/
theorem exec_mgtFrame_answers {k : MgtKind} (hk : (k = .arp ∧ f.v6 = false) ∨ (k = .ndp ∧ f.v6 = true) ∨ k = .echo) :
    exec (.mgtFrame k f port) s = .next { s with owl := { s.owl with mgtSent := s.owl.mgtSent ++
      [(k, { f with srcMac := f.dstMac, dstMac := f.srcMac, srcIp := f.dstIp, dstIp := f.srcIp })] } } := by
  show execMgtFrame k f port s = _
  rcases hk with ⟨rfl, hv⟩ | ⟨rfl, hv⟩ | rfl
  · simp [execMgtFrame, hup, hfcs, hmine, hmac, hv]
  · simp [execMgtFrame, hup, hfcs, hmine, hmac, hv]
  · simp [execMgtFrame, hup, hfcs, hmine, hmac]

theorem exec_mgtFrame_tcp (hport : port.toNat = s.mgtTcp) :
    exec (.mgtFrame .tcp f port) s = .next { s with owl := { s.owl with tcpIn := s.owl.tcpIn ++ [f.payload] } } := by
  show execMgtFrame .tcp f port s = _
  simp [execMgtFrame, hup, hfcs, hmine, hmac, hport]

end

section
variable {f : Frame} {port : BitVec 16}

theorem State.dhcpIn_off (h : s.mgtDhcp = false) : s.dhcpIn f = s := by simp [State.dhcpIn, h]

theorem State.raIn_off (h : s.mgtSlaac = false) : s.raIn f = s := by simp [State.raIn, h]

theorem exec_mgtFrame_dhcp_off (h : s.mgtDhcp = false) : exec (.mgtFrame .dhcp f port) s = .next s := by
  show execMgtFrame .dhcp f port s = _
  simp [execMgtFrame, State.dhcpIn_off h]

theorem exec_mgtFrame_ra_off (h : s.mgtSlaac = false) : exec (.mgtFrame .ra f port) s = .next s := by
  show execMgtFrame .ra f port s = _
  simp [execMgtFrame, State.raIn_off h]

theorem exec_mgtFrame_other : exec (.mgtFrame .other f port) s = .next s := ite_self _

end

/-! ### Chunks (R539) -/

section
variable {sess : Nat} {code : BitVec 16} {tag : W32} {body : Bytes}

theorem State.heard_held : ((s.heard sess).sess sess).held code = (s.sess sess).held code := by
  rw [State.heard, State.sess, State.setSess, tget_tput_same]; rfl

theorem State.heard_chunkStatus : (s.heard sess).chunkStatus sess code body = s.chunkStatus sess code body := by
  rw [State.chunkStatus, State.heard_held]; rfl

theorem State.setChunks_held {b : Bytes} : ((s.setChunks sess code b).sess sess).held code = b := by
  rw [State.setChunks, State.sess, State.setSess, tget_tput_same]; exact if_pos rfl

theorem State.setChunks_empty_held : ((s.setChunks sess 0 []).sess sess).held code = [] := by
  rw [State.setChunks, State.sess, State.setSess, tget_tput_same]; exact ite_self _

@[simp] theorem State.reply_sess {st : Status} (i j : Nat) : (s.reply i code tag st body).sess j = s.sess j := by
  rw [State.sess, State.sess, State.reply_owl]

variable (h : s.Hears sess)
include h

theorem exec_commandChunk_ok (hst : s.chunkStatus sess code body = .ok) : exec (.commandChunk sess code tag body) s =
    .next (((s.heard sess).setChunks sess code ((s.sess sess).held code ++ body.drop 4)).reply sess code tag .ok []) := by
  refine congrArg Host.Outcome.next ((State.command_hears s _ _ _ h).trans ?_)
  rw [← State.heard, State.heard_chunkStatus, hst, State.heard_held]

theorem exec_commandChunk_conflict (hst : s.chunkStatus sess code body = .conflict) : exec (.commandChunk sess code tag body) s =
    .next (((s.heard sess).setChunks sess 0 []).reply sess code tag .conflict []) := by
  refine congrArg Host.Outcome.next ((State.command_hears s _ _ _ h).trans ?_)
  rw [← State.heard, State.heard_chunkStatus, hst]

theorem exec_unknownCommand_hears {c : CmdHead} : exec (.unknownCommand sess c tag) s =
    .next ((s.heard sess).reply sess c.code tag (if c.length ≤ bodyMax then .unsupported else .badDescriptor) []) := by
  refine congrArg Host.Outcome.next ((State.command_hears s _ _ _ h).trans ?_)
  by_cases hlen : c.length ≤ bodyMax
  · rw [if_pos hlen]; exact congrArg (State.reply _ _ _ _ · _) (if_neg (Nat.not_lt.2 hlen))
  · rw [if_neg hlen]; exact congrArg (State.reply _ _ _ _ · _) (if_pos (Nat.lt_of_not_le hlen))

end

/-! ### A scrapped device -/

/-- R537: in SCRAPPED a command outside the short list that may run beside a layout load is answered FENCED. -/
theorem State.command_scrapped {sess : Nat} {code : BitVec 16} {tag : W32} {act : State → State} (hopen : s.sessOpen sess = true)
    (hrun : s.owl.st = .run) (hlife : s.life = 4) (hcode : scrappedOk code = false) (hbeside : runsAlone code = false) :
    s.command sess code tag act = (s.heard sess).reply sess code tag .fenced [] := by
  have hgo : ¬ ((!s.sessOpen sess) = true ∨ s.owl.st ≠ .run) := by simp [hopen, hrun]
  have hload : (s.heard sess).afterLoad code = s.heard sess := State.afterLoad_beside _ hbeside
  rw [State.command, if_neg hgo, ← State.heard, hload]
  exact if_pos ⟨hlife, by rw [hcode]; rfl⟩

theorem exec_scrubStatus_scrapped {sess : Nat} {tag : W32} {body : Bytes} (hopen : s.sessOpen sess = true) (hrun : s.owl.st = .run)
    (hlife : s.life = 4) : exec (.scrubStatus sess tag body) s = .next ((s.heard sess).reply sess cScrubStatus tag .fenced []) := by
  refine congrArg Host.Outcome.next ?_
  rw [State.scrubStatus, State.fixed, State.command_scrapped hopen hrun hlife (by decide) (by decide)]

/-- Settles O48: each command of a session is a change of Owl's state, with the sessions' table and the reply as the rules say. -/
theorem sessions : Obligations.Sessions := by
  unfold Obligations.Sessions
  refine ⟨fun s o i n d hup hfree ho h1 h4 hd => ?opens, fun s o n d hup hbad => ?refused, fun s i hi hopen hmgt => ?closes,
    fun s i m hi hopen hmgt hothers => ?last, fun s i hi hopen hmgt hidle => ?idle,
    fun s k f g port hup hfcs hmine hmac hk hg => leads_of_exec (exec_mgtFrame_answers hup hfcs hmine hmac hk) (hg ▸ rfl),
    fun s f port hup hfcs hmine hmac hport => leads_of_exec (exec_mgtFrame_tcp hup hfcs hmine hmac hport) rfl,
    fun s f port hdhcp hra => ⟨exec_mgtFrame_dhcp_off hdhcp, exec_mgtFrame_ra_off hra⟩, fun _ _ _ => exec_mgtFrame_other,
    fun s sess code tag body h hst => ?chunk, fun s sess code tag body h hst => ?conflict,
    fun s sess c tag h => leads_heard_reply h (exec_unknownCommand_hears h), fun s sess tag body hopen hrun hlife => ?scrapped⟩
  case opens =>
    obtain ⟨hi, hclosed⟩ := State.freeSession_some hfree
    refine leads_of_exec (exec_tlsHandshake_opens hup hfree ho h1 h4 hd) ?_
    rw [State.logPlain_run]; case h => exact State.mgtUp_run hup
    refine ⟨rfl, by rw [State.sessOpen_session hi, hclosed], ?_, List.length_append, rfl⟩
    rw [State.sessOpen_session hi]
    exact (thas_tput _ i i _).trans (by simp)
  case refused =>
    refine leads_of_exec (exec_tlsHandshake_refused hup hbad) ?_
    rw [State.logPlain_run]; case h => exact State.mgtUp_run hup
    exact ⟨rfl, rfl, List.length_append, rfl⟩
  case closes => exact leads_dropped hi (State.dropSession_settled hi hopen hmgt) rfl
  case last => exact leads_of_exec rfl (State.dropSession_last hi hopen hmgt hothers)
  case idle => exact leads_dropped hi (State.dropSession_settled hi hopen hmgt) (congrArg Host.Outcome.next (if_pos hidle))
  case chunk =>
    obtain ⟨t, ht, rfl, hframe, hreply⟩ := leads_reply (exec_commandChunk_ok h hst) rfl
      (State.sessOpen_setSess _ (State.heard_sessOpen h))
    exact ⟨_, ht, hframe, hreply, by rw [State.reply_sess, State.setChunks_held]⟩
  case conflict =>
    obtain ⟨t, ht, rfl, hframe, hreply⟩ := leads_reply (exec_commandChunk_conflict h hst) rfl
      (State.sessOpen_setSess _ (State.heard_sessOpen h))
    exact ⟨_, ht, hframe, hreply, by rw [State.reply_sess, State.setChunks_empty_held]⟩
  case scrapped =>
    obtain ⟨t, ht, -, hframe, hreply⟩ := leads_reply (exec_scrubStatus_scrapped hopen hrun hlife) rfl (State.sessOpen_setSess _ hopen)
    exact ⟨t, ht, hframe, hreply⟩

end Sys2Proof.Machine
end

section
/-! SUPPORT. Owl's firmware (R541–R546, R549): key instructions, banks, the restart, the warm reset, and the cap's setting. -/

namespace Sys2Proof.Machine
open Sys2Proof

variable {s : State} {sess : Nat} {tag : W32} {body : Bytes}

/-! ### Keys (R544) -/

/-- R544: the layout keys after an accepted instruction. -/
def FlashS.keyed (f : FlashS) (b : Bytes) : FlashS :=
  { f with layKeys := if fld b 0 1 = 1 then tput f.layKeys (fld b 1 1) (slice b 24 64) else tdel f.layKeys (fld b 1 1) }

section
variable (h : s.Hears sess) (hlen : body.length = 160) (hbody : keyBodyOk body = true)
include h hlen hbody

theorem exec_keyInstall_ok (hst : s.keyStatus body = .ok) : exec (.keyInstall sess tag body) s =
    .next (((s.heard sess).writeCfg fun f => f.keyed body).reply sess cKeyInstall tag .ok []) := by
  refine congrArg Host.Outcome.next ((State.fixed_hears h hlen hbody).trans ?_)
  have hst' : (s.heard sess).keyStatus body = .ok := hst
  dsimp only
  rw [hst', if_pos rfl]
  rfl

theorem exec_keyInstall_refused (hst : s.keyStatus body ≠ .ok) : exec (.keyInstall sess tag body) s =
    .next ((s.heard sess).reply sess cKeyInstall tag (s.keyStatus body) []) := by
  refine congrArg Host.Outcome.next ((State.fixed_hears h hlen hbody).trans ?_)
  dsimp only
  rw [if_neg (show ¬ (s.heard sess).keyStatus body = .ok from hst)]
  rfl

theorem leads_keyInstall (hst : s.keyStatus body = .ok) : Leads (.keyInstall sess tag body) s fun t =>
    t = { s with owl := t.owl, flash := { s.flash.rewritten s.clk with layKeys := t.flash.layKeys } } ∧
    Replied s t sess cKeyInstall tag .ok [] ∧ t.flash.layKeys = (s.flash.keyed body).layKeys := by
  obtain ⟨t, ht, rfl, hframe, hreply⟩ := leads_reply (exec_keyInstall_ok h hlen hbody hst) rfl (State.heard_sessOpen h)
  have hflash : (((s.heard sess).writeCfg fun f => f.keyed body).reply sess cKeyInstall tag .ok []).flash =
      { s.flash.rewritten s.clk with layKeys := (s.flash.keyed body).layKeys } := congrArg State.flash hframe
  exact ⟨_, ht, by rw [hflash]; exact hframe, hreply, by rw [hflash]⟩

end

/-! ### Firmware (R541, R545) -/

theorem State.ledgerAdd_banks (ty : BitVec 16) (b : Bytes) :
    (s.ledgerAdd ty b).flash.a = s.flash.a ∧ (s.ledgerAdd ty b).flash.b = s.flash.b := by
  unfold State.ledgerAdd
  extract_lets +onlyGivenNames low src s1
  have h1 : s1.flash.a = s.flash.a ∧ s1.flash.b = s.flash.b := by
    unfold s1
    split
    · rw [State.logPlain_owl]; exact ⟨rfl, rfl⟩
    · exact ⟨rfl, rfl⟩
  clear_value s1
  dsimp only
  split
  · exact h1
  · exact h1

/-- R541: an image in the bank that does not run. -/
def State.fwStored (s : State) (w : Bytes) : State := s.otherBank fun b => { b with fw := some ((Config.fwHeader (slice w 0 256)).2.1, w) }

theorem State.logPlain_logged (k d : Byte) : OnlyLogged s (s.logPlain k d) := State.logEvent_logged ..

/-- R541: the firmware of a bank written with its record and its entry of the ledger. -/
def State.fwWritten (s : State) (w : Bytes) : State :=
  ((s.fwStored w).logPlain 0x1C 1).fwEntry (!s.owl.bankB) (Config.fwHeader (slice w 0 256)).2.1

theorem State.fwWritten_logged (w : Bytes) : OnlyLogged (s.fwStored w) (s.fwWritten w) :=
  (State.logPlain_logged ..).trans (State.ledgerAdd_logged ..)

theorem State.fwWritten_banks (w : Bytes) :
    (s.fwWritten w).flash.a = (s.fwStored w).flash.a ∧ (s.fwWritten w).flash.b = (s.fwStored w).flash.b := by
  have hlog : ((s.fwStored w).logPlain 0x1C 1).flash = (s.fwStored w).flash := by rw [State.logPlain_owl]
  rw [← hlog]
  exact State.ledgerAdd_banks ..

theorem State.fwWritten_frame (w : Bytes) :
    s.fwWritten w = { s with owl := (s.fwWritten w).owl, flash := (s.fwWritten w).flash } := by
  have hframe := (State.fwWritten_logged (s := s) w).frame
  generalize s.fwWritten w = u at hframe
  rw [hframe, State.fwStored, State.otherBank]

/-- What is stored does not rest on the session. -/
theorem State.fwStored_heardWhole (w : Bytes) : ((s.heardWhole sess).fwStored w).flash = (s.fwStored w).flash := by
  unfold State.fwStored State.otherBank
  rfl

section
variable {w : Bytes} (h : s.Hears sess) (hheld : (s.sess sess).held cFwWrite = []) (hlen : w.length + 4 ≤ bodyMax)
include h hheld hlen

theorem exec_fwWrite_ok (hst : s.fwStatus w = .ok) : exec (.fwWrite sess tag (toLe 4 0 ++ w)) s =
    .next (((s.heardWhole sess).fwWritten w).reply sess cFwWrite tag .ok []) :=
  congrArg Host.Outcome.next ((State.lastChunk_hears tag _ h hheld rfl hlen).trans (if_pos hst))

theorem exec_fwWrite_refused (hst : s.fwStatus w ≠ .ok) : exec (.fwWrite sess tag (toLe 4 0 ++ w)) s =
    .next ((s.heardWhole sess).reply sess cFwWrite tag (s.fwStatus w) []) :=
  congrArg Host.Outcome.next ((State.lastChunk_hears tag _ h hheld rfl hlen).trans (if_neg hst))

/-- R541, R545: an accepted image is in the bank that does not run; the other bank is as it was. -/
theorem leads_fwWrite (hst : s.fwStatus w = .ok) : Leads (.fwWrite sess tag (toLe 4 0 ++ w)) s fun t =>
    t = { s with owl := t.owl, flash := t.flash } ∧ Replied s t sess cFwWrite tag .ok [] ∧
    t.flash.a = (s.fwStored w).flash.a ∧ t.flash.b = (s.fwStored w).flash.b := by
  have hlog := (s.heardWhole sess).fwWritten_logged w
  have hbanks := (s.heardWhole sess).fwWritten_banks w
  have hopen : ((s.heardWhole sess).fwWritten w).sessOpen sess = true :=
    (hlog.sessOpen sess).trans (State.heardWhole_sessOpen h.1)
  obtain ⟨t, ht, -, hframe, hreply⟩ := leads_reply (exec_fwWrite_ok h hheld hlen hst) hlog.replies hopen
  have hflash : t.flash = ((s.heardWhole sess).fwWritten w).flash := (congrArg State.flash hframe :)
  refine ⟨t, ht, ?_, hreply, by rw [hflash, ← State.fwStored_heardWhole (s := s) (sess := sess)]; exact hbanks⟩
  rw [hframe, State.fwWritten_frame]
  rfl

end

section
variable {b : Bool} (h : s.Hears sess)
include h

/-- R542: the preferred bank, with its record. -/
def State.prefer (s : State) (b : Bool) : State := (s.writeCfg fun f => { f with preferB := b }).logPlain 0x1C 2

theorem exec_fwSelect_ok (hmode : s.bootMode ≠ 1) : exec (.fwSelect sess tag [if b then 1 else 0]) s =
    .next (((s.heard sess).prefer b).reply sess cFwSelect tag .ok []) := by
  refine congrArg Host.Outcome.next ((State.fixed_hears h rfl (by cases b <;> rfl)).trans ?_)
  refine (if_neg hmode).trans ?_
  cases b <;> rfl

theorem exec_fwSelect_refused (hmode : s.bootMode = 1) : exec (.fwSelect sess tag [if b then 1 else 0]) s =
    .next ((s.heard sess).reply sess cFwSelect tag .unsupported []) :=
  congrArg Host.Outcome.next ((State.fixed_hears h rfl (by cases b <;> rfl)).trans (if_pos hmode))

theorem leads_fwSelect (hmode : s.bootMode ≠ 1) : Leads (.fwSelect sess tag [if b then 1 else 0]) s fun t =>
    t = { s with owl := t.owl, flash := { s.flash.rewritten s.clk with preferB := b } } ∧ Replied s t sess cFwSelect tag .ok [] := by
  have hlog : OnlyLogged ((s.heard sess).writeCfg fun f => { f with preferB := b }) ((s.heard sess).prefer b) :=
    State.logPlain_logged ..
  obtain ⟨t, ht, -, hframe, hreply⟩ := leads_reply (exec_fwSelect_ok h hmode) hlog.replies
    ((hlog.sessOpen sess).trans (State.heard_sessOpen h))
  refine ⟨t, ht, ?_, hreply⟩
  rw [hframe, State.prefer, State.logPlain_owl]
  rfl

end

/-! ### The restart of Owl (R546) -/

/-- What the end of every session leaves. -/
structure Closed (s t : State) : Prop where
  frame : t = { s with owl := t.owl, flash := t.flash }
  replies : t.owl.replies = s.owl.replies

theorem Closed.refl (s : State) : Closed s s := ⟨rfl, rfl⟩

theorem Closed.trans {s t u : State} (h : Closed s t) (g : Closed t u) : Closed s u :=
  ⟨by rw [g.frame, h.frame], g.replies.trans h.replies⟩

theorem OnlyLogged.closed {s t : State} (h : OnlyLogged s t) : Closed s t := ⟨h.frame, h.replies⟩

theorem State.dropSession_closed (i : Nat) : Closed s (s.dropSession i) := by
  unfold State.dropSession
  split
  · refine Closed.trans ?_ (State.logPlain_logged ..).closed
    exact ⟨rfl, rfl⟩
  · exact .refl s

theorem State.mgtSettle_settled : Closed s s.mgtSettle := by
  unfold State.mgtSettle
  split
  · split
    · exact ⟨rfl, rfl⟩
    · exact .refl s
  · exact .refl s

theorem State.closeAll_closed : Closed s s.closeAll :=
  (List.foldlRecOn (motive := Closed s) _ _ (.refl s) fun _ ht i _ => ht.trans (State.dropSession_closed i)).trans
    State.mgtSettle_settled

/-- R546: Owl restarts. -/
theorem State.restartOwl_leaves : s.restartOwl = { s with
      owl := s.restartOwl.owl, flash := s.restartOwl.flash, top := { s.top with owlUp := false } } ∧
    s.restartOwl.owl.replies = s.owl.replies ∧ s.restartOwl.owl.st = .restarting ∧ s.restartOwl.owl.sessions = [] ∧
    s.restartOwl.owl.failA = false ∧ s.restartOwl.owl.failB = false := by
  have h : Closed s (s.logPlain 0x1C 4).closeAll := (State.logPlain_logged ..).closed.trans State.closeAll_closed
  have htop : (s.logPlain 0x1C 4).closeAll.top = s.top := (congrArg State.top h.frame :)
  unfold State.restartOwl
  generalize (s.logPlain 0x1C 4).closeAll = t at h htop
  refine ⟨?_, h.replies, rfl, rfl, rfl, rfl⟩
  dsimp only
  rw [htop, h.frame]

section
variable (hopen : s.sessOpen sess = true) (hrun : s.owl.st = .run) (hlife : s.life ≠ 4)
include hopen hrun hlife

theorem exec_owlRestart_late (hno : s.noRestart = true) : exec (.owlRestart sess tag []) s =
    .next ((s.heard sess).reply sess cOwlRestart tag .retryLater []) := by
  refine congrArg Host.Outcome.next ?_
  have hload : (s.heard sess).afterLoad cOwlRestart = s.heard sess := State.afterLoad_beside _ (by decide)
  rw [State.owlRestart, State.fixed, State.command_acts tag _ hopen hrun (by rw [hload]; exact hlife), hload]
  exact (if_pos ⟨rfl, rfl⟩).trans (if_pos hno)

end

theorem exec_owlRestart_ok (h : s.Hears sess) (hno : s.noRestart = false) : exec (.owlRestart sess tag []) s =
    .next ((s.heard sess).reply sess cOwlRestart tag .ok []).restartOwl :=
  congrArg Host.Outcome.next ((State.fixed_hears h rfl rfl).trans (if_neg fun hb => by
    rw [show (s.heard sess).noRestart = s.noRestart from rfl, hno] at hb
    exact absurd hb (by decide)))

/-! ### The warm reset (R543) -/

theorem State.abandonLoad_none (h : s.owl.repl = none) : s.abandonLoad = s := by simp only [State.abandonLoad, h]

/-- R106 step 1 answers no command while no layout load runs. -/
theorem State.warmStep1_replies (tries : Nat) (hrepl : s.owl.repl = none) : (s.warmStep1 tries).owl.replies = s.owl.replies := by
  unfold State.warmStep1
  extract_lets s1 s2 s3 s4
  have h1 : s1.steady = s.steady :=
    (State.foldl_steady State.stopEngine_steady _ _).trans (State.steady_of_admin s.flushRecords_admin)
  have h2 : s2.steady = s.steady :=
    (State.steady_of_admin ((State.flushRecords_admin _).trans (State.foldl_admin State.stopQueue_admin _ _))).trans h1
  have h3 : s3.steady = s.steady := by
    refine (State.foldl_steady (fun s x => ?_) _ _).trans h2
    dsimp only
    split
    · exact State.steady_of_admin (State.setPart_admin ..)
    · rfl
  clear_value s3
  have h4 : s4 = s3 := State.abandonLoad_none ((congrArg (·.owl.repl) h3 :).trans hrepl)
  have hreplies : s4.owl.replies = s.owl.replies := by rw [h4]; exact (congrArg (·.owl.replies) h3 :)
  exact hreplies

theorem State.startWarm_replies (hwbk : s.owl.hibWbk = []) (hrepl : s.owl.repl = none) :
    s.startWarm.owl.replies = s.owl.replies := by
  obtain ⟨-, -, hkept⟩ := s.warmStep1_keeps 1
  have hreplies := State.warmStep1_replies 1 hrepl
  rw [State.startWarm, State.takeHeldWbk_none (hkept.trans hwbk)]
  generalize s.warmStep1 1 = t at *
  exact hreplies

theorem exec_warmReset (h : s.Hears sess) (hready : s.top.ready = true) : exec (.warmReset sess tag []) s =
    .next ((s.heard sess).reply sess cWarmReset tag .ok []).warmRequest := by
  refine congrArg Host.Outcome.next ((State.fixed_hears h rfl rfl).trans ?_)
  exact congrArg (fun st => (State.reply (s.heard sess) sess cWarmReset tag st []).warmRequest) (if_pos (.inl hready))

/-- R543: a warm reset ordered while the device serves. -/
theorem leads_warmReset (h : s.Hears sess) (hgood : s.pwrgood = true) (htrip : s.thermtrip = false) (hphase : s.phase = .running)
    (hready : s.top.ready = true) (hwipe : s.sec.wipeRun = false) (hpwr : s.owl.pwr = .run) (htransit : s.owl.transit = false)
    (hwbk : s.owl.hibWbk = []) : Leads (.warmReset sess tag []) s fun t =>
      t.top.ready = false ∧ t.phase = .warmFlush ∧ t.arms = [] ∧ Replied s t sess cWarmReset tag .ok [] ∧ t.flash = s.flash ∧
      t.fuse = s.fuse := by
  refine leads_of_exec (exec_warmReset h hready) ?_
  have hreplies := State.reply_replies (s.heard sess) sess cWarmReset tag .ok [] (State.heard_sessOpen h)
  have hframe := State.reply_frame (s.heard sess) sess cWarmReset tag .ok []
  have howl := State.reply_owl (s.heard sess) sess cWarmReset tag .ok []
  generalize (s.heard sess).reply sess cWarmReset tag .ok [] = u at *
  have hpwr' : u.owl.pwr = .run := by rw [howl]; exact hpwr
  have htransit' : u.owl.transit = false := by rw [howl]; exact htransit
  have hwbk' : u.owl.hibWbk = [] := by rw [howl]; exact hwbk
  have hrepl' : u.owl.repl = none := by rw [howl]; exact h.2.2.2
  rw [State.warmRequest_run (by rw [hframe]; exact hgood) (by rw [hframe]; exact htrip) (by rw [hframe]; exact hphase)
    (by rw [hframe]; exact hready) (by rw [hframe]; exact hwipe) hpwr' htransit']
  obtain ⟨h1, h2, h3, -, hflash, hfuse⟩ := State.startWarm_leaves hwbk'
  exact ⟨h1, h2, h3, (State.startWarm_replies hwbk' hrepl').trans hreplies, hflash.trans (congrArg State.flash hframe :),
    hfuse.trans (congrArg State.fuse hframe :)⟩

/-! ### The power cap (R549) -/

theorem fld_toLe {n v : Nat} (h : v < 256 ^ n) : fld (toLe n v) 0 n = v := by
  have := fld_toLe_append n v []
  rw [List.append_nil] at this
  exact this.trans (Nat.mod_eq_of_lt h)

theorem exec_powerCap_ok {w : Nat} (h : s.Hears sess) (hw : w = 0 ∨ (400 ≤ w ∧ w ≤ 1150)) : exec (.powerCap sess tag (toLe 2 w)) s =
    .next ((({ s.heard sess with owl := { (s.heard sess).owl with cap := w } } : State)).reply sess cPowerCap tag .ok (toLe 2 w)) := by
  have hfld : fld (toLe 2 w) 0 2 = w := fld_toLe (by omega)
  refine congrArg Host.Outcome.next ?_
  rw [State.powerCap, hfld]
  exact State.fixed_hears h (by simp) (by rcases hw with rfl | ⟨h1, h2⟩ <;> simp [*])

theorem exec_powerCap_refused {w : Nat} (h : s.Hears sess) (hpos : 0 < w) (hw : w < 400 ∨ 1150 < w) (hlt : w < 65536) :
    exec (.powerCap sess tag (toLe 2 w)) s = .next ((s.heard sess).reply sess cPowerCap tag .badDescriptor []) := by
  have hfld : fld (toLe 2 w) 0 2 = w := fld_toLe hlt
  refine congrArg Host.Outcome.next ?_
  rw [State.powerCap, hfld]
  refine State.fixed_hears_bad h fun ⟨_, hok⟩ => ?_
  simp only [Bool.or_eq_true, beq_iff_eq, Bool.and_eq_true, decide_eq_true_eq] at hok
  omega

/-- Settles O51: each command is heard and checked; what it changes is flash, Owl's state, or the phase of a warm reset. -/
theorem owlFirmware : Obligations.OwlFirmware := by
  unfold Obligations.OwlFirmware
  refine ⟨fun s sess i tag b h hlen hbody hst hop hi => ?install, fun s sess i tag b h hlen hbody hst hop hi => ?revoke,
    fun s sess tag b h hlen hbody hst => leads_heard_reply h (exec_keyInstall_refused h hlen hbody hst),
    fun s sess v tag w h hheld hlen hst hv => ?write, fun s sess tag w h hheld hlen hst => ?notWritten,
    fun s sess tag b h hmode => leads_fwSelect h hmode, fun s sess tag b h hmode => leads_heard_reply h (exec_fwSelect_refused h hmode),
    fun s sess tag h hno => ?restart, fun s sess tag hopen hrun hlife hno => ?late,
    fun s sess tag h hgood htrip hphase hready hwipe hpwr htransit hwbk =>
      leads_warmReset h hgood htrip hphase hready hwipe hpwr htransit hwbk,
    fun s sess w tag h hw => ?cap, fun s sess w tag h hpos hw hlt => ?noCap⟩
  case install =>
    obtain ⟨t, ht, hframe, hreply, hkeys⟩ := leads_keyInstall (tag := tag) h hlen hbody hst
    have hkeys' : t.flash.layKeys = tput s.flash.layKeys i (slice b 24 64) := hkeys.trans (hi ▸ if_pos hop)
    exact ⟨t, ht, hframe, hreply, by rw [hkeys', thas_tput]; simp, by rw [hkeys', tget_tput_same]⟩
  case revoke =>
    obtain ⟨t, ht, hframe, hreply, hkeys⟩ := leads_keyInstall (tag := tag) h hlen hbody hst
    have hkeys' : t.flash.layKeys = tdel s.flash.layKeys i := hkeys.trans (hi ▸ if_neg (by omega))
    exact ⟨t, ht, hframe, hreply, by rw [hkeys', thas_tdel]; simp⟩
  case write =>
    obtain ⟨t, ht, hframe, hreply, ha, hb⟩ := leads_fwWrite (tag := tag) h hheld hlen hst
    refine ⟨t, ht, hframe, hreply, fun hbank => ?_, fun hbank => ?_⟩
    · rw [ha, hb, hv, State.fwStored, State.otherBank, if_pos hbank]; exact ⟨rfl, rfl⟩
    · rw [ha, hb, hv, State.fwStored, State.otherBank, if_neg (by simp [hbank])]; exact ⟨rfl, rfl⟩
  case notWritten =>
    obtain ⟨t, ht, -, hframe, hreply⟩ := leads_reply (exec_fwWrite_refused (tag := tag) h hheld hlen hst) rfl
      (State.heardWhole_sessOpen h.1)
    exact ⟨t, ht, hframe, hreply⟩
  case restart =>
    refine leads_of_exec (exec_owlRestart_ok h hno) ?_
    have hreplies := State.reply_replies (s.heard sess) sess cOwlRestart tag .ok [] (State.heard_sessOpen h)
    have hframe := State.reply_frame (s.heard sess) sess cOwlRestart tag .ok []
    generalize (s.heard sess).reply sess cOwlRestart tag .ok [] = u at *
    obtain ⟨hu, hr, hst, hsess, ha, hb⟩ := State.restartOwl_leaves (s := u)
    refine ⟨?_, hr.trans hreplies, hst, hsess, ha, hb⟩
    generalize u.restartOwl = t at *
    rw [hu, hframe]
    rfl
  case late =>
    obtain ⟨t, ht, -, hframe, hreply⟩ := leads_reply (exec_owlRestart_late (tag := tag) hopen hrun hlife hno) rfl
      (State.sessOpen_setSess _ hopen)
    exact ⟨t, ht, hframe, hreply⟩
  case cap =>
    obtain ⟨t, ht, rfl, hframe, hreply⟩ := leads_reply (exec_powerCap_ok (tag := tag) h hw) rfl (State.heard_sessOpen h)
    exact ⟨_, ht, hframe, by rw [State.reply_owl], hreply⟩
  case noCap =>
    obtain ⟨t, ht, rfl, hframe, hreply⟩ := leads_reply (exec_powerCap_refused (tag := tag) h hpos hw hlt) rfl (State.heard_sessOpen h)
    exact ⟨_, ht, hframe, by rw [State.reply_owl]; rfl, hreply⟩

end Sys2Proof.Machine
end

section
/-! SUPPORT. The board (R537, R542, R547–R555): PMBus, the management settings, Owl's timed work, and the SMBus target. -/

namespace Sys2Proof.Machine
open Sys2Proof

variable {s : State} {sess : Nat} {tag : W32} {body : Bytes}

/-! ### PMBus and the management settings -/

/-- R542: a transaction on PMBus. -/
def State.pmSent (s : State) (b : Bytes) : State := { s with owl := { s.owl with pmOut := s.owl.pmOut ++ [b] } }

section
variable (h : s.Hears sess)
include h

theorem exec_pmbus_refused {r : Option Bytes} (hbad : body.length < 4 ∨ s.pmOk body = false) : exec (.pmbus sess tag body r) s =
    .next ((s.heard sess).reply sess cPmbus tag .badDescriptor []) := by
  refine congrArg Host.Outcome.next ((State.command_hears s _ _ _ h).trans (if_pos ?_))
  exact hbad.imp_right fun hpm => by rw [show (s.setSess sess _).pmOk body = s.pmOk body from rfl, hpm]; rfl

variable (hlen : 4 ≤ body.length) (hpm : s.pmOk body = true)
include hlen hpm

omit h in
theorem pmbus_passes : ¬ (body.length < 4 ∨ (!(s.heard sess).pmOk body) = true) := by
  rw [show (s.heard sess).pmOk body = s.pmOk body from rfl, hpm]
  simpa using hlen

theorem exec_pmbus_answered {d : Bytes} : exec (.pmbus sess tag body (some d)) s =
    .next (((s.heard sess).pmSent body).reply sess cPmbus tag .ok (pmData (fld body 2 1) d)) :=
  congrArg Host.Outcome.next ((State.command_hears s _ _ _ h).trans (if_neg (pmbus_passes hlen hpm)))

theorem exec_pmbus_silent : exec (.pmbus sess tag body none) s =
    .next (((s.heard sess).pmSent body).reply sess cPmbus tag .timeout []) :=
  congrArg Host.Outcome.next ((State.command_hears s _ _ _ h).trans (if_neg (pmbus_passes hlen hpm)))

end

theorem leads_pmSent {c : Instr} {st : Status} {d : Bytes} (h : s.Hears sess)
    (hexec : exec c s = .next (((s.heard sess).pmSent body).reply sess cPmbus tag st d)) :
    Leads c s fun t => t = { s with owl := t.owl } ∧ t.owl.pmOut = s.owl.pmOut ++ [body] ∧ Replied s t sess cPmbus tag st d := by
  obtain ⟨t, ht, heq, hframe, hreply⟩ := leads_reply hexec rfl (State.heard_sessOpen h)
  exact ⟨t, ht, hframe, by rw [heq, State.reply_owl]; rfl, hreply⟩

theorem leads_pmbus_refused {r : Option Bytes} (h : s.Hears sess) (hbad : body.length < 4 ∨ s.pmOk body = false) :
    Leads (.pmbus sess tag body r) s fun t =>
      t = { s with owl := t.owl } ∧ t.owl.pmOut = s.owl.pmOut ∧ Replied s t sess cPmbus tag .badDescriptor [] := by
  obtain ⟨t, ht, heq, hframe, hreply⟩ := leads_reply (exec_pmbus_refused (tag := tag) (r := r) h hbad) rfl (State.heard_sessOpen h)
  exact ⟨t, ht, hframe, by rw [heq, State.reply_owl]; rfl, hreply⟩

/-- R537: while one of the sessions is open, waiting settings wait on. -/
theorem State.mgtSettle_open {i : Nat} (hi : i < 4) (hopen : s.sessOpen i = true) : s.mgtSettle = s := by
  have hmem : (s.owl.sessions.filter fun e => decide (e.1 < mboxSess)) ≠ [] := by
    rw [State.sessOpen_session hi] at hopen
    obtain ⟨e, he, hei⟩ := List.any_eq_true.1 hopen
    refine List.ne_nil_of_mem (List.mem_filter.2 ⟨he, ?_⟩)
    rw [eq_of_beq hei]
    exact decide_eq_true hi
  unfold State.mgtSettle
  split
  · exact if_neg (by simpa [List.isEmpty_iff] using hmem)
  · rfl

/-- R537: settings written to flash that wait for the sessions' end. -/
def State.mgtWaits (s : State) (b : Bytes) : State :=
  { s with owl := { s.owl with mgtNew := some b }, flash := { s.flash.rewritten s.clk with mgt := b } }

theorem exec_mgtConfig (h : s.Hears sess) (hsess : sess < 4) (hlen : body.length = 64) (h0 : fld body 0 1 ≤ 3) (h3 : fld body 3 1 = 0)
    (h6 : fld body 6 2 = 0) (h14 : fld body 14 2 = 0) (h56 : fld body 56 8 = 0) : exec (.mgtConfig sess tag body) s =
    .next (((s.heard sess).mgtWaits body).reply sess cMgtConfig tag .ok []) := by
  refine congrArg Host.Outcome.next ((State.fixed_hears h hlen (by simp [h0, h3, h6, h14, h56])).trans ?_)
  exact State.mgtSettle_open hsess ((State.reply_sessOpen ..).trans (State.heard_sessOpen h))

theorem leads_mgtConfig (h : s.Hears sess) (hsess : sess < 4) (hlen : body.length = 64) (h0 : fld body 0 1 ≤ 3) (h3 : fld body 3 1 = 0)
    (h6 : fld body 6 2 = 0) (h14 : fld body 14 2 = 0) (h56 : fld body 56 8 = 0) : Leads (.mgtConfig sess tag body) s fun t =>
      t = { s with owl := t.owl, flash := { s.flash.rewritten s.clk with mgt := body } } ∧ t.owl.mgtNew = some body ∧
      t.owl.mgt = s.owl.mgt ∧ Replied s t sess cMgtConfig tag .ok [] := by
  obtain ⟨t, ht, heq, hframe, hreply⟩ := leads_reply (exec_mgtConfig (tag := tag) h hsess hlen h0 h3 h6 h14 h56) rfl
    (State.heard_sessOpen h)
  have howl := State.reply_owl ((s.heard sess).mgtWaits body) sess cMgtConfig tag .ok []
  rw [← heq] at howl
  refine ⟨t, ht, hframe, ?_, ?_, hreply⟩
  · rw [howl]; rfl
  · rw [howl]; rfl

/-! ### Owl's timed work -/

theorem exec_sensorSample {temps : List Int} {mv : List Nat} (hrun : s.owl.st = .run) (hdue : s.due 2 Config.msClk = true) :
    Leads (.sensorSample temps mv) s fun t =>
      t = { s with owl := t.owl, cadence := t.cadence } ∧ t.owl.temps = temps ∧ t.owl.mv = mv ∧ t.owl.smTemps = temps ∧ t.owl.smMv = mv ∧
      t.owl.smP = s.devPower ∧ t.owl.smStale = false ∧ t.owl.upMs = s.owl.upMs + 1 :=
  leads_of_exec (if_neg (by simp [hrun, hdue])) ⟨rfl, rfl, rfl, rfl, rfl, rfl, rfl, rfl⟩

/-- R549: a step of the cap's regulator, with its record when the cap starts or ceases to act. -/
theorem State.capUpdate_run (hrun : s.owl.st = .run) {share : Nat}
    (hshare : share = shareStep s.owl.cap s.devPower (maxTemp s.owl.temps) s.owl.engShare.toNat) :
    s.capUpdate = { s with owl := s.capUpdate.owl } ∧ s.capUpdate.owl.engShare = BitVec.ofNat 8 share ∧
    s.capUpdate.owl.active = decide (share < 128) ∧ s.capUpdate.owl.energy = s.owl.energy + s.devPower ∧
    s.capUpdate.owl.evq.length = s.owl.evq.length + (if s.owl.active = decide (share < 128) then 0 else 1) := by
  unfold State.capUpdate
  extract_lets o p tj share' act s1
  have hact : act = decide (share < 128) := by rw [hshare]
  have hengShare : s1.owl.engShare = BitVec.ofNat 8 share := by rw [hshare]
  have hrun1 : s1.owl.st = .run := hrun
  have hs1 : s1 = { s with owl := s1.owl } := rfl
  have hactive : s1.owl.active = act := rfl
  have henergy : s1.owl.energy = s.owl.energy + s.devPower := rfl
  have hevq : s1.owl.evq = s.owl.evq := rfl
  clear_value s1 act
  subst hact
  split
  · next heq => exact ⟨hs1, hengShare, hactive, henergy, by rw [if_pos heq.symm, hevq]; rfl⟩
  · next hne =>
    rw [if_neg (Ne.symm hne), ← hevq]
    split
    · rw [State.logPlain_run _ _ hrun1]
      exact ⟨by rw [hs1], hengShare, hactive, henergy, List.length_append⟩
    · rw [State.logPlain_run _ _ hrun1]
      exact ⟨by rw [hs1], hengShare, hactive, henergy, List.length_append⟩

theorem exec_powerCapUpdate (hrun : s.owl.st = .run) (hdue : s.due 3 Config.msClk = true) :
    exec .powerCapUpdate s = .next (s.took 3 Config.msClk).capUpdate :=
  congrArg Host.Outcome.next (if_pos ⟨hrun, hdue⟩)

theorem leads_powerCapUpdate {share : Nat} (hrun : s.owl.st = .run) (hdue : s.due 3 Config.msClk = true)
    (hshare : share = shareStep s.owl.cap s.devPower (maxTemp s.owl.temps) s.owl.engShare.toNat) : Leads .powerCapUpdate s fun t =>
      t = { s with owl := t.owl, cadence := t.cadence } ∧ t.owl.engShare = BitVec.ofNat 8 share ∧ t.owl.active = decide (share < 128) ∧
      t.owl.energy = s.owl.energy + s.devPower ∧
      t.owl.evq.length = s.owl.evq.length + (if s.owl.active = decide (share < 128) then 0 else 1) := by
  refine leads_of_exec (exec_powerCapUpdate hrun hdue) ?_
  obtain ⟨hframe, hrest⟩ := State.capUpdate_run (s := s.took 3 Config.msClk) hrun hshare
  refine ⟨?_, hrest⟩
  generalize (s.took 3 Config.msClk).capUpdate = t at hframe
  rw [hframe]
  rfl

/-- The turn of one cadence leaves the others due. -/
theorem State.took_due_other {j k m n : Nat} (hjk : j ≠ k) : (s.took j m).due k n = s.due k n := by
  simp only [due, took, tget_tput_other _ _ _ hjk]

/-- R548: a regulator's reading that is due. -/
def State.poutRead (s : State) (i p : Nat) : State :=
  ({ s with owl := { s.owl with pout := tput s.owl.pout i p } } : State).took (16 + i) Config.msClk

theorem exec_regulatorPoll {i p : Nat} {w : BitVec 16} (hrun : s.owl.st = .run) (hnamed : s.flash.regNamed.contains i = true)
    (hrail : s.flash.regs.contains i = true) (hdue : s.due (16 + i) Config.msClk = true) :
    exec (.regulatorPoll i p w) s = .next ((s.poutRead i p).readStatus i w) := by
  refine (if_neg (by simp [hrun]; simpa using hnamed)).trans ?_
  exact congrArg (fun t : State => Host.Outcome.next (t.readStatus i w)) (if_pos ⟨hrail, hdue⟩)

theorem leads_regulatorPoll {i p : Nat} {w : BitVec 16} (hrun : s.owl.st = .run) (hnamed : s.flash.regNamed.contains i = true)
    (hrail : s.flash.regs.contains i = true) (hdue : s.due (16 + i) Config.msClk = true)
    (hdue' : s.due (32 + i) (100 * Config.msClk) = true) : Leads (.regulatorPoll i p w) s fun t =>
      t = { s with owl := t.owl, cadence := t.cadence } ∧ tget 0 t.owl.pout i = p ∧
      t.owl.evq.length = s.owl.evq.length + (if w &&& statusFaults = 0 then 0 else 1) := by
  refine leads_of_exec (exec_regulatorPoll hrun hnamed hrail hdue) ?_
  have hread : (s.poutRead i p).due (32 + i) (100 * Config.msClk) = true := by
    rw [State.poutRead, State.took_due_other (by omega)]; exact hdue'
  rw [State.readStatus, if_pos hread]
  dsimp only
  split
  · exact ⟨rfl, tget_tput_same .., rfl⟩
  · rw [State.logPlain_run]; case h => exact hrun
    exact ⟨rfl, tget_tput_same .., List.length_append⟩

/-- R550: the queued records go to flash. -/
theorem State.flushLog_leaves : s.flushLog = { s with owl := { s.owl with evq := [] }, flash := s.flushLog.flash } ∧
    s.flushLog.flash.log = lastN 32768 (s.flash.log ++ s.owl.evq) ∧
    s.flushLog.flash.logSeq = s.flash.logSeq + BitVec.ofNat 32 s.owl.evq.length := by
  refine ⟨rfl, ?_, rfl⟩
  dsimp only [State.flushLog]

/-! ### The ledger's timed entries (R553) -/

/-- R552, R554: an entry that fits is appended, with no record while the last MiB is free. -/
theorem State.ledgerAdd_fits {ty : BitVec 16} {b : Bytes} (hlen : b.length ≤ 1048000) (hfree : 1048576 + s.ledgerBytes ≤ 67108864) :
    ∃ e : LedEnt, e.ty = ty ∧ s.ledgerAdd ty b = { s with flash := { s.flash with ledger := s.flash.ledger ++ [e] } } := by
  have hlow : ¬ 67108864 < 1048576 + s.ledgerBytes := by omega
  have hroom : ¬ 67108864 < s.ledgerBytes + 120 + (b ++ List.replicate ((8 - b.length % 8) % 8) (0 : Byte)).length := by
    rw [List.length_append, List.length_replicate]; omega
  have hgo : ¬ (67108864 < 1048576 + s.ledgerBytes ∧ (ty = 1 ∨ ty = 2 ∨ ty = 5) ∨
      67108864 < s.ledgerBytes + 120 + (b ++ List.replicate ((8 - b.length % 8) % 8) (0 : Byte)).length) := by
    simp only [hlow, hroom, false_and, or_self, not_false_eq_true]
  rw [State.ledgerAdd]
  dsimp only
  rw [if_neg hgo, if_neg fun hl => hlow hl.1]
  exact ⟨_, rfl, rfl⟩

theorem ledgerNums_length (l : List Nat) : (ledgerNums l).length = 4 * l.length := by
  induction l with
  | nil => rfl
  | cons x l ih => rw [ledgerNums, List.flatMap_cons, List.length_append, ← ledgerNums, ih, length_toLe, List.length_cons]; omega

theorem State.summaryBody_length : s.summaryBody.length = 108 := by
  simp [State.summaryBody, ledgerNums_length]

theorem leads_ledgerSummary (hrun : s.owl.st = .run) (hdue : s.due 4 hourClk = true) (hsum : s.owl.summaries < 23)
    (hfree : 1048576 + s.ledgerBytes ≤ 67108864) : Leads .ledgerSummary s fun t => ∃ e : LedEnt, e.ty = 1 ∧
      t = { s with
        cadence := t.cadence
        owl := { s.owl with summaries := s.owl.summaries + 1 }, flash := { s.flash with ledger := s.flash.ledger ++ [e] } } := by
  have hlen : (s.took 4 hourClk).summaryBody.length ≤ 1048000 := State.summaryBody_length.trans_le (by omega)
  obtain ⟨e, hty, hadd⟩ := State.ledgerAdd_fits (s := s.took 4 hourClk) (ty := 1) hlen hfree
  refine leads_of_exec (t := { (s.took 4 hourClk).ledgerAdd 1 (s.took 4 hourClk).summaryBody with
    owl := { ((s.took 4 hourClk).ledgerAdd 1 (s.took 4 hourClk).summaryBody).owl with summaries := s.owl.summaries + 1 } }) ?_ ⟨e, hty, ?_⟩
  · refine congrArg Host.Outcome.next ((if_pos ⟨hrun, hdue⟩).trans (if_pos ?_))
    exact Nat.add_lt_add_right hsum 1
  · rw [hadd]; rfl

/-! ### The SMBus target (R555) -/

theorem State.smSend_live {b : Bytes} (hgood : s.pwrgood = true) (htrip : s.thermtrip = false) :
    s.smSend b = { s with owl := { s.owl with smOut := s.owl.smOut ++ [b] } } :=
  if_pos ⟨hgood, by rw [htrip]; rfl⟩

/-- Settles O53: each command changes Owl's state, with its turn of the cadence, a record, or flash. -/
theorem owlBoard : Obligations.OwlBoard := by
  unfold Obligations.OwlBoard
  refine ⟨fun s sess tag b d h hlen hpm =>
      ⟨leads_pmSent h (exec_pmbus_answered h hlen hpm), leads_pmSent h (exec_pmbus_silent h hlen hpm)⟩,
    fun s sess tag b r h hbad => leads_pmbus_refused h hbad, fun s sess tag b h hsess hlen h0 h3 h6 h14 h56 =>
      leads_mgtConfig h hsess hlen h0 h3 h6 h14 h56,
    fun s temps mv hrun hdue => exec_sensorSample hrun hdue, fun s share hrun hdue hshare => leads_powerCapUpdate hrun hdue hshare,
    fun s i p w hrun hnamed hrail hdue hdue' => leads_regulatorPoll hrun hnamed hrail hdue hdue',
    fun s hrun => leads_of_exec (congrArg Host.Outcome.next (if_pos hrun)) State.flushLog_leaves,
    fun s hrun hdue hsum hfree => leads_ledgerSummary hrun hdue hsum hfree, fun s hstale => congrArg Host.Outcome.next (if_pos hstale),
    fun s hfresh => congrArg Host.Outcome.next (if_neg (Nat.not_le.2 hfresh)), fun s code v hgood htrip =>
      ⟨congrArg Host.Outcome.next (State.smSend_live hgood htrip), congrArg Host.Outcome.next (State.smSend_live hgood htrip)⟩⟩

end Sys2Proof.Machine
end

section
/-! SUPPORT. Lifecycle orders (R503–R506), the refurbishment wipe (R514), and attestation (R518, R528). -/

namespace Sys2Proof.Machine
open Sys2Proof

variable {s : State} {sess : Nat} {tag : W32} {b : Bytes}

/-! ### Orders refused and accepted (R506) -/

section
variable (h : s.Hears sess)
include h

theorem State.lifecycle_hears : s.lifecycle sess tag b =
    if s.orderStatus b = .ok then ((s.heard sess).carryOut b).reply sess cLifecycle tag .ok []
    else (s.heard sess).orderRefused.reply sess cLifecycle tag (s.orderStatus b)
      (if s.orderStatus b = .conflict then toLe 4 (lcCount s.sec.life) ++ toLe 4 s.flash.bootcnt.toNat else []) := by
  obtain ⟨-, -, hlife, -⟩ := id h
  have hheld : ¬ (s.sessOpen sess && decide (s.owl.st = .run) && decide (s.life = 4)) = true := by simp [hlife]
  rw [State.lifecycle, if_neg hheld, State.command_hears s _ _ _ h]
  rfl

theorem exec_lifecycle_ok (hst : s.orderStatus b = .ok) : exec (.lifecycle sess tag b) s =
    .next (((s.heard sess).carryOut b).reply sess cLifecycle tag .ok []) :=
  congrArg Host.Outcome.next ((State.lifecycle_hears h).trans (if_pos hst))

theorem exec_lifecycle_refused (hst : s.orderStatus b ≠ .ok) : exec (.lifecycle sess tag b) s =
    .next ((s.heard sess).orderRefused.reply sess cLifecycle tag (s.orderStatus b)
      (if s.orderStatus b = .conflict then toLe 4 (lcCount s.sec.life) ++ toLe 4 s.flash.bootcnt.toNat else [])) :=
  congrArg Host.Outcome.next ((State.lifecycle_hears h).trans (if_neg hst))

theorem leads_lifecycle_refused (hst : s.orderStatus b ≠ .ok) : Leads (.lifecycle sess tag b) s fun t =>
    t = { s with owl := t.owl, sec := { s.sec with ordRefused := sat s.sec.ordRefused, evstat := setBit s.sec.evstat 0 } } ∧
    Replied s t sess cLifecycle tag (s.orderStatus b)
      (if s.orderStatus b = .conflict then toLe 4 (lcCount s.sec.life) ++ toLe 4 s.flash.bootcnt.toNat else []) := by
  obtain ⟨t, ht, -, hframe, hreply⟩ := leads_reply (exec_lifecycle_refused h hst) rfl (State.heard_sessOpen h)
  exact ⟨t, ht, hframe, hreply⟩

/-- An order carried out without a reply of its own and without closing the session is answered. -/
theorem leads_order {u : State} (hst : s.orderStatus b = .ok) (hu : (s.heard sess).carryOut b = u)
    (hreplies : u.owl.replies = s.owl.replies) (hopen : u.sessOpen sess = true) : Leads (.lifecycle sess tag b) s fun t =>
      t = { u with owl := t.owl } ∧ Replied s t sess cLifecycle tag .ok [] := by
  obtain ⟨t, ht, -, hframe, hreply⟩ := leads_reply (u := u) ((exec_lifecycle_ok h hst).trans (by rw [hu])) hreplies hopen
  exact ⟨t, ht, hframe, hreply⟩

end

/-! ### Changes of state (R504) -/

/-- R511: the new root key, in an order that carries one. -/
def State.rooted (s : State) (b : Bytes) : State :=
  if State.newRoot b then s.writeCfg (fun f => { f with root := some (slice b 128 64) }) else s

theorem State.rooted_logged : OnlyLogged s (s.rooted b) := by
  unfold State.rooted
  split
  · exact ⟨rfl, rfl, fun _ => rfl⟩
  · exact ⟨rfl, rfl, fun _ => rfl⟩

/-- R504: a change of state with its record, its fuse, its entry of the ledger, and the new root key. -/
def State.moved (s : State) (b : Bytes) (i : Nat) : State :=
  let s0 := s.logPlain 0x1D (BitVec.ofNat 8 (fld b 4 1))
  ((s0.burn i).ledgerAdd 7 (ledgerNums [s0.life, fld b 4 1, lcCount (s0.burn i).sec.life])).rooted b

theorem OnlyLogged.burn {s t : State} (h : OnlyLogged s t) (i : Nat) : OnlyLogged (s.burn i) (t.burn i) :=
  ⟨by rw [h.frame]; rfl, h.replies, h.sessOpen⟩

theorem State.moved_logged {i : Nat} : OnlyLogged (s.burn i) (s.moved b i) :=
  (((State.logPlain_logged ..).burn i).trans (State.ledgerAdd_logged ..)).trans State.rooted_logged

theorem State.logPlain_nextFuse {k d : Byte} : (s.logPlain k d).nextFuse = s.nextFuse := by rw [State.logPlain_owl]; rfl

theorem State.carryOut_changes (hne : fld b 4 1 ≠ s.life) :
    s.carryOut b = (s.logPlain 0x1D (BitVec.ofNat 8 (fld b 4 1))).changeLife b := if_neg hne

theorem State.carryOut_deploys {i : Nat} (hne : fld b 4 1 ≠ s.life) (ht : fld b 4 1 = 2) (hi : s.nextFuse = some i) :
    s.carryOut b = s.moved b i := by
  rw [State.carryOut_changes hne, State.changeLife, State.moved, ht, State.logPlain_nextFuse, hi]
  rfl

theorem State.carryOut_refurbishes {i : Nat} (hne : fld b 4 1 ≠ s.life) (ht : fld b 4 1 = 3) (hi : s.nextFuse = some i) :
    s.carryOut b = (s.moved b i).startWipe := by
  rw [State.carryOut_changes hne, State.changeLife, State.moved, ht, State.logPlain_nextFuse, hi]
  rfl

theorem State.carryOut_scraps (hne : fld b 4 1 ≠ s.life) (ht : fld b 4 1 = 4) : s.carryOut b =
    { s.moved b 127 with fuse := { (s.moved b 127).fuse with ones := true }, sec := { (s.moved b 127).sec with slots := [] } } := by
  rw [State.carryOut_changes hne, State.changeLife, State.moved, ht]
  rfl

/-! ### Orders within a state (R505, R526) -/

/-- R505: an order for the state in force: its record and its root key. -/
def State.ordered (s : State) (b : Bytes) : State := (s.logPlain 0x1D (BitVec.ofNat 8 (fld b 4 1))).rooted b

theorem State.ordered_logged : OnlyLogged s (s.ordered b) := (State.logPlain_logged ..).trans State.rooted_logged

theorem State.carryOut_stays (heq : fld b 4 1 = s.life) :
    s.carryOut b = if State.openD2 b then (s.ordered b).d2Opens else s.ordered b := if_pos heq

theorem State.writeCfg_root {k : Option Bytes} :
    (s.writeCfg fun f => { f with root := k }).flash = { s.flash.rewritten s.clk with root := k } := rfl

theorem State.ordered_flash (hroot : State.newRoot b = true) :
    (s.ordered b).flash = { s.flash.rewritten s.clk with root := some (slice b 128 64) } := by
  rw [State.ordered, State.rooted, if_pos hroot, State.writeCfg_root, State.logPlain_owl]

/-- R524: what the loss of a consent leaves. -/
structure NoConsent (ps : List Nat) (s t : State) : Prop where
  frame : t = { s with parts := t.parts }
  key : ∀ p ∈ ps, (t.part p).dbg.key = none
  token : ∀ p ∈ ps, (t.part p).dbg.token = none

theorem State.clearConsent_part {p j : Nat} : ((s.clearConsent p).part j) =
    if p = j then { s.part p with dbg := { (s.part p).dbg.dropToken with key := none } } else s.part j := by
  rw [State.clearConsent, State.setDbg_eq, State.setPart_get_part]

theorem NoConsent.clear {ps : List Nat} {s t : State} (h : NoConsent ps s t) (p : Nat) : NoConsent (p :: ps) s (t.clearConsent p) := by
  refine ⟨by rw [h.frame]; rfl, fun j hj => ?_, fun j hj => ?_⟩
  · rw [State.clearConsent_part]
    split
    · rfl
    · next hne => exact h.key j ((List.mem_cons.1 hj).resolve_left (Ne.symm hne))
  · rw [State.clearConsent_part]
    split
    · rfl
    · next hne => exact h.token j ((List.mem_cons.1 hj).resolve_left (Ne.symm hne))

theorem NoConsent.foldl (ps qs : List Nat) {s t : State} (h : NoConsent qs s t) :
    NoConsent (ps.reverse ++ qs) s (ps.foldl State.clearConsent t) := by
  induction ps generalizing t qs with
  | nil => exact h
  | cons p ps ih =>
    rw [List.reverse_cons, List.append_assoc]
    exact ih (p :: qs) (h.clear p)

/-- R526: D2 open, every slot emptied. -/
def State.d2Slots (s : State) : State := { s with sec := { s.sec with d2 := true, slots := [] } }

theorem State.d2Opens_noConsent : NoConsent ((List.range 32).reverse ++ []) s.d2Slots s.d2Opens :=
  NoConsent.foldl (List.range 32) [] ⟨rfl, by simp, by simp⟩

/-- An open session stays open when D2 opens. -/
theorem State.d2Opens_sessOpen {i : Nat} (h : s.sessOpen i = true) : s.d2Opens.sessOpen i = true := by
  have hframe := (State.d2Opens_noConsent (s := s)).frame
  unfold State.sessOpen at *
  split
  · exact (congrArg (·.sec.d2) hframe :)
  · next hi =>
    rw [if_neg hi] at h
    rw [show s.d2Opens.owl = s.owl from (congrArg State.owl hframe :)]
    exact h

/-! ### The refurbishment wipe (R514) -/

/-- What the steps of a wipe keep. -/
structure Wiping (s t : State) : Prop where
  fuse : t.fuse = s.fuse
  run : t.sec.wipeRun = s.sec.wipeRun
  done : t.sec.wipeDone = s.sec.wipeDone
  wiped : t.flash.wiped = s.flash.wiped
  replies : t.owl.replies = s.owl.replies
  sessOpen : ∀ i, t.sessOpen i = s.sessOpen i
  opHold : ∀ p, (t.part p).opHold = (s.part p).opHold

theorem Wiping.refl (s : State) : Wiping s s := ⟨rfl, rfl, rfl, rfl, rfl, fun _ => rfl, fun _ => rfl⟩

theorem Wiping.trans {s t u : State} (h : Wiping s t) (g : Wiping t u) : Wiping s u :=
  ⟨g.fuse.trans h.fuse, g.run.trans h.run, g.done.trans h.done, g.wiped.trans h.wiped, g.replies.trans h.replies,
    fun i => (g.sessOpen i).trans (h.sessOpen i), fun p => (g.opHold p).trans (h.opHold p)⟩

theorem Wiping.foldl {α : Type} {f : State → α → State} (hf : ∀ s a, Wiping s (f s a)) (l : List α) (s : State) :
    Wiping s (l.foldl f s) :=
  List.foldlRecOn l f (motive := Wiping s) (.refl s) fun t ht a _ => ht.trans (hf t a)

/-- A change of one partition that keeps its hold. -/
theorem State.setPart_wiping {p : Nat} {x : PartS} (hx : x.opHold = (s.part p).opHold) : Wiping s (s.setPart p x) := by
  refine ⟨rfl, rfl, rfl, rfl, rfl, fun _ => rfl, fun j => ?_⟩
  rw [State.setPart_get_part]
  split
  · next heq => rw [hx, heq]
  · rfl

theorem State.clearConsent_wiping (s : State) (p : Nat) : Wiping s (s.clearConsent p) := State.setPart_wiping rfl

theorem State.loadPq_wiping (s : State) (p k : Nat) : Wiping s (s.loadPq p k) :=
  .trans (t := s.setPqos p k _) (State.setPart_wiping rfl) (State.setPart_wiping rfl)

theorem State.loadTraffic_wiping (s : State) (p : Nat) : Wiping s (s.loadTraffic p) :=
  Wiping.foldl (fun s k => s.loadPq_wiping p k) _ s

theorem State.drawKey_wiping (s : State) (k : Nat) : Wiping s (s.drawKey k) := ⟨rfl, rfl, rfl, rfl, rfl, fun _ => rfl, fun _ => rfl⟩

theorem State.loadSlots_wiping (s : State) (l : Layout) : Wiping s (s.loadSlots l) := by
  unfold State.loadSlots
  dsimp only
  refine Wiping.trans (t := { s with sec := { s.sec with slots := s.sec.slots.filter fun e => l.parts.any fun r => r.keySlot == e.1 } })
    ⟨rfl, rfl, rfl, rfl, rfl, fun _ => rfl, fun _ => rfl⟩ ?_
  split
  · exact .refl _
  · exact .foldl State.drawKey_wiping _ _

theorem State.wipeAdvance_wiping (s : State) : Wiping s s.wipeAdvance := by
  unfold State.wipeAdvance
  split
  · extract_lets +onlyGivenNames l src s1 s2 src2 src3 s3
    have h1 : Wiping s s1 := ⟨rfl, rfl, rfl, rfl, rfl, fun _ => rfl, fun _ => rfl⟩
    have h2 : Wiping s s2 := h1.trans (.foldl State.clearConsent_wiping _ _)
    clear_value s2
    have h3 : Wiping s s3 := h2.trans ⟨rfl, rfl, rfl, rfl, rfl, fun _ => rfl, fun _ => rfl⟩
    exact (h3.trans (.foldl State.loadTraffic_wiping _ _)).trans (State.loadSlots_wiping ..)
  · exact .refl s

/-- R114, R119: a hold of the operator sets the partition's own bit, and may start its draining. -/
theorem State.opHold_holds (p : Nat) : s.opHold p true = { s with parts := (s.opHold p true).parts } ∧
    ((s.opHold p true).part p).opHold = true ∧ ∀ j, j ≠ p → (s.opHold p true).part j = s.part j := by
  unfold State.opHold State.setHolds
  extract_lets +onlyGivenNames op src s1 x
  have hx : x.opHold = true := by unfold x s1; rw [State.setPart_get_part_same]; exact Bool.true_or (s.part p).secBad
  have h1 (j : Nat) (hj : j ≠ p) : s1.part j = s.part j := by unfold s1; rw [State.setPart_get_part, if_neg (Ne.symm hj)]
  split
  · refine ⟨rfl, ?_, fun j hj => ?_⟩
    · rw [State.setPart_get_part_same]; exact hx
    · rw [State.setPart_get_part, if_neg (Ne.symm hj)]; exact h1 j hj
  · rw [if_neg (by simp [op])]
    exact ⟨rfl, hx, h1⟩

/-- What holds on several partitions leave. -/
structure Held (ps : List Nat) (s t : State) : Prop where
  frame : t = { s with parts := t.parts }
  held : ∀ p ∈ ps, (t.part p).opHold = true

theorem Held.opHold {ps : List Nat} {s t : State} (h : Held ps s t) (p : Nat) : Held (p :: ps) s (t.opHold p true) := by
  obtain ⟨hframe, hp, hother⟩ := State.opHold_holds (s := t) p
  refine ⟨by rw [hframe, h.frame], fun j hj => ?_⟩
  by_cases hjp : j = p
  · rw [hjp]; exact hp
  · rw [hother j hjp]; exact h.held j ((List.mem_cons.1 hj).resolve_left hjp)

theorem Held.foldl (ps qs : List Nat) {s t : State} (h : Held qs s t) :
    Held (ps.reverse ++ qs) s (ps.foldl (fun s p => s.opHold p true) t) := by
  induction ps generalizing t qs with
  | nil => exact h
  | cons p ps ih =>
    rw [List.reverse_cons, List.append_assoc]
    exact ih (p :: qs) (h.opHold p)

/-- R514 step 1: the wipe has begun, with no partition held yet. -/
def State.wipeBegun (s : State) : State := { s with
  flash := { s.flash with wiped := false }
  sec := { s.sec with wipeRun := true, wipeDone := false, wipeKeys := false, wipeAt := s.top.tick } }

theorem State.startWipe_leaves : s.startWipe.fuse = s.fuse ∧ s.startWipe.sec.wipeRun = true ∧ s.startWipe.sec.wipeDone = false ∧
    s.startWipe.flash.wiped = false ∧ s.startWipe.owl.replies = s.owl.replies ∧ (∀ i, s.startWipe.sessOpen i = s.sessOpen i) ∧
    ∀ p ∈ s.partList, (s.startWipe.part p).opHold = true := by
  have hheld : Held (s.partList.reverse ++ []) s.wipeBegun (s.partList.foldl (fun s p => s.opHold p true) s.wipeBegun) :=
    Held.foldl s.partList [] ⟨rfl, by simp⟩
  have hstart : s.startWipe = (s.partList.foldl (fun s p => s.opHold p true) s.wipeBegun).wipeAdvance := rfl
  rw [hstart]
  generalize s.partList.foldl (fun s p => s.opHold p true) s.wipeBegun = t at hheld
  have hw := t.wipeAdvance_wiping
  have hsec : t.sec = s.wipeBegun.sec := (congrArg State.sec hheld.frame :)
  refine ⟨hw.fuse.trans (congrArg State.fuse hheld.frame :), hw.run.trans (by rw [hsec]; rfl), hw.done.trans (by rw [hsec]; rfl),
    hw.wiped.trans (congrArg (·.flash.wiped) hheld.frame :), hw.replies.trans (congrArg (·.owl.replies) hheld.frame :),
    fun i => (hw.sessOpen i).trans (congrArg (State.sessOpen · i) hheld.frame :), fun p hp => ?_⟩
  rw [hw.opHold]
  exact hheld.held p (by simpa using hp)

/-- R514: of what the fill passes over nothing else is left. -/
theorem cget_fill {m : List Host.Cell} {keep : Nat → Bool} {a : Nat} (h : keep a = false) :
    cget (m.filter fun c => keep c.1) a = 0 := by
  rw [cget_filter_addr, h]; rfl

/-- What the fill of R514 keeps: channels that have failed, and ranks that are out. -/
def State.kept (s : State) (loc : Nat) : Bool :=
  decide ((s.chan (locChan loc)).st = .failed) || (s.chan (locChan loc)).out.getLsbD (locRank loc)

/-- R514 step 4: the fill, with no copy of a pool line left. -/
def State.filled (s : State) : State := (s.fillAll s.kept).zeroCopies

theorem State.ledgerAdd_warmHeld (ty : BitVec 16) (d : Bytes) : (s.ledgerAdd ty d).owl.warmHeld = s.owl.warmHeld := by
  unfold State.ledgerAdd
  extract_lets +onlyGivenNames low src s1
  have h1 : s1.owl.warmHeld = s.owl.warmHeld := by
    unfold s1
    split
    · exact (congrArg (·.owl.warmHeld) (State.logEvent_admin _ 0x20 0 0 0 0xFF) :)
    · rfl
  clear_value s1
  dsimp only
  split
  · exact h1
  · exact h1

/-- R517: the fill's signed entry of the ledger. -/
def State.wipeSigned (s : State) : State := s.ledgerAdd 8 (s.wipeBody ++ s.signId sigWipe s.wipeBody)

theorem State.wipeSigned_logged : OnlyLogged s s.wipeSigned := State.ledgerAdd_logged ..

/-- R514 step 5: wiped is set. -/
def State.wipedState (s : State) : State := { s with
  flash := { s.flash with wiped := true }
  sec := { s.sec with wipeRun := false, wipeDone := true, wipeKeys := false } }

theorem exec_wipeComplete (hrun : s.sec.wipeRun = true) (hkeys : s.sec.wipeKeys = true) (hwarm : s.owl.warmHeld = false) :
    exec .wipeComplete s = .next s.filled.wipeSigned.wipedState := by
  refine congrArg Host.Outcome.next ((if_pos ⟨hrun, hkeys⟩).trans (if_neg ?_))
  have hheld : s.filled.wipeSigned.owl.warmHeld = false := (State.ledgerAdd_warmHeld ..).trans hwarm
  exact fun hw => absurd (hheld.symm.trans hw) (by decide)

theorem leads_wipeComplete (hrun : s.sec.wipeRun = true) (hkeys : s.sec.wipeKeys = true) (hwarm : s.owl.warmHeld = false) :
    Leads .wipeComplete s fun t =>
      t.flash.wiped = true ∧ t.sec.wipeRun = false ∧ t.sec.wipeDone = true ∧ t.scr = [] ∧ t.fuse = s.fuse ∧
      ∀ a, (s.chan (locChan a)).st ≠ .failed → (s.chan (locChan a)).out.getLsbD (locRank a) = false → cget t.dram a = 0 := by
  refine leads_of_exec (exec_wipeComplete hrun hkeys hwarm) ?_
  have hframe := (State.wipeSigned_logged (s := s.filled)).frame
  generalize s.filled.wipeSigned = u at hframe
  refine ⟨rfl, rfl, rfl, (congrArg State.scr hframe :), (congrArg State.fuse hframe :), fun a hst hout => ?_⟩
  have hkept : s.kept a = false := by rw [State.kept, hout, decide_eq_false hst]; rfl
  have hdram : u.dram = s.dram.filter fun c => s.kept c.1 := (congrArg State.dram hframe :)
  exact (congrArg (cget · a) hdram).trans (cget_fill hkept)

/-! ### Attestation (R518, R528) -/

/-- The exchange after GET_VERSION. -/
def versionAsked : Spdm := { Spdm.reset with
  stage := 1, vca := [0x10, 0x84, 0, 0] ++ [0x10, 0x04, 0, 0, 0, 1, 0, 0x12] }

theorem exec_spdm_getVersion (h : s.Hears sess) : exec (.spdm sess tag [0x10, 0x84, 0, 0]) s =
    .next (((s.heard sess).setSess sess { (s.heard sess).sess sess with spdm := versionAsked }).reply sess cSpdm tag .ok
      [0x10, 0x04, 0, 0, 0, 1, 0, 0x12]) := by
  obtain ⟨-, -, hlife, -⟩ := id h
  have hlife' : (s.heard sess).life ≠ 4 := hlife
  refine congrArg Host.Outcome.next ?_
  rw [State.spdmCommand, State.command_hears s _ _ _ h, ← State.heard, if_neg (by decide), if_neg hlife', if_neg (by decide)]
  have hanswer : (s.heard sess).spdmAnswer none ((s.heard sess).sess sess).spdm [0x10, 0x84, 0, 0] =
      (versionAsked, [0x10, 0x04, 0, 0, 0, 1, 0, 0x12], s.heard sess) := by
    rw [State.spdmAnswer, if_neg hlife']
    rfl
  rw [hanswer]

theorem leads_spdm_getVersion (h : s.Hears sess) : Leads (.spdm sess tag [0x10, 0x84, 0, 0]) s fun t =>
    t = { s with owl := t.owl } ∧ Replied s t sess cSpdm tag .ok [0x10, 0x04, 0, 0, 0, 1, 0, 0x12] ∧
    (t.sess sess).spdm.stage = 1 := by
  obtain ⟨t, ht, heq, hframe, hreply⟩ := leads_reply (exec_spdm_getVersion (tag := tag) h) rfl
    (State.sessOpen_setSess _ (State.heard_sessOpen h))
  refine ⟨t, ht, hframe, hreply, ?_⟩
  rw [heq, State.reply_sess, State.setSess, State.sess, tget_tput_same]
  rfl

/-- R528: in SCRAPPED every request is answered ERROR. -/
theorem exec_spdm_scrapped (hopen : s.sessOpen sess = true) (hrun : s.owl.st = .run) (hlife : s.life = 4) :
    exec (.spdm sess tag [0x10, 0x84, 0, 0]) s = .next ((s.heard sess).reply sess cSpdm tag .ok [0x12, 0x7F, 5, 0]) := by
  refine congrArg Host.Outcome.next ?_
  have hgo : ¬ ((!s.sessOpen sess) = true ∨ s.owl.st ≠ .run) := by simp [hopen, hrun]
  have hload : (s.heard sess).afterLoad cSpdm = s.heard sess := State.afterLoad_beside _ (by decide)
  have hlife' : (s.heard sess).life = 4 := hlife
  rw [State.spdmCommand, State.command, if_neg hgo, ← State.heard, hload]
  dsimp only
  rw [if_neg (by simp [scrappedOk, cSpdm]), if_neg (by decide), if_pos hlife']
  rfl

/-! ### The orders' outcomes -/

section
variable {i : Nat} (h : s.Hears sess) (hst : s.orderStatus b = .ok)
include h hst

/-- R504: SCRAPPED excepted, an order for another state burns the next fuse. -/
theorem leads_deploy (ht : fld b 4 1 = 2) (hlife : s.life ≠ 2) (hi : s.nextFuse = some i) : Leads (.lifecycle sess tag b) s fun t =>
    Replied s t sess cLifecycle tag .ok [] ∧ t.fuse = { s.fuse with life := setBit s.fuse.life i } ∧
    t.sec = { s.sec with life := setBit s.fuse.life i } ∧ t.dram = s.dram ∧ t.scr = s.scr ∧ t.parts = s.parts := by
  have hlog := State.moved_logged (s := s.heard sess) (b := b) (i := i)
  obtain ⟨t, hexec, hframe, hreply⟩ := leads_order (tag := tag) h hst
    (State.carryOut_deploys (s := s.heard sess) (ht.trans_ne hlife.symm) ht hi) hlog.replies
    ((hlog.sessOpen sess).trans (State.heard_sessOpen h))
  rw [hlog.frame] at hframe
  exact ⟨t, hexec, hreply, (congrArg State.fuse hframe :), (congrArg State.sec hframe :), (congrArg State.dram hframe :),
    (congrArg State.scr hframe :), (congrArg State.parts hframe :)⟩

theorem leads_refurbish (ht : fld b 4 1 = 3) (hlife : s.life ≠ 3) (hi : s.nextFuse = some i) : Leads (.lifecycle sess tag b) s fun t =>
    Replied s t sess cLifecycle tag .ok [] ∧ t.fuse = { s.fuse with life := setBit s.fuse.life i } ∧
    t.sec.wipeRun = true ∧ t.sec.wipeDone = false ∧ t.flash.wiped = false ∧ ∀ p ∈ s.partList, (t.part p).opHold = true := by
  have hlog := State.moved_logged (s := s.heard sess) (b := b) (i := i)
  have hcarry := State.carryOut_refurbishes (s := s.heard sess) (ht.trans_ne hlife.symm) ht hi
  have hparts : ((s.heard sess).moved b i).partList = s.partList := (congrArg State.partList hlog.frame :)
  have hfuse : ((s.heard sess).moved b i).fuse = { s.fuse with life := setBit s.fuse.life i } := (congrArg State.fuse hlog.frame :)
  obtain ⟨hfuse', hrun, hdone, hwiped, hreplies, hopen, hheld⟩ := State.startWipe_leaves (s := (s.heard sess).moved b i)
  obtain ⟨t, hexec, hframe, hreply⟩ := leads_order (tag := tag) h hst hcarry (hreplies.trans hlog.replies)
    ((hopen sess).trans ((hlog.sessOpen sess).trans (State.heard_sessOpen h)))
  refine ⟨t, hexec, hreply, ((congrArg State.fuse hframe :).trans hfuse').trans hfuse, (congrArg (·.sec.wipeRun) hframe :).trans hrun,
    (congrArg (·.sec.wipeDone) hframe :).trans hdone, (congrArg (·.flash.wiped) hframe :).trans hwiped, fun p hp => ?_⟩
  exact (congrArg (fun t : State => (t.part p).opHold) hframe :).trans (hheld p (hparts ▸ hp))

theorem leads_scrap (ht : fld b 4 1 = 4) : Leads (.lifecycle sess tag b) s fun t =>
    Replied s t sess cLifecycle tag .ok [] ∧ t.fuse = { s.fuse with life := setBit s.fuse.life 127, ones := true } ∧
    t.sec.slots = [] := by
  obtain ⟨-, -, hlife, -⟩ := id h
  have hlog := State.moved_logged (s := s.heard sess) (b := b) (i := 127)
  obtain ⟨t, hexec, hframe, hreply⟩ := leads_order (tag := tag) h hst
    (State.carryOut_scraps (s := s.heard sess) (ht.trans_ne hlife.symm) ht) hlog.replies
    ((hlog.sessOpen sess).trans (State.heard_sessOpen h))
  rw [hlog.frame] at hframe
  exact ⟨t, hexec, hreply, (congrArg State.fuse hframe :), (congrArg (·.sec.slots) hframe :)⟩

/-- R526: an order that opens D2 takes every key slot and every consent. -/
theorem leads_openD2 (ht : fld b 4 1 = s.life) (hd2 : State.openD2 b = true) : Leads (.lifecycle sess tag b) s fun t =>
    Replied s t sess cLifecycle tag .ok [] ∧ t.sec = { s.sec with d2 := true, slots := [] } ∧ t.fuse = s.fuse ∧
    ∀ p < 32, (t.part p).dbg.key = none ∧ (t.part p).dbg.token = none := by
  have hlog := State.ordered_logged (s := s.heard sess) (b := b)
  have hcleared := State.d2Opens_noConsent (s := (s.heard sess).ordered b)
  have hcarry := (State.carryOut_stays (s := s.heard sess) ht).trans (if_pos hd2)
  have hopen := State.d2Opens_sessOpen ((hlog.sessOpen sess).trans (State.heard_sessOpen h))
  generalize ((s.heard sess).ordered b).d2Opens = u at hcleared hcarry hopen
  obtain ⟨t, hexec, hframe, hreply⟩ := leads_order (tag := tag) h hst hcarry
    ((congrArg (·.owl.replies) hcleared.frame :).trans hlog.replies) hopen
  have hu := hcleared.frame
  rw [State.d2Slots, hlog.frame] at hu
  have hparts : t.parts = u.parts := (congrArg State.parts hframe :)
  refine ⟨t, hexec, hreply, (congrArg State.sec hframe :).trans (congrArg State.sec hu :),
    (congrArg State.fuse hframe :).trans (congrArg State.fuse hu :), fun p hp => ?_⟩
  have hmem : p ∈ (List.range 32).reverse ++ [] := by simpa using hp
  have hpart : t.part p = u.part p := congrArg (fun l => tget PartS.reset l p) hparts
  rw [hpart]
  exact ⟨hcleared.key p hmem, hcleared.token p hmem⟩

/-- R505: an order for the state in force with a new root key. -/
theorem leads_newRoot (ht : fld b 4 1 = s.life) (hroot : State.newRoot b = true) (hd2 : State.openD2 b = false) :
    Leads (.lifecycle sess tag b) s fun t =>
      t = { s with owl := t.owl, flash := { s.flash.rewritten s.clk with root := some (slice b 128 64) } } ∧
      Replied s t sess cLifecycle tag .ok [] := by
  have hlog := State.ordered_logged (s := s.heard sess) (b := b)
  have hflash := State.ordered_flash (s := s.heard sess) hroot
  obtain ⟨t, hexec, hframe, hreply⟩ := leads_order (tag := tag) h hst
    ((State.carryOut_stays (s := s.heard sess) ht).trans (if_neg (by simp [hd2]))) hlog.replies
    ((hlog.sessOpen sess).trans (State.heard_sessOpen h))
  refine ⟨t, hexec, ?_, hreply⟩
  have hflash' : t.flash = { s.flash.rewritten s.clk with root := some (slice b 128 64) } :=
    (congrArg State.flash hframe :).trans hflash
  rw [← hflash', hframe, hlog.frame]
  rfl

end

end Sys2Proof.Machine
end

section
/-! SUPPORT. The debug commands (R524, R526, R542): DEBUG_READ, and DEBUG_HALT of engines and of the Burrow's scratch. -/

namespace Sys2Proof.Machine
open Sys2Proof

variable {s : State} {sess : Nat} {tag : W32} {b : Bytes}

/-! ### DEBUG_READ (R524) -/

/-- R542: the body of DEBUG_READ: the partition, the kind, and the first record. -/
def debugReadBody (p k : Nat) (first : W32) : Bytes := toLe 1 p ++ toLe 1 k ++ [0, 0] ++ toLe 4 first.toNat

section
variable {p k : Nat} {first : W32}

theorem debugReadBody_part (hp : p < 32) : fld (debugReadBody p k first) 0 1 = p := by
  rw [debugReadBody, List.append_assoc, List.append_assoc, fld_toLe_append]
  omega

theorem debugReadBody_kind (hk : k ≤ 3) : fld (debugReadBody p k first) 1 1 = k := by
  have h := fld_append_right (toLe 1 p) (toLe 1 k ++ ([0, 0] ++ toLe 4 first.toNat)) 0 1
  rw [length_toLe, fld_toLe_append] at h
  rw [debugReadBody, List.append_assoc, List.append_assoc, show (1 : Nat) = 1 + 0 from rfl, h]
  omega

theorem debugReadBody_zero : fld (debugReadBody p k first) 2 2 = 0 := by
  have h := fld_append_right (toLe 1 p ++ toLe 1 k) ([0, 0] ++ toLe 4 first.toNat) 0 2
  rw [debugReadBody, List.append_assoc]
  simp only [List.length_append, length_toLe] at h
  exact h.trans ((fld_append_left (by simp)).trans rfl)

theorem debugReadBody_first : fld (debugReadBody p k first) 4 4 = first.toNat := by
  have h := fld_append_right (toLe 1 p ++ toLe 1 k ++ [0, 0]) (toLe 4 first.toNat) 0 4
  simp only [List.length_append, length_toLe] at h
  exact h.trans (fld_toLe first.isLt)

theorem length_debugReadBody : (debugReadBody p k first).length = 8 := by simp [debugReadBody]

variable (h : s.Hears sess) (hp : p < 32) (hk1 : 1 ≤ k) (hk3 : k ≤ 3)
include h hp hk1 hk3

theorem State.debugRead_hears : s.debugRead sess tag (debugReadBody p k first) =
    if s.d1 p (k - 1) then (s.heard sess).reply sess cDebugRead tag .ok (s.debugBody sess p k first)
    else (s.heard sess).reply sess cDebugRead tag .permFault [] := by
  rw [State.debugRead, debugReadBody_part hp, debugReadBody_kind hk3, debugReadBody_zero, debugReadBody_first,
    State.fixed_hears h length_debugReadBody (by simp [hp, hk1, hk3]), BitVec.ofNat_toNat, BitVec.setWidth_eq]
  rfl

end

/-! ### DEBUG_HALT (R526, R537) -/

section
variable {op : Nat} {act : Nat → Nat → Nat → Nat → State → State} (h : s.Hears sess) (hlen : 16 ≤ b.length)
  (hok : s.haltOk sess op b = true)
include h hlen hok

theorem State.debugHalt_hears : s.debugHalt sess op tag b act =
    if s.sec.d2 then act (fld b 1 1) (fld b 2 2) (fld b 8 8) (fld b 4 4) (s.heard sess)
    else (s.heard sess).reply sess cDebugHalt tag .permFault [] := by
  have hok' : (s.heard sess).haltOk sess op b = true := hok
  have hpass : ¬ (b.length < 16 ∨ (!(s.heard sess).haltOk sess op b) = true) := by simp [hok', hlen]
  rw [State.debugHalt, State.command_hears s _ _ _ h, ← State.heard, if_neg hpass]
  show (if (!s.sec.d2) = true then _ else _) = _
  cases s.sec.d2 <;> rfl

theorem State.debugHalt_closed (hd2 : s.sec.d2 = false) :
    s.debugHalt sess op tag b act = (s.heard sess).reply sess cDebugHalt tag .permFault [] :=
  (State.debugHalt_hears h hlen hok).trans (if_neg (by simp [hd2]))

theorem State.debugHalt_open (hd2 : s.sec.d2 = true) :
    s.debugHalt sess op tag b act = act (fld b 1 1) (fld b 2 2) (fld b 8 8) (fld b 4 4) (s.heard sess) :=
  (State.debugHalt_hears h hlen hok).trans (if_pos hd2)

end

theorem leads_halt_closed {c : Instr} {op : Nat} {act : Nat → Nat → Nat → Nat → State → State} (h : s.Hears sess)
    (hlen : 16 ≤ b.length) (hok : s.haltOk sess op b = true) (hd2 : s.sec.d2 = false)
    (hexec : exec c s = .next (s.debugHalt sess op tag b act)) :
    Leads c s fun t => t = { s with owl := t.owl } ∧ Replied s t sess cDebugHalt tag .permFault [] :=
  leads_heard_reply h (hexec.trans (congrArg Host.Outcome.next (State.debugHalt_closed h hlen hok hd2)))

theorem leads_halt_denied {c : Instr} {op : Nat} {act : Nat → Nat → Nat → Nat → State → State} (h : s.Hears sess)
    (hlen : 16 ≤ b.length) (hok : s.haltOk sess op b = true) (hd2 : s.sec.d2 = false)
    (hexec : exec c s = .next (s.debugHalt sess op tag b act)) : Leads c s fun t => Replied s t sess cDebugHalt tag .permFault [] := by
  obtain ⟨t, ht, -, hreply⟩ := leads_halt_closed h hlen hok hd2 hexec
  exact ⟨t, ht, hreply⟩

/-! ### Engines halted and resumed -/

section
variable {e : Nat} {v : Bool}

theorem State.setHalt_engine : s.setHalt 1 e v = s.setEng e { s.eng e with halted := v } := if_pos rfl

/-- R526: with nothing parked, nothing competes again. -/
theorem State.retryParked_none (hparked : ∀ u ∈ s.txns, u.phase ≠ .parked) : s.retryParked = s := by
  have hnone : (s.txns.filter fun t => decide (t.phase = .parked)) = [] :=
    List.filter_eq_nil_iff.2 fun u hu => by simpa using hparked u hu
  rw [State.retryParked, hnone]
  rfl

theorem leads_setHalt {c : Instr} (h : s.Hears sess)
    (hexec : exec c s = .next (((s.heard sess).setHalt 1 e v).reply sess cDebugHalt tag .ok [])) : Leads c s fun t =>
      t = { s with owl := t.owl, engines := t.engines } ∧ t.eng e = { s.eng e with halted := v } ∧
      (∀ j, j ≠ e → t.eng j = s.eng j) ∧ Replied s t sess cDebugHalt tag .ok [] := by
  rw [State.setHalt_engine] at hexec
  obtain ⟨t, ht, -, hframe, hreply⟩ := leads_reply hexec rfl (State.heard_sessOpen h)
  have heng (j : Nat) : t.eng j = ((s.heard sess).setEng e { s.eng e with halted := v }).eng j := (congrArg (State.eng · j) hframe :)
  have hengines : t.engines = ((s.heard sess).setEng e { s.eng e with halted := v }).engines := (congrArg State.engines hframe :)
  refine ⟨t, ht, ?_, ?_, fun j hj => ?_, hreply⟩
  · rw [hengines]; exact hframe
  · rw [heng, State.setEng_get_eng_same]
  · rw [heng, State.setEng_get_eng, if_neg (Ne.symm hj)]; rfl

end

/-! ### The Burrow's scratch by its bytes (R386, R400) -/

theorem cgets_add (m : List Host.Cell) (a i j : Nat) : cgets m a (i + j) = cgets m a i ++ cgets m (a + i) j := by
  induction i generalizing a with
  | zero => simp [cgets]
  | succ i ih => rw [Nat.succ_add, cgets, cgets, ih, List.cons_append, Nat.succ_add_eq_add_succ]

theorem length_cgets (m : List Host.Cell) (a n : Nat) : (cgets m a n).length = n := by
  induction n generalizing a with
  | zero => rfl
  | succ n ih => rw [cgets, List.length_cons, ih]

theorem cputs_append (m : List Host.Cell) (a : Nat) (x y : Bytes) : cputs m a (x ++ y) = cputs (cputs m a x) (a + x.length) y := by
  induction x generalizing m a with
  | nil => rfl
  | cons c x ih => rw [List.cons_append, cputs, cputs, ih, List.length_cons, Nat.succ_add_eq_add_succ]

/-- The bytes in the middle of a range. -/
theorem cgets_drop_take (m : List Host.Cell) (a i n j : Nat) : ((cgets m a (i + n + j)).drop i).take n = cgets m (a + i) n := by
  rw [Nat.add_assoc, cgets_add, cgets_add m (a + i), List.drop_left' (length_cgets ..), List.take_left' (length_cgets ..)]

/-- Bytes read in groups of 32 are those of the whole range. -/
theorem flatMap_cgets (m : List Host.Cell) (a k : Nat) :
    ((List.range k).flatMap fun i => cgets m (a + 32 * i) 32) = cgets m a (32 * k) := by
  induction k with
  | zero => rfl
  | succ k ih => rw [List.range_succ, List.flatMap_append, ih, List.flatMap_singleton, Nat.mul_succ, cgets_add]

theorem State.scrArea_aligned : ∃ k, s.scrArea.1 = 32 * k ∧ ∃ l, s.scrArea.2 = 32 * l :=
  ⟨2097152 * ((s.lay.getD Layout.reset).dirU + (s.lay.getD Layout.reset).cacheU),
    by rw [State.scrArea]; omega, 2097152 * (s.lay.getD Layout.reset).scrU, by rw [State.scrArea]; omega⟩

theorem State.burPart_scratch {a : Nat} (h : s.scrArea.1 ≤ a) (h' : a < s.scrArea.1 + s.scrArea.2) :
    s.burPart a = .scratch (a - s.scrArea.1) := if_pos ⟨h, h'⟩

theorem State.burBytes_scratch {a : Nat} (h : s.scrArea.1 ≤ a) (h' : a < s.scrArea.1 + s.scrArea.2) :
    s.burBytes a = some (cgets s.scr (a - s.scrArea.1) 32) := by
  rw [State.burBytes, State.burPart_scratch h h']

section
variable {a n : Nat} (hlow : s.scrArea.1 ≤ a) (hhigh : a + n ≤ s.scrArea.1 + s.scrArea.2)
include hlow hhigh

/-- Each group of 32 bytes that a range of scratch touches lies in scratch. -/
theorem State.group_scratch {i : Nat} (hi : i < (a % 32 + n + 31) / 32) :
    s.scrArea.1 ≤ a / 32 * 32 + 32 * i ∧ a / 32 * 32 + 32 * i < s.scrArea.1 + s.scrArea.2 := by
  obtain ⟨k, hk, -⟩ := State.scrArea_aligned (s := s)
  omega

theorem State.burBytes_group {i : Nat} (hi : i < (a % 32 + n + 31) / 32) : s.burBytes (a / 32 * 32 + 32 * i) =
    some (cgets s.scr (a / 32 * 32 - s.scrArea.1 + 32 * i) 32) := by
  obtain ⟨k, hk, -⟩ := State.scrArea_aligned (s := s)
  obtain ⟨hg, hg'⟩ := State.group_scratch hlow hhigh hi
  rw [State.burBytes_scratch hg hg', Nat.sub_add_comm (by omega)]

end

/-- The known bytes of a group of 32. -/
def State.groupBytes (s : State) (a : Nat) : List (Option Byte) := match s.burBytes a with
  | some bs => bs.map some
  | none => List.replicate 32 none

theorem State.groupBytes_known {a : Nat} {bs : Bytes} (h : s.burBytes a = some bs) : s.groupBytes a = bs.map some := by
  rw [State.groupBytes, h]

theorem State.burPeek_groups (a n : Nat) : s.burPeek a n = (((((List.range ((a % 32 + n + 31) / 32)).flatMap fun i =>
    s.groupBytes (a / 32 * 32 + 32 * i)).drop (a % 32)).take n).zip (s.rawRead s.bur.raw a n).1 |>.map fun (k, r) => k.getD r,
    { s with free := s.free + 1 }) := rfl

/-- Known bytes stand, whatever free bytes are at their places. -/
theorem map_getD_zip_some (x raw : Bytes) (h : x.length = raw.length) :
    ((x.map some).zip raw).map (fun (k, r) => k.getD r) = x :=
  List.ext_getElem (by simp [h]) (by simp)

section
variable {a n : Nat} (hlow : s.scrArea.1 ≤ a) (hhigh : a + n ≤ s.scrArea.1 + s.scrArea.2)
include hlow hhigh

/-- R526: a read of scratch finds its bytes. -/
theorem State.burPeek_scratch : s.burPeek a n = (cgets s.scr (a - s.scrArea.1) n, { s with free := s.free + 1 }) := by
  obtain ⟨k, hk, -⟩ := State.scrArea_aligned (s := s)
  have hknown : ((List.range ((a % 32 + n + 31) / 32)).flatMap fun i => s.groupBytes (a / 32 * 32 + 32 * i)) =
      (cgets s.scr (a / 32 * 32 - s.scrArea.1) (32 * ((a % 32 + n + 31) / 32))).map some := by
    rw [← flatMap_cgets, List.map_flatMap]
    exact List.flatMap_congr fun i hi => State.groupBytes_known (State.burBytes_group hlow hhigh (List.mem_range.1 hi))
  have hsplit : 32 * ((a % 32 + n + 31) / 32) = a % 32 + n + (32 * ((a % 32 + n + 31) / 32) - (a % 32 + n)) := by omega
  have hstart : a / 32 * 32 - s.scrArea.1 + a % 32 = a - s.scrArea.1 := by omega
  have hraw : (s.rawRead s.bur.raw a n).1.length = n := by simp [State.rawRead]
  rw [State.burPeek_groups, hknown, hsplit, ← List.map_drop, ← List.map_take, cgets_drop_take, hstart,
    map_getD_zip_some _ _ ((length_cgets ..).trans hraw.symm)]

end

/-- The end of a write's part within its first k groups of 32 bytes. -/
def groupEnd (a n k : Nat) : Nat := min n (a / 32 * 32 + 32 * k - a)

/-- A write's bytes up to a group, and those in it. -/
theorem take_groupEnd_succ (a k : Nat) (bs : Bytes) (hk : k < (a % 32 + bs.length + 31) / 32) :
    bs.take (groupEnd a bs.length (k + 1)) = bs.take (groupEnd a bs.length k) ++
      slice bs (max a (a / 32 * 32 + 32 * k) - a) (min (a + bs.length) (a / 32 * 32 + 32 * k + 32) - max a (a / 32 * 32 + 32 * k)) := by
  have hstart : max a (a / 32 * 32 + 32 * k) - a = groupEnd a bs.length k := by unfold groupEnd; omega
  have hend : groupEnd a bs.length (k + 1) = groupEnd a bs.length k +
      (min (a + bs.length) (a / 32 * 32 + 32 * k + 32) - max a (a / 32 * 32 + 32 * k)) := by unfold groupEnd; omega
  have hfit : groupEnd a bs.length k + (min (a + bs.length) (a / 32 * 32 + 32 * k + 32) - max a (a / 32 * 32 + 32 * k)) ≤ bs.length := by
    unfold groupEnd; omega
  rw [hstart, hend, List.take_add, slice]
  generalize min (a + bs.length) (a / 32 * 32 + 32 * k + 32) - max a (a / 32 * 32 + 32 * k) = m at *
  rw [List.length_take, List.length_drop, Nat.min_eq_left (by omega), Nat.sub_self]
  simp

/-- R526: the part of a write in its i-th group of 32 bytes. -/
def State.pokeGroup (s : State) (a : Nat) (bs : Bytes) (i : Nat) : State :=
  let g := a / 32 * 32 + 32 * i
  let lo := max a g
  s.burWrite32 g (lo - g) (slice bs (lo - a) (min (a + bs.length) (g + 32) - lo))

theorem State.burPoke_groups (a : Nat) (bs : Bytes) : s.burPoke a bs =
    { (List.range ((a % 32 + bs.length + 31) / 32)).foldl (fun s i => s.pokeGroup a bs i) s with scrPois := (s.burPoke a bs).scrPois } :=
  rfl

theorem State.burWrite32_scratch {a o : Nat} {bs : Bytes} (h : s.scrArea.1 ≤ a) (h' : a < s.scrArea.1 + s.scrArea.2) :
    s.burWrite32 a o bs = { s with scr := cputs s.scr (a - s.scrArea.1 + o) bs } := by
  rw [State.burWrite32, State.burPart_scratch h h']

section
variable {a : Nat} {bs : Bytes} (hlow : s.scrArea.1 ≤ a) (hhigh : a + bs.length ≤ s.scrArea.1 + s.scrArea.2)
include hlow hhigh

/-- R526: after its first k groups a write of scratch has put its bytes up to their end. -/
theorem State.pokeGroups_scratch {k : Nat} (hk : k ≤ (a % 32 + bs.length + 31) / 32) :
    (List.range k).foldl (fun s i => s.pokeGroup a bs i) s =
      { s with scr := cputs s.scr (a - s.scrArea.1) (bs.take (groupEnd a bs.length k)) } := by
  induction k with
  | zero =>
    have hzero : groupEnd a bs.length 0 = 0 := by unfold groupEnd; omega
    rw [hzero]
    rfl
  | succ k ih =>
    obtain ⟨hg, hg'⟩ := State.group_scratch hlow hhigh hk
    have hlen : (bs.take (groupEnd a bs.length k)).length = groupEnd a bs.length k := by
      rw [List.length_take, Nat.min_eq_left (by unfold groupEnd; omega)]
    have hat : a / 32 * 32 + 32 * k - s.scrArea.1 + (max a (a / 32 * 32 + 32 * k) - (a / 32 * 32 + 32 * k)) =
        a - s.scrArea.1 + groupEnd a bs.length k := by unfold groupEnd; omega
    rw [List.range_succ, List.foldl_append, ih (Nat.le_of_succ_le hk), List.foldl_cons, List.foldl_nil, State.pokeGroup]
    refine (State.burWrite32_scratch
      (s := { s with scr := cputs s.scr (a - s.scrArea.1) (bs.take (groupEnd a bs.length k)) }) hg hg').trans ?_
    rw [take_groupEnd_succ a k bs hk, cputs_append, hlen, ← hat]
    rfl

/-- R526: a write of scratch changes its bytes, and may clear the poison of whole lines. -/
theorem State.burPoke_scratch : s.burPoke a bs =
    { s with scr := cputs s.scr (a - s.scrArea.1) bs, scrPois := (s.burPoke a bs).scrPois } := by
  have hall : bs.take (groupEnd a bs.length ((a % 32 + bs.length + 31) / 32)) = bs :=
    List.take_of_length_le (by unfold groupEnd; omega)
  have hgroups := State.pokeGroups_scratch hlow hhigh (Nat.le_refl _)
  rw [hall] at hgroups
  have hpoke := State.burPoke_groups (s := s) a bs
  rw [hgroups] at hpoke
  exact hpoke

end

/-! ### Scratch read and written by DEBUG_HALT -/

section
variable {a n : Nat} (h : s.Hears sess) (hlen : 16 ≤ b.length) (hd2 : s.sec.d2 = true) (hcls : fld b 1 1 = 4) (ha : a = fld b 8 8)
  (hlow : s.scrArea.1 ≤ a)
include h hlen hd2 hcls ha hlow

theorem exec_debugHaltRead_scratch (hok : s.haltOk sess 3 b = true) (hn : n = fld b 4 4)
    (hhigh : a + n ≤ s.scrArea.1 + s.scrArea.2) : exec (.debugHaltRead sess tag b) s =
    .next (({ s.heard sess with free := s.free + 1 } : State).reply sess cDebugHalt tag .ok (cgets s.scr (a - s.scrArea.1) n)) := by
  have hread : (s.heard sess).unitRead 4 (fld b 2 2) a n =
      (cgets s.scr (a - s.scrArea.1) n, { s.heard sess with free := s.free + 1 }) :=
    State.burPeek_scratch (s := s.heard sess) hlow hhigh
  refine congrArg Host.Outcome.next ((State.debugHalt_open h hlen hok hd2).trans ?_)
  rw [hcls, ← ha, ← hn, hread]

theorem leads_debugHaltRead (hok : s.haltOk sess 3 b = true) (hn : n = fld b 4 4) (hhigh : a + n ≤ s.scrArea.1 + s.scrArea.2) :
    Leads (.debugHaltRead sess tag b) s fun t =>
      t = { s with owl := t.owl, free := t.free } ∧ Replied s t sess cDebugHalt tag .ok (cgets s.scr (a - s.scrArea.1) n) := by
  obtain ⟨t, ht, -, hframe, hreply⟩ := leads_reply (exec_debugHaltRead_scratch h hlen hd2 hcls ha hlow hok hn hhigh) rfl
    (State.heard_sessOpen h)
  exact ⟨t, ht, by rw [hframe]; rfl, hreply⟩

omit hlow in
theorem exec_debugHaltWrite_scratch (hok : s.haltOk sess 4 b = true) : exec (.debugHaltWrite sess tag b) s =
    .next (((s.heard sess).burPoke a (b.drop 16)).reply sess cDebugHalt tag .ok []) := by
  refine congrArg Host.Outcome.next ((State.debugHalt_open h hlen hok hd2).trans ?_)
  rw [hcls, ← ha]
  rfl

theorem leads_debugHaltWrite (hok : s.haltOk sess 4 b = true) (hhigh : a + (b.length - 16) ≤ s.scrArea.1 + s.scrArea.2) :
    Leads (.debugHaltWrite sess tag b) s fun t =>
      t = { s with owl := t.owl, scr := cputs s.scr (a - s.scrArea.1) (b.drop 16), scrPois := t.scrPois } ∧
      Replied s t sess cDebugHalt tag .ok [] := by
  have hpoke := State.burPoke_scratch (s := s.heard sess) (bs := b.drop 16) hlow (by rw [List.length_drop]; exact hhigh)
  have hexec := exec_debugHaltWrite_scratch (tag := tag) h hlen hd2 hcls ha hok
  generalize (s.heard sess).burPoke a (b.drop 16) = u at hpoke hexec
  have hopen : u.sessOpen sess = true := by rw [hpoke]; exact State.heard_sessOpen h
  obtain ⟨t, ht, -, hframe, hreply⟩ := leads_reply hexec (by rw [hpoke]; rfl) hopen
  refine ⟨t, ht, ?_, hreply⟩
  have hpois : t.scrPois = u.scrPois := (congrArg State.scrPois hframe :)
  rw [hpois, hframe, hpoke]
  rfl

end

/-- Settles O52: the orders by what carrying them out changes, the wipe's end by its fill, and each debug command by the unit it reaches. -/
theorem owlSecurity : Obligations.OwlSecurity := by
  unfold Obligations.OwlSecurity
  refine ⟨fun s sess tag b h hst => leads_lifecycle_refused h hst,
    fun s sess i tag b h hst ht hlife hi => leads_deploy h hst ht hlife hi,
    fun s sess i tag b h hst ht hlife hi => leads_refurbish h hst ht hlife hi, fun s sess tag b h hst ht => leads_scrap h hst ht,
    fun s sess tag b h hst ht hd2 => leads_openD2 h hst ht hd2, fun s sess tag b h hst ht hroot hd2 => leads_newRoot h hst ht hroot hd2,
    fun s hrun hkeys hwarm => leads_wipeComplete hrun hkeys hwarm, fun s sess tag h => leads_spdm_getVersion h,
    fun s sess tag hopen hrun hlife => ?scrapped, fun s sess p k tag first h hp hk1 hk3 hd1 => ?granted,
    fun s sess p k tag first h hp hk1 hk3 hd1 => ?denied, fun s sess tag b h hlen hd2 => ⟨fun hok => leads_halt_denied h hlen hok hd2 rfl,
      fun hok => leads_halt_denied h hlen hok hd2 rfl, fun hok => leads_halt_denied h hlen hok hd2 rfl, fun hok => leads_halt_closed h hlen hok hd2 rfl⟩,
    fun s sess e tag b h hlen hd2 hok hcls he => ?halt, fun s sess e tag b h hlen hd2 hok hcls he hparked => ?resume,
    fun s sess a n tag b h hlen hd2 hok hcls ha hn hlow hhigh => leads_debugHaltRead h hlen hd2 hcls ha hlow hok hn hhigh,
    fun s sess a tag b h hlen hd2 hok hcls ha hlow hhigh => leads_debugHaltWrite h hlen hd2 hcls ha hlow hok hhigh⟩
  case scrapped =>
    obtain ⟨t, ht, -, hframe, hreply⟩ := leads_reply (exec_spdm_scrapped (tag := tag) hopen hrun hlife) rfl
      (State.sessOpen_setSess _ hopen)
    exact ⟨t, ht, hframe, hreply⟩
  case granted =>
    exact leads_heard_reply h (congrArg Host.Outcome.next ((State.debugRead_hears h hp hk1 hk3).trans (if_pos hd1)))
  case denied =>
    exact leads_heard_reply h (congrArg Host.Outcome.next ((State.debugRead_hears h hp hk1 hk3).trans (if_neg (by simp [hd1]))))
  case halt =>
    refine leads_setHalt h (congrArg Host.Outcome.next ((State.debugHalt_open h hlen hok hd2).trans ?_))
    rw [hcls, he]
  case resume =>
    refine leads_setHalt h (congrArg Host.Outcome.next ((State.debugHalt_open h hlen hok hd2).trans ?_))
    have hnone : ((s.heard sess).setHalt 1 e false).retryParked = (s.heard sess).setHalt 1 e false :=
      State.retryParked_none (by rw [State.setHalt_engine]; exact hparked)
    rw [hcls, ← he, hnone]

end Sys2Proof.Machine
end

section
/-! SUPPORT. Power states (R585–R594): entries, the exit from GATE, OFF, and the end of the sweep of HIBERNATE. -/

namespace Sys2Proof.Machine
open Sys2Proof

variable {s : State} {sess : Nat} {tag : W32}

/-! ### Engines gated (R587) -/

/-- R587: one engine's clock gated or running, unless it is fenced. -/
def State.gateEngine (s : State) (v : Bool) (e : Nat) : State :=
  let x := s.eng e
  if x.st = .fenced then s else s.setEng e { x with gated := v, prog0 := if v then x.prog0 else s.clk }

/-- What the gating of the first n engines leaves. -/
structure Gates (n : Nat) (v : Bool) (s t : State) : Prop where
  frame : t = { s with engines := t.engines }
  st : ∀ e, (t.eng e).st = (s.eng e).st
  gated : ∀ e, (t.eng e).gated = if e < n ∧ (s.eng e).st ≠ .fenced then v else (s.eng e).gated

theorem Gates.succ {n : Nat} {v : Bool} {s t : State} (h : Gates n v s t) : Gates (n + 1) v s (t.gateEngine v n) := by
  have hst := h.st n
  unfold State.gateEngine
  dsimp only
  split
  · next hf =>
    refine ⟨h.frame, h.st, fun e => (h.gated e).trans (if_congr ?_ rfl rfl)⟩
    have hne (hs : (s.eng e).st ≠ .fenced) : e ≠ n := fun hen => hs (hen ▸ hst.symm.trans hf)
    exact ⟨fun ⟨he, hs⟩ => ⟨he.trans n.lt_succ_self, hs⟩, fun ⟨he, hs⟩ => ⟨by have := hne hs; omega, hs⟩⟩
  · next hf =>
    refine ⟨by rw [h.frame]; rfl, fun e => ?_, fun e => ?_⟩
    · rw [State.setEng_get_eng]
      by_cases hen : n = e
      · rw [if_pos hen, ← hen]; exact hst
      · rw [if_neg hen]; exact h.st e
    · rw [State.setEng_get_eng]
      by_cases hen : n = e
      · rw [if_pos hen]; exact (if_pos ⟨by omega, fun hs => hf (hst.trans (hen ▸ hs))⟩).symm
      · rw [if_neg hen, h.gated]
        exact if_congr ⟨fun ⟨he, hs⟩ => ⟨by omega, hs⟩, fun ⟨he, hs⟩ => ⟨by omega, hs⟩⟩ rfl rfl

theorem State.gateEngines_gates (v : Bool) : Gates 64 v s (s.gateEngines v) := by
  have first (n : Nat) : Gates n v s ((List.range n).foldl (fun s e => s.gateEngine v e) s) := by
    induction n with
    | zero => exact ⟨rfl, fun _ => rfl, fun e => (if_neg (by simp)).symm⟩
    | succ n ih => rw [List.range_succ, List.foldl_append]; exact ih.succ
  exact first 64

/-- What says which sessions are open. -/
theorem State.sessOpen_congr {t : State} {i : Nat} (hd2 : t.sec.d2 = s.sec.d2) (hsessions : t.owl.sessions = s.owl.sessions) :
    t.sessOpen i = s.sessOpen i := by
  rw [State.sessOpen, State.sessOpen, hd2, hsessions]

/-! ### Replies of POWER_STATE (R586) -/

/-- R586: the command in progress. -/
def State.powerAsked (s : State) (sess : Nat) (tag : W32) : State := { s with owl := { s.owl with pwSess := sess, pwTag := tag } }

/-- R585: a command that is taken and asks for another state. -/
theorem State.powerState_hears {target : PwrState} (h : s.Hears sess) (hst : s.powerStatus target = .ok) (hne : s.owl.pwr ≠ target) :
    s.powerState sess tag target =
      if target = .off then ((s.heard sess).powerAsked sess tag).powerOff
      else if s.owl.pwr = .run then ((s.heard sess).powerAsked sess tag).enterState target
      else ((s.heard sess).powerAsked sess tag).leaveState target := by
  have hst' : (s.heard sess).powerStatus target = .ok := hst
  have hne' : (s.heard sess).owl.pwr ≠ target := hne
  rw [State.powerState, State.command_hears s _ _ _ h, ← State.heard, hst', if_neg (not_not_intro rfl), if_neg hne']
  rfl

/-- What the reply that ends a transition leaves. -/
structure PowerReplied (sess : Nat) (tag : W32) (st : Status) (s t : State) : Prop where
  frame : t = { s with owl := t.owl }
  replied : Replied s t sess cPower tag st [BitVec.ofNat 8 s.owl.pwr.code]
  pwr : t.owl.pwr = s.owl.pwr
  transit : t.owl.transit = false

theorem State.powerReply_replied {st : Status} (hopen : s.sessOpen s.owl.pwSess = true) :
    PowerReplied s.owl.pwSess s.owl.pwTag st s (s.powerReply st) := by
  have hframe := State.reply_frame { s with owl := { s.owl with transit := false } } s.owl.pwSess cPower s.owl.pwTag st
    [BitVec.ofNat 8 s.owl.pwr.code]
  have howl := State.reply_owl { s with owl := { s.owl with transit := false } } s.owl.pwSess cPower s.owl.pwTag st
    [BitVec.ofNat 8 s.owl.pwr.code]
  have hreplies := State.reply_replies { s with owl := { s.owl with transit := false } } s.owl.pwSess cPower s.owl.pwTag st
    [BitVec.ofNat 8 s.owl.pwr.code] hopen
  rw [show s.powerReply st = State.reply { s with owl := { s.owl with transit := false } } s.owl.pwSess cPower s.owl.pwTag st
    [BitVec.ofNat 8 s.owl.pwr.code] from rfl]
  generalize State.reply { s with owl := { s.owl with transit := false } } s.owl.pwSess cPower s.owl.pwTag st
    [BitVec.ofNat 8 s.owl.pwr.code] = t at *
  exact ⟨hframe, hreplies, by rw [howl], by rw [howl]⟩

/-! ### GATE (R587) -/

/-- R587: the engines gated or running, and the state reached. -/
def State.gateTo (s : State) (v : Bool) (p : PwrState) : State :=
  let s1 := s.gateEngines v
  { s1 with owl := { s1.owl with pwr := p } }

theorem State.gateTo_frame (v : Bool) (p : PwrState) :
    s.gateTo v p = { s with engines := (s.gateEngines v).engines, owl := { s.owl with pwr := p } } := by
  have hframe := (State.gateEngines_gates (s := s) v).frame
  unfold State.gateTo
  generalize s.gateEngines v = t at hframe
  rw [hframe]

theorem State.gateTo_gated {e : Nat} (v : Bool) (p : PwrState) (he : e < 64) :
    ((s.gateTo v p).eng e).gated = if (s.eng e).st ≠ .fenced then v else (s.eng e).gated := by
  have hgated := (State.gateEngines_gates (s := s) v).gated e
  have hengines : (s.gateTo v p).engines = (s.gateEngines v).engines := by rw [State.gateTo_frame]
  rw [State.eng] at hgated ⊢
  rw [hengines, hgated]
  exact if_congr (by simp [he]) rfl rfl

theorem State.gated_gateTo : s.gated = (s.gateTo true .gate).powerReply .ok := rfl

/-- The end of a transition at GATE or from it is answered, with the engines' clocks as they then are. -/
theorem leads_gateTo {c : Instr} {v : Bool} {p : PwrState} (h : s.Hears sess)
    (hexec : exec c s = .next ((((s.heard sess).powerAsked sess tag).powerBegin p).gateTo v p |>.powerReply .ok)) :
    Leads c s fun t =>
      t.owl.pwr = p ∧ Replied s t sess cPower tag .ok [BitVec.ofNat 8 p.code] ∧ t.dram = s.dram ∧ t.scr = s.scr ∧
      ∀ e < 64, (t.eng e).gated = if (s.eng e).st ≠ .fenced then v else (s.eng e).gated := by
  refine leads_of_exec hexec ?_
  have hgate := State.gateTo_frame (s := ((s.heard sess).powerAsked sess tag).powerBegin p) v p
  have hgated := fun e he => State.gateTo_gated (s := ((s.heard sess).powerAsked sess tag).powerBegin p) (e := e) v p he
  generalize (((s.heard sess).powerAsked sess tag).powerBegin p).gateTo v p = u at hgate hgated
  have howl : u.owl = { (((s.heard sess).powerAsked sess tag).powerBegin p).owl with pwr := p } := by rw [hgate]
  have hsess : u.owl.pwSess = sess := by rw [howl]; rfl
  have htag : u.owl.pwTag = tag := by rw [howl]; rfl
  have hpwr : u.owl.pwr = p := by rw [howl]
  have hreplies : u.owl.replies = s.owl.replies := by rw [howl]; rfl
  have hopen : u.sessOpen u.owl.pwSess = true := by
    have hd2 : u.sec.d2 = (s.heard sess).sec.d2 := by rw [hgate]; rfl
    rw [hsess, State.sessOpen_congr hd2 (by rw [howl]; rfl)]
    exact State.heard_sessOpen h
  have hreply := State.powerReply_replied (st := .ok) hopen
  generalize u.powerReply .ok = t at hreply
  have hengines : t.engines = u.engines := (congrArg State.engines hreply.frame :)
  have hreplied := hreply.replied
  rw [hsess, htag, hpwr, Replied, hreplies] at hreplied
  refine ⟨hreply.pwr.trans hpwr, hreplied, (congrArg State.dram hreply.frame :).trans (congrArg State.dram hgate :),
    (congrArg State.scr hreply.frame :).trans (congrArg State.scr hgate :), fun e he => ?_⟩
  rw [State.eng, hengines]
  exact hgated e he

theorem exec_powerStateRun (h : s.Hears sess) (hst : s.powerStatus .run = .ok) (hpwr : s.owl.pwr = .gate) :
    exec (.powerStateRun sess tag) s =
      .next ((((s.heard sess).powerAsked sess tag).powerBegin .run).gateTo false .run |>.powerReply .ok) := by
  refine congrArg Host.Outcome.next ((State.powerState_hears h hst (by simp [hpwr])).trans ?_)
  have hpwr' : ((s.heard sess).powerAsked sess tag).owl.pwr = .gate := hpwr
  rw [if_neg (by decide), if_neg (by simp [hpwr]), State.leaveState, hpwr', State.gateTo]
  exact if_pos rfl

theorem exec_powerStateGate (h : s.Hears sess) (hst : s.powerStatus .gate = .ok) (hpwr : s.owl.pwr = .run) (hidle : s.anyRun = false) :
    exec (.powerStateGate sess tag) s =
      .next ((((s.heard sess).powerAsked sess tag).powerBegin .gate).gateTo true .gate |>.powerReply .ok) := by
  refine congrArg Host.Outcome.next ((State.powerState_hears h hst (by simp [hpwr])).trans ?_)
  have hidle' : (((s.heard sess).powerAsked sess tag).powerBegin .gate).anyRun = false := hidle
  rw [if_neg (by decide), if_pos hpwr, State.enterState]
  exact if_neg (by simp [hidle'])

/-! ### Holds for DROWSE and HIBERNATE (R588) -/

/-- A hold leaves a partition that runs or drains draining. -/
theorem State.opHold_busy {p q : Nat} (h : (s.part p).st = .run ∨ (s.part p).st = .draining) :
    ((s.opHold q true).part p).st = .run ∨ ((s.opHold q true).part p).st = .draining := by
  by_cases hpq : p = q
  · subst hpq
    unfold State.opHold State.setHolds
    extract_lets +onlyGivenNames op src s1 x
    have hx : x.st = (s.part p).st := by unfold x s1; rw [State.setPart_get_part_same]
    split
    · rw [State.setPart_get_part_same]; exact .inr rfl
    · rw [if_neg (by simp [op])]
      exact (show x.st = .run ∨ x.st = .draining by rw [hx]; exact h)
  · rw [(State.opHold_holds q).2.2 p hpq]; exact h

/-- R588 step 1: the partitions that Owl holds. -/
def State.toHold (s : State) : List Nat := s.partList.filter fun p => !(s.part p).opHold

theorem State.holdAll_held : Held (s.toHold.reverse ++ []) s (s.toHold.foldl (fun s p => s.opHold p true) s) :=
  Held.foldl s.toHold [] ⟨rfl, by simp⟩

/-- Holds set keep those that stand. -/
theorem State.opHolds_keep (ps : List Nat) {p : Nat} (h : (s.part p).opHold = true) :
    ((ps.foldl (fun s p => s.opHold p true) s).part p).opHold = true :=
  List.foldlRecOn ps _ (motive := fun t : State => (t.part p).opHold = true) h fun t ht q _ => by
    by_cases hpq : p = q
    · rw [hpq]; exact (State.opHold_holds q).2.1
    · rw [(State.opHold_holds q).2.2 p hpq]; exact ht

theorem State.opHolds_busy (ps : List Nat) {p : Nat} (h : (s.part p).st = .run ∨ (s.part p).st = .draining) :
    ((ps.foldl (fun s p => s.opHold p true) s).part p).st = .run ∨ ((ps.foldl (fun s p => s.opHold p true) s).part p).st = .draining :=
  List.foldlRecOn ps _ (motive := fun t : State => (t.part p).st = .run ∨ (t.part p).st = .draining) h fun _ ht _ _ => State.opHold_busy ht

/-- What the holds of an entry leave. -/
structure AllHeld (s t : State) : Prop where
  frame : t = { s with parts := t.parts, owl := { s.owl with noted := t.owl.noted } }
  held : ∀ p ∈ s.partList, (t.part p).opHold = true
  busy : ∀ p, (s.part p).st = .run → (t.part p).st ≠ .quiesced

theorem State.holdAll_allHeld : AllHeld s s.holdAll := by
  have hframe := (State.holdAll_held (s := s)).frame
  have hheld := (State.holdAll_held (s := s)).held
  have hkeep (p : Nat) (h : (s.part p).opHold = true) := State.opHolds_keep s.toHold h
  have hbusy (p : Nat) (h : (s.part p).st = .run) := State.opHolds_busy s.toHold (p := p) (.inl h)
  have hall : s.holdAll = { s.toHold.foldl (fun s p => s.opHold p true) s with
    owl := { (s.toHold.foldl (fun s p => s.opHold p true) s).owl with noted := s.toHold } } := rfl
  rw [hall]
  generalize s.toHold.foldl (fun s p => s.opHold p true) s = u at *
  refine ⟨by rw [hframe], fun p hp => ?_, fun p hrun hq => ?_⟩
  · by_cases hop : (s.part p).opHold = true
    · exact hkeep p hop
    · exact hheld p (by simp [State.toHold, hp, hop])
  · have hq' : (u.part p).st = .quiesced := hq
    rcases hbusy p hrun with hb | hb <;> rw [hb] at hq' <;> exact absurd hq' (by decide)

theorem State.narrowPorts_frame : s.narrowPorts = { s with ports := s.narrowPorts.ports } := by
  refine List.foldlRecOn (List.range 8) _ (motive := fun t : State => t = { s with ports := t.ports }) rfl fun t ht k _ => ?_
  dsimp only
  split
  · exact ht
  · rw [ht]; rfl

/-- R588: an advance of an entry to DROWSE waits, gates the engines, or also narrows the ports. -/
theorem State.powerAdvance_drowse (htarget : s.owl.target = .drowse) : s.powerAdvance = s ∨ s.powerAdvance = s.gateEngines true ∨
    s.powerAdvance = { (s.gateEngines true).narrowPorts with owl := { (s.gateEngines true).owl with pwStep := 2 } } := by
  unfold State.powerAdvance
  dsimp only
  generalize s.gateEngines true = u
  split
  · by_cases hout : s.owl.target = .drowse ∧ s.plansOut
    · exact .inr (.inl (if_pos hout))
    · rw [if_neg hout]
      exact .inr (.inr rfl)
  · exact .inl rfl

theorem State.powerAdvance_drowse_keeps (htarget : s.owl.target = .drowse) : s.powerAdvance.owl.transit = s.owl.transit ∧
    s.powerAdvance.owl.target = .drowse ∧ s.powerAdvance.owl.replies = s.owl.replies ∧ s.powerAdvance.parts = s.parts := by
  have hgate := (State.gateEngines_gates (s := s) true).frame
  have hports := State.narrowPorts_frame (s := s.gateEngines true)
  have hadvance := State.powerAdvance_drowse htarget
  generalize s.gateEngines true = u at *
  generalize u.narrowPorts = w at *
  have howl : u.owl = s.owl := (congrArg State.owl hgate :)
  have hparts : w.parts = s.parts := (congrArg State.parts hports :).trans (congrArg State.parts hgate :)
  rcases hadvance with hadvance | hadvance | hadvance
  · rw [hadvance]; exact ⟨rfl, htarget, rfl, rfl⟩
  · rw [hadvance, howl]; exact ⟨rfl, htarget, rfl, (congrArg State.parts hgate :)⟩
  · rw [hadvance, howl]; exact ⟨rfl, htarget, rfl, hparts⟩

theorem State.powerAdvance_waits (h : s.allQuiesced = false) : s.powerAdvance = s :=
  if_neg fun ⟨_, _, _, _, hq⟩ => by simp [h] at hq

theorem exec_powerState_enters {target : PwrState} (h : s.Hears sess) (hst : s.powerStatus target = .ok) (hpwr : s.owl.pwr = .run)
    (ht : target = .drowse ∨ target = .hibernate) :
    s.powerState sess tag target = (((s.heard sess).powerAsked sess tag).powerBegin target).holdAll.powerAdvance := by
  refine (State.powerState_hears h hst ?_).trans ?_
  · rcases ht with rfl | rfl <;> simp [hpwr]
  · rcases ht with rfl | rfl
    · rw [if_neg (by decide), if_pos hpwr]; rfl
    · rw [if_neg (by decide), if_pos hpwr]; rfl

theorem leads_powerStateDrowse (h : s.Hears sess) (hst : s.powerStatus .drowse = .ok) (hpwr : s.owl.pwr = .run) :
    Leads (.powerStateDrowse sess tag) s fun t =>
      t.owl.transit = true ∧ t.owl.target = .drowse ∧ t.owl.replies = s.owl.replies ∧ ∀ p ∈ s.partList, (t.part p).opHold = true := by
  refine leads_of_exec (congrArg Host.Outcome.next (exec_powerState_enters h hst hpwr (.inl rfl))) ?_
  have hall := State.holdAll_allHeld (s := ((s.heard sess).powerAsked sess tag).powerBegin .drowse)
  have hheld := hall.held
  have howl := (congrArg State.owl hall.frame :)
  generalize (((s.heard sess).powerAsked sess tag).powerBegin .drowse).holdAll = u at hall hheld howl
  obtain ⟨htransit, htarget, hreplies, hparts⟩ := State.powerAdvance_drowse_keeps (s := u) (by rw [howl]; rfl)
  refine ⟨htransit.trans (by rw [howl]; rfl), htarget, hreplies.trans (by rw [howl]; rfl), fun p hp => ?_⟩
  rw [State.part, hparts]
  exact hheld p hp

theorem leads_powerStateHibernate (h : s.Hears sess) (hst : s.powerStatus .hibernate = .ok) (hpwr : s.owl.pwr = .run)
    (hrun : ∃ p ∈ s.partList, (s.part p).st = .run) :
    Leads (.powerStateHibernate sess tag) s fun t => t.owl.transit = true ∧ t.owl.target = .hibernate := by
  refine leads_of_exec (congrArg Host.Outcome.next (exec_powerState_enters h hst hpwr (.inr rfl))) ?_
  have hall := State.holdAll_allHeld (s := ((s.heard sess).powerAsked sess tag).powerBegin .hibernate)
  have hbusy := hall.busy
  have howl := (congrArg State.owl hall.frame :)
  have hlay := (congrArg State.lay hall.frame :)
  generalize (((s.heard sess).powerAsked sess tag).powerBegin .hibernate).holdAll = u at hall hbusy howl hlay
  obtain ⟨p, hp, hst'⟩ := hrun
  have hquiet : u.allQuiesced = false := by
    rw [State.allQuiesced, List.all_eq_false]
    exact ⟨p, by rw [State.partList, hlay]; exact hp, by simpa using hbusy p hst'⟩
  rw [State.powerAdvance_waits hquiet, howl]
  exact ⟨rfl, rfl⟩

/-! ### OFF (R594) -/

theorem State.flushLog_flash_congr {t : State} (hflash : t.flash = s.flash) (hevq : t.owl.evq = s.owl.evq) :
    t.flushLog.flash = s.flushLog.flash := by
  rw [State.flushLog, State.flushLog, hflash, hevq]

/-- R594: the log written, and OFF in force. -/
def State.offNow (s : State) : State := { s.flushLog with owl := { s.flushLog.owl with pwr := .off, transit := false } }

theorem State.powerOff_offNow : s.powerOff =
    let t := s.offNow.reply s.owl.pwSess cPower s.owl.pwTag .ok [4]
    { t with owl := { t.owl with pmOut := t.owl.pmOut ++ t.flash.regs.reverse.map fun i => [BitVec.ofNat 8 i, 0x01, 0x02, 0x01, 0x00] } } :=
  rfl

theorem State.offNow_frame : s.offNow = { s with owl := s.offNow.owl, flash := s.flushLog.flash } := rfl

theorem FlashS.regs_logged (f : FlashS) (l : List EvRec) (q : W32) : ({ f with log := l, logSeq := q } : FlashS).regs = f.regs := rfl

theorem State.powerOff_leaves (hopen : s.sessOpen s.owl.pwSess = true) :
    s.powerOff = { s with owl := s.powerOff.owl, flash := s.flushLog.flash } ∧ s.powerOff.owl.pwr = .off ∧
    s.powerOff.owl.replies = s.owl.replies ++ [⟨s.owl.pwSess, cPower, s.owl.pwTag, .ok, [4]⟩] ∧
    s.powerOff.owl.pmOut = s.owl.pmOut ++ s.flash.regs.reverse.map fun i => [BitVec.ofNat 8 i, 0x01, 0x02, 0x01, 0x00] := by
  have hopen' : s.offNow.sessOpen s.owl.pwSess = true := (State.sessOpen_congr rfl rfl).trans hopen
  have hreplies := State.reply_replies s.offNow s.owl.pwSess cPower s.owl.pwTag .ok [4] hopen'
  have hframe := State.reply_frame s.offNow s.owl.pwSess cPower s.owl.pwTag .ok [4]
  have howl := State.reply_owl s.offNow s.owl.pwSess cPower s.owl.pwTag .ok [4]
  rw [State.powerOff_offNow]
  generalize s.offNow.reply s.owl.pwSess cPower s.owl.pwTag .ok [4] = t at *
  have hflash : t.flash = s.flushLog.flash := (congrArg State.flash hframe :)
  have hregs : t.flash.regs = s.flash.regs := by rw [hflash]; exact s.flash.regs_logged _ _
  have hpm : t.owl.pmOut = s.owl.pmOut := by rw [howl]; rfl
  have hoff : t.owl.pwr = .off := by rw [howl]; rfl
  refine ⟨?_, hoff, hreplies, ?_⟩
  · dsimp only
    rw [hframe, State.offNow_frame]
  · dsimp only
    rw [hpm, hregs]

theorem leads_powerStateOff (h : s.Hears sess) (hst : s.powerStatus .off = .ok) (hpwr : s.owl.pwr ≠ .off) :
    Leads (.powerStateOff sess tag) s fun t =>
      t = { s with owl := t.owl, flash := s.flushLog.flash } ∧ t.owl.pwr = .off ∧ Replied s t sess cPower tag .ok [4] ∧
      t.owl.pmOut = s.owl.pmOut ++ s.flash.regs.reverse.map fun i => [BitVec.ofNat 8 i, 0x01, 0x02, 0x01, 0x00] := by
  refine leads_of_exec (congrArg Host.Outcome.next ((State.powerState_hears h hst hpwr).trans (if_pos rfl))) ?_
  have hflash := State.flushLog_flash_congr (t := (s.heard sess).powerAsked sess tag) (s := s) rfl rfl
  obtain ⟨hframe, hoff, hreplies, hpm⟩ := State.powerOff_leaves (s := (s.heard sess).powerAsked sess tag) (State.heard_sessOpen h)
  generalize ((s.heard sess).powerAsked sess tag).powerOff = t at *
  rw [hflash] at hframe
  exact ⟨hframe, hoff, hreplies, hpm⟩

/-! ### The ends of entries -/

theorem leads_powerStateReached (htransit : s.owl.transit = true) (hpwr : s.owl.pwr = .run) (htarget : s.owl.target = .gate)
    (hidle : s.anyRun = false) : Leads .powerStateReached s fun t => t.owl.pwr = .gate ∧ t.owl.transit = false := by
  have hexec : exec .powerStateReached s = .next s.gated := by
    refine congrArg Host.Outcome.next ?_
    unfold State.powerReached
    dsimp only
    rw [htransit, hpwr, htarget, if_neg (by decide), if_pos rfl]
    exact if_neg (by simp [hidle])
  refine leads_of_exec hexec ?_
  rw [State.gated_gateTo]
  have hpwr' : (s.gateTo true .gate).owl.pwr = .gate := by rw [State.gateTo_frame]
  generalize s.gateTo true .gate = u at hpwr'
  have howl := State.reply_owl { u with owl := { u.owl with transit := false } } u.owl.pwSess cPower u.owl.pwTag .ok
    [BitVec.ofNat 8 u.owl.pwr.code]
  have hreply : u.powerReply .ok = State.reply { u with owl := { u.owl with transit := false } } u.owl.pwSess cPower u.owl.pwTag .ok
    [BitVec.ofNat 8 u.owl.pwr.code] := rfl
  rw [hreply, howl]
  exact ⟨hpwr', rfl⟩

theorem leads_gateEntryTimeout (htransit : s.owl.transit = true) (hpwr : s.owl.pwr = .run) (htarget : s.owl.target = .gate)
    (hbusy : s.anyRun = true) (hlate : Config.ms10Clk + s.owl.pwSince ≤ s.clk) (hopen : s.sessOpen s.owl.pwSess = true) :
    Leads .gateEntryTimeout s fun t =>
      t = { s with owl := t.owl } ∧ t.owl.pwr = .run ∧ t.owl.transit = false ∧
      Replied s t s.owl.pwSess cPower s.owl.pwTag .retryLater [0] := by
  refine leads_of_exec (if_pos ⟨htransit, htarget, hpwr, hbusy, hlate⟩) ?_
  obtain ⟨hframe, hreplied, hpwr', htransit'⟩ := State.powerReply_replied (st := .retryLater) hopen
  rw [hpwr] at hreplied
  exact ⟨hframe, hpwr'.trans hpwr, htransit', hreplied⟩

/-! ### The end of the sweep of HIBERNATE (R591) -/

theorem State.dropSegments_admin (ch : Nat) : (s.dropSegments ch).admin = s.admin := by
  refine State.foldl_admin (fun s i => ?_) _ s
  split <;> rfl

/-- R591 step 3: with no directory entry there is nothing to recall. -/
theorem State.sweepSett_empty {n : Nat} (h : (s.sett n).dir = []) : s.sweepSett n = s := by
  rw [State.sweepSett, h]
  rfl

/-- A property of the setts that stand, and of a fresh one, is one of each sett. -/
theorem State.sett_dir_empty (h : ∀ x ∈ s.setts, x.2.dir = []) (n : Nat) : (s.sett n).dir = [] := by
  rw [State.sett]
  generalize s.setts = l at h
  induction l with
  | nil => rfl
  | cons x l ih =>
    rw [tget]
    split
    · exact h x List.mem_cons_self
    · exact ih fun y hy => h y (List.mem_cons_of_mem x hy)

theorem State.sweepSetts_empty (h : ∀ x ∈ s.setts, x.2.dir = []) : (List.range 16).foldl State.sweepSett s = s :=
  List.foldlRecOn (List.range 16) State.sweepSett (motive := fun t => t = s) rfl fun t ht n _ => by
    rw [ht, State.sweepSett_empty (State.sett_dir_empty h n)]

/-- R591 steps 3–6: the controllers drained and in self-refresh, the dirty lines written, the segments not kept lost, and the ports
narrowed. -/
def State.sweptNow (s : State) : State :=
  let s1 := (((List.range 32).filter fun c => decide ((s.chan c).st = .run)).foldl State.drainChan s).flushAll
  let s2 : State := { s1 with setts := s1.setts.map fun (i, t) => (i, { t with
    victims := []
    insQ := t.insQ.map fun v => { v with c := { v.c with dirty := false } }
    cache := t.cache.map fun (l, c) => (l, { c with dirty := false }) }) }
  (List.range 32).foldl (fun s c => (s.selfRefresh c).dropSegments c) s2

theorem State.sweptNow_steady : s.sweptNow.steady = s.steady := by
  unfold State.sweptNow
  extract_lets s1 s2
  have h1 : s1.admin = s.admin := (State.flushAll_admin _).trans (State.foldl_admin State.drainChan_admin _ s)
  have h2 : s2.admin = s.admin := h1
  refine (State.foldl_steady (fun t c => ?_) _ s2).trans (State.steady_of_admin h2)
  exact (State.steady_of_admin (t.selfRefresh c |>.dropSegments_admin c)).trans (t.selfRefresh_steady c)

theorem State.pwr_of_steady {s t : State} (h : t.steady = s.steady) : t.owl.pwr = s.owl.pwr := (congrArg (·.owl.pwr) h :)

theorem exec_hibernateSweepEnd (htransit : s.owl.transit = true) (hpwr : s.owl.pwr = .run) (htarget : s.owl.target = .hibernate)
    (hstep : s.owl.pwStep = 1) (hsetts : ∀ x ∈ s.setts, x.2.dir = [] ∧ x.2.snoops = [] ∧ x.2.sweep = none)
    (hstuck : (s.dirtyLines.any fun e => s.stuckLine e.1) = false) (hrests : s.dramRests = true) (hplans : s.plansOut = false) :
    exec .hibernateSweepEnd s =
      .next { s.sweptNow.narrowPorts with owl := { s.sweptNow.owl with pwStep := 2, swept := true } } := by
  have hopen : s.setts.any (fun x => !x.2.snoops.isEmpty || x.2.sweep.isSome) = false := by
    rw [List.any_eq_false]
    intro x hx
    obtain ⟨-, hsnoops, hsweep⟩ := hsetts x hx
    simp [hsnoops, hsweep]
  have hleft : s.setts.any (fun x => !x.2.snoops.isEmpty || (!x.2.dir.isEmpty && decide (x.2.pair ≠ .lost))) = false := by
    rw [List.any_eq_false]
    intro x hx
    obtain ⟨hdir, hsnoops, -⟩ := hsetts x hx
    simp [hdir, hsnoops]
  have hgo : ¬ ((!s.owl.transit) = true ∨ s.owl.target ≠ .hibernate ∨ s.owl.pwr ≠ .run ∨ s.owl.pwStep ≠ 1 ∨
      s.setts.any (fun x => !x.2.snoops.isEmpty || x.2.sweep.isSome) = true) := by
    simp [htransit, htarget, hpwr, hstep, hopen]
  refine congrArg Host.Outcome.next ?_
  unfold State.sweepEnds
  dsimp only
  rw [State.sweepSetts_empty fun x hx => (hsetts x hx).1]
  split
  · next hbad => exact absurd hbad hgo
  · split
    · next hbad => exact absurd hbad (by rw [hleft]; decide)
    · split
      · next hbad => exact absurd hbad (by simp [hstuck, hrests, hplans])
      · exact congrArg (fun u : State => ({ u.narrowPorts with owl := { u.owl with pwStep := 2, swept := true } } : State))
          (show _ = s.sweptNow by unfold State.sweptNow; rfl)

theorem leads_hibernateSweepEnd (htransit : s.owl.transit = true) (hpwr : s.owl.pwr = .run) (htarget : s.owl.target = .hibernate)
    (hstep : s.owl.pwStep = 1) (hsetts : ∀ x ∈ s.setts, x.2.dir = [] ∧ x.2.snoops = [] ∧ x.2.sweep = none)
    (hstuck : (s.dirtyLines.any fun e => s.stuckLine e.1) = false) (hrests : s.dramRests = true) (hplans : s.plansOut = false) :
    Leads .hibernateSweepEnd s fun t => t.owl.pwStep = 2 ∧ t.owl.swept = true ∧ t.owl.pwr = .run := by
  refine leads_of_exec (exec_hibernateSweepEnd htransit hpwr htarget hstep hsetts hstuck hrests hplans) ?_
  have hpwr' : s.sweptNow.owl.pwr = s.owl.pwr := State.pwr_of_steady State.sweptNow_steady
  generalize s.sweptNow = u at hpwr'
  exact ⟨rfl, rfl, hpwr'.trans hpwr⟩

/-- Settles O11: each command's path through the power states, whose steps change the engines' clocks, the holds and Owl's own state. -/
theorem powerStates : Obligations.PowerStates := by
  unfold Obligations.PowerStates
  refine ⟨fun s sess tag h hst hpwr => ?run, fun s sess tag h hst hpwr hidle => ?gate,
    fun s sess tag h hst hpwr => leads_powerStateDrowse h hst hpwr,
    fun s sess tag h hst hpwr hrun => leads_powerStateHibernate h hst hpwr hrun,
    fun s sess tag h hst hpwr => leads_powerStateOff h hst hpwr,
    fun s htransit hpwr htarget hidle => leads_powerStateReached htransit hpwr htarget hidle,
    fun s htransit hpwr htarget hbusy hlate hopen => leads_gateEntryTimeout htransit hpwr htarget hbusy hlate hopen,
    fun s htransit hpwr htarget hstep hsetts hstuck hrests hplans =>
      leads_hibernateSweepEnd htransit hpwr htarget hstep hsetts hstuck hrests hplans⟩
  case run =>
    obtain ⟨t, ht, hrun, hreply, hdram, hscr, hgated⟩ := leads_gateTo (tag := tag) h (exec_powerStateRun h hst hpwr)
    refine ⟨t, ht, hrun, hreply, hdram, hscr, fun e he => (hgated e he).trans ?_⟩
    by_cases hf : (s.eng e).st = .fenced <;> simp [hf]
  case gate =>
    obtain ⟨t, ht, hgate, hreply, hdram, hscr, hgated⟩ := leads_gateTo (tag := tag) h (exec_powerStateGate h hst hpwr hidle)
    exact ⟨t, ht, hgate, hreply, hdram, hscr, fun e he hf => (hgated e he).trans (if_pos hf)⟩

end Sys2Proof.Machine
end

section
/-! SUPPORT. DRAM commands (R413, R422–R425, R430, R431, R437): what drains of a controller leave of its hold, the keyed writes of DRC,
and the copy of a chunk. -/

namespace Sys2Proof.Machine
open Sys2Proof

variable {s₀ s t : State}

/-! ### Operations that change no channel -/

/-- The channels stand as they did. -/
def SameChans (s t : State) : Prop := t.chans = s.chans

theorem SameChans.refl (s : State) : SameChans s s := rfl

theorem SameChans.trans (h : SameChans s₀ s) (g : SameChans s t) : SameChans s₀ t := Eq.trans g h

theorem SameChans.foldl {α : Type} {f : State → α → State} (h : SameChans s₀ s) (hf : ∀ s a, SameChans s (f s a)) (l : List α) :
    SameChans s₀ (l.foldl f s) :=
  List.foldlRecOn l f (motive := SameChans s₀) h fun t ht a _ => ht.trans (hf t a)

theorem SameChans.fst {α : Type} {x : State × α} {v : α} (h : SameChans s₀ x.1) (e : x = (t, v)) : SameChans s₀ t := by rw [e] at h; exact h

section
variable (s)

theorem State.installAt_sameChans (pa : Nat) (v : LineVal) (d : Bool) (p : Place) : SameChans s (s.installAt pa v d p) := by
  cases p with
  | hit | free | evict | noWay => rfl
  | noVictim => simp only [State.installAt]; split <;> rfl

theorem State.storeLine_sameChans (pa : Nat) (v : LineVal) (busy : List Nat) : SameChans s (s.storeLine pa v busy) := by
  unfold State.storeLine
  split
  · exact .refl s
  · rfl
  · exact s.installAt_sameChans ..

theorem State.devWrite_sameChans (pa : Nat) (bs : Bytes) : SameChans s (s.devWrite pa bs).1 := by
  obtain h | ⟨a, v, -, h⟩ := s.devWrite_cases pa bs
  · rw [h]; exact .refl s
  · rw [h]; exact s.storeLine_sameChans ..

theorem State.logEvent_sameChans (k st d : Byte) (a : W64) (p : Byte) : SameChans s (s.logEvent k st d a p) := by
  rw [State.logEvent_frame]; rfl

theorem State.ringWrite_sameChans (p : Nat) (k st d : Byte) (a : Nat) : SameChans s (s.ringWrite p k st d a) := by
  unfold State.ringWrite
  dsimp only
  split
  · rfl
  · split
    · next e =>
      have h1 := (s.devWrite_sameChans ..).fst e
      exact h1
    · next e =>
      have h1 := (s.devWrite_sameChans ..).fst e
      exact h1

theorem State.poisonRecord_sameChans (pa : Nat) (cause : Byte) : SameChans s (s.poisonRecord pa cause) := by
  unfold State.poisonRecord
  split
  · exact .refl s
  · refine SameChans.trans (t := _) ?_ (State.logEvent_sameChans ..)
    refine SameChans.trans ?_ (State.ringWrite_sameChans ..)
    rw [State.countPoison_frame]; rfl

theorem State.setDirEnt_sameChans (pa : Nat) (e : DirEnt) : SameChans s (s.setDirEnt pa e) := by
  rw [State.setDirEnt_frame]; rfl

theorem State.poisonTracked_sameChans (pa : Nat) (cause : Byte) : SameChans s (s.poisonTracked pa cause) := by
  unfold State.poisonTracked
  extract_lets s1 s2
  have h1 : SameChans s s1 := by
    unfold s1 State.poisonLine
    split
    · exact .refl s
    · exact s.storeLine_sameChans ..
  have h2 : SameChans s s2 := by
    unfold s2
    split
    · exact h1
    · exact h1.trans (SameChans.trans (s := s1.settPoison (settOf pa)) rfl (State.poisonRecord_sameChans ..))
  exact h2.trans (State.setDirEnt_sameChans ..)

theorem State.deadOwner_sameChans (pa : Nat) : SameChans s (s.deadOwner pa) := by
  unfold State.deadOwner
  split
  · split
    · exact s.poisonTracked_sameChans ..
    · exact .refl s
  · exact .refl s

theorem State.d1Trace_sameChans (p : Nat) (ty st : Byte) (asid : BitVec 16) (va : Nat) (port : Byte) :
    SameChans s (s.d1Trace p ty st asid va port) := by
  unfold State.d1Trace
  split
  · dsimp only; split <;> split <;> rfl
  · rfl

theorem State.respond_sameChans (f : OrigFab) (p : Option Nat) (m : Msgs) : SameChans s (s.respond f p m) := by
  unfold State.respond
  dsimp only
  split
  · rfl
  · split
    · rfl
    · split <;> rfl

theorem State.engAnswer_sameChans (t : Txn) (a : Ans) : SameChans s (s.engAnswer t a) := by
  unfold State.engAnswer
  dsimp only
  split <;> rfl

/-- An answer reaches its requester by a port, an engine or a queue pair. -/
theorem State.answer_sameChans (t : Txn) (a : Ans) : SameChans s (s.answer t a) := by
  have h1 : SameChans s ((s.dropTxn t.id).d1Trace t.part t.ty.code a.st.code t.asid t.va (BitVec.ofNat 8 t.stop)) :=
    .trans (s := s.dropTxn t.id) rfl (State.d1Trace_sameChans ..)
  have ends (u : State) (hu : SameChans s u) :
      SameChans s (if t.started ∧ (t.leaf.cls = .tracked ∨ t.ty = .publish) then u.deadOwner (t.line * 64) else u) := by
    split
    · exact hu.trans (u.deadOwner_sameChans _)
    · exact hu
  have sent (u : State) (hu : SameChans s u) :
      SameChans s (t.copies.foldl (fun s (k, g) => s.respond { t.fab with port := k, gen := g } (some t.part) a.msg)
        (u.respond t.fab (some t.part) a.msg)) :=
    (hu.trans (u.respond_sameChans ..)).foldl (fun s _ => s.respond_sameChans ..) _
  unfold State.answer
  dsimp only
  cases t.kind with
  | fab =>
    refine ends _ (sent _ ?_)
    split
    · exact h1
    · exact h1
  | eng => exact ends _ (h1.trans (State.engAnswer_sameChans ..))
  | host => exact ends _ h1
  | dev => exact ends _ h1

theorem State.counterStep_sameChans (pa : Nat) (l : Bytes) : SameChans s (s.counterStep pa l).1 := by
  unfold State.counterStep
  split
  · exact .refl s
  · split
    · dsimp only
      split
      · unfold State.handOff
        dsimp only
        split <;> rfl
      · rfl
    · rfl

theorem State.watchLine_sameChans (pa : Nat) (old new : Bytes) : SameChans s (s.watchLine pa old new) := by
  unfold State.watchLine
  split
  · rfl
  · split <;> rfl

theorem State.rmwOp_sameChans (pa : Nat) (v : LineVal) (id : Nat) : SameChans s (s.rmwOp pa v id).1 := by
  unfold State.rmwOp
  split
  · exact .refl s
  · split
    · split
      split
      next e =>
      exact (((s.counterStep_sameChans ..).fst e).trans (State.watchLine_sameChans ..)).trans (State.answer_sameChans ..)
    · split
      extract_lets +onlyGivenNames s1
      have h1 : SameChans s s1 := by
        unfold s1
        split
        · exact s.poisonRecord_sameChans ..
        · exact .refl s
      split
      next e =>
      exact ((h1.trans (State.counterStep_sameChans ..)).fst e).trans (State.answer_sameChans ..)

end

/-! ### Operations that keep each channel's hold -/

/-- Each channel's hold stands as it did. -/
def SameHolds (s t : State) : Prop := ∀ c, (t.chan c).hold = (s.chan c).hold

theorem SameHolds.refl (s : State) : SameHolds s s := fun _ => rfl

theorem SameHolds.trans (h : SameHolds s₀ s) (g : SameHolds s t) : SameHolds s₀ t := fun c => (g c).trans (h c)

theorem SameChans.holds (h : SameChans s t) : SameHolds s t := fun c => by rw [State.chan, h]; rfl

theorem State.setChan_sameHolds {ch : Nat} {x : Chan} (h : x.hold = (s.chan ch).hold) : SameHolds s (s.setChan ch x) := fun c => by
  rw [State.setChan_get_chan]
  split
  · next e => rw [h, e]
  · rfl

@[simp] theorem Chan.setSub_hold (c : Chan) (i : Nat) (u : SubCh) : (c.setSub i u).hold = c.hold := by
  unfold Chan.setSub; split <;> rfl

section
variable (s)

theorem State.performWrite_sameHolds (ch sub i : Nat) : SameHolds s (s.performWrite ch sub i) := by
  unfold State.performWrite
  dsimp only
  split
  · exact .refl s
  · refine SameHolds.trans (SameChans.holds ?_) (State.setChan_sameHolds ?_)
    · split <;> rfl
    · rw [Chan.setSub_hold]
      split <;> rfl

theorem State.drainWrites_sameHolds (ch sub n : Nat) : SameHolds s (s.drainWrites ch sub n) := by
  induction n generalizing s with
  | zero => exact .refl s
  | succ n ih =>
    unfold State.drainWrites
    split
    · exact .refl s
    · exact (s.performWrite_sameHolds ch sub 0).trans (ih _)

theorem State.pushWrite_sameHolds (pa : Nat) (v : LineVal) : SameHolds s (s.pushWrite pa v) := by
  unfold State.pushWrite
  split
  · exact .refl s
  · extract_lets ch sub s1 c u w
    split
    · exact .refl s
    · have h1 : SameHolds s s1 := by
        unfold s1
        split
        · exact s.performWrite_sameHolds ch sub 0
        · exact .refl s
      exact h1.trans (State.setChan_sameHolds (Chan.setSub_hold ..))

theorem State.countCorrected_sameHolds (loc : Nat) (pa : Option Nat) (e : List (Nat × Nat)) (dev : Option Nat) :
    SameHolds s (s.countCorrected loc pa e dev) := by
  have hpart (u : State) (hu : SameHolds s u) : SameHolds s (match u.chanPart (locChan loc) with
      | none => u
      | some p => if pa.bind s.extPart = some p then u.countCeDram p else u) := by
    split
    · exact hu
    · split
      · exact hu
      · exact hu
  exact hpart _ (State.setChan_sameHolds rfl)

theorem State.dramRead_sameHolds (loc pa : Nat) (errs : List (Nat × Byte)) (cause : Byte) :
    SameHolds s (s.dramRead loc pa errs cause).1 := by
  unfold State.dramRead
  dsimp only
  split
  · unfold State.dramLost
    exact (SameChans.trans (s := s.dramStore ..) rfl
      ((State.poisonRecord_sameChans ..).trans (State.logEvent_sameChans ..))).holds
  · split
    · exact s.countCorrected_sameHolds _ _ _ _
    · exact .refl s

theorem SameHolds.foldl_fst {α β : Type} {f : State × β → α → State × β} (hf : ∀ x a, SameHolds x.1 (f x a).1) (l : List α)
    (x : State × β) : SameHolds x.1 (l.foldl f x).1 :=
  List.foldlRecOn l f (motive := fun y => SameHolds x.1 y.1) (.refl _) fun y hy a _ => hy.trans (hf y a)

theorem SameHolds.fst {α : Type} {x : State × α} {v : α} (h : SameHolds s₀ x.1) (e : x = (t, v)) : SameHolds s₀ t := by rw [e] at h; exact h

/-- R408: a pass of the read-modify-write unit. -/
theorem State.rmwRun_sameHolds (line : Nat) (errs : List (Nat × Byte)) : SameHolds s (s.rmwRun line errs) := by
  unfold State.rmwRun
  extract_lets +onlyGivenNames pa
  split
  · exact .refl s
  · next loc _ =>
    extract_lets +onlyGivenNames ch c ops
    split
    · exact .refl s
    · extract_lets +onlyGivenNames s1 all
      have h1 : SameHolds s s1 := State.setChan_sameHolds rfl
      have hall (x : State) (st : Status) (hx : SameHolds s x) : SameHolds s (all x st) := by
        refine hx.trans (SameChans.foldl (.refl x) (fun u o => ?_) ops).holds
        split
        · exact .refl u
        · exact u.answer_sameChans ..
      clear_value s1 all
      split
      · exact hall _ _ h1
      · split
        next s2 v e =>
        have h2 : SameHolds s s2 := by
          refine .fst ?_ e
          split
          · exact h1
          · refine h1.trans (SameHolds.trans (State.setChan_sameHolds ?_) (State.dramRead_sameHolds _ _ _ _ _))
            exact Chan.setSub_hold ..
        clear e
        split
        · exact hall _ _ h2
        · have h3 := SameHolds.foldl_fst (f := fun a o => State.rmwOp a.1 pa a.2 o.txn) (fun x o => (x.1.rmwOp_sameChans ..).holds) ops (s2, v)
          split
          next s3 v3 e =>
          exact (h2.trans (h3.fst e)).trans (State.pushWrite_sameHolds _ _ _)

theorem State.drainRmw_sameHolds (ch n : Nat) : SameHolds s (s.drainRmw ch n) := by
  have writes (s : State) : SameHolds s ((s.drainWrites ch 0 128).drainWrites ch 1 128) :=
    (s.drainWrites_sameHolds ch 0 128).trans (State.drainWrites_sameHolds _ ch 1 128)
  induction n generalizing s with
  | zero => exact writes s
  | succ n ih =>
    unfold State.drainRmw
    split
    · exact writes s
    · exact ((writes s).trans (State.rmwRun_sameHolds _ _ _)).trans (ih _)

theorem State.drainChan_sameHolds (ch : Nat) : SameHolds s (s.drainChan ch) := by
  unfold State.drainChan
  exact (s.drainRmw_sameHolds ch _).trans (State.setChan_sameHolds rfl)

end

/-! ### Keyed writes of DRC (R430) -/

theorem blockAt_drc {ch i : Nat} (hc : ch < 32) (hi : i < 0x4000) : blockAt (drcOff ch i) = (.drc ch, i) := by
  rw [drcOff, blockAt]
  iterate 6 rw [if_neg (by omega)]
  rw [if_pos (by omega)]
  congr 1
  · congr 1; omega
  · omega

/-- The keyed write of a register of DRC acts on the channel, and uses the arming up. -/
theorem State.write_drc {ch i : Nat} {x : Nat} (v : W32) (hc : ch < 32) (hi : i < 0x4000) (h4 : i % 4 = 0) (hu : i ≠ 0x50)
    (hk : s.CanKey .owl (drcOff ch i)) (hcell : s.drcCell ch i = some ⟨.keyed, x⟩) :
    s.write .owl (drcOff ch i) v = (s.disarm .owl (unlockOf (drcOff ch i))).drcWrite ch i v := by
  have hblock := blockAt_drc hc hi
  have hbar : owlBarred .owl (drcOff ch i) = false := by rw [owlBarred, hblock]; rfl
  have hunlock : isUnlock (drcOff ch i) = false := by simp [isUnlock, hblock, unlockAt, hu]
  have hcell' : s.cell (drcOff ch i) = some ⟨.keyed, x⟩ := by rw [State.cell, hblock]; exact hcell
  rw [State.write_owl_keyed v hk (by unfold drcOff; omega) hbar hunlock hcell', State.effect, hblock]

/-! ### The hold (R413) -/

/-- A channel with another hold is otherwise the same. -/
theorem State.setChan_hold_get {ch j : Nat} {v : Bool} : (s.setChan ch { s.chan ch with hold := v }).chan j =
    { s.chan j with hold := if ch = j then v else (s.chan j).hold } := by
  rw [State.setChan_get_chan]
  split
  · next e => rw [e]
  · rfl

theorem State.canDrain_hold {ch j : Nat} {v : Bool} : (s.setChan ch { s.chan ch with hold := v }).canDrain j = s.canDrain j := by
  have haddr (k a : Nat) : (s.setChan ch { s.chan ch with hold := v }).rankAddr k a = s.rankAddr k a := by
    rw [State.rankAddr, State.rankAddr, State.setChan_hold_get]; rfl
  have hloc (pa : Nat) : (s.setChan ch { s.chan ch with hold := v }).locOf pa = s.locOf pa := by
    rw [State.locOf, State.locOf, show (s.setChan ch { s.chan ch with hold := v }).chanAddr pa = s.chanAddr pa from rfl]
    split
    · rfl
    · rw [haddr]
  simp only [State.canDrain, State.setChan_hold_get, hloc]
  rfl

/-- R413: a hold of a controller that can drain puts it in self-refresh. -/
theorem State.drcHold_held {ch : Nat} (hst : (s.chan ch).st = .run) (hdrain : s.canDrain ch = true) :
    ((s.drcHold ch true).chan ch).hold = true ∧ ((s.drcHold ch true).chan ch).st = .held := by
  have hheld : s.drcHold ch true =
      ((((s.setChan ch { s.chan ch with hold := true }).drainChan ch).setChan ch
        { ((s.setChan ch { s.chan ch with hold := true }).drainChan ch).chan ch with st := .held }).scrubPause ch) := by
    unfold State.drcHold State.tryHold
    dsimp only
    rw [if_pos ⟨rfl, hst⟩, if_pos]
    refine ⟨by rw [State.setChan_get_chan_same], by rw [State.setChan_get_chan_same]; exact hst, ?_⟩
    rw [State.canDrain_hold]; exact hdrain
  have hhold := (s.setChan ch { s.chan ch with hold := true }).drainChan_sameHolds ch ch
  rw [State.setChan_get_chan_same] at hhold
  rw [hheld, show ∀ u : State, (u.scrubPause ch).chan ch = u.chan ch from fun _ => rfl, State.setChan_get_chan_same]
  exact ⟨hhold, rfl⟩

/-- R413: a hold released ends self-refresh. -/
theorem State.drcHold_released {ch : Nat} (hst : (s.chan ch).st = .held) :
    s.drcHold ch false = { s with chans := (s.drcHold ch false).chans, scrubs := (s.drcHold ch false).scrubs } ∧
    ((s.drcHold ch false).chan ch).hold = false ∧ ((s.drcHold ch false).chan ch).st = .run := by
  have hres (u : State) : (u.scrubResume ch) = { u with scrubs := (u.scrubResume ch).scrubs } := by
    unfold scrubResume; dsimp only; split <;> rfl
  have hrel : s.drcHold ch false =
      ((s.setChan ch { s.chan ch with hold := false }).setChan ch { s.chan ch with hold := false, st := .run }).scrubResume ch := by
    unfold State.drcHold
    dsimp only
    rw [if_neg (by simp), if_pos ⟨rfl, hst⟩, State.setChan_get_chan_same]
  have hchan : (s.drcHold ch false).chan ch = { s.chan ch with hold := false, st := .run } := by
    rw [hrel, State.chan, hres]; exact State.setChan_get_chan_same ..
  refine ⟨?_, by rw [hchan], by rw [hchan]⟩
  rw [hrel, hres]
  rfl

/-! ### Timing and migrations (R422, R423, R431) -/

theorem exec_drcTimingWrite {ch r : Nat} {v : W32} (hc : ch < 32) (hr : r < 4) (hk : s.CanKey .owl (drcOff ch (0x20 + 4 * r))) :
    exec (.drcTimingWrite ch r v) s = .next ((s.disarm .owl (unlockOf (drcOff ch (0x20 + 4 * r)))).drcTiming ch r v) := by
  have hcell : ∃ x, s.drcCell ch (0x20 + 4 * r) = some ⟨.keyed, x⟩ := by interval_cases r <;> exact ⟨_, rfl⟩
  obtain ⟨x, hcell⟩ := hcell
  have hwrite (u : State) : u.drcWrite ch (0x20 + 4 * r) v = u.drcTiming ch r v := by interval_cases r <;> rfl
  have hmod : drcOff ch (0x20 + 4 * (r % 4)) = drcOff ch (0x20 + 4 * r) := by rw [Nat.mod_eq_of_lt hr]
  refine congrArg Host.Outcome.next ?_
  rw [hmod, State.write_drc v hc (by omega) (by omega) (by omega) hk hcell, hwrite]

/-- R423: a migration that nothing refuses starts. -/
theorem State.startMigration_ok {ch r : Nat} {a : Bool} (h : (s.chan ch).spareCheck r = 1) : s.startMigration ch r a =
    s.setChan ch { s.chan ch with migr := some (r, 0), spareRes := 1, spareFrom := BitVec.ofNat 2 r, spareDone := 0 } := if_pos h

/-- R422, R426: a migration that starts or is refused leaves the ranks' counts and marks. -/
theorem State.startMigration_ranks (ch r : Nat) (a : Bool) :
    s.startMigration ch r a = { s with chans := (s.startMigration ch r a).chans, owl := (s.startMigration ch r a).owl } ∧
    ((s.startMigration ch r a).chan ch).ranks = (s.chan ch).ranks := by
  unfold State.startMigration
  dsimp only
  split
  · exact ⟨rfl, by rw [State.setChan_get_chan_same]⟩
  · split
    · rw [State.logPlain_owl]
      exact ⟨rfl, (congrArg Chan.ranks (State.setChan_get_chan_same ..) :)⟩
    · exact ⟨rfl, by rw [State.setChan_get_chan_same]⟩

theorem State.drcWrite_spare {ch : Nat} {v : W32} (hgo : v.getLsbD 31 = true) : s.drcWrite ch 0x3C v =
    (s.setChan ch { s.chan ch with spareRank := BitVec.ofNat 2 v.toNat }).startMigration ch (v.toNat % 4) false := if_pos hgo

theorem exec_spareCmdGo {ch : Nat} {r : BitVec 2} (hc : ch < 32) (hk : s.CanKey .owl (drcOff ch 0x3C))
    (hr : (s.chan ch).spareCheck r.toNat = 1) : ∃ u, exec (.spareCmdGo ch r) s = .next u ∧
      u = { s with arms := u.arms, chans := u.chans } ∧ (u.chan ch).migr = some (r.toNat, 0) ∧ (u.chan ch).spareRes = 1 := by
  have hr4 : r.toNat < 4 := r.isLt
  have hv : (BitVec.ofNat 32 (2 ^ 31 + r.toNat)).toNat = 2 ^ 31 + r.toNat := by
    rw [BitVec.toNat_ofNat, Nat.mod_eq_of_lt (by omega)]
  have hgo : (BitVec.ofNat 32 (2 ^ 31 + r.toNat)).getLsbD 31 = true := by
    rw [← BitVec.testBit_toNat, hv, Nat.testBit_two_pow_add_eq, Nat.testBit_lt_two_pow (by omega)]
    rfl
  have hrank : (BitVec.ofNat 32 (2 ^ 31 + r.toNat)).toNat % 4 = r.toNat := by omega
  have hwrite := State.write_drc (BitVec.ofNat 32 (2 ^ 31 + r.toNat)) hc (by decide) (by decide) (by decide) hk (show s.drcCell ch 0x3C = _ from rfl)
  have hcheck (w : BitVec 2) : (((s.disarm .owl (unlockOf (drcOff ch 0x3C))).setChan ch
      { s.chan ch with spareRank := w }).chan ch).spareCheck r.toNat = 1 := by rw [State.setChan_get_chan_same]; exact hr
  refine ⟨_, congrArg Host.Outcome.next hwrite, ?_⟩
  rw [State.drcWrite_spare hgo, hrank, State.disarm_get_chan, State.startMigration_ok (hcheck _), State.setChan_get_chan_same]
  exact ⟨rfl, by rw [State.setChan_get_chan_same], by rw [State.setChan_get_chan_same]⟩

theorem leads_ceLimitReached {ch r : Nat} (hauto : (s.chan ch).auto_ = true)
    (hlimit : (s.chan ch).spareCfg.toNat % 65536 ≤ ((s.chan ch).within s.clk (tget RankS.reset (s.chan ch).ranks r).ce).length)
    (hr : (s.chan ch).spareCheck r = 1) : Leads (.ceLimitReached ch r) s fun t =>
      t = { s with chans := t.chans } ∧ (t.chan ch).migr = some (r, 0) ∧ (tget RankS.reset (t.chan ch).ranks r).ce = [] := by
  refine leads_of_exec (congrArg Host.Outcome.next (if_pos ⟨hauto, hlimit⟩)) ?_
  rw [State.startMigration_ok (by rw [State.setChan_get_chan_same]; exact hr), State.setChan_get_chan_same]
  refine ⟨rfl, by rw [State.setChan_get_chan_same], ?_⟩
  rw [State.setChan_get_chan_same]
  dsimp only
  rw [tget_tput_same]

/-! ### Marks (R437) -/

/-- R437: a device of subchannel A marked, with its entry of the ledger and its record. -/
def State.marked (s : State) (ch r d : Nat) : State :=
  let c := s.chan ch
  let x := tget RankS.reset c.ranks r
  ((s.setChan ch { c with ranks := tput c.ranks r { x with devCor := tdel x.devCor (10 * 0 + d), markA := some d } }).ledgerAdd 3
    (ledgerNums [ch, r, 0, d])).logPlain 0x16 1

theorem State.marked_leaves (ch r d : Nat) :
    s.marked ch r d = { s with chans := (s.marked ch r d).chans, owl := (s.marked ch r d).owl, flash := (s.marked ch r d).flash } ∧
    (tget RankS.reset ((s.marked ch r d).chan ch).ranks r).markA = some d := by
  unfold State.marked
  extract_lets c x
  generalize hu : s.setChan ch { c with ranks := tput c.ranks r { x with devCor := tdel x.devCor (10 * 0 + d), markA := some d } } = u
  have hlog := (State.ledgerAdd_logged (s := u) 3 (ledgerNums [ch, r, 0, d])).trans (State.logPlain_logged 0x16 1)
  generalize (u.ledgerAdd 3 (ledgerNums [ch, r, 0, d])).logPlain 0x16 1 = t at hlog
  have hchan : t.chan ch = { c with ranks := tput c.ranks r { x with devCor := tdel x.devCor (10 * 0 + d), markA := some d } } := by
    rw [hlog.frame, ← hu]; exact State.setChan_get_chan_same ..
  refine ⟨?_, by rw [hchan, tget_tput_same]⟩
  rw [hlog.frame, ← hu]
  rfl

theorem leads_deviceMark {ch r d : Nat} {b : Bool}
    (hmark : b = true ∨ 8 ≤ ((s.chan ch).within s.clk (tget [] (tget RankS.reset (s.chan ch).ranks r).devCor d)).length)
    (hfree : (tget RankS.reset (s.chan ch).ranks r).markA = none) : Leads (.deviceMark ch r 0 d b) s fun t =>
      t = { s with chans := t.chans, owl := t.owl, flash := t.flash } ∧ (tget RankS.reset (t.chan ch).ranks r).markA = some d := by
  have hexec : exec (.deviceMark ch r 0 d b) s =
      .next (if (s.chan ch).auto_ then (s.marked ch r d).startMigration ch r true else s.marked ch r d) := by
    refine congrArg Host.Outcome.next ((if_pos ?_).trans ?_)
    · rw [Nat.mul_zero, Nat.zero_add]; exact hmark
    · dsimp only
      rw [if_pos rfl, hfree]
      rfl
  refine leads_of_exec hexec ?_
  obtain ⟨hframe, hmarked⟩ := s.marked_leaves ch r d
  generalize s.marked ch r d = u at hframe hmarked
  split
  · obtain ⟨hstart, hranks⟩ := u.startMigration_ranks ch r true
    refine ⟨?_, by rw [hranks]; exact hmarked⟩
    rw [hstart, hframe]
  · exact ⟨hframe, hmarked⟩

/-! ### A chunk copied (R424) -/

theorem lt_of_cwfFrom {k : Nat} {l : List Host.Cell} (h : cwfFrom (some k) l = true) : ∀ c ∈ l, k < c.1 := by
  induction l generalizing k with
  | nil => simp
  | cons c l ih =>
    simp only [cwfFrom, Bool.and_eq_true, decide_eq_true_eq] at h
    obtain ⟨⟨hlt, -⟩, hl⟩ := h
    intro e he
    rcases List.mem_cons.1 he with rfl | he
    · exact hlt
    · exact hlt.trans (ih hl e he)

/-- Cells at [a, …) written at [b, …). -/
def copyCells (a b : Nat) (l m : List Host.Cell) : List Host.Cell := l.foldl (fun m c => cput m (c.1 - a + b) c.2) m

theorem cget_copyCells_other {a b x : Nat} {l : List Host.Cell} (m : List Host.Cell) (h : ∀ c ∈ l, c.1 - a + b ≠ x) :
    cget (copyCells a b l m) x = cget m x := by
  induction l generalizing m with
  | nil => rfl
  | cons c l ih =>
    refine (ih (cput m (c.1 - a + b) c.2) fun e he => h e (List.mem_cons_of_mem c he)).trans ?_
    rw [cget_cput, if_neg (h c List.mem_cons_self)]

/-- A copy of canonical cells over zeros reads as its source. -/
theorem cget_copyCells {a b i : Nat} {l : List Host.Cell} {lo : Option Nat} (m : List Host.Cell) (hwf : cwfFrom lo l = true)
    (hge : ∀ c ∈ l, a ≤ c.1) (hm : cget m (b + i) = 0) : cget (copyCells a b l m) (b + i) = cget l (a + i) := by
  induction l generalizing m lo with
  | nil => exact hm
  | cons c l ih =>
    have hac := hge c List.mem_cons_self
    obtain ⟨k, v⟩ := c
    simp only [cwfFrom, Bool.and_eq_true] at hwf
    obtain ⟨-, hl⟩ := hwf
    show cget (copyCells a b l (cput m (k - a + b) v)) (b + i) = cget ((k, v) :: l) (a + i)
    by_cases hk : k = a + i
    · have hother (e : Host.Cell) (he : e ∈ l) : e.1 - a + b ≠ b + i := by
        have := lt_of_cwfFrom hl e he
        omega
      rw [cget_copyCells_other _ hother, cget_cput, if_pos (by omega), cget, if_pos hk]
    · rw [cget, if_neg hk]
      refine ih _ hl (fun e he => hge e (List.mem_cons_of_mem _ he)) ?_
      rw [cget_cput, if_neg (by simp only at hac; omega)]
      exact hm

section
variable {a b n : Nat} {pa : Nat → Option Nat}

theorem State.copyDram_dram : (s.copyDram a b n pa).dram =
    copyCells a b (s.dram.filter fun c => decide (a ≤ c.1) && decide (c.1 < a + n)) (czero s.dram b n) := rfl

theorem State.copyDram_copied {i : Nat} (hwf : Memory.wf s.dram = true) (hi : i < n) :
    cget (s.copyDram a b n pa).dram (b + i) = cget s.dram (a + i) := by
  have hzero : cget (czero s.dram b n) (b + i) = 0 := by rw [cget_czero, if_pos ⟨by omega, by omega⟩]
  have hge (c : Host.Cell) (hc : c ∈ s.dram.filter fun c => decide (a ≤ c.1) && decide (c.1 < a + n)) : a ≤ c.1 := by
    obtain ⟨-, hin⟩ := List.mem_filter.1 hc
    simp only [Bool.and_eq_true, decide_eq_true_eq] at hin
    exact hin.1
  rw [State.copyDram_dram, cget_copyCells _ (cwfFrom_filter _ (fun x => decide (a ≤ x) && decide (x < a + n)) none hwf)
    hge hzero,
    cget_filter_addr _ (fun x => decide (a ≤ x) && decide (x < a + n)), if_pos (by simp; omega)]

theorem State.copyDram_other {x : Nat} (hx : x < b ∨ b + n ≤ x) : cget (s.copyDram a b n pa).dram x = cget s.dram x := by
  rw [State.copyDram_dram, cget_copyCells_other, cget_czero, if_neg (by omega)]
  intro c hc
  obtain ⟨-, hin⟩ := List.mem_filter.1 hc
  simp only [Bool.and_eq_true, decide_eq_true_eq] at hin
  omega

end

/-- R424: the channel after a chunk's copy. -/
def Chan.copied (c : Chan) (ch f n : Nat) : Chan :=
  let a := locKey ch f (16384 * n)
  let b := locKey ch c.spare.toNat (16384 * n)
  { c with
    migr := some (f, n + 1)
    spareDone := BitVec.ofNat 20 ((n + 1) / 64)
    subA := c.subA.moveWrites a b 16384
    subB := c.subB.moveWrites a b 16384 }

theorem exec_migrationChunkDone {ch f n : Nat} (hm : (s.chan ch).migr = some (f, n)) (hst : (s.chan ch).st = .run)
    (hpaused : (s.chan ch).migPaused = false) (htrain : (s.chan ch).catrain = false) (h0 : (s.chan ch).replays 0 s.clk = false)
    (h1 : (s.chan ch).replays 1 s.clk = false) (hhold : (s.chan ch).hold = false) (hn : n + 1 < 65536 * (s.chan ch).dimm.rankGib.toNat) :
    exec (.migrationChunkDone ch [] false) s =
      .next ((s.copyDram (locKey ch f (16384 * n)) (locKey ch (s.chan ch).spare.toNat (16384 * n)) 16384 fun o =>
        s.paOf ch f (16384 * n + o)).setChan ch ((s.chan ch).copied ch f n)) := by
  refine congrArg Host.Outcome.next ?_
  unfold State.chunkDone
  dsimp only
  rw [hm]
  dsimp only
  rw [if_neg (by simp [hst, hpaused, htrain, h0, h1]), if_neg (by decide), if_neg (by omega)]
  refine if_neg fun hheld => ?_
  have hheld' := hheld.1
  rw [List.filter_nil, List.foldl_nil, State.setChan_get_chan_same, hhold] at hheld'
  cases hheld'

/-! ### The obligation's clauses -/

theorem leads_drcHold {ch : Nat} (hc : ch < 32) (hk : s.CanKey .owl (drcOff ch 0x10)) (hhold : (s.chan ch).hold = false)
    (hst : (s.chan ch).st = .run) (hdrain : s.canDrain ch = true) :
    Leads (.drcHold ch true) s fun t => (t.chan ch).hold = true ∧ (t.chan ch).st = .held := by
  have hwrite := State.write_drc (BitVec.ofNat 32 (b2n true)) hc (by decide) (by decide) (by decide) hk (show s.drcCell ch 0x10 = _ from rfl)
  have hdisarm : (s.disarm .owl (unlockOf (drcOff ch 0x10))).canDrain ch = true := hdrain
  refine leads_of_exec (congrArg Host.Outcome.next (hwrite.trans (if_neg ?_))) (State.drcHold_held hst hdisarm)
  rw [State.disarm_get_chan, hhold]
  decide

theorem leads_drcHold_release {ch : Nat} (hc : ch < 32) (hk : s.CanKey .owl (drcOff ch 0x10)) (hhold : (s.chan ch).hold = true)
    (hst : (s.chan ch).st = .held) : Leads (.drcHold ch false) s fun t =>
      t = { s with arms := t.arms, chans := t.chans, scrubs := t.scrubs } ∧ (t.chan ch).hold = false ∧ (t.chan ch).st = .run := by
  have hwrite := State.write_drc (BitVec.ofNat 32 (b2n false)) hc (by decide) (by decide) (by decide) hk (show s.drcCell ch 0x10 = _ from rfl)
  obtain ⟨hframe, hchan⟩ := State.drcHold_released (s := s.disarm .owl (unlockOf (drcOff ch 0x10))) hst
  refine leads_of_exec (t := (s.disarm .owl (unlockOf (drcOff ch 0x10))).drcHold ch false)
    (congrArg Host.Outcome.next (hwrite.trans (if_neg ?_))) ⟨?_, hchan⟩
  · rw [State.disarm_get_chan, hhold]
    decide
  · generalize (s.disarm .owl (unlockOf (drcOff ch 0x10))).drcHold ch false = t at hframe
    rw [hframe]
    rfl

/-- R422: a timing register takes a value in self-refresh. -/
theorem leads_drcTimingWrite {ch r : Nat} {v : W32} (hc : ch < 32) (hr : r < 4) (hk : s.CanKey .owl (drcOff ch (0x20 + 4 * r)))
    (hst : (s.chan ch).st = .held) (htim : (s.chan ch).tim.length = 4) : Leads (.drcTimingWrite ch r v) s fun t =>
      t = { s with arms := t.arms, chans := t.chans } ∧ (t.chan ch).tim[r]? = some v ∧
      ∀ i, i ≠ r → (t.chan ch).tim[i]? = (s.chan ch).tim[i]? := by
  have hold : (s.chan ch).tim[r]? = some ((s.chan ch).tim[r]'(by omega)) := List.getElem?_eq_getElem _
  refine leads_of_exec ((exec_drcTimingWrite hc hr hk).trans (congrArg Host.Outcome.next (if_pos hst))) ⟨rfl, ?_, fun i hi => ?_⟩
  · rw [State.setChan_get_chan_same]
    exact getElem?_modAt_same _ hold
  · rw [State.setChan_get_chan_same]
    exact getElem?_modAt_other _ hi

/-- R422: outside self-refresh the write is refused and counted. -/
theorem leads_drcTimingWrite_refused {ch r : Nat} {v : W32} (hc : ch < 32) (hr : r < 4)
    (hk : s.CanKey .owl (drcOff ch (0x20 + 4 * r))) (hst : (s.chan ch).st ≠ .held) : Leads (.drcTimingWrite ch r v) s fun t =>
      t = { s with arms := t.arms, chans := t.chans } ∧ (t.chan ch).tim = (s.chan ch).tim ∧
      (t.chan ch).timRefused = sat (s.chan ch).timRefused := by
  refine leads_of_exec ((exec_drcTimingWrite hc hr hk).trans (congrArg Host.Outcome.next (if_neg hst))) ?_
  rw [State.setChan_get_chan_same]
  exact ⟨rfl, rfl, rfl⟩

/-- R424: the chunk's bytes stand in the spare, and no other byte of DRAM changed. -/
theorem leads_migrationChunkDone {ch f n : Nat} (hm : (s.chan ch).migr = some (f, n)) (hst : (s.chan ch).st = .run)
    (hpaused : (s.chan ch).migPaused = false) (htrain : (s.chan ch).catrain = false) (h0 : (s.chan ch).replays 0 s.clk = false)
    (h1 : (s.chan ch).replays 1 s.clk = false) (hhold : (s.chan ch).hold = false) (hn : n + 1 < 65536 * (s.chan ch).dimm.rankGib.toNat)
    (hwf : Memory.wf s.dram = true) : Leads (.migrationChunkDone ch [] false) s fun t =>
      (t.chan ch).migr = some (f, n + 1) ∧ t.scr = s.scr ∧
      (∀ i < 16384, cget t.dram (locKey ch (s.chan ch).spare.toNat (16384 * n) + i) =
        cget s.dram (locKey ch f (16384 * n) + i)) ∧
      ∀ a, a < locKey ch (s.chan ch).spare.toNat (16384 * n) ∨ locKey ch (s.chan ch).spare.toNat (16384 * n) + 16384 ≤ a →
        cget t.dram a = cget s.dram a := by
  refine leads_of_exec (exec_migrationChunkDone hm hst hpaused htrain h0 h1 hhold hn) ⟨?_, rfl, fun i hi => ?_, fun a ha => ?_⟩
  · rw [State.setChan_get_chan_same]; rfl
  · exact State.copyDram_copied (pa := fun o => s.paOf ch f (16384 * n + o)) hwf hi
  · exact State.copyDram_other (pa := fun o => s.paOf ch f (16384 * n + o)) ha

/-- Settles O31: a hold drains the controller and its release ends self-refresh, timing is taken in self-refresh alone, an unrefused
migration starts by the register or by the limit of corrected errors, a mark stands, and a chunk is copied cell by cell. -/
theorem dramCommands : Obligations.DramCommands :=
  ⟨fun _ _ => leads_drcHold, fun _ _ => leads_drcHold_release, fun _ _ _ _ => leads_drcTimingWrite,
    fun _ _ _ _ => leads_drcTimingWrite_refused, fun _ _ _ hc hk hr => exec_spareCmdGo hc hk hr,
    fun _ _ _ => leads_ceLimitReached, fun _ _ _ _ _ => leads_deviceMark, fun _ _ _ _ => leads_migrationChunkDone⟩

end Sys2Proof.Machine
end
